-- ==== Sys2Proof/Word.lean ====
section
/-! DEFINITION. Word types of the device and their plainest arithmetic. -/

namespace Sys2Proof

/-- A byte of data, as lines, pages and payloads hold it. -/
abbrev Byte := BitVec 8

/-- The low `w` bits of a natural number: what a field of width `w` keeps of a value. -/
def lowBits (w v : Nat) : Nat := v % 2 ^ w

/-- Bits [hi:lo] of a natural number (R5). -/
def bitsOf (v hi lo : Nat) : Nat := v / 2 ^ lo % 2 ^ (hi + 1 - lo)

/-- A sum that saturates at the largest value of `w` bits (the registers' "saturates"). -/
def satAdd (w a b : Nat) : Nat := min (a + b) (2 ^ w - 1)

/-- Division rounded up; the spec's "rounded up to whole" quantities. -/
def ceilDiv (a b : Nat) : Nat := (a + b - 1) / b

/-- The little-endian bytes of a number, `n` of them (R5). -/
def leBytes : Nat → Nat → List Byte
  | 0, _ => []
  | n + 1, v => BitVec.ofNat 8 v :: leBytes n (v / 256)

/-- The number whose little-endian bytes are given (R5). -/
def ofLeBytes : List Byte → Nat
  | [] => 0
  | b :: bs => b.toNat + 256 * ofLeBytes bs

end Sys2Proof
end

