-- ==== Sys2Proof/Syntax.lean ====
section
/-! DEFINITION. The commands of the device (spec/opcode_table.json, one constructor of `Instr` a row) and what they carry.
The table gives its rows no operands: each constructor's operands are what its rule says the happening carries (log entry 7).
The first operand `t` of every command is the local time-base count in ns at which it happens (log entry 9). -/

namespace Sys2Proof

/-- Tiers, with the codes of TIER in Table 5.1. -/
inductive Tier where
  | meadow | fast | deep | none
  deriving DecidableEq, Repr

/-- State codes of Table 5.2. -/
inductive PlotState where
  | resident | migratingOut | migratingIn | sealed | poisoned | evacuating
  deriving DecidableEq, Repr

/-- Region states (Table 2.4), in the order REGION_INFO codes them. -/
inductive RegionState where
  | creating | online | sealing | sealed | offline | destroying
  deriving DecidableEq, Repr

/-- Tier policies (R37). -/
inductive Policy where
  | auto | pinMeadow | pinHeath
  deriving DecidableEq, Repr

/-- Service classes (R37). -/
inductive SvcClass where
  | meadow | fast | deep
  deriving DecidableEq, Repr

/-- The mirrored attribute: no, or the primary's side as it was created (R37). -/
inductive Mirror where
  | no | east | west
  deriving DecidableEq, Repr

/-- Connection states (Table 3.5). -/
inductive ConnState where
  | free | offered | ready | draining | error | quarantine
  deriving DecidableEq, Repr

/-- Status codes (Table 4.4). -/
inductive Status where
  | ok | redirect | retryAfter | regionOffline | poisoned | accessDenied | outOfRange | sealedReadOnly
  | deferredWriteError | channelFrozen | protocolNak
  deriving DecidableEq, Repr

/-- The verbs an operation may carry out (Table 4.1). -/
inductive OpKind where
  | write | read | cmpSwap | fetchAdd | flush | atomicWrite | fenceCount | sealQuery | regionInfo
  deriving DecidableEq, Repr

/-- How far an operation has come: held in ingress for credit, behind a fence, waiting on its plot, a heath read issued to
its die, applied and not durable, posted in the forwarding journal, forwarded to its home. -/
inductive OpPhase where
  | ingress | fenced | waiting | issued | applied | posted | forwarded
  deriving DecidableEq, Repr

/-- Kinds of migration (Table 5.4). -/
inductive MigKind where
  | demand | evacuation | promotion | demotion
  deriving DecidableEq, Repr

/-- Where a migration stands in Table 5.5: copying (M2), making durable (M3), in the commit handshake (M4). -/
inductive MigStep where
  | copying | making | quiescing
  deriving DecidableEq, Repr

/-- What a heartbeat path shows (Table 7.3). -/
inductive PathStatus where
  | healthy | saving | down | silent
  deriving DecidableEq, Repr

/-- States of DRAM channels (Table 9.2), in the order of STATE of `MDW_STATn`. -/
inductive ChanState where
  | absent | training | online | frozen | draining | empty | off | failed
  deriving DecidableEq, Repr

/-- Journal entry states (Table 8.5). -/
inductive FjState where
  | posted | sent | applied | failed
  deriving DecidableEq, Repr

/-- Resynchronisation phases (Table 7.6). -/
inductive ResyncPhase where
  | none | join | bulk | catchUp | cutOver | inSync
  deriving DecidableEq, Repr

/-- Attention lamp displays (R332). -/
inductive Lamp where
  | off | steady | flash1 | flash4
  deriving DecidableEq, Repr

/-- Headers of a RoCEv2 packet after its UDP header, and the payload (R109). -/
inductive Hdr where
  | bth | reth | atomicEth | feth | ext | immDt | deadline | aeth | atomicAckEth | status | gid | payload
  deriving DecidableEq, Repr

/-- What an Ethernet frame shows before its headers are read (R78). -/
structure Frame where
  /-- VLAN tags it carries -/
  tags : Nat := 0
  /-- length in bytes -/
  size : Nat := 0
  /-- UDP destination port -/
  udp : Nat := 4791
  /-- the invariant CRC is right -/
  icrc : Bool := true
  deriving DecidableEq, Repr

/-- What every host request packet carries (R78, R109, R115). -/
structure Req where
  /-- receiving port -/
  port : Nat := 0
  /-- priority, taken from the DSCP of its IP header through `HPT_DSCP_MAPn` -/
  dscp : Nat := 0
  /-- marked ECN Congestion Experienced (R83) -/
  ce : Bool := false
  /-- ingress buffer occupancy of the port in KiB with this packet in it (R81) -/
  occ : Nat := 0
  /-- the port group's ingress buffer overflowed and the packet is lost (R81) -/
  lost : Bool := false
  qpn : Nat := 0
  psn : Nat := 0
  /-- header malformed (Table 4.5, order 4) -/
  malformed : Bool := false
  rkey : BitVec 32 := 0
  va : Nat := 0
  len : Nat := 0
  /-- deadline header (Table 4.2); read only where the connection was granted it -/
  dl : Option (BitVec 64) := none
  /-- the frame (R78) -/
  fr : Frame := {}
  /-- the packet's headers in their order, where they are not those R109 gives the request -/
  hdrs : Option (List Hdr) := none
  deriving DecidableEq, Repr

/-- An ECC verdict on one line of a channel (R314, R321). -/
structure LineErr where
  ch : Nat := 0
  /-- channel address divided by 64 -/
  line : Nat := 0
  sub : Nat := 0
  devmask : Nat := 0
  /-- the re-read of a corrected line errs in the same device (R314) -/
  hard : Bool := false
  /-- a host write to the line fell in the same DRAM-domain cycle (R314) -/
  raced : Bool := false
  deriving DecidableEq, Repr

/-- A connection manager REQ (R86, R87). -/
structure CmReq where
  port : Nat := 0
  service : BitVec 64 := 0
  /-- transport service type reliable connected -/
  rc : Bool := true
  gid : Nat := 0
  peerQpn : Nat := 0
  psn : Nat := 0
  mtu : Nat := 4096
  depth : Nat := 0
  /-- private data, from byte 0 (Table 3.3) -/
  priv : List (BitVec 8) := []
  /-- DSCP of its IP header (R80) -/
  dscp : Nat := 0
  /-- the frame (R78) -/
  fr : Frame := {}
  deriving DecidableEq, Repr

/-- The fields of a twin frame header that decide its fate (Table 7.1, R227). -/
structure TwHdr where
  /-- the GCM tag verifies -/
  tagOk : Bool := true
  lgen : Nat := 0
  seq : Nat := 0
  ack : Nat := 0
  nctr : Nat := 0
  keyph : Nat := 0
  stamp : Nat := 0
  msgid : Nat := 0
  deriving DecidableEq, Repr

/-- The contents of a twin HELLO (R229, R509). -/
structure HelloMsg where
  serial : BitVec 64 := 0
  west : Bool := false
  fabricId : Nat := 0
  roleVer : BitVec 8 := 0
  roles : List (Nat × Bool) := []
  gids : List Nat := []
  restoreEpoch : Nat := 0
  deriving DecidableEq, Repr

/-- The contents of an HB (Table 7.2). -/
structure HbMsg where
  status : PathStatus := .healthy
  stage : Nat := 0
  sealed : Nat := 0
  roleVer : BitVec 8 := 0
  claim : Nat := 0
  deriving DecidableEq, Repr

/-- An epoch completion report (R291). -/
structure EpochReport where
  epoch : Nat := 0
  valid : Bool := true
  lms : Nat := 1
  policy : Bool := false
  spanBase : Nat := 3584
  short : Bool := false
  deriving DecidableEq, Repr

/-- A region change sent to the twin or to the members of a span (R280, R535). -/
structure RegionMsg where
  region : Nat := 0
  /-- FUNC of REGION_CREATE; 5 stands for a destroy, 6 for an ID held, 7 for a held ID released -/
  func : Nat := 0
  size : Nat := 0
  policy : Policy := .auto
  cls : SvcClass := .meadow
  dlUs : Nat := 6
  mirror : Mirror := .no
  kidx : Nat := 0
  ken : Bool := false
  ktag : BitVec 16 := 0
  perm : BitVec 5 := 0
  winFirst : Nat := 0
  winCount : Nat := 0
  grain : Nat := 0
  stripes : List (Nat × Option Nat) := []
  /-- own key slot (R37) -/
  ownSlot : Option Nat := none
  /-- from the peer or steward: capacity is reserved for it (R38) -/
  spanned : Bool := false
  deriving DecidableEq, Repr

/-- The fields of a fabric frame header (R264, Table 8.1). -/
structure FabHdr where
  link : Nat := 0
  tagOk : Bool := true
  lgen : Nat := 0
  seq : Nat := 0
  ack : Nat := 0
  nctr : Nat := 0
  keyph : Nat := 0
  hops : Nat := 15
  dst : Nat := 0
  src : Nat := 0
  msgid : Nat := 0
  vc : Nat := 0
  stamp : Nat := 0
  deriving DecidableEq, Repr

/-- The forward header (Table 8.4). -/
structure FwdHdr where
  verb : Nat := 0
  region : Nat := 0
  qpn : Nat := 0
  cseq : Nat := 0
  jseq : Nat := 0
  origin : Nat := 0
  tag : Nat := 0
  offset : Nat := 0
  dl : Nat := 0
  length : Nat := 0
  stamp : Nat := 0
  deriving DecidableEq, Repr

/-- A home's answer to a forwarded request (FWD_RESP). -/
structure FwdAnswer where
  tag : Nat := 0
  /-- byte position of its part in the request (R282) -/
  part : Nat := 0
  status : Status := .ok
  arg : Nat := 0
  epoch : Nat := 0
  inDoubt : Bool := false
  /-- fabric ID of the twin named by a REDIRECT -/
  other : Nat := 0
  data : List Byte := []
  orig : BitVec 64 := 0
  deriving DecidableEq, Repr

/-- A home's verdict on a posted write (FWD_ACK). -/
structure FwdVerdict where
  jseq : Nat := 0
  origin : Nat := 0
  status : Status := .ok
  arg : Nat := 0
  homeEpoch : Nat := 0
  other : Nat := 0
  deriving DecidableEq, Repr

/-- What training a channel found and decided (R296, R299, R307, R317). -/
structure TrainResult where
  /-- a module is present -/
  found : Bool := true
  /-- every DQ has the margin the plan sets -/
  pass : Bool := true
  /-- passed by the margin check on stored results -/
  stored : Bool := false
  /-- 1 RDIMM, 2 MRDIMM, 3 unsupported -/
  type : Nat := 1
  dpc : Nat := 1
  capGib : Nat := 0
  ranks : Nat := 1
  colBits : Nat := 11
  rate : Nat := 2
  serials : List Nat := []
  deriving DecidableEq, Repr

/-- What decoding a flash read gave (R347). -/
structure ReadResult where
  /-- retry reads used -/
  retries : Nat := 0
  /-- soft-decision decoding was needed -/
  soft : Bool := false
  /-- every stage failed -/
  uncorr : Bool := false
  /-- bits the hard-decision decode corrected -/
  bits : Nat := 0
  codewords : Nat := 1
  deriving DecidableEq, Repr

/-- What initialising a flash module found (R336, R337, R357). -/
structure ModuleResult where
  found : Bool := true
  pass : Bool := true
  dies : Nat := 4
  planes4 : Bool := true
  cell : Nat := 1
  toggle : Bool := false
  capGib : Nat := 0
  maxRate : Nat := 3600
  /-- spare blocks of each die -/
  spare : Nat := 0
  /-- fast-heath plots it offers -/
  fastPlots : Nat := 0
  /-- deep-heath plots it offers -/
  deepPlots : Nat := 0
  /-- plots of its heath pools with every block in native mode, those of the save area still among them (R529, R531) -/
  nativePlots : Nat := 0
  dieTemp : Bool := true
  deriving DecidableEq, Repr

/-- What restore phase A found (R213, R215). -/
structure RestoreIn where
  /-- the save-image key unwrapped -/
  keyOk : Bool := true
  /-- seal records from this epoch on fail in both copies -/
  badSeal : Option Nat := none
  /-- pages whose image CRC fails -/
  badPages : List Nat := []
  /-- an index checkpoint failed -/
  badIndex : Bool := false
  /-- dies, as channel*16+die, with codewords that fail in the last two programmed groups of an open native block (R344) -/
  badOpen : List Nat := []
  deriving DecidableEq, Repr

/-- A firmware image or a chunk of one (R476). -/
structure Image where
  offset : Nat := 0
  length : Nat := 0
  /-- the last chunk: the image is verified -/
  final : Bool := false
  /-- signature and size check -/
  verified : Bool := true
  version : BitVec 32 := 0
  fmtLo : Nat := 0
  fmtHi : Nat := 0
  deriving DecidableEq, Repr

/-- A key blob (Table 11.3) with the verdict on its tag and the key it wraps. -/
structure Blob where
  tagOk : Bool := true
  slot : Nat := 0
  usage : Nat := 0
  flags : Nat := 0
  key : List (BitVec 64) := []
  deriving DecidableEq, Repr

/-- What every vendor request carries (R429, R431). -/
structure SbReq where
  pec : Bool := true
  inst : Nat := 0
  malformed : Bool := false
  /-- challenge of the trailer; none where the request has no trailer -/
  challenge : Option Nat := none
  /-- the CMAC of the trailer matches -/
  tagOk : Bool := false
  deriving DecidableEq, Repr

/-- A margin plan as lantern 14 formed it (Table 16.2). -/
structure Plan where
  voltMv : Nat := 800
  /-- lantern clock targets, MHz -/
  clocks : List (Nat × Nat) := []
  /-- refresh floors by channel, sixteenths -/
  refresh : List (Nat × Nat) := []
  /-- modules whose read thresholds it changes -/
  thresholds : List Nat := []
  /-- margins met only with clocks lowered -/
  lowered : Bool := false
  /-- a clock target below 800 MHz would be needed -/
  unmet : Bool := false
  deriving DecidableEq, Repr

/-- Straps sampled at a start (R220, R268). -/
structure Straps where
  west : Bool := false
  fabSrc : Bool := false
  fabId : Nat := 0
  deriving DecidableEq, Repr

/-- What the supervisor finds in the sequence EEPROM (R437): the CRC verdict, and the values of fields of `PWR_SEQ_CFG` and the
rail table, by field key, where the user has programmed it since the device last wrote it. -/
structure Eeprom where
  crcOk : Bool := true
  prog : Option (List (Nat × Nat)) := none
  deriving DecidableEq, Repr

/-- Where a group of images is closed: a heath module and a block of its save area (R192, R195). -/
structure ImgPlace where
  mod : Nat := 0
  blk : Nat := 0
  deriving DecidableEq, Repr

/-- The two copies of an epoch's seal record, with the modules they stand on (R194). -/
structure SealCopies where
  epoch : Nat := 0
  m1 : Nat := 0
  m2 : Nat := 0
  deriving DecidableEq, Repr

/-- The end of phase B at time-base count `t`, with the pages whose image failed its check (R213, R215). -/
structure PhaseB where
  t : Nat := 0
  bad : List Nat := []
  deriving DecidableEq, Repr

/-- Bytes of a plot, from byte `off` of it on (R225, R257). -/
structure PlotPart where
  off : Nat := 0
  data : List Byte := []
  deriving DecidableEq, Repr

/-- What the lamp decoder holds at time-base count `t`: its last periods, each its high time and its length in ns (R239). -/
structure LampRx where
  t : Nat := 0
  periods : List (Nat × Nat) := []
  deriving DecidableEq, Repr

/-- An error in an engine's memory, and whether it was corrected (R14). -/
structure EngineErr where
  engine : Nat := 0
  corrected : Bool := false
  deriving DecidableEq, Repr

/-- The commands: one constructor per row of spec/opcode_table.json, in its order. -/
inductive Instr where
  /-- RDMA_WRITE_FIRST (R117). -/
  | rdmaWriteFirst (t : Nat) (q : Req) (data : List Byte)
  /-- RDMA_WRITE_MIDDLE (R117). -/
  | rdmaWriteMiddle (t : Nat) (q : Req) (data : List Byte)
  /-- RDMA_WRITE_LAST (R117). -/
  | rdmaWriteLast (t : Nat) (q : Req) (data : List Byte)
  /-- RDMA_WRITE_ONLY (R117). -/
  | rdmaWriteOnly (t : Nat) (q : Req) (data : List Byte)
  /-- RDMA_WRITE_LAST_WITH_IMMEDIATE (R118). -/
  | rdmaWriteLastWithImmediate (t : Nat) (q : Req) (data : List Byte) (imm : BitVec 32)
  /-- RDMA_WRITE_ONLY_WITH_IMMEDIATE (R118). -/
  | rdmaWriteOnlyWithImmediate (t : Nat) (q : Req) (data : List Byte) (imm : BitVec 32)
  /-- RDMA_READ_REQUEST (R116). -/
  | rdmaReadRequest (t : Nat) (q : Req) (ce : Option LineErr)
  /-- COMPARE_SWAP (R119). -/
  | compareSwap (t : Nat) (q : Req) (cmp : BitVec 64) (swp : BitVec 64)
  /-- FETCH_ADD (R119). -/
  | fetchAdd (t : Nat) (q : Req) (add : BitVec 64)
  /-- FLUSH_VERB (R121). -/
  | flushVerb (t : Nat) (q : Req)
  /-- ATOMIC_WRITE (R120). -/
  | atomicWrite (t : Nat) (q : Req) (word : BitVec 64)
  /-- FENCE_COUNT (R124). -/
  | fenceCount (t : Nat) (q : Req) (tgt : Nat) (n : BitVec 32)
  /-- SEAL_QUERY (R125). -/
  | sealQuery (t : Nat) (q : Req)
  /-- REGION_INFO (R126). -/
  | regionInfo (t : Nat) (q : Req)
  /-- UNSUPPORTED_OPCODE (R108). -/
  | unsupportedOpcode (t : Nat) (q : Req)
  /-- DEADLINE_EXPIRY (R133). -/
  | deadlineExpiry (t : Nat) (op : Nat) (est : Option Nat)
  /-- WRITE_DURABLE (R128). -/
  | writeDurable (t : Nat) (op : Nat)
  /-- FENCE_COUNT_REACHED (R124). -/
  | fenceCountReached (t : Nat) (op : Nat)
  /-- COLD_STATE_LOAD (R96). -/
  | coldStateLoad (t : Nat) (conn : Nat)
  /-- REQ (R86). -/
  | req (t : Nat) (r : CmReq)
  /-- RTU (R89). -/
  | rtu (t : Nat) (qpn : Nat)
  /-- DREQ (R99). -/
  | dreq (t : Nat) (qpn : Nat)
  /-- DREP (R97). -/
  | drep (t : Nat) (qpn : Nat)
  /-- MRA_TIMEOUT (R89). -/
  | mraTimeout (t : Nat) (port : Nat) (arrived : Nat)
  /-- RTU_TIMEOUT (R89). -/
  | rtuTimeout (t : Nat) (conn : Nat)
  /-- QUARANTINE_END (R94). -/
  | quarantineEnd (t : Nat) (conn : Nat)
  /-- DREP_TIMEOUT (R97). -/
  | drepTimeout (t : Nat) (conn : Nat)
  /-- CONNECTION_DRAINED (R98). -/
  | connectionDrained (t : Nat) (conn : Nat)
  /-- ERROR_DRAINED (R97). -/
  | errorDrained (t : Nat) (conn : Nat)
  /-- PORT_UP (R77). -/
  | portUp (t : Nat) (port : Nat)
  /-- PORT_LINK_DOWN (R100). -/
  | portLinkDown (t : Nat) (port : Nat)
  /-- PFC_PAUSE (R81). -/
  | pfcPause (t : Nat) (port : Nat) (pri : Nat) (quanta : Nat)
  /-- PAUSE_REFRESH (R81). -/
  | pauseRefresh (t : Nat) (port : Nat) (occ : Nat)
  /-- PAUSE_WATCHDOG (R82). -/
  | pauseWatchdog (t : Nat) (port : Nat) (pri : Nat)
  /-- PAUSE_WATCHDOG_END (R82). -/
  | pauseWatchdogEnd (t : Nat) (port : Nat) (pri : Nat)
  /-- CNP (R84). -/
  | cnp (t : Nat) (qpn : Nat)
  /-- RATE_RECOVERY (R84). -/
  | rateRecovery (t : Nat) (conn : Nat)
  /-- ARP_REQUEST (R78). -/
  | arpRequest (t : Nat) (port : Nat) (gid : Nat)
  /-- NEIGHBOUR_SOLICITATION (R78). -/
  | neighbourSolicitation (t : Nat) (port : Nat) (gid : Nat)
  /-- LLDP_RECEIVED (R79). -/
  | lldpReceived (t : Nat) (port : Nat) (pfc : Nat)
  /-- HEAT_HALVING_SWEEP (R159). -/
  | heatHalvingSweep (t : Nat)
  /-- FREE_PLOT_REFILL (R150). -/
  | freePlotRefill (t : Nat) (lantern : Nat)
  /-- TABLE_WALK_COMPLETE (R156). -/
  | tableWalkComplete (t : Nat) (lantern : Nat) (idx : Nat)
  /-- WICK_RANGE_INVALIDATE (R157). -/
  | wickRangeInvalidate (t : Nat) (first : Nat) (count : Nat) (lmask : Nat)
  /-- WICK_INVALIDATION_DONE (R157). -/
  | wickInvalidationDone (t : Nat)
  /-- MIGRATION_START (R166). -/
  | migrationStart (t : Nat) (idx : Nat) (kind : MigKind)
  /-- MIGRATION_COPY_DONE (R166). -/
  | migrationCopyDone (t : Nat) (idx : Nat) (uncorr : Bool)
  /-- MIGRATION_DESTINATION_DURABLE (R166). -/
  | migrationDestinationDurable (t : Nat) (idx : Nat)
  /-- QUIESCE_READY (R167). -/
  | quiesceReady (t : Nat) (idx : Nat)
  /-- QUIESCE_TIMEOUT (R167). -/
  | quiesceTimeout (t : Nat) (idx : Nat)
  /-- PIN_QUIET_EXPIRY (R161). -/
  | pinQuietExpiry (t : Nat) (idx : Nat)
  /-- WIN_ABANDON_EXPIRY (R174). -/
  | winAbandonExpiry (t : Nat) (mod : Nat)
  /-- GOVERNOR_EVALUATION (R185). -/
  | governorEvaluation (t : Nat) (rate : Nat)
  /-- BUDGET_RISE_EFFECT (R182). -/
  | budgetRiseEffect (t : Nat)
  /-- SAVE_RATE_CALIBRATION (R181). -/
  | saveRateCalibration (t : Nat) (mod : Nat) (rate : Nat)
  /-- IMAGE_GROUP_CLOSED (R193). -/
  | imageGroupClosed (t : Nat) (n : Nat) (place : ImgPlace)
  /-- SEAL_RECORD_CLOSED (R194). -/
  | sealRecordClosed (t : Nat) (copies : SealCopies)
  /-- EPOCH_CLOSE (R205). -/
  | epochClose (t : Nat)
  /-- TIME_PPS (R201). -/
  | timePps (t : Nat) (ext : Nat) (tod : Bool)
  /-- PTP_LOSS (R201). -/
  | ptpLoss (t : Nat) (spread : Nat)
  /-- HOLDOVER_LIMIT (R201). -/
  | holdoverLimit (t : Nat)
  /-- TIME_VALID_WAIT (R204). -/
  | timeValidWait (t : Nat)
  /-- MAIN_PFAIL (R208). -/
  | mainPfail (t : Nat)
  /-- SAVE_COMPLETE (R211). -/
  | saveComplete (t : Nat) (bad : Option (List (Nat × Nat)))
  /-- RESTORE_PHASE_A_DONE (R213). -/
  | restorePhaseADone (t : Nat) (r : RestoreIn)
  /-- RESTORE_PHASE_B_DONE (R213). -/
  | restorePhaseBDone (done : PhaseB)
  /-- WRITE_THROUGH_DRAINED (R219). -/
  | writeThroughDrained (t : Nat)
  /-- TWIN_HELLO (R229). -/
  | twinHello (t : Nat) (h : TwHdr) (m : HelloMsg)
  /-- HB (R240). -/
  | hb (t : Nat) (h : TwHdr) (m : HbMsg)
  /-- LEG (R232). -/
  | leg (t : Nat) (h : TwHdr) (region : Nat) (off : Nat) (len : Nat) (pos : Nat) (data : List Byte)
  /-- COMPLETE (R232). -/
  | complete (t : Nat) (h : TwHdr) (stamp : Nat)
  /-- ABANDON (R232). -/
  | abandon (t : Nat) (h : TwHdr)
  /-- CONF (R233). -/
  | conf (t : Nat) (h : TwHdr)
  /-- DUR (R234). -/
  | dur (t : Nat) (h : TwHdr) (decided : Nat)
  /-- EOE (R237). -/
  | eoe (t : Nat) (h : TwHdr) (epoch : Nat)
  /-- SEALREP (R291). -/
  | sealrep (t : Nat) (h : TwHdr) (r : EpochReport)
  /-- SWAP_REQ (R254). -/
  | swapReq (t : Nat) (h : TwHdr) (region : Nat) (all : Bool)
  /-- SWAP_READY (R254). -/
  | swapReady (t : Nat) (h : TwHdr)
  /-- SWAP_REFUSE (R255). -/
  | swapRefuse (t : Nat) (h : TwHdr)
  /-- RGN_REQ (R535). -/
  | rgnReq (t : Nat) (h : TwHdr) (m : RegionMsg)
  /-- RGN_ACK (R535). -/
  | rgnAck (t : Nat) (h : TwHdr) (region : Nat) (func : Nat)
  /-- RGN_REFUSE (R535). -/
  | rgnRefuse (t : Nat) (h : TwHdr) (region : Nat) (func : Nat) (reason : Nat)
  /-- RS_PLOT (R257). -/
  | rsPlot (t : Nat) (h : TwHdr) (region : Nat) (plot : Nat) (poison : Bool) (part : PlotPart)
  /-- RS_PAGE (R257). -/
  | rsPage (t : Nat) (h : TwHdr) (region : Nat) (page : Nat) (data : List Byte)
  /-- RS_DONE (R257). -/
  | rsDone (t : Nat) (h : TwHdr)
  /-- TWIN_KEYPH (R226). -/
  | twinKeyph (t : Nat) (h : TwHdr)
  /-- TWIN_RETX (R228). -/
  | twinRetx (t : Nat) (h : TwHdr) (first : Nat)
  /-- TWIN_RETRANSMIT_TIMER (R228). -/
  | twinRetransmitTimer (t : Nat)
  /-- TWIN_LINK_UP (R229). -/
  | twinLinkUp (t : Nat) (width : Nat)
  /-- TWIN_LINK_DOWN (R238). -/
  | twinLinkDown (t : Nat)
  /-- HEARTBEAT_SEND (R240). -/
  | heartbeatSend (t : Nat)
  /-- LAMP_WATCHDOG_EXPIRY (R239). -/
  | lampWatchdogExpiry (t : Nat)
  /-- LINK_PATH_SILENT (R240). -/
  | linkPathSilent (t : Nat)
  /-- LAMP_PATH_SILENT (R239). -/
  | lampPathSilent (rx : LampRx)
  /-- PEER_FAULT_SEEN (R241). -/
  | peerFaultSeen (t : Nat) (lamp : Option (List (Nat × Nat))) (status : PathStatus)
  /-- DETECT_EXPIRY (R241). -/
  | detectExpiry (t : Nat)
  /-- DECLARE (R243). -/
  | declare (t : Nat)
  /-- CLAIM_READBACK_TIMEOUT (R247). -/
  | claimReadbackTimeout (t : Nat)
  /-- CLAIM_RETRY (R247). -/
  | claimRetry (t : Nat)
  /-- CLAIM_HELD (R244). -/
  | claimHeld (t : Nat)
  /-- ADOPTION_ANNOUNCE (R251). -/
  | adoptionAnnounce (t : Nat) (i : Nat)
  /-- SNUF_IN_ASSERT (R245). -/
  | snufInAssert (t : Nat)
  /-- READ_FENCE (R245). -/
  | readFence (t : Nat)
  /-- SNUF_IN_DEASSERT (R245). -/
  | snufInDeassert (t : Nat)
  /-- FENCE_LIFT (R245). -/
  | fenceLift (t : Nat)
  /-- CLAIM_BACKOFF_EXPIRY (R246). -/
  | claimBackoffExpiry (t : Nat)
  /-- SWAP_GO (R253). -/
  | swapGo (t : Nat) (region : Nat) (all : Bool)
  /-- GIVEBACK (R260). -/
  | giveback (t : Nat)
  /-- TWIN_REKEY (R226). -/
  | twinRekey (t : Nat)
  /-- RESYNC_BULK_DONE (R257). -/
  | resyncBulkDone (t : Nat)
  /-- RESYNC_CATCHUP_PASS_DONE (R257). -/
  | resyncCatchupPassDone (t : Nat)
  /-- RESYNC_CUTOVER_DONE (R257). -/
  | resyncCutoverDone (t : Nat)
  /-- FAB_HELLO (R266). -/
  | fabHello (t : Nat) (h : FabHdr) (serial : BitVec 64) (id : Option Nat) (steward : Bool) (ver : Nat)
  /-- LSA (R270). -/
  | lsa (t : Nat) (h : FabHdr) (serial : BitVec 64) (id : Option Nat) (steward : Bool) (ver : Nat) (peers : List (Nat × BitVec 64))
  /-- SEG (R275). -/
  | seg (t : Nat) (h : FabHdr) (mtype : Nat) (msglen : Nat) (offset : Nat) (data : List Byte)
  /-- PTP_MESSAGE (R294). -/
  | ptpMessage (t : Nat) (h : FabHdr) (event : Bool) (body : List Byte)
  /-- FAB_KEYPH (R265). -/
  | fabKeyph (t : Nat) (h : FabHdr)
  /-- FAB_RETX (R264). -/
  | fabRetx (t : Nat) (h : FabHdr) (first : Nat)
  /-- FWD_REQ (R284). -/
  | fwdReq (t : Nat) (src : Nat) (msgid : Nat) (f : FwdHdr) (cmp : BitVec 64) (swp : BitVec 64)
  /-- FWD_WRITE (R287). -/
  | fwdWrite (t : Nat) (src : Nat) (msgid : Nat) (f : FwdHdr) (data : List Byte)
  /-- FWD_RESP (R284). -/
  | fwdResp (t : Nat) (src : Nat) (msgid : Nat) (r : FwdAnswer)
  /-- FWD_ACK (R288). -/
  | fwdAck (t : Nat) (src : Nat) (msgid : Nat) (a : FwdVerdict)
  /-- SEG_REQ (R276). -/
  | segReq (t : Nat) (src : Nat) (msgid : Nat) (ranges : List (Nat × Nat))
  /-- EPOCH_REP (R291). -/
  | epochRep (t : Nat) (src : Nat) (r : EpochReport)
  /-- HORIZON (R291). -/
  | horizon (t : Nat) (src : Nat) (epoch : Nat)
  /-- MEMBER (R292). -/
  | member (t : Nat) (id : Nat) (add : Bool)
  /-- RECOVER (R293). -/
  | recover (t : Nat) (cut : Nat)
  /-- ID_ASK (R268). -/
  | idAsk (t : Nat) (serial : BitVec 64) (last : Nat)
  /-- ID_GRANT (R268). -/
  | idGrant (t : Nat) (id : Nat)
  /-- SPAN_TXN (R280). -/
  | spanTxn (t : Nat) (src : Nat) (m : RegionMsg)
  /-- SPAN_VOTE (R280). -/
  | spanVote (t : Nat) (src : Nat) (region : Nat) (ok : Bool)
  /-- REASSEMBLY_TIMER (R276). -/
  | reassemblyTimer (t : Nat) (src : Nat) (msgid : Nat)
  /-- TOMBSTONE_EXPIRY (R277). -/
  | tombstoneExpiry (t : Nat) (src : Nat) (msgid : Nat)
  /-- MIDX_QUARANTINE_END (R277). -/
  | midxQuarantineEnd (t : Nat) (midx : Nat)
  /-- MESSAGE_RETENTION_EXPIRY (R276). -/
  | messageRetentionExpiry (t : Nat) (midx : Nat)
  /-- TRANSIT_TIMEOUT (R274). -/
  | transitTimeout (t : Nat) (link : Nat)
  /-- LSA_FLOOD_TIMER (R270). -/
  | lsaFloodTimer (t : Nat)
  /-- ROUTE_RECOMPUTE_DONE (R272). -/
  | routeRecomputeDone (t : Nat)
  /-- FAB_RETRANSMIT_TIMER (R264). -/
  | fabRetransmitTimer (t : Nat) (link : Nat)
  /-- FAB_LINK_UP (R263). -/
  | fabLinkUp (t : Nat) (link : Nat)
  /-- FAB_LINK_DOWN (R263). -/
  | fabLinkDown (t : Nat) (link : Nat)
  /-- FJ_RESEND_TIMER (R288). -/
  | fjResendTimer (t : Nat) (origin : Nat) (home : Nat) (jseq : Nat)
  /-- FJ_LIMIT_EXPIRY (R288). -/
  | fjLimitExpiry (t : Nat) (origin : Nat) (home : Nat) (jseq : Nat)
  /-- FORWARD_ATOMIC_TIMEOUT (R284). -/
  | forwardAtomicTimeout (t : Nat) (op : Nat)
  /-- EXPEL (R292). -/
  | expel (t : Nat) (id : Nat)
  /-- FABRIC_REKEY (R265). -/
  | fabricRekey (t : Nat)
  /-- CHANNEL_TRAINING_DONE (R307). -/
  | channelTrainingDone (t : Nat) (ch : Nat) (r : TrainResult)
  /-- ZQ_CALIBRATION_TIMER (R308). -/
  | zqCalibrationTimer (t : Nat) (ch : Nat)
  /-- DQS_TRACKING_TIMER (R308). -/
  | dqsTrackingTimer (t : Nat) (ch : Nat)
  /-- DIMM_TEMP_POLL (R310). -/
  | dimmTempPoll (t : Nat) (ch : Nat) (temp : Nat)
  /-- REFRESH_DUE (R312). -/
  | refreshDue (t : Nat) (ch : Nat)
  /-- RFM_COUNT (R311). -/
  | rfmCount (t : Nat) (ch : Nat) (bank : Nat)
  /-- CHANNEL_FREEZE (R322). -/
  | channelFreeze (t : Nat) (e : LineErr) (scrub : Bool) (home : Option Nat)
  /-- FREEZE (R321). -/
  | freeze (t : Nat) (ch : Nat)
  /-- THAW (R324). -/
  | thaw (t : Nat) (ch : Nat)
  /-- THAW_COMPLETE (R324). -/
  | thawComplete (t : Nat) (ch : Nat) (pass : Bool)
  /-- CE_CLEAR (R315). -/
  | ceClear (t : Nat) (ch : Nat)
  /-- CE_LOG_ENTRY_CLEAR (R315). -/
  | ceLogEntryClear (t : Nat) (ch : Nat) (k : Nat)
  /-- PATTERN_GO (R306). -/
  | patternGo (t : Nat) (ch : Nat)
  /-- PATTERN_DONE (R306). -/
  | patternDone (t : Nat) (ch : Nat) (lines : Nat) (dq : Nat)
  /-- CHECKER_GO (R333). -/
  | checkerGo (t : Nat) (ch : Nat) (verdict : Nat) (devmask : Nat)
  /-- CHANNEL_EVACUATION_DONE (R330). -/
  | channelEvacuationDone (t : Nat) (ch : Nat)
  /-- STRIPE_RELAY_DONE (R330). -/
  | stripeRelayDone (t : Nat)
  /-- ATTENTION_BUTTON_PRESS (R332). -/
  | attentionButtonPress (t : Nat) (bay : Nat)
  /-- BUTTON_STUCK (R512). -/
  | buttonStuck (t : Nat) (bay : Nat)
  /-- BUTTON_RELEASED (R511). -/
  | buttonReleased (t : Nat) (bay : Nat)
  /-- PROGRAM_COMPLETE (R341). -/
  | programComplete (t : Nat) (ch : Nat) (die : Nat) (fail : Bool) (native : Bool)
  /-- ERASE_COMPLETE (R350). -/
  | eraseComplete (t : Nat) (ch : Nat) (die : Nat)
  /-- FLASH_READ_COMPLETE (R347). -/
  | flashReadComplete (t : Nat) (op : Nat) (r : ReadResult)
  /-- PAD_TIMER (R343). -/
  | padTimer (t : Nat) (ch : Nat) (die : Nat)
  /-- DIE_UNRESPONSIVE (R342). -/
  | dieUnresponsive (t : Nat) (ch : Nat) (die : Nat)
  /-- MODULE_INIT_DONE (R337). -/
  | moduleInitDone (t : Nat) (mod : Nat) (r : ModuleResult)
  /-- MODULE_TEMP_POLL (R352). -/
  | moduleTempPoll (t : Nat) (mod : Nat) (temp : Option Int)
  /-- MODULE_EVACUATION_DONE (R356). -/
  | moduleEvacuationDone (t : Nat) (mod : Nat)
  /-- KEY_LOAD (R364). -/
  | keyLoad (t : Nat) (value : Nat)
  /-- KEY_ERASE (R363). -/
  | keyErase (t : Nat) (value : Nat)
  /-- TAMPER (R372). -/
  | tamper (t : Nat)
  /-- GLITCH (R372). -/
  | glitch (t : Nat)
  /-- KAT_TIMER (R376). -/
  | katTimer (t : Nat) (pass : Bool)
  /-- DRBG_READY (R377). -/
  | drbgReady (t : Nat)
  /-- DRBG_HEALTH_FAILURE (R378). -/
  | drbgHealthFailure (t : Nat)
  /-- DRBG_RESEED (R377). -/
  | drbgReseed (t : Nat)
  /-- CIPHER_JOB (R371). -/
  | cipherJob (t : Nat) (cmd : Nat) (src : List Byte) (aux : List Byte)
  /-- CIPHER_JOB_TIMEOUT (R378). -/
  | cipherJobTimeout (t : Nat) (cmd : Nat)
  /-- KEY_LOAD_BLOB (R369). -/
  | keyLoadBlob (t : Nat) (cmd : Nat) (b : Blob)
  /-- DOORBELL_FETCH (R383). -/
  | doorbellFetch (t : Nat)
  /-- DOORBELL_READ_COMPLETE (R382). -/
  | doorbellReadComplete (t : Nat) (ok : Bool) (tails : List (Nat × Nat)) (heads : List (Nat × Nat)) (hb : BitVec 64)
  /-- DESCRIPTOR_FETCH_COMPLETE (R385). -/
  | descriptorFetchComplete (t : Nat) (ring : Nat) (ok : Bool) (descs : List (List (BitVec 64)))
  /-- RING_KICK (R384). -/
  | ringKick (t : Nat)
  /-- REGION_CREATE (R37). -/
  | regionCreate (t : Nat) (cmd : Nat) (stripes : List (BitVec 32))
  /-- REGION_MODIFY (R48). -/
  | regionModify (t : Nat) (cmd : Nat)
  /-- REGION_SEAL (R49). -/
  | regionSeal (t : Nat) (cmd : Nat)
  /-- REGION_KEY (R40). -/
  | regionKey (t : Nat) (cmd : Nat)
  /-- REGION_GROW (R44). -/
  | regionGrow (t : Nat) (cmd : Nat)
  /-- REGION_DESTROY (R50). -/
  | regionDestroy (t : Nat) (cmd : Nat)
  /-- COPY (R393). -/
  | copy (t : Nat) (cmd : Nat)
  /-- FILL (R393). -/
  | fill (t : Nat) (cmd : Nat)
  /-- MIGRATE_HINT (R163). -/
  | migrateHint (t : Nat) (cmd : Nat)
  /-- PIN (R163). -/
  | pin (t : Nat) (cmd : Nat)
  /-- SEAL_NOW (R207). -/
  | sealNow (t : Nat) (cmd : Nat)
  /-- SCRUB_RANGE (R318). -/
  | scrubRange (t : Nat) (cmd : Nat)
  /-- EVACUATE_CHANNEL (R327). -/
  | evacuateChannel (t : Nat) (cmd : Nat)
  /-- EVACUATE_MODULE (R355). -/
  | evacuateModule (t : Nat) (cmd : Nat)
  /-- SELFTEST_SHORT (R399). -/
  | selftestShort (t : Nat) (cmd : Nat)
  /-- SELFTEST_EXTENDED (R399). -/
  | selftestExtended (t : Nat) (cmd : Nat)
  /-- SELFTEST_RESUME (R399). -/
  | selftestResume (t : Nat)
  /-- ABORT (R398). -/
  | abort (t : Nat) (cmd : Nat)
  /-- FLUSH_CMD (R396). -/
  | flushCmd (t : Nat) (cmd : Nat)
  /-- WAIT_COUNT (R397). -/
  | waitCount (t : Nat) (cmd : Nat)
  /-- WAIT_COUNT_TIMEOUT (R397). -/
  | waitCountTimeout (t : Nat) (cmd : Nat)
  /-- CFG_COMMIT (R409). -/
  | cfgCommit (t : Nat) (cmd : Nat)
  /-- CFG_CHECK_DONE (R410). -/
  | cfgCheckDone (t : Nat)
  /-- CFG_SCHEDULED_APPLY (R411). -/
  | cfgScheduledApply (t : Nat)
  /-- FW_STAGE (R476). -/
  | fwStage (t : Nat) (cmd : Nat) (i : Image)
  /-- FW_ACTIVATE (R401). -/
  | fwActivate (t : Nat) (cmd : Nat)
  /-- ACTIVATION_BARRIER_TIMEOUT (R401). -/
  | activationBarrierTimeout (t : Nat)
  /-- LANTERN_ROTATION_STEP (R477). -/
  | lanternRotationStep (t : Nat) (reads : Bool)
  /-- FW_CONFIRM (R480). -/
  | fwConfirm (t : Nat) (cmd : Nat)
  /-- LOG_CLEAR (R494). -/
  | logClear (t : Nat) (cmd : Nat)
  /-- LOG_FETCH (R494). -/
  | logFetch (t : Nat) (cmd : Nat)
  /-- PMC_SELECT (R496). -/
  | pmcSelect (t : Nat) (cmd : Nat)
  /-- PMC_DUMP_CONFIG (R497). -/
  | pmcDumpConfig (t : Nat) (cmd : Nat)
  /-- PMC_SAMPLING_CONFIG (R500). -/
  | pmcSamplingConfig (t : Nat) (cmd : Nat)
  /-- SOFT_RESET (R505). -/
  | softReset (t : Nat)
  /-- SOFT_RESET_DRAIN_EXPIRY (R402). -/
  | softResetDrainExpiry (t : Nat)
  /-- PCIE_LINK_DOWN (R432). -/
  | pcieLinkDown (t : Nat)
  /-- CFG_OPEN (R408). -/
  | cfgOpen (t : Nat)
  /-- CFG_DISCARD (R409). -/
  | cfgDiscard (t : Nat)
  /-- CFG_GRANT (R418). -/
  | cfgGrant (t : Nat) (on : Bool)
  /-- REGISTER_WRITE (R10). -/
  | registerWrite (t : Nat) (off : Nat) (size : Nat) (value : Nat)
  /-- ENTDAA (R424). -/
  | entdaa (t : Nat) (addr : Nat)
  /-- RSTDAA (R424). -/
  | rstdaa (t : Nat)
  /-- ENEC (R424). -/
  | enec (t : Nat)
  /-- DISEC (R424). -/
  | disec (t : Nat)
  /-- SETMWL (R424). -/
  | setmwl (t : Nat) (len : Nat)
  /-- SETMRL (R424). -/
  | setmrl (t : Nat) (len : Nat)
  /-- GETPID (R424). -/
  | getpid (t : Nat)
  /-- GETBCR (R424). -/
  | getbcr (t : Nat)
  /-- GETDCR (R424). -/
  | getdcr (t : Nat)
  /-- GETSTATUS (R424). -/
  | getstatus (t : Nat)
  /-- GETMWL (R424). -/
  | getmwl (t : Nat)
  /-- GETMRL (R424). -/
  | getmrl (t : Nat)
  /-- RSTACT (R425). -/
  | rstact (t : Nat) (byte : Nat)
  /-- HOT_JOIN_TIMER (R424). -/
  | hotJoinTimer (t : Nat)
  /-- SET_ENDPOINT_ID (R426). -/
  | setEndpointId (t : Nat) (pec : Bool) (eid : Nat)
  /-- GET_ENDPOINT_ID (R426). -/
  | getEndpointId (t : Nat) (pec : Bool)
  /-- GET_MCTP_VERSION_SUPPORT (R426). -/
  | getMctpVersionSupport (t : Nat) (pec : Bool) (mtype : Nat)
  /-- GET_MESSAGE_TYPE_SUPPORT (R426). -/
  | getMessageTypeSupport (t : Nat) (pec : Bool)
  /-- GET_VENDOR_DEFINED_MESSAGE_SUPPORT (R426). -/
  | getVendorDefinedMessageSupport (t : Nat) (pec : Bool)
  /-- PLDM_TYPE0_COMMAND (R427). -/
  | pldmType0Command (t : Nat) (pec : Bool) (code : Nat) (body : List Byte)
  /-- PLDM_SENSOR_READ (R427). -/
  | pldmSensorRead (t : Nat) (pec : Bool) (sensor : Nat)
  /-- REQUEST_UPDATE (R428). -/
  | requestUpdate (t : Nat) (pec : Bool)
  /-- PLDM_FIRMWARE_DATA (R428). -/
  | pldmFirmwareData (t : Nat) (pec : Bool) (i : Image)
  /-- VERIFY_COMPLETE (R428). -/
  | verifyComplete (t : Nat) (pec : Bool) (i : Image)
  /-- ACTIVATE_FIRMWARE (R428). -/
  | activateFirmware (t : Nat) (pec : Bool)
  /-- GET_REG (R429). -/
  | getReg (t : Nat) (a : SbReq) (off : Nat) (count : Nat)
  /-- GET_CHALLENGE (R431). -/
  | getChallenge (t : Nat) (a : SbReq)
  /-- SB_LOG_FETCH (R494). -/
  | sbLogFetch (t : Nat) (a : SbReq) (first : Nat) (count : Nat)
  /-- SB_LOG_CLEAR (R494). -/
  | sbLogClear (t : Nat) (a : SbReq)
  /-- POWER (R453). -/
  | power (t : Nat) (a : SbReq) (op : Nat) (bay : Nat)
  /-- SB_DECLARE (R243). -/
  | sbDeclare (t : Nat) (a : SbReq)
  /-- SB_EVACUATE (R327). -/
  | sbEvacuate (t : Nat) (a : SbReq) (kind : Nat) (index : Nat)
  /-- SB_THAW (R324). -/
  | sbThaw (t : Nat) (a : SbReq) (ch : Nat)
  /-- SB_CFG_OPEN (R417). -/
  | sbCfgOpen (t : Nat) (a : SbReq)
  /-- SB_CFG_WRITE (R408). -/
  | sbCfgWrite (t : Nat) (a : SbReq) (off : Nat) (value : Nat)
  /-- SB_CFG_COMMIT (R409). -/
  | sbCfgCommit (t : Nat) (a : SbReq) (when : Nat) (time : Nat)
  /-- SB_CFG_DISCARD (R419). -/
  | sbCfgDiscard (t : Nat) (a : SbReq)
  /-- SB_FW_CONFIRM (R480). -/
  | sbFwConfirm (t : Nat) (a : SbReq)
  /-- SB_KEY_LOAD_BLOB (R369). -/
  | sbKeyLoadBlob (t : Nat) (a : SbReq) (b : Blob)
  /-- FW_ARM (R428). -/
  | fwArm (t : Nat) (a : SbReq)
  /-- FW_ARM_EXPIRY (R428). -/
  | fwArmExpiry (t : Nat)
  /-- MAIN_SIDE_ABSENT (R432). -/
  | mainSideAbsent (t : Nat)
  /-- BOARD_ON (R439). -/
  | boardOn (t : Nat)
  /-- BOARD_OFF (R453). -/
  | boardOff (t : Nat)
  /-- ENTER_BANKED (R451). -/
  | enterBanked (t : Nat)
  /-- LEAVE_BANKED (R452). -/
  | leaveBanked (t : Nat)
  /-- BAY_ON (R440). -/
  | bayOn (t : Nat) (bay : Nat)
  /-- BAY_OFF (R440). -/
  | bayOff (t : Nat) (bay : Nat)
  /-- SEQUENCE_SLOT (R439). -/
  | sequenceSlot (t : Nat) (agree : Bool)
  /-- SEQ_ALERT (R435). -/
  | seqAlert (t : Nat) (slave : Nat) (page : Nat) (status : Nat)
  /-- HOUSEKEEPING_ROUND (R441). -/
  | housekeepingRound (t : Nat) (codes : List Nat) (temps : List Int)
  /-- PACE_TIMER (R457). -/
  | paceTimer (t : Nat)
  /-- DIM_TIMER (R447). -/
  | dimTimer (t : Nat) (unit : Nat)
  /-- SHADE_TIMER (R450). -/
  | shadeTimer (t : Nat) (unit : Nat)
  /-- BANK_TIMER (R451). -/
  | bankTimer (t : Nat)
  /-- WAKE_COMPLETE (R449). -/
  | wakeComplete (t : Nat) (unit : Nat)
  /-- POWER_DOWN_COMPLETE (R450). -/
  | powerDownComplete (t : Nat) (unit : Nat)
  /-- BANKED_IMAGE_DRAINED (R451). -/
  | bankedImageDrained (t : Nat)
  /-- BANKED_EXIT_COMPLETE (R452). -/
  | bankedExitComplete (t : Nat)
  /-- AVS_SETPOINT_REACHED (R520). -/
  | avsSetpointReached (t : Nat) (mv : Nat)
  /-- LAST_GASP (R446). -/
  | lastGasp (t : Nat) (cause : Nat)
  /-- EYE_MONITOR (R461). -/
  | eyeMonitor (t : Nat) (kind : Nat) (lane : Nat) (margin : Nat) (fec : Nat)
  /-- FEC_RATE_EXCEEDED (R473). -/
  | fecRateExceeded (t : Nat) (kind : Nat) (lane : Nat)
  /-- LANE_RETRAIN_TIMER (R473). -/
  | laneRetrainTimer (t : Nat) (group : Nat)
  /-- LANE_GROUP_REJOIN (R473). -/
  | laneGroupRejoin (t : Nat) (group : Nat)
  /-- DRAM_SWEEP (R461). -/
  | dramSweep (t : Nat) (ch : Nat)
  /-- PLAN_TIMER (R463). -/
  | planTimer (t : Nat) (p : Plan)
  /-- PLAN_VOLTAGE_REQUEST (R464). -/
  | planVoltageRequest (t : Nat)
  /-- ENGINE_MEMORY_ERROR (R14). -/
  | engineMemoryError (t : Nat) (err : EngineErr)
  /-- ENGINE_WATCHDOG_EXPIRY (R469). -/
  | engineWatchdogExpiry (t : Nat) (engine : Nat)
  /-- SPARE_SUBSTITUTION_DONE (R469). -/
  | spareSubstitutionDone (t : Nat) (lantern : Nat)
  /-- CONFIRM_WINDOW_EXPIRY (R480). -/
  | confirmWindowExpiry (t : Nat)
  /-- ROLLBACK (R480). -/
  | rollback (t : Nat)
  /-- LANTERN_RESTART (R506). -/
  | lanternRestart (t : Nat) (lantern : Nat)
  /-- PENDING_CLEAR (R485). -/
  | pendingClear (t : Nat) (group : Nat) (mask : Nat)
  /-- MSIX_UNMASK (R485). -/
  | msixUnmask (t : Nat) (vector : Nat)
  /-- COUNTER_DUMP (R498). -/
  | counterDump (t : Nat)
  /-- COUNTER_REGION_REFRESH (R499). -/
  | counterRegionRefresh (t : Nat)
  /-- BANDWIDTH_WINDOW (R501). -/
  | bandwidthWindow (t : Nat)
  /-- RECORDER_MIRROR_WRITE (R492). -/
  | recorderMirrorWrite (t : Nat)
  /-- EVENT_WINDOW_READ (R495). -/
  | eventWindowRead (t : Nat)
  /-- HOURS_TICK (R488). -/
  | hoursTick (t : Nat)
  /-- SETTINGS_STORE_WRITE (R421). -/
  | settingsStoreWrite (t : Nat)
  /-- COLD_START (R507). -/
  | coldStart (t : Nat) (s : Straps) (e : Eeprom)
  /-- FULL_RESET (R504). -/
  | fullReset (t : Nat)
  /-- FIRMWARE_LOADED (R507). -/
  | firmwareLoaded (t : Nat) (activeOk : Bool) (otherOk : Bool)
  /-- TRANSPORT_START (R507). -/
  | transportStart (t : Nat)
  /-- DESTINATION_RETRY_TIMER (R345). -/
  | destinationRetryTimer (t : Nat)
  /-- HALVING_SWEEP_DONE (R159). -/
  | halvingSweepDone (t : Nat)
  /-- SCRUB_RANGE_DONE (R318). -/
  | scrubRangeDone (t : Nat) (cmd : Nat) (corrected : Nat) (uncorr : Nat) (remapped : Nat)
  /-- SELFTEST_DONE (R399). -/
  | selftestDone (t : Nat) (item : Nat) (active : Nat) (paused : Nat)
  /-- LANTERN_RESTART_DONE (R506). -/
  | lanternRestartDone (t : Nat) (lantern : Nat)
  /-- RESET_N_RELEASE (R504). -/
  | resetNRelease (t : Nat) (s : Straps)
  /-- POWER_GOOD_RETURN (R210). -/
  | powerGoodReturn (t : Nat) (s : Straps)
  /-- LAMP_PATH_HEALTHY (R239). -/
  | lampPathHealthy (rx : LampRx)
  /-- I3C_PRIVATE_READ (R486). -/
  | i3cPrivateRead (t : Nat)
  /-- HOME_RUN_MOVE_DONE (R44). -/
  | homeRunMoveDone (t : Nat) (region : Nat)
  deriving DecidableEq, Repr

end Sys2Proof
end

