-- ==== Sys2Proof/Decode.lean ====
section
/-! DEFINITION. The command a word spells by the bits of spec/opcode_table.json. The table gives none of its 327 rows any
bits (a command is a happening at the device's balls, not a word), so no word spells a command. -/

namespace Sys2Proof

/-- Rows of the opcode table that give bits: how many, the word, and the command it spells. The table has none. -/
def tableWords : List (Nat × Nat × Instr) := []

/-- The command that a word of `nbits` bits spells by the table; none, for no row of the table gives bits. -/
def decodeTableWord (nbits w : Nat) : Option Instr :=
  (tableWords.find? (fun r => r.1 == nbits && r.2.1 == w)).map (fun r => r.2.2)

end Sys2Proof
end

