-- ==== Sys2Proof/Config.lean ====
section
/-! DEFINITION. What one part fixes, and the free values: constants without a body, so that nothing can be proved about a
value the spec leaves open. -/

namespace Sys2Proof

/-- A value the spec leaves open, drawn afresh each time the model's counter `Dev.free` advances (log entry 2). It stands
for draws of the DRBG (R40, R89, R246, R377) and for contents nothing states. -/
opaque Config.freeValue : Nat → BitVec 64

/-- The fused device serial number, SERIAL of `GLB_ID` (R404 register map). -/
opaque Config.serial : BitVec 64

/-- Output n of the serial-seeded xorshift generator in a power cycle (R378): power cycle and n; the serial number is this part's,
and the spec states neither its shifts nor how the seed is formed. -/
opaque Config.xorshift : Nat → Nat → BitVec 64

/-- The PCI vendor ID of Ohmorarin Microsystems, VENDOR of `GLB_ID`; the spec gives it no number. -/
opaque Config.vendor : BitVec 16

/-- The MIPI manufacturer ID of Ohmorarin Microsystems in the provisional ID (Table 14.1); the spec gives it no number. -/
opaque Config.mipiId : BitVec 15

/-- Bytes of the region table in the system stripe (R303); the spec gives it no size. -/
opaque Config.regionTable : BitVec 32

/-- The fused baseline of wear monitor k in kHz, BASE_HZ of `AGE_ROk`. -/
opaque Config.roBase : Nat → BitVec 32

/-- Temperature-corrected slowing of wear monitor k in ppm as measured in a housekeeping round; no command carries it (R461). -/
opaque Config.drift : Nat → Nat → BitVec 32

/-- The code of the main input rail below which it is judged failing; no register states it (R208). -/
opaque Config.mainMin : BitVec 12

/-- UDP source port of the responses of a connection index; the spec says only that it is taken from the index (R78). -/
opaque Config.sourcePort : Nat → BitVec 16

/-- Bytes of credit in the pool that a fabric link's far end gives a virtual channel; the spec states no size (R267). -/
opaque Config.vcPool : Nat → BitVec 32

/-- The bytes an AES mode of Table 11.1 yields: mode (1 XTS, 2 GCM, 3 CTR, 4 CMAC), decrypt or verify, key words, input and
auxiliary bytes. The standards that fix it lie outside the spec (log entry 10). -/
opaque Config.cipher : Nat → Bool → List (BitVec 64) → List Byte → List Byte → List Byte

/-- Whether a GCM or CMAC tag given in the auxiliary bytes matches (Table 11.5); as `Config.cipher`, outside the spec. -/
opaque Config.tagMatches : Nat → List (BitVec 64) → List Byte → List Byte → Bool

/-- The response payload that a base command of an outside standard takes (PLDM type 0, the I3C target status); DSP0240 and
the I3C specification fix it, not the spec (log entry 10). -/
opaque Config.standardReply : Nat → List Byte → List Byte

end Sys2Proof
end

