-- ==== Sys2Proof/Machine/State.lean ====
section
/-! DEFINITION. The state of the device: the queue of waiting commands and `Dev`, everything the spec gives the machine, as
plain data. The defaults of the fields are their values right after reset (spec/18_reset_startup.md); a register stands in
`Dev.regs` (its reset value is in `Regs.lean`), and where the spec gives a field no reset value the default is the design
choice of log entries 3 and 4. -/

namespace Sys2Proof.Machine

/-- Connection manager messages the device sends (R86, R89, R98). -/
inductive CmKind where
  | rep | rej | mra | dreq | drep
  deriving DecidableEq, Repr

/-- A response packet to a host (R107, R109, R111, R113): what answers PSN `psn` of connection `conn`. -/
structure Resp where
  conn : Nat := 0
  psn : Nat := 0
  /-- priority it leaves on (R80) -/
  pri : Nat := 0
  /-- DSCP of its IP header, that of the request (R80) -/
  dscp : Nat := 0
  /-- BTH opcode (Table 4.1) -/
  opcode : Nat := 0x11
  /-- it carries an AETH; a READ Response Middle does not (R109) -/
  acks : Bool := true
  /-- AETH syndrome: an ACK, a NAK code of Table 4.5 or an RNR NAK -/
  aeth : Nat := 0
  status : Status := .ok
  /-- status header present (R111) -/
  hdr : Bool := false
  retryUs : Nat := 0
  region : Nat := 0
  arg : Nat := 0
  epoch : Option Nat := none
  inDoubt : Bool := false
  /-- PSN of the failed write, MORE and DONE, with a deferred error (R114) -/
  dpsn : Nat := 0
  more : Bool := false
  done : Bool := false
  /-- GID of the other unit, in a REDIRECT -/
  gid : Nat := 0
  data : List Byte := []
  orig : Option (BitVec 64) := none
  deriving DecidableEq, Repr

/-- Which packet of its message a request packet is (R107). -/
inductive Part where
  | first | middle | last | only
  deriving DecidableEq, Repr

/-- What a request packet asks for beyond its headers. -/
structure Ask where
  kind : OpKind
  part : Part := .only
  data : List Byte := []
  imm : Option (BitVec 32) := none
  cmp : BitVec 64 := 0
  swp : BitVec 64 := 0
  tgt : Nat := 0
  cnt : BitVec 32 := 0
  deriving DecidableEq, Repr

/-- The header of an Ohmorarin frame: Table 7.1, and for a fabric frame Table 8.1. -/
structure FrameHdr where
  /-- TYPE (Table 7.2, Table 8.2) -/
  ftype : Nat := 0
  lgen : Nat := 0
  /-- LEN: payload bytes; the model counts the bytes it carries as data (log entry 73) -/
  len : Nat := 0
  seq : Nat := 0
  /-- highest SEQ received in order from the peer -/
  ack : Nat := 0
  nctr : Nat := 0
  keyph : Nat := 0
  stamp : Nat := 0
  msgid : Nat := 0
  /-- fields of a fabric frame alone -/
  hops : Nat := 0
  dst : Nat := 0
  src : Nat := 0
  mtype : Nat := 0
  vc : Nat := 0
  msglen : Nat := 0
  off : Nat := 0
  deriving DecidableEq, Repr

/-- What the device has sent at its balls. -/
inductive Out where
  /-- a response packet to a host -/
  | resp (r : Resp)
  /-- a connection manager message on a port: its kind, its fields and, in a REP, its private data (R85, R87) -/
  | cm (port : Nat) (kind : CmKind) (fields : List Nat) (priv : List Byte)
  /-- a congestion notification packet to the peer of a connection, and its priority (R83) -/
  | cnp (conn pri : Nat)
  /-- an LLDP frame with DCBX TLVs: port, priorities with flow control, willing bit (R79) -/
  | lldp (port pfc : Nat) (willing : Bool)
  /-- a pause frame: port, priority, quanta (R81) -/
  | pause (port pri quanta : Nat)
  /-- an ARP reply or a neighbour advertisement for a GID (R79) -/
  | arpReply (port gid : Nat)
  | neighbourAdv (port gid : Nat)
  /-- the gratuitous announcement of an adopted GID (R251) -/
  | announce (port gid : Nat)
  /-- a completion entry of 16 bytes written to the host (R394) -/
  | completion (ring : Nat) (entry : BitVec 128)
  /-- bytes written to control-host memory -/
  | hostWrite (addr : Nat) (data : List Byte)
  /-- the doorbell cache line is read (R382) -/
  | doorbellRead (addr : Nat)
  /-- descriptors of a submission ring are fetched: ring, first entry, how many (R385) -/
  | descriptorRead (ring first count : Nat)
  /-- an MSI-X message (R485) -/
  | msix (vector : Nat)
  /-- an in-band interrupt request of the side-band port (R486) -/
  | ibi
  /-- an answer on the I3C bus -/
  | i3c (bytes : List Byte)
  /-- an MCTP message: type and body -/
  | mctp (mtype : Nat) (body : List Byte)
  /-- a vendor response: code, completion code and body (R429) -/
  | vendor (code cc : Nat) (body : List Nat)
  /-- a frame on the twin link: its header (Table 7.1), its words and its bytes -/
  | twin (h : FrameHdr) (args : List Nat) (data : List Byte)
  /-- a fabric message: destination, message type, its words and its bytes -/
  | fabric (dst mtype : Nat) (args : List Nat) (data : List Byte)
  /-- a frame on a fabric link: link, its header (Table 8.1), its words and its bytes -/
  | frame (link : Nat) (h : FrameHdr) (args : List Nat) (data : List Byte)
  /-- TWIN_SNUF_OUT driven to a level (R244) -/
  | snufOut (high : Bool)
  /-- a low pulse on SEQ_SYNC_N and its width in µs (R436) -/
  | seqSync (us : Nat)
  /-- a command to a slave sequencer: address, code of Table 15.1, data (R435) -/
  | slave (addr code : Nat) (data : List Byte)
  /-- the status driven on TWIN_LAMP_OUT -/
  | lampOut (s : PathStatus)
  /-- a core-voltage request in mV (R464) -/
  | avs (mv : Nat)
  deriving DecidableEq, Repr

/-- A home-table entry (Table 5.1; `HomeEntry.word` packs it). -/
structure HomeEntry where
  /-- where the plot lives; 11b none marks a never-written plot (R146) -/
  tier : Tier := .none
  /-- plot index within the tier (R147) (R146) -/
  loc : Nat := 0
  /-- saturating heat, 0 to 4095 (R146) -/
  heat : Nat := 0
  /-- PIN bit (R146) -/
  pin : Bool := false
  /-- state code of Table 5.2 (R146) -/
  state : PlotState := .resident
  /-- generation, advanced on every home change (R146) -/
  gen : BitVec 8 := 0
  deriving DecidableEq, Repr

/-- A key entry of a region (R40, R41). -/
structure KeyEntry where
  /-- key entry enabled (R40) -/
  enabled : Bool := false
  /-- key tag drawn from the DRBG (R39) -/
  ktag : BitVec 16 := 0
  /-- bit 0 read, 1 write, 2 atomic, 3 flush, 4 extension query (Table 4.9) (R41) -/
  perm : BitVec 5 := 0
  /-- first plot of the window (R41) -/
  winFirst : Nat := 0
  /-- plots in the window (R41) -/
  winCount : Nat := 0
  deriving DecidableEq, Repr

/-- A stripe entry of a spanned region (R279). -/
structure Stripe where
  /-- member that homes the portion (R279) -/
  member : Nat := 0
  /-- that member's twin, for a mirrored region (R279) -/
  twin : Option Nat := none
  /-- CUR: true when the twin is now primary (R279) -/
  cur : Bool := false
  deriving DecidableEq, Repr

/-- A region and its attributes (Table 2.1, Table 2.4). -/
structure Region where
  /-- region state (R47) -/
  state : RegionState := .creating
  /-- size in plots (R37) -/
  size : Nat := 0
  /-- tier policy (R37) -/
  policy : Policy := .auto
  /-- service class (R37) -/
  cls : SvcClass := .meadow
  /-- default deadline in us (R37) -/
  dlUs : Nat := 6
  /-- mirrored attribute and primary side (R37) -/
  mirror : Mirror := .no
  /-- spanned (R37) -/
  spanned : Bool := false
  /-- own key slot, when in own-key-slot mode (R37) -/
  ownSlot : Option Nat := none
  /-- key entries by KIDX (R40) -/
  keys : List (Nat × KeyEntry) := []
  /-- home base: first home-table index (R43) -/
  base : Nat := 0
  /-- seal instant while Sealing (R49) -/
  sealAt : Option Nat := none
  /-- stripe table of a spanned region (R279) -/
  stripes : List Stripe := []
  /-- grain exponent g of a spanned region (R279) -/
  grain : Nat := 0
  /-- plots of its run of home-table entries on this device (R43) -/
  run : Nat := 0
  /-- plots reserved for an agreed growth (R38) -/
  reserve : Nat := 0
  /-- ID held by the peer only (unmirrored there) (R535) -/
  remoteHeld : Bool := false
  /-- true where the region is the failed peer's unmirrored one, answered REGION_OFFLINE before checks (R252) -/
  keySide : Bool := false
  /-- the state an Offline region returns to (R368) -/
  prior : Option RegionState := none
  deriving DecidableEq, Repr

/-- A deferred error pending on a connection (R114). -/
structure Deferred where
  /-- region ID for ARG (R111) -/
  region : Nat := 0
  /-- PSN of the failed write (DPSN) (R111) -/
  psn : Nat := 0
  deriving DecidableEq, Repr

/-- A write message between the arrival of its First and Last packets (R117). -/
structure OpenMsg where
  /-- PSN of its First packet (R117) -/
  psn : Nat := 0
  /-- R_Key of the RETH (R117) -/
  rkey : BitVec 32 := 0
  /-- offset of the RETH (R117) -/
  va : Nat := 0
  /-- RETH length (R117) -/
  len : Nat := 0
  /-- bytes received so far (R117) -/
  got : Nat := 0
  /-- deadline header of the First packet (R109) -/
  dlHdr : Option (BitVec 64) := none
  deriving DecidableEq, Repr

/-- A write message between the admission of its First and Last packets (R105, R117). -/
structure CurMsg where
  /-- PSN of its First packet (R117) -/
  psn : Nat := 0
  /-- refusal decided on the First packet, sent with the Last (R117) -/
  refused : Option Status := none
  /-- operation that holds its tag (R101) -/
  opId : Nat := 0
  deriving DecidableEq, Repr

/-- An operation in flight (a tag held, R101). -/
structure Op where
  /-- tag value: TGEN, LANTERN, SLOT (Table 3.6) (R101) -/
  id : Nat := 0
  /-- connection index (R91) -/
  conn : Nat := 0
  /-- PSN of the request (R115) -/
  psn : Nat := 0
  /-- last PSN the request covers (R113) -/
  endPsn : Nat := 0
  /-- which verb (R107) -/
  kind : OpKind := .write
  /-- R_Key carried (R39) -/
  rkey : BitVec 32 := 0
  /-- region byte offset (R43) -/
  off : Nat := 0
  /-- length in bytes (R115) -/
  len : Nat := 0
  /-- payload still to be applied (R117) -/
  data : List (BitVec 8) := []
  /-- compare operand (R119) -/
  cmp : BitVec 64 := 0
  /-- swap or add operand, or ATOMIC WRITE word (R119) -/
  swp : BitVec 64 := 0
  /-- original value read by an atomic (R119) -/
  orig : BitVec 64 := 0
  /-- immediate value (R118) -/
  imm : Option (BitVec 32) := none
  /-- ingress arrival stamp of the completing packet (R59) -/
  stamp : Nat := 0
  /-- epoch of the stamp (R60) -/
  epoch : Nat := 0
  /-- deadline instant D (R131) -/
  dl : Nat := 0
  /-- how far the operation has come (R128) -/
  phase : OpPhase := .waiting
  /-- needs the twin's meadow (R58) -/
  mirrored : Bool := false
  /-- MSGID of its replica leg (R225) -/
  msgid : Nat := 0
  /-- CONF received (R233) -/
  conf : Bool := false
  /-- meadow line addresses it has applied (R128) -/
  lines : List Nat := []
  /-- previous contents of the bytes it overwrote (R197) -/
  journal : List (Nat × BitVec 8) := []
  /-- credit taken (R105) -/
  cost : Nat := 0
  /-- bytes not yet admitted against the credit (R105) -/
  toAdmit : Nat := 0
  /-- the completing packet has arrived (R117) -/
  whole : Bool := false
  /-- a message of more than one packet, journalled (R197) -/
  multi : Bool := false
  /-- bytes applied so far (R117) -/
  appl : Nat := 0
  /-- pages reserved in D (R184) -/
  reserved : Nat := 0
  /-- already answered REDIRECT with INDOUBT = 1 (R134) -/
  inDoubt : Bool := false
  /-- its D has passed while it awaits only the twin (R134) -/
  late : Bool := false
  /-- a duplicate that is executed again; it is not counted (R142) -/
  dup : Bool := false
  /-- its plots have been looked up in the wick cache (R152) -/
  looked : Bool := false
  /-- priority of the request, on which the response leaves (R80) -/
  pri : Nat := 0
  /-- DSCP of the request, which the response carries (R80) -/
  dscp : Nat := 0
  /-- highest epoch among the durable writes that a FLUSH covers (R111) -/
  covers : Option Nat := none
  /-- meadow pages of the write that no image holds yet (R218) -/
  toImage : List Nat := []
  /-- the die reads of a READ from heath have completed (R346) -/
  dieRead : Bool := false
  /-- FENCE_COUNT target QPN (R124) -/
  tgt : Nat := 0
  /-- FENCE_COUNT target count (R124) -/
  cnt : BitVec 32 := 0
  /-- fabric ID the operation was forwarded from (0 with fwd = false) (R283) -/
  origin : Nat := 0
  /-- true for a forwarded message served at this home (R281) -/
  fwd : Bool := false
  /-- ingress TAG of a forwarded request (R283) -/
  fwdTag : Nat := 0
  /-- JSEQ of a forwarded posted write (R287) -/
  jseq : Nat := 0
  /-- CSEQ of a forwarded message (R283) -/
  cseq : Nat := 0
  /-- member that is answered for a forwarded message (R281) -/
  fwdSrc : Nat := 0
  /-- the data command whose block it is (R393) -/
  cmd : Option Nat := none
  /-- a block of FILL, which may write over whole poisoned plots (R393) -/
  fill : Bool := false
  deriving DecidableEq, Repr

/-- A connection (Table 3.5). -/
structure Conn where
  /-- connection state (R97) -/
  state : ConnState := .free
  /-- generation (R91) -/
  cgen : BitVec 8 := 0
  /-- transport lantern and port group (R18) -/
  lantern : Nat := 0
  /-- port it was established on (R100) -/
  port : Nat := 0
  /-- host queue pair number (R85) -/
  peerQpn : Nat := 0
  /-- path MTU (R89) -/
  mtu : Nat := 4096
  /-- responder resources granted (R89) -/
  resp : Nat := 0
  /-- fairness weight w (R88) -/
  weight : Nat := 1
  /-- deficit credit (R105) -/
  credit : Int := 0
  /-- deadline header granted (R88) -/
  dlHdr : Bool := false
  /-- status header granted (R88) -/
  stHdr : Bool := false
  /-- expected PSN (R115) -/
  ePsn : Nat := 0
  /-- NAK 60h already sent for this sequence error (R115) -/
  nakSent : Bool := false
  /-- PSN answered by RNR NAK and awaited again (R127) -/
  rnrPsn : Option Nat := none
  /-- hot state held in lantern memory (R95) -/
  hot : Bool := false
  /-- last activity, for eviction (R96) -/
  lastAct : Nat := 0
  /-- response rate limit in 100 Mb/s (R84) -/
  rate : Nat := 0
  /-- when the last CNP was sent (R83) -/
  lastCnpTx : Option Nat := none
  /-- when the last CNP was received or the rate last stepped (R84) -/
  lastCnpRx : Nat := 0
  /-- completion count (R123) -/
  count : BitVec 32 := 0
  /-- deferred errors pending, oldest first (R114) -/
  deferred : List Deferred := []
  /-- message whose First has arrived and whose Last has not (R117) -/
  openMsg : Option OpenMsg := none
  /-- message whose First is admitted and whose Last is not (R117) -/
  cur : Option CurMsg := none
  /-- atomic result cache: PSN and original value, newest first (R142) -/
  atomics : List (Nat × BitVec 64) := []
  /-- answers to writes and atomics, for duplicates, newest first (R142) -/
  acked : List Resp := []
  /-- priority of the REQ that opened it, on which its other messages leave (R80) -/
  pri : Nat := 0
  /-- when the present state was entered (R97) -/
  since : Nat := 0
  /-- highest epoch among the writes of the connection, which a FLUSH covers (R111) -/
  maxWrEpoch : Option Nat := none
  /-- instant the device sent DREQ (R97) -/
  dreqAt : Option Nat := none
  /-- established on an adopted GID (R260) -/
  adopted : Bool := false
  deriving DecidableEq, Repr

/-- A REQ waiting for its answer on a port group (R89). -/
structure PendReq where
  /-- port (R89) -/
  port : Nat := 0
  /-- ingress arrival stamp (R89) -/
  arrived : Nat := 0
  /-- MRA sent (R89) -/
  mra : Bool := false
  /-- the REQ (R86) -/
  r : CmReq := {}
  deriving DecidableEq, Repr

/-- A frame, or the packets of one response, that wait while their priority is paused (R81). -/
structure Held where
  /-- priority (R81) -/
  pri : Nat := 0
  /-- packets in order (R81) -/
  outs : List Out := []
  /-- tag that is held until the last of them has left (R101) -/
  tag : Option Nat := none
  /-- it is a response, which the pause watchdog discards (R82) -/
  resp : Bool := false
  deriving DecidableEq, Repr

/-- A request packet in the ingress buffer, past orders 1 to 4 of Table 4.5, that waits for credit (R105, R115). -/
structure IngPkt where
  /-- the request; for a later packet of a message its data, stamp and deadline (R105) -/
  o : Op := {}
  /-- which packet of its message it is (R117) -/
  part : Part := .only
  /-- PSN of the First packet of its message (R117) -/
  msg : Nat := 0
  /-- what checks 1 to 7 of Table 2.3 answer at its stamp (R48) -/
  verdict : Option Status := none
  deriving DecidableEq, Repr

/-- A request packet that waits for the state of its connection (R96). -/
structure ColdPkt where
  /-- connection index (R91) -/
  c : Nat := 0
  /-- the packet (R96) -/
  q : Req := {}
  /-- what it asks for; none where its opcode is not of Table 4.1 (R107) -/
  a : Option Ask := none
  /-- its ingress arrival stamp (R96) -/
  stamp : Nat := 0
  /-- what checks 1 to 7 of Table 2.3 answered at its stamp, where it begins a request (R48) -/
  verdict : Option (Option Status) := none
  deriving DecidableEq, Repr

/-- A host port (R77, R81, R82), numbered by its lowest lane. -/
structure Port where
  /-- all lanes enabled and trained (R77) -/
  up : Bool := false
  /-- priority, the instant the peer paused it and the instant its pause time ends (R81) -/
  pausedAt : List (Nat × Nat × Nat) := []
  /-- priority and the instant from which received pause is ignored (R82) -/
  ignoreAt : List (Nat × Nat) := []
  /-- priorities this port holds paused, with the last refresh (R81) -/
  pausing : List (Nat × Nat) := []
  /-- share of the ingress buffer in use, in KiB (R81) -/
  occKib : Nat := 0
  /-- frames that wait while their priority is paused, oldest first (R81) -/
  held : List Held := []
  /-- packets of lossless priorities lost to a full ingress buffer (R81) -/
  drops : Nat := 0
  /-- line rate in 100 Mb/s (R84) -/
  lineRate : Nat := 1000
  deriving DecidableEq, Repr

/-- Host ports, connections and operations. -/
structure Hpt where
  /-- ports by number; an absent one is down (R77) -/
  ports : List (Nat × Port) := []
  /-- connections by index; an absent one is Free (R97) -/
  conns : List (Nat × Conn) := []
  /-- last generation used by each index (R92) -/
  cgens : List (Nat × BitVec 8) := []
  /-- lowest index never yet allocated (R92) -/
  nextIdx : Nat := 0
  /-- freed indices, least recently freed first (R92) -/
  freed : List Nat := []
  /-- REQs not yet answered (R89) -/
  reqs : List PendReq := []
  /-- tag generation of each slot, key lantern*4096+slot (R101) -/
  tgens : List (Nat × BitVec 8) := []
  /-- tag slots held (R101) -/
  busy : List Nat := []
  /-- operations in flight, oldest first (R101) -/
  ops : List Op := []
  /-- request packets that wait for credit, oldest stamp first (R105) -/
  ingress : List IngPkt := []
  /-- request packets that wait for the state of their connection, oldest first (R96) -/
  cold : List ColdPkt := []
  /-- an immediate notification was lost before the next one (R118) -/
  immOvf : Bool := false
  deriving DecidableEq, Repr

/-- A migration-tracker entry (R164 to R168). -/
structure Migration where
  /-- home-table index (R164) -/
  idx : Nat := 0
  /-- kind of Table 5.4 (R164) -/
  kind : MigKind := .promotion
  /-- old home tier (R166) -/
  srcTier : Tier := .meadow
  /-- old home location (R166) -/
  srcLoc : Nat := 0
  /-- destination tier (R166) -/
  dstTier : Tier := .meadow
  /-- destination location (R166) -/
  dstLoc : Nat := 0
  /-- step of Table 5.5 (R166) -/
  step : MigStep := .copying
  /-- lines to copy again (evacuation) (R165) -/
  bitmap : List Nat := []
  /-- commit refusals (R167) -/
  refusals : Nat := 0
  /-- GEN read at M1 (R167) -/
  gen0 : BitVec 8 := 0
  /-- mover, tier lantern 8 to 11 (R166) -/
  lantern : Nat := 8
  /-- instant the write window closed on it (R174) -/
  paused : Option Nat := none
  /-- a witness matched since M3 ended (R165) -/
  wt : Bool := false
  /-- copy paused by a frozen source channel (R174) -/
  frozen : Bool := false
  /-- pages it reserves in D (R184) -/
  res : Nat := 0
  /-- program of a heath destination: 0 to be issued, 1 on its die, 2 passed (R166) -/
  prog : Nat := 0
  /-- instant the quiesce was sent (R167) -/
  quiAt : Nat := 0
  deriving DecidableEq, Repr

/-- An entry of a wick cache (R152). -/
structure WickEntry where
  /-- home-table index (R152) -/
  idx : Nat := 0
  /-- copy of that entry (R152) -/
  entry : HomeEntry := {}
  deriving DecidableEq, Repr

/-- An outstanding walker read (R156). -/
structure Walk where
  /-- transport lantern (R156) -/
  lantern : Nat := 0
  /-- home-table index sought (R156) -/
  idx : Nat := 0
  /-- a broadcast for the index intervened (R156) -/
  dirty : Bool := false
  deriving DecidableEq, Repr

/-- A home-run move of a growing region (R44). -/
structure GrowMove where
  /-- region (R44) -/
  region : Nat := 0
  /-- base of the new run (R44) -/
  newBase : Nat := 0
  /-- grown size (R44) -/
  newSize : Nat := 0
  /-- size of the region after the move (R44) -/
  size : Nat := 0
  /-- command to complete (R391) -/
  cmdId : Option Nat := none
  deriving DecidableEq, Repr

/-- Home table, wick caches, heat, migration, candle store. -/
structure TierSt where
  /-- home table by index; an absent entry is never written (R146) -/
  home : List (Nat × HomeEntry) := []
  /-- heat-present bitmap: marked home-table lines (R159) -/
  marked : List Nat := []
  /-- free meadow pool (R151) -/
  freePlots : List Nat := []
  /-- free-plot queue of each walker (R150) -/
  queues : List (Nat × List Nat) := []
  /-- wick caches, key lantern*64 + entry; absent = invalid (R152) -/
  wick : List (Nat × WickEntry) := []
  /-- replacement tree of each wick cache (R152) -/
  plru : List (Nat × BitVec 63) := []
  /-- walker reads outstanding (R156) -/
  walks : List Walk := []
  /-- migration trackers (R164) -/
  migs : List Migration := []
  /-- indices not raised again until the next sweep (R168) -/
  barred : List Nat := []
  /-- accesses counted per transport lantern for sampling (R158) -/
  sample : List (Nat × Nat) := []
  /-- a halving sweep runs (R159) -/
  sweepOn : Bool := false
  /-- the next sweep is overdue (R159) -/
  sweepDue : Bool := false
  /-- read copies: home-table index and meadow plot, least recently read first (R173) -/
  candle : List (Nat × Nat) := []
  /-- free heath plots (tier code, LOC) (R345) -/
  heathFree : List (Nat × Nat) := []
  /-- home-table index and instant of its last write (pin-heath quiet) (R161) -/
  lastWr : List (Nat × Nat) := []
  /-- requests that wait to be issued: home-table index, kind and target tier; a plot may have several (R164) -/
  waitDst : List (Nat × (MigKind × Tier)) := []
  /-- number of the interval whose sweep was last begun (R159) -/
  sweepNo : Nat := 0
  /-- instant waiting migrations were last tried again (R345) -/
  retryAt : Nat := 0
  /-- home-run moves in progress (R44) -/
  grow : List GrowMove := []
  /-- tier lantern whose turn it is to refill (R150) -/
  turn : Nat := 0
  deriving DecidableEq, Repr

/-- Data held in the two tiers. -/
structure MemSt where
  /-- meadow bytes by byte address, canonical; unlisted reads 0 (R147) -/
  meadow : List Host.Cell := []
  /-- heath bytes by LOC * 64 KiB + offset, canonical; unlisted reads 0 (R147) -/
  heath : List Host.Cell := []
  /-- meadow plots not yet restored (R214) -/
  unrestored : List Nat := []
  deriving DecidableEq, Repr

/-- A page version that awaits imaging (R190, R191). -/
structure Version where
  /-- meadow page (R190) -/
  page : Nat := 0
  /-- epoch of the contents (R190) -/
  epoch : Nat := 0
  deriving DecidableEq, Repr

/-- A page image in the save area (R192, R195). -/
structure ImageRec where
  /-- meadow page (R192) -/
  page : Nat := 0
  /-- epoch (R192) -/
  epoch : Nat := 0
  /-- programmed in the save window (R196) -/
  window : Bool := false
  /-- flash module it lies on (R195) -/
  mod : Nat := 0
  /-- save-area block it lies in (R195) -/
  blk : Nat := 0
  /-- sequence number of its summary entry (R192) -/
  seq : Nat := 0
  /-- CRC-32C of its plaintext (R192) -/
  crc : Nat := 0
  /-- the page encrypted under the save-image key (R192) -/
  data : List (BitVec 8) := []
  deriving DecidableEq, Repr

/-- The summary page of a closed wordline group (R192). -/
structure SumRec where
  /-- flash module of the group (R192) -/
  mod : Nat := 0
  /-- save-area block of the group (R192) -/
  blk : Nat := 0
  /-- sequence numbers of the images it describes (R192) -/
  seqs : List Nat := []
  /-- its CMAC under the save-image key (R192) -/
  mac : List (BitVec 8) := []
  deriving DecidableEq, Repr

/-- A seal record (R194). -/
structure SealRec where
  /-- its epoch k (R194) -/
  epoch : Nat := 0
  /-- closing instant (R194) -/
  at_ : Nat := 0
  /-- images in k (R194) -/
  count : Nat := 0
  /-- CMAC that chains to the record of the previous epoch (R194) -/
  mac : List (BitVec 8) := []
  /-- modules whose closed wordline groups hold a copy (R194) -/
  mods : List Nat := []
  deriving DecidableEq, Repr

/-- A forwarding-journal entry (Table 8.5). -/
structure Fj where
  /-- ORIGIN (R287) -/
  origin : Nat := 0
  /-- home member (R285) -/
  home : Nat := 0
  /-- JSEQ (R287) -/
  jseq : Nat := 0
  /-- CSEQ (R283) -/
  cseq : Nat := 0
  /-- connection index (R289) -/
  conn : Nat := 0
  /-- ingress queue pair number (R289) -/
  qpn : Nat := 0
  /-- PSN of the write (R289) -/
  psn : Nat := 0
  /-- BTH opcode (R283) -/
  verb : Nat := 0
  /-- region (R283) -/
  region : Nat := 0
  /-- region byte offset (R283) -/
  off : Nat := 0
  /-- payload (R285) -/
  data : List (BitVec 8) := []
  /-- stamp (R288) -/
  stamp : Nat := 0
  /-- state of Table 8.5 (R288) -/
  state : FjState := .posted
  /-- instant last sent (R288) -/
  sentAt : Nat := 0
  /-- wait in us before it is sent again (R288) -/
  hint : Nat := 100
  /-- home epoch h (R288) -/
  homeEpoch : Nat := 0
  deriving DecidableEq, Repr

/-- What a home keeps per origin (R287). -/
structure Applied where
  /-- origin (R287) -/
  origin : Nat := 0
  /-- every JSEQ below it is applied (R287) -/
  low : Nat := 0
  /-- applied JSEQs at or above it (R287) -/
  bits : List Nat := []
  /-- refused JSEQs and the status each was refused with (R288) -/
  refused : List (Nat × Nat) := []
  deriving DecidableEq, Repr

/-- A forwarded message complete at its home (R281 to R284, R287). -/
structure FwdIn where
  /-- member it came from (R264) -/
  src : Nat := 0
  /-- FWD_WRITE; FWD_REQ otherwise (R285) -/
  post : Bool := false
  /-- its forward header (R283) -/
  h : FwdHdr := {}
  /-- compare operand (R119) -/
  cmp : BitVec 64 := 0
  /-- swap or add operand (R119) -/
  swp : BitVec 64 := 0
  /-- payload (R285) -/
  data : List (BitVec 8) := []
  deriving DecidableEq, Repr

/-- What the save area holds of an epoch: the state it restores to (R191, R195, R216). -/
structure EpochSnap where
  /-- epoch (R194) -/
  epoch : Nat := 0
  /-- home table as of the epoch (R213) -/
  home : List (Nat × HomeEntry) := []
  /-- region table as of the epoch (R213) -/
  rgn : List (Nat × Region) := []
  /-- meadow bytes, open messages not in them (R198) (R192) -/
  meadow : List Host.Cell := []
  /-- heath bytes the home table of the epoch names (R213) -/
  heath : List Host.Cell := []
  /-- forwarding journal (R285) -/
  fj : List Fj := []
  /-- record of applied entries (R287) -/
  applied : List Applied := []
  deriving DecidableEq, Repr

/-- Dirty budget, governor, imaging, epochs, save and restore. -/
structure DurSt where
  /-- page versions not yet imaged, oldest epoch first (R178) -/
  dirty : List Version := []
  /-- pages reserved by admitted requests (R184) -/
  reserved : Nat := 0
  /-- journal lines kept for earlier versions: meadow line and epoch (R190) -/
  jlines : List (Nat × Nat) := []
  /-- B in pages (R179) -/
  budget : Nat := 0
  /-- risen values of B, ascending, and the instant each takes effect (R182) -/
  rise : List (Nat × Nat) := []
  /-- token store in millionths of a page (R186) -/
  tokens : Nat := 0
  /-- instant the token store was last filled (R186) -/
  tokAt : Nat := 0
  /-- image rate of the last 100 us, in pages per ms (R186) -/
  imgRate : Nat := 0
  /-- stop flag of SEAL_NOW (R207) -/
  stop : Bool := false
  /-- pending SEAL_NOW commands: command id and stamp (R207) -/
  sealNow : List (Nat × Nat) := []
  /-- D has first reached 0 since write-through began (R219) -/
  wtDrained : Bool := false
  /-- free and reclaimable save-area space in pages (R195) -/
  fSave : Nat := 0
  /-- number of the open epoch (R205) -/
  openEp : Nat := 0
  /-- an epoch is open (R204) -/
  isOpen : Bool := false
  /-- instant of the one forward step (R203) -/
  stepAt : Nat := 0
  /-- number of the epoch that followed the one the step closed (R203) -/
  stepEp : Nat := 0
  /-- closed epochs not yet complete (R194) -/
  closed : List Nat := []
  /-- epochs whose EOE has arrived from the peer (R237) -/
  eoe : List Nat := []
  /-- epochs with a seal record closed, newest first (R194) -/
  sealed : List Nat := []
  /-- seal records written, newest first (R194) -/
  seals : List SealRec := []
  /-- next sequence number of an image (R192) -/
  imgSeq : Nat := 0
  /-- sequence number of the first image of the last save (R213) -/
  setSeq : Nat := 0
  /-- summaries of the groups that hold images (R192) -/
  sums : List SumRec := []
  /-- page images held in the save area (R195) -/
  images : List ImageRec := []
  /-- epochs the device can return to, oldest first (R195) -/
  snaps : List EpochSnap := []
  /-- newest epoch named lost after a broken chain of seal records (R215) -/
  lost : Option Nat := none
  /-- the restore of this start was short (R72) -/
  short : Bool := false
  /-- a peer report disagrees in L_MS or POLICY (R206) -/
  mismatch : Bool := false
  /-- a power-loss save runs (R208) -/
  saving : Bool := false
  /-- early-close instant E (R209) -/
  saveE : Nat := 0
  /-- page versions that await imaging at E (R211) -/
  saveD : Nat := 0
  /-- 0 power loss, 1 RESET_N, 2 trip, 3 recovery cut (R208) -/
  saveWhy : Nat := 0
  /-- 0 restart with restore, 1 board off when the save ends (R210) -/
  afterSave : Nat := 0
  /-- the device holds itself in reset until power is good (R210) -/
  held : Bool := false
  /-- recovery cut C received (R293) -/
  cut : Option Nat := none
  /-- newest epoch in which a write that no twin holds may have been acknowledged before the last stop (R72) -/
  lastEp : Nat := 0
  /-- newest epoch in which a mirrored write may have been acknowledged before the last stop (R72) -/
  lastMir : Nat := 0
  /-- destroyed region IDs and their epochs, awaiting fabric seal (R50) -/
  destroyed : List (Nat × Nat) := []
  /-- write-through exposure recorded (R219) -/
  exposure : Bool := false
  /-- the hold-up self-test has failed (R217) -/
  holdFail : Bool := false
  deriving DecidableEq, Repr

/-- Device time (Table 6.3). -/
structure TimeSt where
  /-- device time less the local time-base count (R24) -/
  off : Int := 0
  /-- consecutive pulses below 200 ns (R201) -/
  lockCnt : Nat := 0
  /-- instant PTP or TIME_PPS was lost (R201) -/
  lostAt : Nat := 0
  /-- estimate when it was lost (R201) -/
  terrAtLoss : Nat := 0
  /-- frequency uncertainty in ns per s (R201) -/
  spread : Nat := 50
  /-- PTP time of day present (R201) -/
  ptp : Bool := false
  /-- device time valid (R204) -/
  valid : Bool := false
  /-- instant the wait for valid time began (R204) -/
  waitFrom : Nat := 0
  /-- left free-run and awaits its one forward step (R203) -/
  leaving : Bool := false
  /-- device time at which Locked was entered from Invalid or Unlocked (R202) -/
  lockAt : Nat := 0
  /-- closing instant of the newest seal record (R204) -/
  pend : Nat := 0
  /-- correction the servo is slewing in, in ns (R26) -/
  slew : Int := 0
  /-- local time-base count at which it began (R26) -/
  slewFrom : Nat := 0
  deriving DecidableEq, Repr

/-- A frame sent and not acknowledged, or waiting for room in the store (R228, R264). -/
structure TxFrame where
  /-- SEQ it was sent under (R228) -/
  seq : Nat := 0
  /-- instant last sent (R228) -/
  sentAt : Nat := 0
  /-- TYPE of Table 7.1 or Table 8.2 (R225) -/
  ftype : Nat := 0
  /-- message identifier (R225) -/
  msgid : Nat := 0
  /-- STAMP of a fabric frame (R264) -/
  stamp : Nat := 0
  /-- hops left of a fabric frame (R264) -/
  hops : Nat := 0
  /-- destination of a fabric frame (R264) -/
  dst : Nat := 0
  /-- source of a fabric frame (R264) -/
  src : Nat := 0
  /-- message type of a fabric segment (R264) -/
  mtype : Nat := 0
  /-- virtual channel of a fabric frame (R267) -/
  vc : Nat := 0
  /-- length of its message (R264) -/
  msglen : Nat := 0
  /-- offset of a fabric segment (R264) -/
  off : Nat := 0
  /-- words of its payload (R225) -/
  args : List Nat := []
  /-- its payload (R225) -/
  data : List (BitVec 8) := []
  deriving DecidableEq, Repr

/-- A mirrored message as its primary holds it (R232, R233). -/
structure TwinMsg where
  /-- MSGID (R225) -/
  msgid : Nat := 0
  /-- operation (R233) -/
  opId : Nat := 0
  /-- COMPLETE sent (R232) -/
  complete : Bool := false
  /-- epoch stamp (R232) -/
  stamp : Nat := 0
  deriving DecidableEq, Repr

/-- A LEG that waits for its plots (R236). -/
structure LegIn where
  /-- MSGID (R232) -/
  msgid : Nat := 0
  /-- region (R232) -/
  region : Nat := 0
  /-- region byte offset (R232) -/
  off : Nat := 0
  /-- packet position: 0 First, 1 Middle, 2 Last, 3 Only (R232) -/
  pos : Nat := 0
  /-- bytes (R232) -/
  data : List (BitVec 8) := []
  deriving DecidableEq, Repr

/-- A replica message (R232 to R234). -/
structure Replica where
  /-- MSGID (R232) -/
  msgid : Nat := 0
  /-- region (R232) -/
  region : Nat := 0
  /-- bytes applied (R233) -/
  got : Nat := 0
  /-- bytes of the whole message, once known (R233) -/
  want : Option Nat := none
  /-- epoch stamp from COMPLETE (R232) -/
  stamp : Option Nat := none
  /-- meadow lines applied, not visible until DUR (R234) -/
  lines : List Nat := []
  /-- previous contents (R232) -/
  journal : List (Nat × BitVec 8) := []
  /-- DUR received (R234) -/
  dur : Bool := false
  /-- accepted: whole, with COMPLETE; its pages are dirty (R233) -/
  acc : Bool := false
  deriving DecidableEq, Repr

/-- A held ID or pending region request of the pair (R535). -/
structure PeerId where
  /-- region ID (R535) -/
  region : Nat := 0
  /-- function (R535) -/
  func : Nat := 0
  /-- command waiting for the answer (R535) -/
  cmdId : Option Nat := none
  /-- the change (R535) -/
  m : RegionMsg := {}
  deriving DecidableEq, Repr

/-- Twin pair: link, paths, claim, fence, roles, swap, resynchronisation. -/
structure TwnSt where
  /-- TWIN_SIDE strap: true is west (R220) -/
  side : Bool := false
  /-- twin link up (R229) -/
  linkUp : Bool := false
  /-- HELLO exchanged under this LGEN (R229) -/
  hello : Bool := false
  /-- both HELLOs named one side (R229) -/
  conflict : Bool := false
  /-- role table: region and primary side (true west) (R222) -/
  roles : List (Nat × Bool) := []
  /-- next NCTR of each direction sent (R226) -/
  nctr : Nat := 0
  /-- last NCTR accepted in each key phase (R227) -/
  rxNctr : List (Nat × Nat) := []
  /-- next SEQ to send (R228) -/
  txSeq : Nat := 0
  /-- next SEQ expected (R228) -/
  rxSeq : Nat := 0
  /-- frames not acknowledged, oldest first (R228) -/
  unacked : List TxFrame := []
  /-- NCTR at which the present key phase began (R226) -/
  phaseFrom : Nat := 0
  /-- frames that wait while the store is full (R228) -/
  txWait : List TxFrame := []
  /-- instants of tag failures in the last 1 ms (R227) -/
  tagFails : List Nat := []
  /-- instant of the last valid frame (R240) -/
  linkSeen : Nat := 0
  /-- instant the link path first showed a fault (R241) -/
  linkFaultAt : Option Nat := none
  /-- instant of the last lamp period (R239) -/
  lampSeen : Nat := 0
  /-- instant from which the lamp path has shown a fault (R241) -/
  lampFaultAt : Option Nat := none
  /-- status driven on TWIN_LAMP_OUT (R239) -/
  lampOut : PathStatus := .silent
  /-- peer declared failed (R241) -/
  declared : Bool := false
  /-- instant of the declaration (R250) -/
  declAt : Nat := 0
  /-- pair in isolation (R242) -/
  isolated : Bool := false
  /-- switch-over gap in force (R250) -/
  gap : Bool := false
  /-- TWIN_SNUF_OUT asserted (latched on the always-on island) (R244) -/
  snufOut : Bool := false
  /-- instant it was asserted (R247) -/
  snufOutAt : Nat := 0
  /-- instant TWIN_SNUF_IN asserted (R245) -/
  snufInAt : Nat := 0
  /-- instant TWIN_SNUF_IN deasserted, while a fence stands (R245) -/
  snufOffAt : Option Nat := none
  /-- end of west's back-off (R246) -/
  backoff : Option Nat := none
  /-- instant from which the hold counts (R244) -/
  holdFrom : Nat := 0
  /-- promoted: this meadow alone makes writes durable (R249) -/
  soleMeadow : Bool := false
  /-- serial from HELLO (R229) -/
  peerSerial : BitVec 64 := 0
  /-- fabric ID from HELLO (R229) -/
  peerFab : Nat := 0
  /-- role-table version from HELLO or HB (R229) -/
  peerRoleVer : BitVec 8 := 0
  /-- governor stage from HB (R188) -/
  peerStage : Nat := 0
  /-- highest sealed epoch from HB (R240) -/
  peerSealed : Nat := 0
  /-- adopted peer GID index and announcements sent (R251) -/
  adopted : List (Nat × Nat) := []
  /-- messages this device is primary for (R233) -/
  msgs : List TwinMsg := []
  /-- messages this device is replica for (R232) -/
  reps : List Replica := []
  /-- next MSGID (R225) -/
  nextMsg : Nat := 1
  /-- closed epochs whose EOE waits for earlier messages (R237) -/
  eoeDue : List Nat := []
  /-- last valid SEALREP of the peer (R291) -/
  peerRep : Option EpochReport := none
  /-- EOE sent and not acknowledged (R238) -/
  eoeOpen : List Nat := []
  /-- region of the swap this side requested, or 4096 for all (R253) -/
  swapReg : Nat := 0
  /-- LEGs that wait for their plots, in link order (R236) -/
  legWait : List LegIn := []
  /-- key phase the peer sends in (R226) -/
  rxPhase : Nat := 0
  /-- a REKEY waits for its slot to hold a key (R226) -/
  rekeyDue : Bool := false
  /-- instant of promotion (R248) -/
  promotedAt : Nat := 0
  /-- a swap this side requested runs (R253) -/
  swapOut : Bool := false
  /-- a swap the peer requested: region, or 4096 for all (R254) -/
  swapIn : Option Nat := none
  /-- region requests awaiting RGN_ACK or RGN_REFUSE (R535) -/
  rgnPend : List PeerId := []
  /-- agreed changes awaiting the next epoch-closing instant (R535) -/
  rgnApply : List PeerId := []
  /-- resynchronisation phase (R257) -/
  rs : ResyncPhase := .none
  /-- this device is the survivor (R257) -/
  rsSource : Bool := false
  /-- dirty-page bitmap: region * 2^38 + page (R257) -/
  rsBits : List Nat := []
  /-- plots whose refetch a LEG overtook (R236) -/
  rsReject : List Nat := []
  /-- regions the survivor has named in its table since this unit returned (R535) -/
  rsNamed : List Nat := []
  /-- home-table indices being fetched from the twin (R325) -/
  refetch : List Nat := []
  /-- this device is a returning unit (R256) -/
  returning : Bool := false
  deriving DecidableEq, Repr

/-- A fabric link (R263, R264). -/
structure FabLink where
  /-- next SEQ (R264) -/
  txSeq : Nat := 0
  /-- next SEQ expected (R264) -/
  rxSeq : Nat := 0
  /-- next NCTR (R265) -/
  nctr : Nat := 0
  /-- last NCTR accepted per key phase (R264) -/
  rxNctr : List (Nat × Nat) := []
  /-- frames not acknowledged, oldest first (R264) -/
  unacked : List TxFrame := []
  /-- frames that wait while the store is full (R264) -/
  txWait : List TxFrame := []
  /-- instants of tag failures (R264) -/
  tagFails : List Nat := []
  /-- serial from HELLO (R266) -/
  peerSerial : BitVec 64 := 0
  /-- credit left in the pool of each virtual channel, in bytes (R267) -/
  credit : List (Nat × Nat) := []
  /-- NCTR at which the present key phase began (R265) -/
  phaseFrom : Nat := 0
  deriving DecidableEq, Repr

/-- A link-state record (Table 8.2). -/
structure Lsa where
  /-- serial number (R270) -/
  serial : BitVec 64 := 0
  /-- fabric ID (R270) -/
  id : Option Nat := none
  /-- STEWARD_EN (R270) -/
  steward : Bool := false
  /-- version of the record (R266) -/
  ver : Nat := 0
  /-- up links and the serial at the other end (R270) -/
  peers : List (Nat × BitVec 64) := []
  deriving DecidableEq, Repr

/-- A routing-table entry (R272). -/
structure Route where
  /-- shortest path length (R272) -/
  hops : Nat := 0
  /-- first link of each path kept (R272) -/
  links : List Nat := []
  deriving DecidableEq, Repr

/-- A reassembly context (R275, R276). -/
structure Ctx where
  /-- source fabric ID (R275) -/
  src : Nat := 0
  /-- MGEN and MIDX (R275) -/
  msgid : Nat := 0
  /-- message type (R275) -/
  mtype : Nat := 0
  /-- MSGLEN (R275) -/
  len : Nat := 0
  /-- byte positions covered (R275) -/
  got : List Nat := []
  /-- bytes received (R275) -/
  bytes : List Host.Cell := []
  /-- instant of the last new byte (R276) -/
  lastAt : Nat := 0
  /-- requests without a new byte (R276) -/
  asked : Nat := 0
  /-- STAMP of its frames (R264) -/
  stamp : Nat := 0
  deriving DecidableEq, Repr

/-- A message this device has sent and keeps (R276). -/
structure Sent where
  /-- message index (R277) -/
  midx : Nat := 0
  /-- MGEN and MIDX (R277) -/
  msgid : Nat := 0
  /-- destination (R276) -/
  dst : Nat := 0
  /-- message type (R276) -/
  mtype : Nat := 0
  /-- instant sent (R276) -/
  sentAt : Nat := 0
  /-- STAMP of its frames (R264) -/
  stamp : Nat := 0
  /-- its header words (R276) -/
  args : List Nat := []
  /-- its payload (R276) -/
  data : List (BitVec 8) := []
  deriving DecidableEq, Repr

/-- A message tombstone (R277). -/
structure Tomb where
  /-- source (R277) -/
  src : Nat := 0
  /-- message identifier (R277) -/
  msgid : Nat := 0
  /-- instant it was set (R277) -/
  setAt : Nat := 0
  deriving DecidableEq, Repr

/-- A forwarded request outstanding at the ingress (R284). -/
structure FwdOut where
  /-- operation (R284) -/
  opId : Nat := 0
  /-- home (R284) -/
  home : Nat := 0
  /-- instant sent (R284) -/
  sentAt : Nat := 0
  /-- CSEQ (R283) -/
  cseq : Nat := 0
  /-- byte position of its part in the READ (R282) -/
  part : Nat := 0
  /-- bytes of its part (R282) -/
  len : Nat := 0
  /-- data received (R282) -/
  got : Option (List (BitVec 8)) := none
  deriving DecidableEq, Repr

/-- A member of the set and its last report (R291, R292). -/
structure Member where
  /-- fabric ID (R292) -/
  id : Nat := 0
  /-- reported epoch, when valid (R291) -/
  epoch : Option Nat := none
  /-- reported L_MS (R291) -/
  lms : Nat := 1
  /-- reported POLICY (R291) -/
  policy : Bool := false
  /-- reported SPAN_BASE (R291) -/
  spanBase : Nat := 3584
  /-- its restore was short (R293) -/
  short : Bool := false
  deriving DecidableEq, Repr

/-- A spanned-region transaction (R280). -/
structure SpanTxn where
  /-- region (R280) -/
  region : Nat := 0
  /-- function (R280) -/
  func : Nat := 0
  /-- member that asked for it (R280) -/
  origin : Nat := 0
  /-- members that have not voted (R280) -/
  voters : List Nat := []
  /-- no member has refused (R280) -/
  ok : Bool := true
  /-- the change (R280) -/
  m : RegionMsg := {}
  deriving DecidableEq, Repr

/-- A frame for another device that waits within this one (R274). -/
structure Transit where
  /-- link it came on (R274) -/
  link : Nat := 0
  /-- instant it arrived (R274) -/
  since : Nat := 0
  /-- destination (R264) -/
  dst : Nat := 0
  /-- hops left when it leaves (R274) -/
  hops : Nat := 0
  /-- its words and payload (R264) -/
  frame : TxFrame := {}
  deriving DecidableEq, Repr

/-- The fabric. -/
structure FabSt where
  /-- links by number (R263) -/
  links : List (Nat × FabLink) := []
  /-- link-state database (R270) -/
  db : List Lsa := []
  /-- version of this device's record (R270) -/
  lsaVer : Nat := 0
  /-- routing table in force (R272) -/
  routes : List (Nat × Route) := []
  /-- a recomputation is pending (R272) -/
  recompute : Bool := false
  /-- no device has STEWARD_EN = 1 (R270) -/
  noSteward : Bool := false
  /-- FABID_SRC strap: true takes the ID from the steward (R268) -/
  strapSrc : Bool := false
  /-- FABID straps (R268) -/
  strapId : Nat := 0
  /-- MGEN of each message index (R277) -/
  mgens : List (Nat × BitVec 8) := []
  /-- lowest index never yet allocated (R277) -/
  nextMidx : Nat := 0
  /-- free indices, least recently freed first (R277) -/
  freeMidx : List Nat := []
  /-- indices in quarantine and the instant freed (R277) -/
  quarMidx : List (Nat × Nat) := []
  /-- messages kept until answered (R276) -/
  sent : List Sent := []
  /-- reassembly contexts (R275) -/
  ctxs : List Ctx := []
  /-- tombstones (R277) -/
  tombs : List Tomb := []
  /-- forwarding journal (R285) -/
  fj : List Fj := []
  /-- next JSEQ to each home (R287) -/
  jseqs : List (Nat × Nat) := []
  /-- next CSEQ, key conn*4096+home (R283) -/
  cseqs : List (Nat × Nat) := []
  /-- next CSEQ expected, key origin*2^24+QPN (R283) -/
  rxCseq : List (Nat × Nat) := []
  /-- complete messages that wait for their predecessors (R283) -/
  early : List FwdIn := []
  /-- number of the next forwarded operation served here (R281) -/
  nextFwd : Nat := 0
  /-- a REKEY waits for its slot to hold a key (R265) -/
  rekeyDue : Bool := false
  /-- instant the link-state record was last flooded (R270) -/
  lsaAt : Nat := 0
  /-- frames for other devices that wait for a path (R274) -/
  transit : List Transit := []
  /-- per-origin record of applied entries (R287) -/
  applied : List Applied := []
  /-- forwarded requests outstanding (R284) -/
  fwd : List FwdOut := []
  /-- member set (R292) -/
  members : List Member := []
  /-- membership changes that take effect at the next epoch (true adds) (R292) -/
  joinAt : List (Nat × Bool) := []
  /-- spanned transactions this device runs as steward (R280) -/
  spans : List SpanTxn := []
  /-- requests of this device that await their outcome (R280) -/
  spanPend : List PeerId := []
  /-- changes this member has voted for that await their outcome (R280) -/
  spanHeld : List RegionMsg := []
  /-- HORIZON or RECOVER received since start (R293) -/
  horizonSeen : Bool := false
  /-- segments sent, for the round robin among paths (R273) -/
  rr : Nat := 0
  /-- IDs this device has granted as steward (R268) -/
  granted : List Nat := []
  /-- next entry of FAB_DEFER_LOG to write (R289) -/
  deferLog : Nat := 0
  deriving DecidableEq, Repr

/-- A DRAM channel (Table 9.2) beyond its registers. -/
structure Chan where
  /-- ranks (R298) -/
  ranks : Nat := 1
  /-- column bits of its devices (R530) -/
  colBits : Nat := 11
  /-- module serials found (R317) -/
  serials : List Nat := []
  /-- module serials recorded with the remap table (R317) -/
  storedSerials : List Nat := []
  /-- stored training results held (R307) -/
  trained : Bool := false
  /-- state Draining came from (R305) -/
  cameFrom : ChanState := .absent
  /-- failing line (R324) -/
  ueLine : Nat := 0
  /-- home-table line that failed (R324) -/
  ueHome : Option Nat := none
  /-- refresh interval in ns before MULT (R310) -/
  trefi : Nat := 3900
  /-- refreshes issued (R312) -/
  refs : Nat := 0
  /-- refresh management commands issued (R311) -/
  rfms : Nat := 0
  /-- instant of the last ZQ calibration (R308) -/
  zqAt : Nat := 0
  /-- instant of the last DQS tracking (R308) -/
  dqsAt : Nat := 0
  /-- issue rate limited for DIMM temperature (R459) -/
  limited : Bool := false
  /-- raw lines stored in checker test mode, data and check bits (R333) -/
  raw : List (Nat × BitVec 640) := []
  deriving DecidableEq, Repr

/-- DRAM channels and bays. -/
structure MdwSt where
  /-- channels by number (R305) -/
  chans : List (Nat × Chan) := []
  /-- channels over which the system stripe is laid (R303) -/
  stripe : List Nat := []
  /-- stripe reserve of each member as last laid out, bytes (R303) -/
  reserve : Nat := 0
  /-- journal slice of each channel as last laid out, bytes (R300) -/
  slice : Nat := 0
  /-- plots the heath map covers, as last laid out (R529) -/
  heathMap : Nat := 0
  /-- channel whose removal or return the stripe re-lay serves (R330) -/
  relay : Option Nat := none
  /-- pressed buttons and the instant of the press (R511) -/
  buttons : List (Nat × Nat) := []
  /-- buttons seen released for 50 ms (R511) -/
  armed : List Nat := []
  /-- buttons declared stuck (R512) -/
  stuck : List Nat := []
  /-- attention lamps; absent is off (R332) -/
  lamps : List (Nat × Lamp) := []
  deriving DecidableEq, Repr

/-- A flash die (R341, R342, R345). -/
structure Die where
  /-- array operation (0 pSLC program, 1 native program, 2 erase, 3 read) and its start (R346) -/
  busy : Option (Nat × Nat) := none
  /-- what the operation serves: 0 migration, 1 image, 2 save, 3 filler, 4 seal record (R345) -/
  why : Nat := 0
  /-- home-table index or epoch the operation serves (R341) -/
  ref : Nat := 0
  /-- operations whose reads are queued on the die (R345) -/
  reads : List Nat := []
  /-- instant the pad timer started on its open native block (R343) -/
  padFrom : Option Nat := none
  /-- home-table indices in the last programmed, unclosed group (R343) -/
  openIdx : List Nat := []
  /-- heath locations programmed in the last two groups of its open native block (R344) -/
  lastTwo : List Nat := []
  deriving DecidableEq, Repr

/-- A flash module beyond its registers. -/
structure Module where
  /-- holds firmware copies (R351) -/
  fwCopies : Bool := false
  /-- images and log written again (R356) -/
  evacImg : Bool := false
  /-- dies report no temperature (R352) -/
  noDieTemp : Bool := false
  /-- a margin plan has changed its read thresholds and its save-rate calibration runs again (R181) -/
  calDue : Bool := false
  /-- interface mode (R334) -/
  ptype : Nat := 0
  /-- highest transfer rate it supports, in MT/s (R335) -/
  maxRate : Nat := 0
  deriving DecidableEq, Repr

/-- Heath channels, dies and modules. -/
structure HthSt where
  /-- dies, key channel*16+die (R336) -/
  dies : List (Nat × Die) := []
  /-- modules by number (R354) -/
  mods : List (Nat × Module) := []
  /-- heath map: LOC to channel*16+die (R339) -/
  map : List (Nat × Nat) := []
  /-- codewords read on each channel since READS last advanced (R347) -/
  cwReads : List (Nat × Nat) := []
  /-- plots of each module's heath pools at native density (R529) -/
  native : List (Nat × Nat) := []
  /-- heath locations whose block moves wait to be refreshed (R349) -/
  refresh : List Nat := []
  deriving DecidableEq, Repr

/-- A key slot (R362). -/
structure Slot where
  /-- usage 1 to 5 (R362) -/
  usage : Nat := 0
  /-- PERSIST flag (R368) -/
  persist : Bool := false
  /-- JOB flag (R371) -/
  job : Bool := false
  /-- key words (R365) -/
  key : List (BitVec 64) := []
  /-- a blob is held in the settings store (R368) -/
  blob : Bool := false
  deriving DecidableEq, Repr

/-- A CIPHER_JOB that waits (R371, R378). -/
structure Job where
  /-- command (R378) -/
  cmdId : Nat := 0
  /-- instant it began to wait (R378) -/
  since : Nat := 0
  deriving DecidableEq, Repr

/-- Key store, DRBG and alarms. -/
structure CphSt where
  /-- key slots; absent is empty (R361) -/
  slots : List (Nat × Slot) := []
  /-- KEK derived (R367) -/
  kek : Bool := false
  /-- an alarm has acted and no restart has cleared it (R373) -/
  alarmed : Bool := false
  /-- instants of recent health-test failures (R378) -/
  failAt : List Nat := []
  /-- DRBG requests since the last seed (R377) -/
  sinceSeed : Nat := 0
  /-- blob counter (R368) -/
  blobCtr : BitVec 32 := 0
  /-- blobs in the settings store, by slot (R368) -/
  blobs : List (Nat × Slot) := []
  /-- instant of the last known-answer tests (R376) -/
  lastKat : Nat := 0
  /-- jobs waiting for entropy (R378) -/
  jobs : List Job := []
  /-- steps the serial-seeded xorshift generator has made in this power cycle; they fix its 64 bits (R378) -/
  xors : Nat := 0
  deriving DecidableEq, Repr

/-- A fetched command that is not complete (R385, R390). -/
structure Cmd where
  /-- fetch order (R390) -/
  id : Nat := 0
  /-- submission ring (R388) -/
  ring : Nat := 0
  /-- TAG (R387) -/
  tag : Nat := 0
  /-- OPCODE (R387) -/
  op : Nat := 0
  /-- IRQ flag (R387) -/
  irq : Bool := false
  /-- RESULT_ADDR (R387) -/
  result : Nat := 0
  /-- body words of bytes 16 to 63 (R392) -/
  body : List (BitVec 64) := []
  /-- started (R398) -/
  running : Bool := false
  /-- progress in its own unit (R398) -/
  progress : Nat := 0
  /-- instant it started (R397) -/
  started : Nat := 0
  /-- writes no completion (10 ms after a soft reset) (R402) -/
  mute : Bool := false
  /-- entered by the side-band port (R432) -/
  sb : Bool := false
  deriving DecidableEq, Repr

/-- Positions of a submission ring and the completion ring of the same number (R381 to R390). -/
structure Ring where
  /-- last SQ_TAIL taken (R382) -/
  tail : Nat := 0
  /-- last CQ_HEAD taken (R382) -/
  cqHead : Nat := 0
  /-- completions waiting while the completion ring is full (R386) -/
  held : List (BitVec 128) := []
  /-- their IRQ flags (R386) -/
  heldIrq : List Bool := []
  /-- a descriptor fetch failed and the ring fetches no more (R380) -/
  stopped : Bool := false
  deriving DecidableEq, Repr

/-- Rings, doorbell and commands. -/
structure RingSt where
  /-- rings by number (R381) -/
  rings : List (Nat × Ring) := []
  /-- fetched commands not complete, in fetch order (R385) -/
  cmds : List Cmd := []
  /-- next fetch number (R390) -/
  nextCmd : Nat := 0
  /-- a doorbell fetch is outstanding (R383) -/
  fetching : Bool := false
  /-- ring and count of descriptors requested (R385) -/
  toFetch : List (Nat × Nat) := []
  /-- last HEARTBEAT (R382) -/
  hb : BitVec 64 := 0
  /-- instant it last changed (R383) -/
  hbAt : Nat := 0
  /-- FW_ACTIVATE command in its barrier (R401) -/
  barrier : Option Nat := none
  /-- PCIe link up (R379) -/
  pcieUp : Bool := false
  /-- instant a soft reset began its drain (R402) -/
  drainAt : Option Nat := none
  /-- fetching stopped (R402) -/
  stopFetch : Bool := false
  /-- the drain is that of a soft reset, which resets the MSI-X table as well (R505) -/
  drainPcie : Bool := false
  /-- tags completed on each ring, key ring*65536+tag (R398) -/
  doneTags : List Nat := []
  deriving DecidableEq, Repr

/-- The configuration transaction (Table 13.2). -/
structure CfxSt where
  /-- shadow bank: STG fields that differ from the live ones, by field key (R408) -/
  shadow : List (Nat × Nat) := []
  /-- command that committed, none for the side-band (R409) -/
  cmdId : Option Nat := none
  /-- WHEN of the commit (R411) -/
  when : Nat := 0
  /-- TIME of the commit (R411) -/
  time : Nat := 0
  /-- instant at which a scheduled bank applies (WHEN 1) (R411) -/
  applyAt : Nat := 0
  deriving DecidableEq, Repr

/-- The settings store (R420, R421). -/
structure StoreSt where
  /-- standing bank: STG fields by field key (R416) -/
  bank : List (Nat × Nat) := []
  /-- a valid generation exists (R421) -/
  valid : Bool := false
  /-- a change waits to be written (R421) -/
  dirty : Bool := false
  /-- instant of the first change not yet written (R421) -/
  dirtyAt : Nat := 0
  /-- stored operating hours (R488) -/
  hours : Nat := 0
  /-- last applied plan (R464) -/
  plan : Option Plan := none
  /-- RW fields recorded at entry to Banked, by field key (R514) -/
  rwBanked : List (Nat × Nat) := []
  /-- the last generation of the older format is kept (R423) -/
  older : Bool := false
  /-- NCTR blocks reserved (R226) -/
  nonceBlk : Nat := 0
  deriving DecidableEq, Repr

/-- Side-band port. -/
structure SbpSt where
  /-- maximum write length (R424) -/
  mwl : Nat := 256
  /-- maximum read length (R424) -/
  mrl : Nat := 256
  /-- Hot-Join requested (R424) -/
  hotJoin : Bool := false
  /-- last challenge issued and its instant (R431) -/
  challenge : Option (Nat × Nat) := none
  /-- challenge count (R431) -/
  chalCnt : BitVec 32 := 0
  /-- supervisor holds a copy of the CMAC key (R430) -/
  authKey : Bool := false
  /-- instant of FW_ARM (R428) -/
  arm : Option Nat := none
  /-- a PLDM firmware update is open (R428) -/
  update : Bool := false
  /-- its image verified (R428) -/
  updOk : Bool := false
  /-- EVENT_NOTIFY messages queued (R486) -/
  notify : List (List (BitVec 8)) := []
  deriving DecidableEq, Repr

/-- An event record (Table 17.2). -/
structure Record where
  /-- operating hours (R487) -/
  hours : Nat := 0
  /-- power-cycle count (R487) -/
  pcycle : Nat := 0
  /-- external time (R487) -/
  ext : Nat := 0
  /-- record sequence number (R487) -/
  seq : Nat := 0
  /-- source number (R487) -/
  source : Nat := 0
  /-- kind-specific code (R487) -/
  code : Nat := 0
  /-- clearing record (R487) -/
  clr : Bool := false
  /-- last-gasp record (R487) -/
  lg : Bool := false
  /-- bytes 32 to 63 hold a snapshot (R487) -/
  snap : Bool := false
  /-- EXT_TIME valid (R487) -/
  extv : Bool := false
  /-- severity (R487) -/
  sev : Nat := 0
  /-- further occurrences (R487) -/
  rep : Nat := 0
  /-- unit concerned (R487) -/
  inst : Nat := 0
  /-- kind-specific argument (R487) -/
  arg : Nat := 0
  /-- snapshot or detail (R487) -/
  detail : List (BitVec 32) := []
  deriving DecidableEq, Repr

/-- A power operation that has been asked for and not answered (R453). -/
structure PwrReq where
  /-- code of OP (R453) -/
  op : Nat := 0
  /-- bay code, 3Fh the board (R438) -/
  bay : Nat := 63
  /-- 0 start-up, 1 PWR_CTL, 2 side-band, 3 fault, 4 Banked, 5 save, 6 button (R453) -/
  who : Nat := 0
  /-- instance of a side-band request (R429) -/
  inst : Nat := 0
  deriving DecidableEq, Repr

/-- A rail sequence (R439). -/
structure Seq where
  /-- scope: a bay code, 3Fh the board (R438) -/
  bay : Nat := 63
  /-- on sequence (R439) -/
  on : Bool := true
  /-- slot that begins at the next boundary (R439) -/
  slot : Nat := 0
  /-- earliest instant of its common start (R445) -/
  from_ : Nat := 0
  /-- boundary at which the off sequence begins (R444) -/
  turn : Option Nat := none
  /-- rails with KEEP stay on (R451) -/
  keep : Bool := false
  /-- requests it answers (R445) -/
  reqs : List PwrReq := []
  /-- off requests that wait for its turn (R444) -/
  after : List PwrReq := []
  deriving DecidableEq, Repr

/-- Rails, sequences, power states, sensors. -/
structure PwrSt where
  /-- sequence that runs (R439) -/
  seq : Option Seq := none
  /-- sequences that wait (R439) -/
  queue : List Seq := []
  /-- in-range rounds since an input was out of range (R456) -/
  oorCnt : List (Nat × Nat) := []
  /-- consecutive rounds with the hold-up voltage low (R217) -/
  holdLow : Nat := 0
  /-- consecutive rounds apart from both neighbours (R455) -/
  suspCnt : List (Nat × Nat) := []
  /-- consecutive rounds near a neighbour while marked (R455) -/
  clrCnt : List (Nat × Nat) := []
  /-- consecutive rounds at TRIP (R457) -/
  tripCnt : Nat := 0
  /-- round count (R441) -/
  round : BitVec 16 := 0
  /-- units entering Shaded (unit code) and the instant S each stopped accepting work (R450) -/
  draining : List (Nat × Nat) := []
  /-- units waking (unit code) (R449) -/
  waking : List Nat := []
  /-- step of the Banked entry or exit in progress (R451) -/
  bankStep : Nat := 0
  /-- instant the down status was first sent (R243) -/
  downFrom : Nat := 0
  /-- board power-offs that wait for D = 0 or for the end of a save (R453) -/
  waitOff : List PwrReq := []
  /-- requests to enter or leave Banked that are not answered (R451) -/
  bankReqs : List PwrReq := []
  /-- rail and the instant it was switched on (R442) -/
  onAt : List (Nat × Nat) := []
  /-- rounds left of the hold-up self-test (R475) -/
  holdTest : Nat := 0
  /-- the hold-up self-test that runs, or ran last, has failed (R475) -/
  holdBad : Bool := false
  /-- the housekeeping converter is absent (R32) -/
  hkGone : Bool := false
  /-- common start of the sequence (R439) -/
  slotAt : Nat := 0
  /-- last-gasp page (R446) -/
  lastGasp : Option Record := none
  /-- EEPROM CRC good (R437) -/
  eepromOk : Bool := false
  /-- registers the sequence EEPROM holds, by field key (R437) -/
  eeprom : List (Nat × Nat) := []
  /-- board powered (R440) -/
  boardOn : Bool := false
  /-- waits for a board-up request after a trip (R458) -/
  needUp : Bool := false
  /-- on-die sensor readings (R454) -/
  temps : List (Nat × Int) := []
  deriving DecidableEq, Repr

/-- Ageing measurements, plan, engines. -/
structure AgeSt where
  /-- plan formed and not applied (R463) -/
  plan : Option Plan := none
  /-- refresh floor of each channel, in sixteenths (R463) -/
  floors : List (Nat × Nat) := []
  /-- floors that wait for the thaw of a frozen channel (R309) -/
  heldFloors : List (Nat × Nat) := []
  /-- lantern and the slots of its roles, where they differ from 0 to 7 (R469) -/
  roles : List (Nat × List Nat) := []
  /-- a voltage rise has been requested (R464) -/
  voltReq : Bool := false
  /-- the regulator reported it reached (R464) -/
  voltOk : Bool := false
  /-- a voltage fall to request after the boundary (R464) -/
  voltAfter : Option Nat := none
  /-- lantern clock target in MHz (R463) -/
  clock : List (Nat × Nat) := []
  /-- instant the last plan was formed (R463) -/
  lastPlan : Nat := 0
  /-- lane and its last eye margin in percent of plan (R461) -/
  eyes : List (Nat × Nat) := []
  /-- lane and its FEC corrected symbols per 10^9, as last measured (R461) -/
  fecs : List (Nat × Nat) := []
  /-- lane and consecutive measurements below 25 % (R473) -/
  lowEyes : List (Nat × Nat) := []
  /-- twin lane groups out of service (R473) -/
  removed : List Nat := []
  /-- removed groups that retrain and the instant each began (R473) -/
  retrain : List (Nat × Nat) := []
  /-- channel and the instant of its last sweep (R461) -/
  sweptAt : List (Nat × Nat) := []
  /-- 1/16 h in each 5 C bin (R461) -/
  bins : List (Nat × Nat) := []
  /-- millionths of an equivalent hour not yet in EQ_HOURS (R467) -/
  eqFrac : Nat := 0
  /-- EQ_HOURS at the end of each of the last 90 days of operation, newest first (R467) -/
  eqDays : List Nat := []
  /-- physical engines out of service (R469) -/
  out : List Nat := []
  /-- lantern and the slot of its spare, where it differs from 8; 15 none (R469) -/
  spares : List (Nat × Nat) := []
  /-- lantern and removed slot being substituted (R469) -/
  subst : List (Nat × Nat) := []
  /-- physical engine and instant of each watchdog failure (R506) -/
  wdFails : List (Nat × Nat) := []
  /-- engines removed for a watchdog (R471) -/
  wdOut : List Nat := []
  /-- lanterns restarting (R506) -/
  restarting : List Nat := []
  /-- lantern and instant of its last restart (R506) -/
  lastRestart : List (Nat × Nat) := []
  /-- corrected memory errors per lantern (R14) -/
  memCe : List (Nat × Nat) := []
  /-- self-test command that runs (R471) -/
  selftest : Option Nat := none
  /-- the self-test is paused (R399) -/
  selfPaused : Bool := false
  deriving DecidableEq, Repr

/-- Firmware activation. -/
structure FwmSt where
  /-- end of the confirmation window (R480) -/
  window : Option Nat := none
  /-- a rolling restart runs (R477) -/
  rotating : Bool := false
  /-- it goes back to the Previous image (R480) -/
  rollback : Bool := false
  /-- engine moves made (R477) -/
  rotStep : Nat := 0
  /-- FW_ACTIVATE command (R401) -/
  cmdId : Option Nat := none
  /-- starts on an unconfirmed image (R481) -/
  starts : Nat := 0
  deriving DecidableEq, Repr

/-- Event recorder. -/
structure EvtSt where
  /-- sources whose pending bit is 1 (`EVT_PENDg`) (R485) -/
  pend : List Nat := []
  /-- SEQ of the next new record (`EVR_STAT`) (R488) -/
  nextSeq : Nat := 0
  /-- records dropped (`EVR_LOST_CNT`) (R491) -/
  lost : Nat := 0
  /-- EVENT_NOTIFY messages dropped (`EVT_IBI_STAT`) (R486) -/
  ibiLost : Nat := 0
  /-- records in the recorder, ascending SEQ (R492) -/
  recs : List Record := []
  /-- mirror in the log partition (R492) -/
  mirror : List Record := []
  /-- EVR_LOST_CNT in the mirror (R492) -/
  mirLost : Nat := 0
  /-- instant of the first change not in the mirror (R492) -/
  dirtyAt : Option Nat := none
  /-- records the supervisor holds while the core is dark (R493) -/
  dark : List Record := []
  /-- records it could not hold (R493) -/
  darkLost : Nat := 0
  /-- unmasked MSI-X vectors (all are masked at reset) (R485) -/
  unmasked : List Nat := []
  /-- vectors with a held message (R485) -/
  pba : List Nat := []
  deriving DecidableEq, Repr

/-- A counter snapshot (Table 17.4). -/
structure Snap where
  /-- dump number (R498) -/
  seq : Nat := 0
  /-- dump instant T (R498) -/
  takenAt : Nat := 0
  /-- end of the bandwidth window (R501) -/
  bwAt : Nat := 0
  /-- counter values (R498) -/
  counts : List (Nat × BitVec 64) := []
  /-- port rates (R501) -/
  bw : List (Nat × BitVec 32) := []
  deriving DecidableEq, Repr

/-- Precise sampling of a counter (R500). -/
structure Sampler where
  /-- counter (R500) -/
  ctr : Nat := 0
  /-- ring address (R500) -/
  addr : Nat := 0
  /-- ring entries (R500) -/
  entries : Nat := 0
  /-- period P (R500) -/
  period : Nat := 0
  /-- next entry sequence (R500) -/
  next : Nat := 0
  /-- events until the next sample (R500) -/
  left : Nat := 0
  /-- microsecond of the last record (R500) -/
  lastUs : Nat := 0
  deriving DecidableEq, Repr

/-- What a counter counts (R496, `PMC_SELc`). -/
structure PmcSel where
  /-- counter (R496) -/
  ctr : Nat := 0
  /-- event number (R496) -/
  event : Nat := 0
  /-- instance (R496) -/
  inst : Nat := 0
  /-- all instances (R496) -/
  all : Bool := false
  deriving DecidableEq, Repr

/-- Performance counters. -/
structure PmcSt where
  /-- selections made (R496) -/
  sels : List PmcSel := []
  /-- live counts (`PMC_CNTc`) (R496) -/
  cnts : List (Nat × Nat) := []
  /-- samples skipped (`PMC_SAMP_STAT`) (R500) -/
  sampSkip : Nat := 0
  /-- dump ring address (R497) -/
  addr : Nat := 0
  /-- dump ring entries (R497) -/
  entries : Nat := 0
  /-- next ring position (R497) -/
  pos : Nat := 0
  /-- next dump number (R498) -/
  seq : Nat := 0
  /-- counter-region snapshot (R499) -/
  snap : Snap := {}
  /-- end of the last window (R501) -/
  bwAt : Nat := 0
  /-- counters that sample (R500) -/
  samplers : List Sampler := []
  deriving DecidableEq, Repr

/-- Start-up and lanterns. -/
structure CoreSt where
  /-- start-up stage reached (CODE of the group 0 event); 0 before lantern 15 runs (R507) -/
  stage : Nat := 0
  /-- transport lanterns started (R507) -/
  transport : Bool := false
  /-- reset kind whose event waits for the recorder (R503) -/
  owed : Option Nat := none
  /-- straps as last sampled (R507) -/
  straps : Straps := {}
  /-- restore phase A done (R507) -/
  phaseADone : Bool := false
  /-- twin roles settled (R509) -/
  rolesSettled : Bool := false
  /-- RESET_N low (R504) -/
  resetN : Bool := false
  /-- main power good (R503) -/
  powerGood : Bool := false
  /-- no firmware copy verified: the core stays dark (R507) -/
  killed : Bool := false
  deriving DecidableEq, Repr

/-- Everything of the machine but the queue of waiting commands. -/
structure Dev where
  /-- the local time-base count in ns, as the last command gave it (R24) -/
  clk : Nat := 0
  /-- the model's own counter of free values (log entry 2) -/
  free : Nat := 0
  /-- what the device has sent, newest first (log entry 5) -/
  out : List Out := []
  /-- register fields by key, `offset * 128 + lowest bit`; an absent one holds its reset value (R404) -/
  regs : List (Nat × Nat) := []
  /-- the latched upper half of a 128-bit register being read (R406): offset and value -/
  latchRd : Option (Nat × Nat) := none
  /-- the lower halves of 128-bit registers last written, by register offset (R406) -/
  latchWr : List (Nat × Nat) := []
  core : CoreSt := {}
  hpt : Hpt := {}
  /-- region table by region ID (R37) -/
  rgn : List (Nat × Region) := [(0xFFF, { state := .sealed, size := 1 })]
  tier : TierSt := {}
  mem : MemSt := {}
  dur : DurSt := {}
  tim : TimeSt := {}
  twn : TwnSt := {}
  fab : FabSt := {}
  mdw : MdwSt := {}
  hth : HthSt := {}
  cph : CphSt := {}
  ring : RingSt := {}
  cfx : CfxSt := {}
  store : StoreSt := {}
  sbp : SbpSt := {}
  pwr : PwrSt := {}
  age : AgeSt := {}
  fwm : FwmSt := {}
  evt : EvtSt := {}
  pmc : PmcSt := {}
  deriving DecidableEq, Repr

/-- The machine: the commands that wait, first in first out, and the device. -/
structure State where
  pending : List Instr := []
  dev : Dev := {}
  deriving DecidableEq, Repr

/-- Reasons to stop with a fault. The device has none: every command of the table has an effect the spec gives. -/
inductive Fault where
  /-- raised by no command; safe -/
  | none
  deriving DecidableEq, Repr

/-- Reasons to refuse a command. -/
inductive Refusal where
  /-- answered by an arm of `exec` whose command has no meaning yet; safe -/
  | notModelled (mnemonic : String)
  deriving DecidableEq, Repr

/-- The machine right after reset (R504, spec/18_reset_startup.md): no command waits and every field holds its reset value. -/
def State.reset : State := { pending := [], dev := {} }

end Sys2Proof.Machine
end

