-- ==== Sys2Proof/Machine/Assoc.lean ====
section
/-! DEFINITION. Tables by key, sets of numbers and byte memory: plain lists in one order, and the operations on them. -/

namespace Sys2Proof.Machine

/-- The entry of key `k`, if the table has one. -/
def look {α : Type} (l : List (Nat × α)) (k : Nat) : Option α :=
  match l with
  | [] => none
  | (j, v) :: r => if j = k then some v else look r k

/-- The entry of key `k`, or `dflt` where the table lists none. -/
def lookD {α : Type} (l : List (Nat × α)) (k : Nat) (dflt : α) : α := (look l k).getD dflt

/-- Table with `k` set to `v`, keys kept in rising order. -/
def put {α : Type} (l : List (Nat × α)) (k : Nat) (v : α) : List (Nat × α) :=
  match l with
  | [] => [(k, v)]
  | (j, w) :: r => if k < j then (k, v) :: (j, w) :: r else if k = j then (k, v) :: r else (j, w) :: put r k v

/-- Table without key `k`. -/
def del {α : Type} (l : List (Nat × α)) (k : Nat) : List (Nat × α) :=
  match l with
  | [] => []
  | (j, w) :: r => if j = k then del r k else (j, w) :: del r k

/-- Table with the entry of `k` changed by `f`, an absent one taken as `dflt`. -/
def change {α : Type} (l : List (Nat × α)) (k : Nat) (dflt : α) (f : α → α) : List (Nat × α) :=
  put l k (f (lookD l k dflt))

/-- Set of numbers with `k`, each once. -/
def ins (l : List Nat) (k : Nat) : List Nat := if l.contains k then l else l ++ [k]

/-- Set of numbers without `k`. -/
def rem (l : List Nat) (k : Nat) : List Nat := l.filter (fun j => !(j == k))

/-- The byte of memory at an address; a byte nothing has written reads as 0 (log entry 8). -/
def memGet (m : List Host.Cell) (a : Nat) : Byte := lookD m a 0

/-- Memory with one byte written; writing 0 unlists the address, so that equal memories are equal lists. -/
def memPut (m : List Host.Cell) (a : Nat) (b : Byte) : List Host.Cell :=
  match m with
  | [] => if b = 0 then [] else [(a, b)]
  | (j, w) :: r =>
    if a < j then (if b = 0 then (j, w) :: r else (a, b) :: (j, w) :: r)
    else if a = j then (if b = 0 then r else (a, b) :: r)
    else (j, w) :: memPut r a b

/-- `n` bytes from address `a`, in ascending order. -/
def memRead (m : List Host.Cell) (a : Nat) : Nat → List Byte
  | 0 => []
  | n + 1 => memGet m a :: memRead m (a + 1) n

/-- Memory with bytes written from address `a` on. -/
def memWrite (m : List Host.Cell) (a : Nat) : List Byte → List Host.Cell
  | [] => m
  | b :: bs => memWrite (memPut m a b) (a + 1) bs

/-- Memory with `n` bytes from address `a` on set to 0 (a released plot keeps nothing). -/
def memClear (m : List Host.Cell) (a n : Nat) : List Host.Cell :=
  m.filter (fun c => !(decide (a ≤ c.1) && decide (c.1 < a + n)))

/-- The canonical form of memory: addresses strictly rising, no entry equal to what an unlisted byte reads as. -/
def memWf (m : List Host.Cell) : Bool :=
  match m with
  | [] => true
  | [(_, b)] => b != 0
  | (a, b) :: (a', b') :: r => b != 0 && decide (a < a') && memWf ((a', b') :: r)

/-- Byte-memory canonical form as a property. -/
abbrev Memory.wf (m : List Host.Cell) : Prop := memWf m = true

end Sys2Proof.Machine
end

