-- ==== Sys2Proof/Machine/Regs.lean ====
section
/-! DEFINITION. The register map of the device, field by field, from the register maps of chapters 03 to 17 of the spec, and
the operations that read, write and reset registers as the access codes say (R8, R9, R10). -/

namespace Sys2Proof.Machine

/-- Access codes (Table 0.3). -/
inductive Access where
  | ro | rw | stg | w1s | w1c | rwp | wo
  deriving DecidableEq, Repr

/-- Reset classes (R504): what a reset must be for the register to take its reset value; `never` holds through all. -/
inductive ResetClass where
  | full | soft | cold | never | retrain
  deriving DecidableEq, Repr

/-- A register field: offset of its register in BAR0, highest and lowest bit, reset value and access code. -/
structure Fld where
  off : Nat
  hi : Nat
  lo : Nat
  rst : Nat
  acc : Access
  deriving DecidableEq, Repr

/-- A register or an array of registers with up to two indices. -/
structure RegDef where
  name : String
  base : Nat
  count1 : Nat
  stride1 : Nat
  count2 : Nat
  stride2 : Nat
  width : Nat
  cls : ResetClass
  flds : Nat → Nat → List Fld

/-- `HPT_PG_CFGg` [63:32] (STG). -/
def HPT_PG_CFG.LANE_EN (g : Nat) : Fld := ⟨0x600000 + g * 0x40, 63, 32, 0xffffffff, .stg⟩

/-- `HPT_PG_CFGg` [7:0] (STG). -/
def HPT_PG_CFG.OCT_MODE (g : Nat) : Fld := ⟨0x600000 + g * 0x40, 7, 0, 0, .stg⟩

/-- `HPT_PFC_CTL` [63:48] (STG). -/
def HPT_PFC_CTL.WD_MS : Fld := ⟨0x600200, 63, 48, 0x64, .stg⟩

/-- `HPT_PFC_CTL` [47:32] (STG). -/
def HPT_PFC_CTL.XOFF_KIB : Fld := ⟨0x600200, 47, 32, 0x300, .stg⟩

/-- `HPT_PFC_CTL` [31:16] (STG). -/
def HPT_PFC_CTL.QUANTA : Fld := ⟨0x600200, 31, 16, 0xffff, .stg⟩

/-- `HPT_PFC_CTL` [7:0] (STG). -/
def HPT_PFC_CTL.LOSSLESS : Fld := ⟨0x600200, 7, 0, 8, .stg⟩

/-- PRI_k of `HPT_DSCP_MAPn` (STG): priority of DSCP 16n + k; 3 for DSCP 26 at reset. -/
def HPT_DSCP_MAP.PRI (n k : Nat) : Fld :=
  ⟨0x600240 + n * 0x8, 4 * k + 2, 4 * k, if n = 1 ∧ k = 10 then 3 else 0, .stg⟩

/-- `HPT_CC_CTL` [47:32] (STG). -/
def HPT_CC_CTL.AI_STEP : Fld := ⟨0x600300, 47, 32, 0xa, .stg⟩

/-- `HPT_CC_CTL` [31:24] (STG). -/
def HPT_CC_CTL.RECOVER_US : Fld := ⟨0x600300, 31, 24, 0x32, .stg⟩

/-- `HPT_CC_CTL` [15:8] (STG). -/
def HPT_CC_CTL.CNP_GAP_US : Fld := ⟨0x600300, 15, 8, 4, .stg⟩

/-- `HPT_CC_CTL` [3:0] (STG). -/
def HPT_CC_CTL.BETA_SHIFT : Fld := ⟨0x600300, 3, 0, 3, .stg⟩

/-- `HPT_FAIR_CTL` [15:8] (STG). -/
def HPT_FAIR_CTL.WMAX : Fld := ⟨0x600400, 15, 8, 8, .stg⟩

/-- `HPT_FAIR_CTL` [7:0] (STG). -/
def HPT_FAIR_CTL.QUANTUM : Fld := ⟨0x600400, 7, 0, 8, .stg⟩

/-- `HPT_CM_SVC` [63:0] (RWP). -/
def HPT_CM_SVC.SERVICE_ID : Fld := ⟨0x600500, 63, 0, 0x1061e5b, .rwp⟩

/-- `HPT_CM_CTL` [31:16] (STG). -/
def HPT_CM_CTL.RTU_TO_MS : Fld := ⟨0x600508, 31, 16, 8, .stg⟩

/-- `HPT_CM_CTL` [0:0] (RW). -/
def HPT_CM_CTL.ACCEPT : Fld := ⟨0x600508, 0, 0, 0, .rw⟩

/-- `HPT_CONN_STAT` [48:32] (RO). -/
def HPT_CONN_STAT.OPEN : Fld := ⟨0x600600, 48, 32, 0, .ro⟩

/-- `HPT_CONN_STAT` [30:16] (RO). -/
def HPT_CONN_STAT.HOT : Fld := ⟨0x600600, 30, 16, 0, .ro⟩

/-- `HPT_CONN_STAT` [15:0] (RO). -/
def HPT_CONN_STAT.TAGS_BUSY : Fld := ⟨0x600600, 15, 0, 0, .ro⟩

/-- `HPT_MACp` [47:0] (STG). -/
def HPT_MAC.MAC (p : Nat) : Fld := ⟨0x600800 + p * 0x8, 47, 0, 0, .stg⟩

/-- `HPT_GIDp_i` [127:0] (STG). -/
def HPT_GID.GID (p : Nat) (i : Nat) : Fld := ⟨0x601000 + p * 0x100 + i * 0x10, 127, 0, 0, .stg⟩

/-- `HPT_VERB_CTL` [23:16] (STG). -/
def HPT_VERB_CTL.XDL_US : Fld := ⟨0x600700, 23, 16, 0xfa, .stg⟩

/-- `HPT_VERB_CTL` [7:7] (STG). -/
def HPT_VERB_CTL.IMM_EN : Fld := ⟨0x600700, 7, 7, 0, .stg⟩

/-- `HPT_VERB_CTL` [5:0] (STG). -/
def HPT_VERB_CTL.IMM_RING : Fld := ⟨0x600700, 5, 0, 0, .stg⟩

/-- `HPT_DROP_CNT` [63:32] (RO). -/
def HPT_DROP_CNT.TAG_STALE : Fld := ⟨0x600710, 63, 32, 0, .ro⟩

/-- `HPT_DROP_CNT` [31:0] (RO). -/
def HPT_DROP_CNT.CONN_STALE : Fld := ⟨0x600710, 31, 0, 0, .ro⟩

/-- `HPT_DL_CNT` [63:32] (RO). -/
def HPT_DL_CNT.LATE_APPLIED : Fld := ⟨0x600718, 63, 32, 0, .ro⟩

/-- `HPT_DL_CNT` [31:0] (RO). -/
def HPT_DL_CNT.EXPIRED : Fld := ⟨0x600718, 31, 0, 0, .ro⟩

/-- `HPT_IMM_LOST` [31:0] (RO). -/
def HPT_IMM_LOST.LOST : Fld := ⟨0x600720, 31, 0, 0, .ro⟩

/-- `TIER_HT_CFG` [59:24] (RO). -/
def TIER_HT_CFG.BASE : Fld := ⟨0x700000, 59, 24, 0, .ro⟩

/-- `TIER_HT_SIZE` [39:0] (RO). -/
def TIER_HT_SIZE.ENTRIES : Fld := ⟨0x700008, 39, 0, 0, .ro⟩

/-- `TIER_HEAT_CTL` [31:28] (STG). -/
def TIER_HEAT_CTL.SAMPLE_SHIFT : Fld := ⟨0x700040, 31, 28, 3, .stg⟩

/-- `TIER_HEAT_CTL` [27:24] (STG). -/
def TIER_HEAT_CTL.WR_INC : Fld := ⟨0x700040, 27, 24, 2, .stg⟩

/-- `TIER_HEAT_CTL` [23:20] (STG). -/
def TIER_HEAT_CTL.RD_INC : Fld := ⟨0x700040, 23, 20, 1, .stg⟩

/-- `TIER_HEAT_CTL` [15:0] (STG). -/
def TIER_HEAT_CTL.INTERVAL : Fld := ⟨0x700040, 15, 0, 0x3e8, .stg⟩

/-- `TIER_THRESH` [63:48] (STG). -/
def TIER_THRESH.PIN_QUIET : Fld := ⟨0x700048, 63, 48, 0x1388, .stg⟩

/-- `TIER_THRESH` [43:32] (STG). -/
def TIER_THRESH.PROMOTE : Fld := ⟨0x700048, 43, 32, 0x100, .stg⟩

/-- `TIER_THRESH` [27:16] (STG). -/
def TIER_THRESH.DEMOTE : Fld := ⟨0x700048, 27, 16, 0x20, .stg⟩

/-- `TIER_THRESH` [11:0] (STG). -/
def TIER_THRESH.DEEP : Fld := ⟨0x700048, 11, 0, 4, .stg⟩

/-- `TIER_MDW_POOL` [63:28] (RO). -/
def TIER_MDW_POOL.FREE : Fld := ⟨0x700050, 63, 28, 0, .ro⟩

/-- `TIER_MDW_POOL` [25:16] (STG). -/
def TIER_MDW_POOL.PROMO_FLOOR : Fld := ⟨0x700050, 25, 16, 0x14, .stg⟩

/-- `TIER_MDW_POOL` [9:0] (STG). -/
def TIER_MDW_POOL.FORCE : Fld := ⟨0x700050, 9, 0, 0xa, .stg⟩

/-- `TIER_PACE` [31:24] (STG). -/
def TIER_PACE.EVAC_SHARE : Fld := ⟨0x700058, 31, 24, 0x32, .stg⟩

/-- `TIER_PACE` [23:16] (STG). -/
def TIER_PACE.BG_SHARE : Fld := ⟨0x700058, 23, 16, 0x19, .stg⟩

/-- `TIER_PACE` [15:12] (STG). -/
def TIER_PACE.MAX_REFUSE : Fld := ⟨0x700058, 15, 12, 8, .stg⟩

/-- `TIER_PACE` [9:0] (STG). -/
def TIER_PACE.MAX_MIG : Fld := ⟨0x700058, 9, 0, 0x80, .stg⟩

/-- `TIER_WIN_CTL` [15:0] (STG). -/
def TIER_WIN_CTL.WIN_ABANDON : Fld := ⟨0x700060, 15, 0, 0x3e8, .stg⟩

/-- `TIER_CANDLE_CFG` [63:32] (RO). -/
def TIER_CANDLE_CFG.COPIES : Fld := ⟨0x700068, 63, 32, 0, .ro⟩

/-- `TIER_CANDLE_CFG` [31:0] (STG). -/
def TIER_CANDLE_CFG.CANDLE_PLOTS : Fld := ⟨0x700068, 31, 0, 0, .stg⟩

/-- `TIER_WICK_INV` [103:64] (RW). -/
def TIER_WICK_INV.COUNT : Fld := ⟨0x700080, 103, 64, 0, .rw⟩

/-- `TIER_WICK_INV` [63:24] (RW). -/
def TIER_WICK_INV.FIRST : Fld := ⟨0x700080, 63, 24, 0, .rw⟩

/-- `TIER_WICK_INV` [23:16] (RW). -/
def TIER_WICK_INV.LMASK : Fld := ⟨0x700080, 23, 16, 0, .rw⟩

/-- `TIER_WICK_INV` [1:1] (RO). -/
def TIER_WICK_INV.BUSY : Fld := ⟨0x700080, 1, 1, 0, .ro⟩

/-- `TIER_WICK_INV` [0:0] (W1S). -/
def TIER_WICK_INV.GO : Fld := ⟨0x700080, 0, 0, 0, .w1s⟩

/-- `TIER_WICK_STATn` [63:32] (RO). -/
def TIER_WICK_STAT.MISS (n : Nat) : Fld := ⟨0x700100 + n * 0x8, 63, 32, 0, .ro⟩

/-- `TIER_WICK_STATn` [31:0] (RO). -/
def TIER_WICK_STAT.HIT (n : Nat) : Fld := ⟨0x700100 + n * 0x8, 31, 0, 0, .ro⟩

/-- `TIER_MIG_STATm` [127:96] (RO). -/
def TIER_MIG_STAT.REFUSED (m : Nat) : Fld := ⟨0x700200 + m * 0x10, 127, 96, 0, .ro⟩

/-- `TIER_MIG_STATm` [95:64] (RO). -/
def TIER_MIG_STAT.CANCELLED (m : Nat) : Fld := ⟨0x700200 + m * 0x10, 95, 64, 0, .ro⟩

/-- `TIER_MIG_STATm` [63:32] (RO). -/
def TIER_MIG_STAT.COMMITTED (m : Nat) : Fld := ⟨0x700200 + m * 0x10, 63, 32, 0, .ro⟩

/-- `TIER_MIG_STATm` [9:0] (RO). -/
def TIER_MIG_STAT.ACTIVE (m : Nat) : Fld := ⟨0x700200 + m * 0x10, 9, 0, 0, .ro⟩

/-- `DUR_HOLDUP` [63:63] (STG). -/
def DUR_HOLDUP.VALID : Fld := ⟨0x800000, 63, 63, 0, .stg⟩

/-- `DUR_HOLDUP` [47:32] (STG). -/
def DUR_HOLDUP.P_SAVE_W : Fld := ⟨0x800000, 47, 32, 0, .stg⟩

/-- `DUR_HOLDUP` [31:0] (STG). -/
def DUR_HOLDUP.E_DECL_J : Fld := ⟨0x800000, 31, 0, 0, .stg⟩

/-- `DUR_BUDGET_CTL` [55:48] (STG). -/
def DUR_BUDGET_CTL.IMG_MAX : Fld := ⟨0x800008, 55, 48, 0x50, .stg⟩

/-- `DUR_BUDGET_CTL` [47:40] (STG). -/
def DUR_BUDGET_CTL.IMG_SHARE : Fld := ⟨0x800008, 47, 40, 0x1e, .stg⟩

/-- `DUR_BUDGET_CTL` [31:24] (STG). -/
def DUR_BUDGET_CTL.MARK3 : Fld := ⟨0x800008, 31, 24, 0x5a, .stg⟩

/-- `DUR_BUDGET_CTL` [23:16] (STG). -/
def DUR_BUDGET_CTL.MARK2 : Fld := ⟨0x800008, 23, 16, 0x4b, .stg⟩

/-- `DUR_BUDGET_CTL` [15:8] (STG). -/
def DUR_BUDGET_CTL.MARK1 : Fld := ⟨0x800008, 15, 8, 0x32, .stg⟩

/-- `DUR_BUDGET_CTL` [7:0] (STG). -/
def DUR_BUDGET_CTL.SAFETY : Fld := ⟨0x800008, 7, 0, 5, .stg⟩

/-- `DUR_BUDGET_STAT` [99:72] (RO). -/
def DUR_BUDGET_STAT.RESERVED : Fld := ⟨0x800010, 99, 72, 0, .ro⟩

/-- `DUR_BUDGET_STAT` [71:44] (RO). -/
def DUR_BUDGET_STAT.DIRTY : Fld := ⟨0x800010, 71, 44, 0, .ro⟩

/-- `DUR_BUDGET_STAT` [43:16] (RO). -/
def DUR_BUDGET_STAT.BUDGET : Fld := ⟨0x800010, 43, 16, 0, .ro⟩

/-- `DUR_BUDGET_STAT` [6:5] (RO). -/
def DUR_BUDGET_STAT.LIMITER : Fld := ⟨0x800010, 6, 5, 0, .ro⟩

/-- `DUR_BUDGET_STAT` [4:4] (RO). -/
def DUR_BUDGET_STAT.WT : Fld := ⟨0x800010, 4, 4, 0, .ro⟩

/-- `DUR_BUDGET_STAT` [3:3] (RO). -/
def DUR_BUDGET_STAT.OVER : Fld := ⟨0x800010, 3, 3, 0, .ro⟩

/-- `DUR_BUDGET_STAT` [1:0] (RO). -/
def DUR_BUDGET_STAT.STAGE : Fld := ⟨0x800010, 1, 0, 0, .ro⟩

/-- `DUR_MODm` [19:18] (RO). -/
def DUR_MOD.WINDOW (m : Nat) : Fld := ⟨0x800100 + m * 0x8, 19, 18, 0, .ro⟩

/-- `DUR_MODm` [17:16] (RO). -/
def DUR_MOD.DUTY (m : Nat) : Fld := ⟨0x800100 + m * 0x8, 17, 16, 0, .ro⟩

/-- `DUR_MODm` [15:0] (RO). -/
def DUR_MOD.RATE (m : Nat) : Fld := ⟨0x800100 + m * 0x8, 15, 0, 0, .ro⟩

/-- `DUR_EPOCH_CFG` [63:48] (STG). -/
def DUR_EPOCH_CFG.HOLD_MAX_S : Fld := ⟨0x800200, 63, 48, 0x12c, .stg⟩

/-- `DUR_EPOCH_CFG` [47:32] (STG). -/
def DUR_EPOCH_CFG.TERR_MAX_NS : Fld := ⟨0x800200, 47, 32, 0x2710, .stg⟩

/-- `DUR_EPOCH_CFG` [17:16] (STG). -/
def DUR_EPOCH_CFG.TIME_SRC : Fld := ⟨0x800200, 17, 16, 0, .stg⟩

/-- `DUR_EPOCH_CFG` [8:8] (STG). -/
def DUR_EPOCH_CFG.POLICY : Fld := ⟨0x800200, 8, 8, 0, .stg⟩

/-- `DUR_EPOCH_CFG` [7:0] (STG). -/
def DUR_EPOCH_CFG.L_MS : Fld := ⟨0x800200, 7, 0, 1, .stg⟩

/-- `DUR_EPOCH_STAT` [111:64] (RO). -/
def DUR_EPOCH_STAT.LOCAL : Fld := ⟨0x800210, 111, 64, 0, .ro⟩

/-- `DUR_EPOCH_STAT` [47:0] (RO). -/
def DUR_EPOCH_STAT.OPEN : Fld := ⟨0x800210, 47, 0, 0, .ro⟩

/-- `DUR_HORIZON` [47:0] (RO). -/
def DUR_HORIZON.HORIZON : Fld := ⟨0x800220, 47, 0, 0, .ro⟩

/-- `DUR_TIME_STAT` [63:32] (RO). -/
def DUR_TIME_STAT.TERR_NS : Fld := ⟨0x800230, 63, 32, 0, .ro⟩

/-- `DUR_TIME_STAT` [2:0] (RO). -/
def DUR_TIME_STAT.STATE : Fld := ⟨0x800230, 2, 0, 0, .ro⟩

/-- `DUR_SAVE_AREA` [95:64] (RO). -/
def DUR_SAVE_AREA.SIZE : Fld := ⟨0x800300, 95, 64, 0, .ro⟩

/-- `DUR_SAVE_AREA` [63:32] (RO). -/
def DUR_SAVE_AREA.FREE : Fld := ⟨0x800300, 63, 32, 0, .ro⟩

/-- `DUR_SAVE_AREA` [31:0] (RO). -/
def DUR_SAVE_AREA.RETAINED : Fld := ⟨0x800300, 31, 0, 0, .ro⟩

/-- `DUR_JRNL` [63:32] (RO). -/
def DUR_JRNL.IN_USE : Fld := ⟨0x800310, 63, 32, 0, .ro⟩

/-- `DUR_JRNL` [15:0] (STG). -/
def DUR_JRNL.JRNL_MIB : Fld := ⟨0x800310, 15, 0, 0x1000, .stg⟩

/-- `DUR_SAVE_LOG` [127:80] (RO). DESIGN CHOICE 0: no reset value is given (log entry 3). -/
def DUR_SAVE_LOG.EPOCH : Fld := ⟨0x800400, 127, 80, 0, .ro⟩

/-- `DUR_SAVE_LOG` [79:48] (RO). DESIGN CHOICE 0: no reset value is given (log entry 3). -/
def DUR_SAVE_LOG.PAGES : Fld := ⟨0x800400, 79, 48, 0, .ro⟩

/-- `DUR_SAVE_LOG` [47:24] (RO). DESIGN CHOICE 0: no reset value is given (log entry 3). -/
def DUR_SAVE_LOG.TIME_MS : Fld := ⟨0x800400, 47, 24, 0, .ro⟩

/-- `DUR_SAVE_LOG` [3:0] (RO). DESIGN CHOICE 0: no reset value is given (log entry 3). -/
def DUR_SAVE_LOG.RESULT : Fld := ⟨0x800400, 3, 0, 0, .ro⟩

/-- `DUR_RESTORE_STAT` [127:96] (RO). -/
def DUR_RESTORE_STAT.POISONED : Fld := ⟨0x800410, 127, 96, 0, .ro⟩

/-- `DUR_RESTORE_STAT` [95:64] (RO). -/
def DUR_RESTORE_STAT.REMAIN : Fld := ⟨0x800410, 95, 64, 0, .ro⟩

/-- `DUR_RESTORE_STAT` [63:16] (RO). -/
def DUR_RESTORE_STAT.EPOCH : Fld := ⟨0x800410, 63, 16, 0, .ro⟩

/-- `DUR_RESTORE_STAT` [3:0] (RO). -/
def DUR_RESTORE_STAT.PHASE : Fld := ⟨0x800410, 3, 0, 0, .ro⟩

/-- `TWN_CFG` [47:32] (STG). -/
def TWN_CFG.DETECT_US : Fld := ⟨0x900000, 47, 32, 0x64, .stg⟩

/-- `TWN_CFG` [31:24] (STG). -/
def TWN_CFG.GAP_PG : Fld := ⟨0x900000, 31, 24, 0xff, .stg⟩

/-- `TWN_CFG` [23:16] (STG). -/
def TWN_CFG.GAP_PRI : Fld := ⟨0x900000, 23, 16, 8, .stg⟩

/-- `TWN_CFG` [15:8] (STG). -/
def TWN_CFG.RESYNC_SHARE : Fld := ⟨0x900000, 15, 8, 0x32, .stg⟩

/-- `TWN_CFG` [1:1] (STG). -/
def TWN_CFG.LAMP_EN : Fld := ⟨0x900000, 1, 1, 1, .stg⟩

/-- `TWN_CFG` [0:0] (STG). -/
def TWN_CFG.ENABLE : Fld := ⟨0x900000, 0, 0, 0, .stg⟩

/-- `TWN_STAT` [55:48] (RO). -/
def TWN_STAT.ROLE_VER : Fld := ⟨0x900008, 55, 48, 0, .ro⟩

/-- `TWN_STAT` [47:40] (RO). -/
def TWN_STAT.LGEN : Fld := ⟨0x900008, 47, 40, 0, .ro⟩

/-- `TWN_STAT` [39:32] (RO). -/
def TWN_STAT.WIDTH : Fld := ⟨0x900008, 39, 32, 0, .ro⟩

/-- `TWN_STAT` [27:25] (RO). -/
def TWN_STAT.PEER : Fld := ⟨0x900008, 27, 25, 0, .ro⟩

/-- `TWN_STAT` [24:22] (RO). -/
def TWN_STAT.LINK_PATH : Fld := ⟨0x900008, 24, 22, 0, .ro⟩

/-- `TWN_STAT` [21:19] (RO). -/
def TWN_STAT.LAMP_PATH : Fld := ⟨0x900008, 21, 19, 0, .ro⟩

/-- `TWN_STAT` [18:16] (RO). -/
def TWN_STAT.CLAIM : Fld := ⟨0x900008, 18, 16, 0, .ro⟩

/-- `TWN_STAT` [4:4] (RO). -/
def TWN_STAT.SNUF_RB : Fld := ⟨0x900008, 4, 4, 0, .ro⟩

/-- `TWN_STAT` [3:3] (RO). -/
def TWN_STAT.FENCE_RD : Fld := ⟨0x900008, 3, 3, 0, .ro⟩

/-- `TWN_STAT` [2:2] (RO). -/
def TWN_STAT.FENCE_WR : Fld := ⟨0x900008, 2, 2, 0, .ro⟩

/-- `TWN_STAT` [1:1] (RO). -/
def TWN_STAT.SNUF_IN : Fld := ⟨0x900008, 1, 1, 0, .ro⟩

/-- `TWN_STAT` [0:0] (RO). DESIGN CHOICE 0: no reset value is given (log entry 3). -/
def TWN_STAT.SIDE : Fld := ⟨0x900008, 0, 0, 0, .ro⟩

/-- `TWN_CTL` [43:32] (RW). -/
def TWN_CTL.REGION : Fld := ⟨0x900010, 43, 32, 0, .rw⟩

/-- `TWN_CTL` [31:31] (RW). -/
def TWN_CTL.ALL : Fld := ⟨0x900010, 31, 31, 0, .rw⟩

/-- `TWN_CTL` [7:5] (RO). -/
def TWN_CTL.SWAP_RESULT : Fld := ⟨0x900010, 7, 5, 0, .ro⟩

/-- `TWN_CTL` [3:3] (W1S). -/
def TWN_CTL.GIVEBACK : Fld := ⟨0x900010, 3, 3, 0, .w1s⟩

/-- `TWN_CTL` [2:2] (W1S). -/
def TWN_CTL.DECLARE : Fld := ⟨0x900010, 2, 2, 0, .w1s⟩

/-- `TWN_CTL` [1:1] (RO). -/
def TWN_CTL.SWAP_BUSY : Fld := ⟨0x900010, 1, 1, 0, .ro⟩

/-- `TWN_CTL` [0:0] (W1S). -/
def TWN_CTL.SWAP_GO : Fld := ⟨0x900010, 0, 0, 0, .w1s⟩

/-- `TWN_KEY` [31:31] (RO). -/
def TWN_KEY.KEYPH : Fld := ⟨0x900018, 31, 31, 0, .ro⟩

/-- `TWN_KEY` [30:30] (W1S). -/
def TWN_KEY.REKEY : Fld := ⟨0x900018, 30, 30, 0, .w1s⟩

/-- `TWN_KEY` [27:16] (STG). -/
def TWN_KEY.SLOT_ALT : Fld := ⟨0x900018, 27, 16, 0, .stg⟩

/-- `TWN_KEY` [11:0] (STG). -/
def TWN_KEY.SLOT : Fld := ⟨0x900018, 11, 0, 0, .stg⟩

/-- `TWN_SVC_GIDi` [127:0] (STG). -/
def TWN_SVC_GID.GID (i : Nat) : Fld := ⟨0x900100 + i * 0x10, 127, 0, 0, .stg⟩

/-- `TWN_PEER_GIDi` [127:0] (RO). -/
def TWN_PEER_GID.GID (i : Nat) : Fld := ⟨0x900200 + i * 0x10, 127, 0, 0, .ro⟩

/-- `TWN_ADOPTi` [31:31] (STG). -/
def TWN_ADOPT.EN (i : Nat) : Fld := ⟨0x900300 + i * 0x8, 31, 31, 0, .stg⟩

/-- `TWN_ADOPTi` [11:8] (STG). -/
def TWN_ADOPT.SLOT (i : Nat) : Fld := ⟨0x900300 + i * 0x8, 11, 8, 0, .stg⟩

/-- `TWN_ADOPTi` [7:0] (STG). -/
def TWN_ADOPT.PORT (i : Nat) : Fld := ⟨0x900300 + i * 0x8, 7, 0, 0, .stg⟩

/-- `TWN_RESYNC_CTL` [47:16] (STG). -/
def TWN_RESYNC_CTL.CUT_PAGES : Fld := ⟨0x900400, 47, 16, 0x4000, .stg⟩

/-- `TWN_RESYNC_CTL` [7:0] (STG). -/
def TWN_RESYNC_CTL.MAX_PASS : Fld := ⟨0x900400, 7, 0, 8, .stg⟩

/-- `TWN_RESYNC_STAT` [119:112] (RO). -/
def TWN_RESYNC_STAT.PASSES : Fld := ⟨0x900410, 119, 112, 0, .ro⟩

/-- `TWN_RESYNC_STAT` [111:64] (RO). -/
def TWN_RESYNC_STAT.REMAIN : Fld := ⟨0x900410, 111, 64, 0, .ro⟩

/-- `TWN_RESYNC_STAT` [63:16] (RO). -/
def TWN_RESYNC_STAT.BITMAP : Fld := ⟨0x900410, 63, 16, 0, .ro⟩

/-- `TWN_RESYNC_STAT` [2:0] (RO). -/
def TWN_RESYNC_STAT.PHASE : Fld := ⟨0x900410, 2, 0, 0, .ro⟩

/-- `TWN_LINK_CNT` [127:96] (RO). -/
def TWN_LINK_CNT.AUTH_FAIL : Fld := ⟨0x900500, 127, 96, 0, .ro⟩

/-- `TWN_LINK_CNT` [95:64] (RO). -/
def TWN_LINK_CNT.RETX : Fld := ⟨0x900500, 95, 64, 0, .ro⟩

/-- `TWN_LINK_CNT` [63:32] (RO). -/
def TWN_LINK_CNT.STALE : Fld := ⟨0x900500, 63, 32, 0, .ro⟩

/-- `TWN_LINK_CNT` [31:0] (RO). -/
def TWN_LINK_CNT.DOWN : Fld := ⟨0x900500, 31, 0, 0, .ro⟩

/-- `FAB_CFG` [43:32] (STG). -/
def FAB_CFG.SPAN_BASE : Fld := ⟨0xA00000, 43, 32, 0xe00, .stg⟩

/-- `FAB_CFG` [27:24] (STG). -/
def FAB_CFG.PTP_LINK : Fld := ⟨0xA00000, 27, 24, 0, .stg⟩

/-- `FAB_CFG` [23:22] (STG). -/
def FAB_CFG.PATHS : Fld := ⟨0xA00000, 23, 22, 3, .stg⟩

/-- `FAB_CFG` [17:17] (STG). -/
def FAB_CFG.STEWARD_EN : Fld := ⟨0xA00000, 17, 17, 1, .stg⟩

/-- `FAB_CFG` [16:16] (STG). -/
def FAB_CFG.ENABLE : Fld := ⟨0xA00000, 16, 16, 0, .stg⟩

/-- `FAB_CFG` [15:0] (STG). -/
def FAB_CFG.LINK_EN : Fld := ⟨0xA00000, 15, 0, 0, .stg⟩

/-- `FAB_ID` [43:32] (RO). DESIGN CHOICE 0: no reset value is given (log entry 3). -/
def FAB_ID.STEWARD : Fld := ⟨0xA00008, 43, 32, 0, .ro⟩

/-- `FAB_ID` [31:31] (RO). -/
def FAB_ID.VALID : Fld := ⟨0xA00008, 31, 31, 0, .ro⟩

/-- `FAB_ID` [30:29] (RO). DESIGN CHOICE 0: no reset value is given (log entry 3). -/
def FAB_ID.SRC : Fld := ⟨0xA00008, 30, 29, 0, .ro⟩

/-- `FAB_ID` [27:16] (RWP). DESIGN CHOICE 0: no reset value is given (log entry 3). -/
def FAB_ID.LAST : Fld := ⟨0xA00008, 27, 16, 0, .rwp⟩

/-- `FAB_ID` [11:0] (RO). DESIGN CHOICE 0: no reset value is given (log entry 3). -/
def FAB_ID.ID : Fld := ⟨0xA00008, 11, 0, 0, .ro⟩

/-- `FAB_KEY` [31:31] (RO). -/
def FAB_KEY.KEYPH : Fld := ⟨0xA00010, 31, 31, 0, .ro⟩

/-- `FAB_KEY` [30:30] (W1S). -/
def FAB_KEY.REKEY : Fld := ⟨0xA00010, 30, 30, 0, .w1s⟩

/-- `FAB_KEY` [27:16] (STG). -/
def FAB_KEY.SLOT_ALT : Fld := ⟨0xA00010, 27, 16, 0, .stg⟩

/-- `FAB_KEY` [11:0] (STG). -/
def FAB_KEY.SLOT : Fld := ⟨0xA00010, 11, 0, 0, .stg⟩

/-- `FAB_FWD_CTL` [63:48] (STG). -/
def FAB_FWD_CTL.SLACK_NS : Fld := ⟨0xA00100, 63, 48, 0x5dc, .stg⟩

/-- `FAB_FWD_CTL` [47:32] (STG). -/
def FAB_FWD_CTL.FJ_LIMIT_MS : Fld := ⟨0xA00100, 47, 32, 0x64, .stg⟩

/-- `FAB_FWD_CTL` [15:0] (STG). -/
def FAB_FWD_CTL.FJ_MIB : Fld := ⟨0xA00100, 15, 0, 0x400, .stg⟩

/-- `FAB_FJ_STAT` [127:96] (RO). -/
def FAB_FJ_STAT.FAILED : Fld := ⟨0xA00108, 127, 96, 0, .ro⟩

/-- `FAB_FJ_STAT` [95:64] (RO). -/
def FAB_FJ_STAT.REDIRECTED : Fld := ⟨0xA00108, 95, 64, 0, .ro⟩

/-- `FAB_FJ_STAT` [63:32] (RO). -/
def FAB_FJ_STAT.OPEN : Fld := ⟨0xA00108, 63, 32, 0, .ro⟩

/-- `FAB_FJ_STAT` [31:0] (RO). -/
def FAB_FJ_STAT.IN_USE : Fld := ⟨0xA00108, 31, 0, 0, .ro⟩

/-- `FAB_MEMBER` [44:32] (RO). -/
def FAB_MEMBER.COUNT : Fld := ⟨0xA00200, 44, 32, 0, .ro⟩

/-- `FAB_MEMBER` [27:16] (RW). -/
def FAB_MEMBER.EXPEL_ID : Fld := ⟨0xA00200, 27, 16, 0, .rw⟩

/-- `FAB_MEMBER` [0:0] (W1S). -/
def FAB_MEMBER.EXPEL : Fld := ⟨0xA00200, 0, 0, 0, .w1s⟩

/-- `FAB_LINK_STATn` [59:48] (RO). -/
def FAB_LINK_STAT.PEER (n : Nat) : Fld := ⟨0xA00400 + n * 0x8, 59, 48, 0, .ro⟩

/-- `FAB_LINK_STATn` [47:40] (RO). -/
def FAB_LINK_STAT.LGEN (n : Nat) : Fld := ⟨0xA00400 + n * 0x8, 47, 40, 0, .ro⟩

/-- `FAB_LINK_STATn` [2:0] (RO). -/
def FAB_LINK_STAT.STATE (n : Nat) : Fld := ⟨0xA00400 + n * 0x8, 2, 0, 0, .ro⟩

/-- `FAB_RT_IDX` [11:0] (RW). -/
def FAB_RT_IDX.DEST : Fld := ⟨0xA00600, 11, 0, 0, .rw⟩

/-- `FAB_RT_DATA` [35:32] (RO). -/
def FAB_RT_DATA.HOPS : Fld := ⟨0xA00608, 35, 32, 0, .ro⟩

/-- V_i of `FAB_RT_DATA` (RO). -/
def FAB_RT_DATA.V (i : Nat) : Fld := ⟨0xA00608, 8 * i + 7, 8 * i + 7, 0, .ro⟩

/-- LINK_i of `FAB_RT_DATA` (RO). -/
def FAB_RT_DATA.LINK (i : Nat) : Fld := ⟨0xA00608, 8 * i + 3, 8 * i, 0, .ro⟩

/-- `FAB_CNT` [127:96] (RO). -/
def FAB_CNT.STALE : Fld := ⟨0xA00700, 127, 96, 0, .ro⟩

/-- `FAB_CNT` [95:64] (RO). -/
def FAB_CNT.SEG_REQ : Fld := ⟨0xA00700, 95, 64, 0, .ro⟩

/-- `FAB_CNT` [63:32] (RO). -/
def FAB_CNT.AUTH_FAIL : Fld := ⟨0xA00700, 63, 32, 0, .ro⟩

/-- `FAB_CNT` [31:0] (RO). -/
def FAB_CNT.HOP_DROP : Fld := ⟨0xA00700, 31, 0, 0, .ro⟩

/-- `FAB_DEFER_LOGk` [103:80] (RO). -/
def FAB_DEFER_LOG.QPN (k : Nat) : Fld := ⟨0xA00800 + k * 0x10, 103, 80, 0, .ro⟩

/-- `FAB_DEFER_LOGk` [79:56] (RO). -/
def FAB_DEFER_LOG.PSN (k : Nat) : Fld := ⟨0xA00800 + k * 0x10, 79, 56, 0, .ro⟩

/-- `FAB_DEFER_LOGk` [55:44] (RO). -/
def FAB_DEFER_LOG.REGION (k : Nat) : Fld := ⟨0xA00800 + k * 0x10, 55, 44, 0, .ro⟩

/-- `FAB_DEFER_LOGk` [43:32] (RO). -/
def FAB_DEFER_LOG.HOME (k : Nat) : Fld := ⟨0xA00800 + k * 0x10, 43, 32, 0, .ro⟩

/-- `FAB_DEFER_LOGk` [7:0] (RO). -/
def FAB_DEFER_LOG.STATUS (k : Nat) : Fld := ⟨0xA00800 + k * 0x10, 7, 0, 0, .ro⟩

/-- `MDW_CFGn` [39:32] (STG). -/
def MDW_CFG.SCRUB_SHARE (n : Nat) : Fld := ⟨0x1000000 + n * 0x40000, 39, 32, 0x19, .stg⟩

/-- `MDW_CFGn` [28:24] (STG). -/
def MDW_CFG.SET (n : Nat) : Fld := ⟨0x1000000 + n * 0x40000, 28, 24, 0x1f, .stg⟩

/-- `MDW_CFGn` [23:20] (STG). -/
def MDW_CFG.GRAIN (n : Nat) : Fld := ⟨0x1000000 + n * 0x40000, 23, 20, 4, .stg⟩

/-- `MDW_CFGn` [19:16] (STG). -/
def MDW_CFG.RATE (n : Nat) : Fld := ⟨0x1000000 + n * 0x40000, 19, 16, 0, .stg⟩

/-- `MDW_CFGn` [0:0] (STG). -/
def MDW_CFG.EN (n : Nat) : Fld := ⟨0x1000000 + n * 0x40000, 0, 0, 1, .stg⟩

/-- `MDW_STATn` [57:48] (RO). -/
def MDW_STAT.CAP_GIB (n : Nat) : Fld := ⟨0x1000008 + n * 0x40000, 57, 48, 0, .ro⟩

/-- `MDW_STATn` [47:46] (RO). -/
def MDW_STAT.DPC (n : Nat) : Fld := ⟨0x1000008 + n * 0x40000, 47, 46, 0, .ro⟩

/-- `MDW_STATn` [45:44] (RO). -/
def MDW_STAT.TYPE (n : Nat) : Fld := ⟨0x1000008 + n * 0x40000, 45, 44, 0, .ro⟩

/-- `MDW_STATn` [40:40] (RO). -/
def MDW_STAT.SR (n : Nat) : Fld := ⟨0x1000008 + n * 0x40000, 40, 40, 0, .ro⟩

/-- `MDW_STATn` [39:32] (RO). -/
def MDW_STAT.DIMM_TEMP (n : Nat) : Fld := ⟨0x1000008 + n * 0x40000, 39, 32, 0, .ro⟩

/-- `MDW_STATn` [7:4] (RO). -/
def MDW_STAT.TRAIN (n : Nat) : Fld := ⟨0x1000008 + n * 0x40000, 7, 4, 0, .ro⟩

/-- `MDW_STATn` [2:0] (RO). -/
def MDW_STAT.STATE (n : Nat) : Fld := ⟨0x1000008 + n * 0x40000, 2, 0, 0, .ro⟩

/-- `MDW_REFn` [31:24] (STG). -/
def MDW_REF.RFM_TH (n : Nat) : Fld := ⟨0x1000010 + n * 0x40000, 31, 24, 0x20, .stg⟩

/-- `MDW_REFn` [16:16] (STG). -/
def MDW_REF.SB (n : Nat) : Fld := ⟨0x1000010 + n * 0x40000, 16, 16, 1, .stg⟩

/-- `MDW_REFn` [7:0] (STG). -/
def MDW_REF.MULT (n : Nat) : Fld := ⟨0x1000010 + n * 0x40000, 7, 0, 0x10, .stg⟩

/-- `MDW_FRZn` [7:4] (RO). -/
def MDW_FRZ.CAUSE (n : Nat) : Fld := ⟨0x1000018 + n * 0x40000, 7, 4, 0, .ro⟩

/-- `MDW_FRZn` [2:2] (RO). -/
def MDW_FRZ.THAW_BUSY (n : Nat) : Fld := ⟨0x1000018 + n * 0x40000, 2, 2, 0, .ro⟩

/-- `MDW_FRZn` [1:1] (W1S). -/
def MDW_FRZ.THAW (n : Nat) : Fld := ⟨0x1000018 + n * 0x40000, 1, 1, 0, .w1s⟩

/-- `MDW_FRZn` [0:0] (W1S). -/
def MDW_FRZ.FREEZE (n : Nat) : Fld := ⟨0x1000018 + n * 0x40000, 0, 0, 0, .w1s⟩

/-- `MDW_UEn` [127:96] (RO). -/
def MDW_UE.HOURS (n : Nat) : Fld := ⟨0x1000020 + n * 0x40000, 127, 96, 0, .ro⟩

/-- `MDW_UEn` [84:75] (RO). -/
def MDW_UE.DEVMASK (n : Nat) : Fld := ⟨0x1000020 + n * 0x40000, 84, 75, 0, .ro⟩

/-- `MDW_UEn` [74:74] (RO). -/
def MDW_UE.SUB (n : Nat) : Fld := ⟨0x1000020 + n * 0x40000, 74, 74, 0, .ro⟩

/-- `MDW_UEn` [73:71] (RO). -/
def MDW_UE.RANK (n : Nat) : Fld := ⟨0x1000020 + n * 0x40000, 73, 71, 0, .ro⟩

/-- `MDW_UEn` [70:68] (RO). -/
def MDW_UE.BG (n : Nat) : Fld := ⟨0x1000020 + n * 0x40000, 70, 68, 0, .ro⟩

/-- `MDW_UEn` [67:66] (RO). -/
def MDW_UE.BANK (n : Nat) : Fld := ⟨0x1000020 + n * 0x40000, 67, 66, 0, .ro⟩

/-- `MDW_UEn` [65:48] (RO). -/
def MDW_UE.ROW (n : Nat) : Fld := ⟨0x1000020 + n * 0x40000, 65, 48, 0, .ro⟩

/-- `MDW_UEn` [47:38] (RO). -/
def MDW_UE.COL (n : Nat) : Fld := ⟨0x1000020 + n * 0x40000, 47, 38, 0, .ro⟩

/-- `MDW_UEn` [35:0] (RO). -/
def MDW_UE.LINE (n : Nat) : Fld := ⟨0x1000020 + n * 0x40000, 35, 0, 0, .ro⟩

/-- `MDW_CEn` [63:32] (RO). -/
def MDW_CE.CE_CNT (n : Nat) : Fld := ⟨0x1000030 + n * 0x40000, 63, 32, 0, .ro⟩

/-- `MDW_CEn` [31:16] (RO). -/
def MDW_CE.LOG_OVF (n : Nat) : Fld := ⟨0x1000030 + n * 0x40000, 31, 16, 0, .ro⟩

/-- `MDW_CEn` [12:8] (RO). -/
def MDW_CE.REMAP_USED (n : Nat) : Fld := ⟨0x1000030 + n * 0x40000, 12, 8, 0, .ro⟩

/-- `MDW_CEn` [0:0] (W1S). -/
def MDW_CE.CLEAR (n : Nat) : Fld := ⟨0x1000030 + n * 0x40000, 0, 0, 0, .w1s⟩

/-- `MDW_CELOGn_k` [127:127] (W1C). -/
def MDW_CELOG.VALID (n : Nat) (k : Nat) : Fld := ⟨0x1000100 + n * 0x40000 + k * 0x10, 127, 127, 0, .w1c⟩

/-- `MDW_CELOGn_k` [126:126] (RO). -/
def MDW_CELOG.HARD (n : Nat) (k : Nat) : Fld := ⟨0x1000100 + n * 0x40000 + k * 0x10, 126, 126, 0, .ro⟩

/-- `MDW_CELOGn_k` [125:114] (RO). -/
def MDW_CELOG.COUNT (n : Nat) (k : Nat) : Fld := ⟨0x1000100 + n * 0x40000 + k * 0x10, 125, 114, 0, .ro⟩

/-- `MDW_CELOGn_k` [113:82] (RO). -/
def MDW_CELOG.HOURS (n : Nat) (k : Nat) : Fld := ⟨0x1000100 + n * 0x40000 + k * 0x10, 113, 82, 0, .ro⟩

/-- `MDW_CELOGn_k` [81:72] (RO). -/
def MDW_CELOG.DEVMASK (n : Nat) (k : Nat) : Fld := ⟨0x1000100 + n * 0x40000 + k * 0x10, 81, 72, 0, .ro⟩

/-- `MDW_CELOGn_k` [71:71] (RO). -/
def MDW_CELOG.SUB (n : Nat) (k : Nat) : Fld := ⟨0x1000100 + n * 0x40000 + k * 0x10, 71, 71, 0, .ro⟩

/-- `MDW_CELOGn_k` [35:0] (RO). -/
def MDW_CELOG.LINE (n : Nat) (k : Nat) : Fld := ⟨0x1000100 + n * 0x40000 + k * 0x10, 35, 0, 0, .ro⟩

/-- `MDW_REMAPn_k` [63:63] (RO). -/
def MDW_REMAP.VALID (n : Nat) (k : Nat) : Fld := ⟨0x1000400 + n * 0x40000 + k * 0x8, 63, 63, 0, .ro⟩

/-- `MDW_REMAPn_k` [35:0] (RO). -/
def MDW_REMAP.LINE (n : Nat) (k : Nat) : Fld := ⟨0x1000400 + n * 0x40000 + k * 0x8, 35, 0, 0, .ro⟩

/-- `MDW_PATn` [63:32] (RW). -/
def MDW_PAT.LINES (n : Nat) : Fld := ⟨0x1000800 + n * 0x40000, 63, 32, 0, .rw⟩

/-- `MDW_PATn` [27:24] (RW). -/
def MDW_PAT.KIND (n : Nat) : Fld := ⟨0x1000800 + n * 0x40000, 27, 24, 0, .rw⟩

/-- `MDW_PATn` [17:16] (RW). -/
def MDW_PAT.OP (n : Nat) : Fld := ⟨0x1000800 + n * 0x40000, 17, 16, 0, .rw⟩

/-- `MDW_PATn` [1:1] (RO). -/
def MDW_PAT.BUSY (n : Nat) : Fld := ⟨0x1000800 + n * 0x40000, 1, 1, 0, .ro⟩

/-- `MDW_PATn` [0:0] (W1S). -/
def MDW_PAT.GO (n : Nat) : Fld := ⟨0x1000800 + n * 0x40000, 0, 0, 0, .w1s⟩

/-- `MDW_PAT_ADDRn` [35:0] (RW). -/
def MDW_PAT_ADDR.LINE (n : Nat) : Fld := ⟨0x1000808 + n * 0x40000, 35, 0, 0, .rw⟩

/-- `MDW_PAT_USERn_i` [63:0] (RW). -/
def MDW_PAT_USER.DATA (n : Nat) (i : Nat) : Fld := ⟨0x1000840 + n * 0x40000 + i * 0x8, 63, 0, 0, .rw⟩

/-- `MDW_CMPn` [127:104] (RO). -/
def MDW_CMP.FAIL_LINES (n : Nat) : Fld := ⟨0x1000880 + n * 0x40000, 127, 104, 0, .ro⟩

/-- `MDW_CMPn` [79:0] (RO). -/
def MDW_CMP.DQ_FAIL (n : Nat) : Fld := ⟨0x1000880 + n * 0x40000, 79, 0, 0, .ro⟩

/-- `MDW_CHKn` [63:63] (RW). -/
def MDW_CHK.EN (n : Nat) : Fld := ⟨0x1000C00 + n * 0x40000, 63, 63, 0, .rw⟩

/-- `MDW_CHKn` [62:62] (W1S). -/
def MDW_CHK.GO (n : Nat) : Fld := ⟨0x1000C00 + n * 0x40000, 62, 62, 0, .w1s⟩

/-- `MDW_CHKn` [61:61] (RO). -/
def MDW_CHK.BUSY (n : Nat) : Fld := ⟨0x1000C00 + n * 0x40000, 61, 61, 0, .ro⟩

/-- `MDW_CHKn` [60:60] (RW). -/
def MDW_CHK.OP (n : Nat) : Fld := ⟨0x1000C00 + n * 0x40000, 60, 60, 0, .rw⟩

/-- `MDW_CHKn` [35:0] (RW). -/
def MDW_CHK.LINE (n : Nat) : Fld := ⟨0x1000C00 + n * 0x40000, 35, 0, 0, .rw⟩

/-- `MDW_CHK_DATAn_i` [63:0] (RW). -/
def MDW_CHK_DATA.DATA (n : Nat) (i : Nat) : Fld := ⟨0x1000C40 + n * 0x40000 + i * 0x8, 63, 0, 0, .rw⟩

/-- `MDW_CHK_ECCn` [127:0] (RW). -/
def MDW_CHK_ECC.ECC (n : Nat) : Fld := ⟨0x1000C80 + n * 0x40000, 127, 0, 0, .rw⟩

/-- `MDW_CHK_RESn` [11:2] (RO). -/
def MDW_CHK_RES.DEVMASK (n : Nat) : Fld := ⟨0x1000C90 + n * 0x40000, 11, 2, 0, .ro⟩

/-- `MDW_CHK_RESn` [1:0] (RO). -/
def MDW_CHK_RES.RESULT (n : Nat) : Fld := ⟨0x1000C90 + n * 0x40000, 1, 0, 0, .ro⟩

/-- `HTH_STATn` [63:32] (RO). -/
def HTH_STAT.READQ (n : Nat) : Fld := ⟨0x2000000 + n * 0x10000, 63, 32, 0, .ro⟩

/-- `HTH_STATn` [20:16] (RO). -/
def HTH_STAT.BUSY (n : Nat) : Fld := ⟨0x2000000 + n * 0x10000, 20, 16, 0, .ro⟩

/-- `HTH_STATn` [12:8] (RO). -/
def HTH_STAT.DIES (n : Nat) : Fld := ⟨0x2000000 + n * 0x10000, 12, 8, 0, .ro⟩

/-- `HTH_STATn` [1:0] (RO). -/
def HTH_STAT.STATE (n : Nat) : Fld := ⟨0x2000000 + n * 0x10000, 1, 0, 0, .ro⟩

/-- `HTH_SCHEDn` [63:48] (STG). -/
def HTH_SCHED.PAD_US (n : Nat) : Fld := ⟨0x2000008 + n * 0x10000, 63, 48, 0x7d0, .stg⟩

/-- `HTH_SCHEDn` [47:40] (STG). -/
def HTH_SCHED.REFRESH_TH (n : Nat) : Fld := ⟨0x2000008 + n * 0x10000, 47, 40, 0x60, .stg⟩

/-- `HTH_SCHEDn` [35:32] (STG). -/
def HTH_SCHED.RETRY_MAX (n : Nat) : Fld := ⟨0x2000008 + n * 0x10000, 35, 32, 8, .stg⟩

/-- `HTH_SCHEDn` [31:16] (STG). -/
def HTH_SCHED.SPARE_MIN (n : Nat) : Fld := ⟨0x2000008 + n * 0x10000, 31, 16, 0x10, .stg⟩

/-- `HTH_SCHEDn` [4:0] (STG). -/
def HTH_SCHED.PROG_MAX (n : Nat) : Fld := ⟨0x2000008 + n * 0x10000, 4, 0, 8, .stg⟩

/-- `HTH_ECCn` [127:96] (RO). -/
def HTH_ECC.UNCORR (n : Nat) : Fld := ⟨0x2000010 + n * 0x10000, 127, 96, 0, .ro⟩

/-- `HTH_ECCn` [95:64] (RO). -/
def HTH_ECC.SOFT (n : Nat) : Fld := ⟨0x2000010 + n * 0x10000, 95, 64, 0, .ro⟩

/-- `HTH_ECCn` [63:32] (RO). -/
def HTH_ECC.RETRY (n : Nat) : Fld := ⟨0x2000010 + n * 0x10000, 63, 32, 0, .ro⟩

/-- `HTH_ECCn` [31:0] (RO). -/
def HTH_ECC.READS (n : Nat) : Fld := ⟨0x2000010 + n * 0x10000, 31, 0, 0, .ro⟩

/-- `HTH_DIEn_d` [63:48] (RO). -/
def HTH_DIE.GROWN_BAD (n : Nat) (d : Nat) : Fld := ⟨0x2000100 + n * 0x10000 + d * 0x8, 63, 48, 0, .ro⟩

/-- `HTH_DIEn_d` [47:32] (RO). -/
def HTH_DIE.SPARE (n : Nat) (d : Nat) : Fld := ⟨0x2000100 + n * 0x10000 + d * 0x8, 47, 32, 0, .ro⟩

/-- `HTH_DIEn_d` [31:24] (RO). -/
def HTH_DIE.TEMP (n : Nat) (d : Nat) : Fld := ⟨0x2000100 + n * 0x10000 + d * 0x8, 31, 24, 0, .ro⟩

/-- `HTH_DIEn_d` [5:4] (RO). -/
def HTH_DIE.CELL (n : Nat) (d : Nat) : Fld := ⟨0x2000100 + n * 0x10000 + d * 0x8, 5, 4, 0, .ro⟩

/-- `HTH_DIEn_d` [1:0] (RO). -/
def HTH_DIE.STATE (n : Nat) (d : Nat) : Fld := ⟨0x2000100 + n * 0x10000 + d * 0x8, 1, 0, 0, .ro⟩

/-- `HTH_MOD_CFGm` [31:24] (STG). -/
def HTH_MOD_CFG.WIN_HI (m : Nat) : Fld := ⟨0x2008000 + m * 0x80000, 31, 24, 0x46, .stg⟩

/-- `HTH_MOD_CFGm` [23:16] (STG). -/
def HTH_MOD_CFG.WIN_LO (m : Nat) : Fld := ⟨0x2008000 + m * 0x80000, 23, 16, 0, .stg⟩

/-- `HTH_MOD_CFGm` [12:8] (STG). -/
def HTH_MOD_CFG.THERM (m : Nat) : Fld := ⟨0x2008000 + m * 0x80000, 12, 8, 0x1f, .stg⟩

/-- `HTH_MOD_CFGm` [0:0] (STG). -/
def HTH_MOD_CFG.EN (m : Nat) : Fld := ⟨0x2008000 + m * 0x80000, 0, 0, 1, .stg⟩

/-- `HTH_MOD_STATm` [63:48] (RO). -/
def HTH_MOD_STAT.SAVE_CAP (m : Nat) : Fld := ⟨0x2008008 + m * 0x80000, 63, 48, 0, .ro⟩

/-- `HTH_MOD_STATm` [47:32] (RO). -/
def HTH_MOD_STAT.CAP_GIB (m : Nat) : Fld := ⟨0x2008008 + m * 0x80000, 47, 32, 0, .ro⟩

/-- `HTH_MOD_STATm` [31:24] (RO). -/
def HTH_MOD_STAT.TEMP (m : Nat) : Fld := ⟨0x2008008 + m * 0x80000, 31, 24, 0, .ro⟩

/-- `HTH_MOD_STATm` [23:16] (RO). -/
def HTH_MOD_STAT.DIES (m : Nat) : Fld := ⟨0x2008008 + m * 0x80000, 23, 16, 0, .ro⟩

/-- `HTH_MOD_STATm` [13:13] (RO). -/
def HTH_MOD_STAT.PLANES (m : Nat) : Fld := ⟨0x2008008 + m * 0x80000, 13, 13, 0, .ro⟩

/-- `HTH_MOD_STATm` [12:12] (RO). -/
def HTH_MOD_STAT.PROTO (m : Nat) : Fld := ⟨0x2008008 + m * 0x80000, 12, 12, 0, .ro⟩

/-- `HTH_MOD_STATm` [11:10] (RO). -/
def HTH_MOD_STAT.WINDOW (m : Nat) : Fld := ⟨0x2008008 + m * 0x80000, 11, 10, 0, .ro⟩

/-- `HTH_MOD_STATm` [2:0] (RO). -/
def HTH_MOD_STAT.STATE (m : Nat) : Fld := ⟨0x2008008 + m * 0x80000, 2, 0, 0, .ro⟩

/-- `HTH_EDGE_CFGe` [11:0] (STG). -/
def HTH_EDGE_CFG.RATE (e : Nat) : Fld := ⟨0x200C000 + e * 0x500000, 11, 0, 0x320, .stg⟩

/-- `CPH_CTL` [31:16] (STG). -/
def CPH_CTL.KAT_S : Fld := ⟨0xB00000, 31, 16, 0xe10, .stg⟩

/-- `CPH_CTL` [0:0] (STG). -/
def CPH_CTL.TAMPER_EN : Fld := ⟨0xB00000, 0, 0, 1, .stg⟩

/-- `CPH_ALARM` [8:8] (RO). -/
def CPH_ALARM.ACTIVE : Fld := ⟨0xB00008, 8, 8, 0, .ro⟩

/-- `CPH_ALARM` [3:3] (W1C). -/
def CPH_ALARM.SELFTEST : Fld := ⟨0xB00008, 3, 3, 0, .w1c⟩

/-- `CPH_ALARM` [2:2] (W1C). -/
def CPH_ALARM.TEMP : Fld := ⟨0xB00008, 2, 2, 0, .w1c⟩

/-- `CPH_ALARM` [1:1] (W1C). -/
def CPH_ALARM.GLITCH : Fld := ⟨0xB00008, 1, 1, 0, .w1c⟩

/-- `CPH_ALARM` [0:0] (W1C). -/
def CPH_ALARM.TAMPER : Fld := ⟨0xB00008, 0, 0, 0, .w1c⟩

/-- `CPH_KEY_DATAi` [63:0] (WO). -/
def CPH_KEY_DATA.KEY (i : Nat) : Fld := ⟨0xB00100 + i * 0x8, 63, 0, 0, .wo⟩

/-- `CPH_KEY_LOAD` [63:63] (W1S). -/
def CPH_KEY_LOAD.GO : Fld := ⟨0xB00200, 63, 63, 0, .w1s⟩

/-- `CPH_KEY_LOAD` [62:62] (RO). -/
def CPH_KEY_LOAD.BUSY : Fld := ⟨0xB00200, 62, 62, 0, .ro⟩

/-- `CPH_KEY_LOAD` [57:56] (RW). -/
def CPH_KEY_LOAD.OP : Fld := ⟨0xB00200, 57, 56, 0, .rw⟩

/-- `CPH_KEY_LOAD` [55:48] (RO). -/
def CPH_KEY_LOAD.RESULT : Fld := ⟨0xB00200, 55, 48, 0, .ro⟩

/-- `CPH_KEY_LOAD` [33:32] (RW). -/
def CPH_KEY_LOAD.FLAGS : Fld := ⟨0xB00200, 33, 32, 0, .rw⟩

/-- `CPH_KEY_LOAD` [27:24] (RW). -/
def CPH_KEY_LOAD.USAGE : Fld := ⟨0xB00200, 27, 24, 0, .rw⟩

/-- `CPH_KEY_LOAD` [11:0] (RW). -/
def CPH_KEY_LOAD.SLOT : Fld := ⟨0xB00200, 11, 0, 0, .rw⟩

/-- `CPH_SLOT_IDX` [11:0] (RW). -/
def CPH_SLOT_IDX.SLOT : Fld := ⟨0xB00210, 11, 0, 0, .rw⟩

/-- `CPH_SLOT_INFO` [23:12] (RO). -/
def CPH_SLOT_INFO.REGION : Fld := ⟨0xB00218, 23, 12, 0, .ro⟩

/-- `CPH_SLOT_INFO` [9:9] (RO). -/
def CPH_SLOT_INFO.JOB : Fld := ⟨0xB00218, 9, 9, 0, .ro⟩

/-- `CPH_SLOT_INFO` [8:8] (RO). -/
def CPH_SLOT_INFO.PERSIST : Fld := ⟨0xB00218, 8, 8, 0, .ro⟩

/-- `CPH_SLOT_INFO` [7:4] (RO). -/
def CPH_SLOT_INFO.STATE : Fld := ⟨0xB00218, 7, 4, 0, .ro⟩

/-- `CPH_SLOT_INFO` [3:0] (RO). -/
def CPH_SLOT_INFO.USAGE : Fld := ⟨0xB00218, 3, 0, 0, .ro⟩

/-- `CPH_RNG` [63:0] (RO). -/
def CPH_RNG.DATA : Fld := ⟨0xB00300, 63, 0, 0, .ro⟩

/-- `CPH_RNG_STAT` [31:16] (RO). -/
def CPH_RNG_STAT.FAIL_CNT : Fld := ⟨0xB00308, 31, 16, 0, .ro⟩

/-- `CPH_RNG_STAT` [1:0] (RO). -/
def CPH_RNG_STAT.STATE : Fld := ⟨0xB00308, 1, 0, 0, .ro⟩

/-- `CPH_QSTAT` [63:32] (RO). -/
def CPH_QSTAT.JOBS : Fld := ⟨0xB00400, 63, 32, 0, .ro⟩

/-- `CPH_QSTAT` [31:16] (RO). -/
def CPH_QSTAT.TAG_FAIL : Fld := ⟨0xB00400, 31, 16, 0, .ro⟩

/-- `CPH_QSTAT` [10:0] (RO). -/
def CPH_QSTAT.DEPTH : Fld := ⟨0xB00400, 10, 0, 0, .ro⟩

/-- `RING_KICK` [0:0] (W1S). -/
def RING_KICK.KICK : Fld := ⟨0x200000, 0, 0, 0, .w1s⟩

/-- `RING_GSTAT` [63:32] (RO). -/
def RING_GSTAT.HB_AGE : Fld := ⟨0x200008, 63, 32, 0, .ro⟩

/-- `RING_GSTAT` [18:18] (RO). -/
def RING_GSTAT.DIMMED : Fld := ⟨0x200008, 18, 18, 0, .ro⟩

/-- `RING_GSTAT` [17:17] (RO). -/
def RING_GSTAT.BARRIER : Fld := ⟨0x200008, 17, 17, 0, .ro⟩

/-- `RING_GSTAT` [16:16] (RO). -/
def RING_GSTAT.FETCH_ERR : Fld := ⟨0x200008, 16, 16, 0, .ro⟩

/-- `RING_GSTAT` [8:0] (RO). -/
def RING_GSTAT.INFLIGHT : Fld := ⟨0x200008, 8, 0, 0, .ro⟩

/-- `RING_DB_CFG` [63:12] (RW). -/
def RING_DB_CFG.ADDR : Fld := ⟨0x200010, 63, 12, 0, .rw⟩

/-- `RING_DB_CFG` [0:0] (RW). -/
def RING_DB_CFG.EN : Fld := ⟨0x200010, 0, 0, 0, .rw⟩

/-- `RING_DB_PERIOD` [31:0] (RW). -/
def RING_DB_PERIOD.PERIOD_NS : Fld := ⟨0x200018, 31, 0, 0x3e8, .rw⟩

/-- `RING_SQ_CFGn` [117:112] (RW). -/
def RING_SQ_CFG.CQ (n : Nat) : Fld := ⟨0x200100 + n * 0x10, 117, 112, 0, .rw⟩

/-- `RING_SQ_CFGn` [108:104] (RW). -/
def RING_SQ_CFG.SIZE_LOG2 (n : Nat) : Fld := ⟨0x200100 + n * 0x10, 108, 104, 4, .rw⟩

/-- `RING_SQ_CFGn` [97:97] (RW). -/
def RING_SQ_CFG.PRIV (n : Nat) : Fld := ⟨0x200100 + n * 0x10, 97, 97, 0, .rw⟩

/-- `RING_SQ_CFGn` [96:96] (RW). -/
def RING_SQ_CFG.EN (n : Nat) : Fld := ⟨0x200100 + n * 0x10, 96, 96, 0, .rw⟩

/-- `RING_SQ_CFGn` [63:12] (RW). -/
def RING_SQ_CFG.BASE (n : Nat) : Fld := ⟨0x200100 + n * 0x10, 63, 12, 0, .rw⟩

/-- `RING_CQ_CFGn` [117:112] (RW). -/
def RING_CQ_CFG.VECTOR (n : Nat) : Fld := ⟨0x200800 + n * 0x10, 117, 112, 0, .rw⟩

/-- `RING_CQ_CFGn` [108:104] (RW). -/
def RING_CQ_CFG.SIZE_LOG2 (n : Nat) : Fld := ⟨0x200800 + n * 0x10, 108, 104, 4, .rw⟩

/-- `RING_CQ_CFGn` [96:96] (RW). -/
def RING_CQ_CFG.EN (n : Nat) : Fld := ⟨0x200800 + n * 0x10, 96, 96, 0, .rw⟩

/-- `RING_CQ_CFGn` [63:12] (RW). -/
def RING_CQ_CFG.BASE (n : Nat) : Fld := ⟨0x200800 + n * 0x10, 63, 12, 0, .rw⟩

/-- `RING_STATn` [127:96] (RO). -/
def RING_STAT.DONE_CNT (n : Nat) : Fld := ⟨0x201000 + n * 0x10, 127, 96, 0, .ro⟩

/-- `RING_STATn` [95:80] (RO). -/
def RING_STAT.SQ_HEAD (n : Nat) : Fld := ⟨0x201000 + n * 0x10, 95, 80, 0, .ro⟩

/-- `RING_STATn` [79:64] (RO). -/
def RING_STAT.CQ_TAIL (n : Nat) : Fld := ⟨0x201000 + n * 0x10, 79, 64, 0, .ro⟩

/-- `RING_STATn` [1:1] (RO). -/
def RING_STAT.CQ_PHASE (n : Nat) : Fld := ⟨0x201000 + n * 0x10, 1, 1, 0, .ro⟩

/-- `RING_STATn` [0:0] (RO). -/
def RING_STAT.STALLED (n : Nat) : Fld := ⟨0x201000 + n * 0x10, 0, 0, 0, .ro⟩

/-- `GLB_ID` [127:64] (RO). DESIGN CHOICE 0: no reset value is given (log entry 3). -/
def GLB_ID.SERIAL : Fld := ⟨0x0, 127, 64, 0, .ro⟩

/-- `GLB_ID` [47:40] (RO). DESIGN CHOICE 0: no reset value is given (log entry 3). -/
def GLB_ID.GRADE : Fld := ⟨0x0, 47, 40, 0, .ro⟩

/-- `GLB_ID` [39:32] (RO). -/
def GLB_ID.STEP : Fld := ⟨0x0, 39, 32, 0x10, .ro⟩

/-- `GLB_ID` [31:16] (RO). -/
def GLB_ID.DEVICE : Fld := ⟨0x0, 31, 16, 0x8200, .ro⟩

/-- `GLB_ID` [15:0] (RO). DESIGN CHOICE 0: no reset value is given (log entry 3). -/
def GLB_ID.VENDOR : Fld := ⟨0x0, 15, 0, 0, .ro⟩

/-- `GLB_CAP` [99:64] (RO). -/
def GLB_CAP.MDW_PLOTS : Fld := ⟨0x10, 99, 64, 0, .ro⟩

/-- `GLB_CAP` [35:0] (RO). -/
def GLB_CAP.REGION_PLOTS : Fld := ⟨0x10, 35, 0, 0, .ro⟩

/-- `GLB_RSV` [119:96] (RO). -/
def GLB_RSV.HOME_MIB : Fld := ⟨0x20, 119, 96, 0, .ro⟩

/-- `GLB_RSV` [95:72] (RO). -/
def GLB_RSV.CONN_MIB : Fld := ⟨0x20, 95, 72, 0, .ro⟩

/-- `GLB_RSV` [71:48] (RO). -/
def GLB_RSV.FJ_MIB : Fld := ⟨0x20, 71, 48, 0, .ro⟩

/-- `GLB_RSV` [47:24] (RO). -/
def GLB_RSV.JRNL_MIB : Fld := ⟨0x20, 47, 24, 0, .ro⟩

/-- `GLB_RSV` [23:0] (RO). -/
def GLB_RSV.CANDLE_MIB : Fld := ⟨0x20, 23, 0, 0, .ro⟩

/-- `GLB_PWR_CAP` [63:32] (RO). -/
def GLB_PWR_CAP.BANKED_US : Fld := ⟨0x30, 63, 32, 0x1e8480, .ro⟩

/-- `GLB_PWR_CAP` [31:16] (RO). -/
def GLB_PWR_CAP.SHADED_US : Fld := ⟨0x30, 31, 16, 0x96, .ro⟩

/-- `GLB_PWR_CAP` [15:0] (RO). -/
def GLB_PWR_CAP.DIMMED_US : Fld := ⟨0x30, 15, 0, 2, .ro⟩

/-- `GLB_ILLEGAL_CNT` [63:56] (RO). -/
def GLB_ILLEGAL_CNT.LAST_KIND : Fld := ⟨0x40, 63, 56, 0, .ro⟩

/-- `GLB_ILLEGAL_CNT` [55:32] (RO). -/
def GLB_ILLEGAL_CNT.LAST_OFFSET : Fld := ⟨0x40, 55, 32, 0, .ro⟩

/-- `GLB_ILLEGAL_CNT` [31:0] (RO). -/
def GLB_ILLEGAL_CNT.COUNT : Fld := ⟨0x40, 31, 0, 0, .ro⟩

/-- `CFX_CTL` [7:6] (RO). -/
def CFX_CTL.HOLDER : Fld := ⟨0x100000, 7, 6, 0, .ro⟩

/-- `CFX_CTL` [5:4] (RO). -/
def CFX_CTL.STATE : Fld := ⟨0x100000, 5, 4, 0, .ro⟩

/-- `CFX_CTL` [2:2] (RW). -/
def CFX_CTL.GRANT : Fld := ⟨0x100000, 2, 2, 0, .rw⟩

/-- `CFX_CTL` [1:1] (W1S). -/
def CFX_CTL.DISCARD : Fld := ⟨0x100000, 1, 1, 0, .w1s⟩

/-- `CFX_CTL` [0:0] (W1S). -/
def CFX_CTL.OPEN : Fld := ⟨0x100000, 0, 0, 0, .w1s⟩

/-- `CFX_RESULT` [127:64] (RO). -/
def CFX_RESULT.AT_NS : Fld := ⟨0x100008, 127, 64, 0, .ro⟩

/-- `CFX_RESULT` [39:16] (RO). -/
def CFX_RESULT.OFFSET : Fld := ⟨0x100008, 39, 16, 0, .ro⟩

/-- `CFX_RESULT` [15:8] (RO). -/
def CFX_RESULT.CHECK : Fld := ⟨0x100008, 15, 8, 0, .ro⟩

/-- `CFX_RESULT` [1:0] (RO). -/
def CFX_RESULT.OUTCOME : Fld := ⟨0x100008, 1, 0, 0, .ro⟩

/-- `CFX_PEEK_ADDR` [25:3] (RW). -/
def CFX_PEEK_ADDR.OFFSET : Fld := ⟨0x100020, 25, 3, 0, .rw⟩

/-- `CFX_PEEK_DATA` [63:0] (RO). -/
def CFX_PEEK_DATA.DATA : Fld := ⟨0x100028, 63, 0, 0, .ro⟩

/-- `CFX_STORE` [63:48] (RO). -/
def CFX_STORE.FORMAT : Fld := ⟨0x100030, 63, 48, 0, .ro⟩

/-- `CFX_STORE` [35:32] (RO). -/
def CFX_STORE.COPIES : Fld := ⟨0x100030, 35, 32, 0, .ro⟩

/-- `CFX_STORE` [31:0] (RO). -/
def CFX_STORE.GENERATION : Fld := ⟨0x100030, 31, 0, 0, .ro⟩

/-- `SBP_CFG` [16:16] (STG). -/
def SBP_CFG.AUTH_EN : Fld := ⟨0x3000000, 16, 16, 0, .stg⟩

/-- `SBP_CFG` [11:0] (STG). -/
def SBP_CFG.AUTH_SLOT : Fld := ⟨0x3000000, 11, 0, 0, .stg⟩

/-- `SBP_STAT` [63:56] (RO). -/
def SBP_STAT.EID : Fld := ⟨0x3000008, 63, 56, 0, .ro⟩

/-- `SBP_STAT` [54:48] (RO). -/
def SBP_STAT.DYN_ADDR : Fld := ⟨0x3000008, 54, 48, 0, .ro⟩

/-- `SBP_STAT` [4:4] (RO). -/
def SBP_STAT.IBI_EN : Fld := ⟨0x3000008, 4, 4, 0, .ro⟩

/-- `SBP_STAT` [3:2] (RO). -/
def SBP_STAT.AUTHORITY : Fld := ⟨0x3000008, 3, 2, 0, .ro⟩

/-- `SBP_STAT` [1:1] (RO). -/
def SBP_STAT.MAIN_ABSENT : Fld := ⟨0x3000008, 1, 1, 0, .ro⟩

/-- `SBP_STAT` [0:0] (RO). -/
def SBP_STAT.CORE_DARK : Fld := ⟨0x3000008, 0, 0, 0, .ro⟩

/-- `SBP_CNT` [127:96] (RO). -/
def SBP_CNT.AUTH_FAIL : Fld := ⟨0x3000010, 127, 96, 0, .ro⟩

/-- `SBP_CNT` [95:64] (RO). -/
def SBP_CNT.PEC_ERR : Fld := ⟨0x3000010, 95, 64, 0, .ro⟩

/-- `SBP_CNT` [63:32] (RO). -/
def SBP_CNT.DARK : Fld := ⟨0x3000010, 63, 32, 0, .ro⟩

/-- `SBP_CNT` [31:0] (RO). -/
def SBP_CNT.MSGS : Fld := ⟨0x3000010, 31, 0, 0, .ro⟩

/-- `PWR_CTL` [31:31] (W1S). -/
def PWR_CTL.GO : Fld := ⟨0xC00000, 31, 31, 0, .w1s⟩

/-- `PWR_CTL` [30:30] (RO). -/
def PWR_CTL.BUSY : Fld := ⟨0xC00000, 30, 30, 0, .ro⟩

/-- `PWR_CTL` [23:16] (RO). -/
def PWR_CTL.RESULT : Fld := ⟨0xC00000, 23, 16, 0, .ro⟩

/-- `PWR_CTL` [13:8] (RW). -/
def PWR_CTL.BAY : Fld := ⟨0xC00000, 13, 8, 0, .rw⟩

/-- `PWR_CTL` [2:0] (RW). -/
def PWR_CTL.OP : Fld := ⟨0xC00000, 2, 0, 0, .rw⟩

/-- `PWR_SEQ_CFG` [23:16] (STG). DESIGN CHOICE 1: no reset value is given, and 0 lies outside the stated range (log entry 3). -/
def PWR_SEQ_CFG.SETTLE : Fld := ⟨0xC00008, 23, 16, 1, .stg⟩

/-- `PWR_SEQ_CFG` [11:10] (STG). DESIGN CHOICE 0: no reset value is given (log entry 3). -/
def PWR_SEQ_CFG.BUS : Fld := ⟨0xC00008, 11, 10, 0, .stg⟩

/-- `PWR_SEQ_CFG` [0:0] (STG). DESIGN CHOICE 0: no reset value is given (log entry 3). -/
def PWR_SEQ_CFG.AUTO_ON : Fld := ⟨0xC00008, 0, 0, 0, .stg⟩

/-- `PWR_RAILn` [127:127] (STG). DESIGN CHOICE 0: no reset value is given (log entry 3). -/
def PWR_RAIL.EN (n : Nat) : Fld := ⟨0xC00100 + n * 0x10, 127, 127, 0, .stg⟩

/-- `PWR_RAILn` [126:126] (STG). DESIGN CHOICE 0: no reset value is given (log entry 3). -/
def PWR_RAIL.KEEP (n : Nat) : Fld := ⟨0xC00100 + n * 0x10, 126, 126, 0, .stg⟩

/-- `PWR_RAILn` [125:124] (STG). DESIGN CHOICE 0: no reset value is given (log entry 3). -/
def PWR_RAIL.ACTION (n : Nat) : Fld := ⟨0xC00100 + n * 0x10, 125, 124, 0, .stg⟩

/-- `PWR_RAILn` [123:118] (STG). DESIGN CHOICE 0: no reset value is given (log entry 3). -/
def PWR_RAIL.BAY (n : Nat) : Fld := ⟨0xC00100 + n * 0x10, 123, 118, 0, .stg⟩

/-- `PWR_RAILn` [117:112] (STG). DESIGN CHOICE 0: no reset value is given (log entry 3). -/
def PWR_RAIL.SENSE (n : Nat) : Fld := ⟨0xC00100 + n * 0x10, 117, 112, 0, .stg⟩

/-- `PWR_RAILn` [111:105] (STG). DESIGN CHOICE 0: no reset value is given (log entry 3). -/
def PWR_RAIL.SLAVE (n : Nat) : Fld := ⟨0xC00100 + n * 0x10, 111, 105, 0, .stg⟩

/-- `PWR_RAILn` [103:100] (STG). DESIGN CHOICE 0: no reset value is given (log entry 3). -/
def PWR_RAIL.PAGE (n : Nat) : Fld := ⟨0xC00100 + n * 0x10, 103, 100, 0, .stg⟩

/-- `PWR_RAILn` [63:48] (STG). DESIGN CHOICE 0: no reset value is given (log entry 3). -/
def PWR_RAIL.ON_SLOT (n : Nat) : Fld := ⟨0xC00100 + n * 0x10, 63, 48, 0, .stg⟩

/-- `PWR_RAILn` [47:32] (STG). DESIGN CHOICE 0: no reset value is given (log entry 3). -/
def PWR_RAIL.OFF_SLOT (n : Nat) : Fld := ⟨0xC00100 + n * 0x10, 47, 32, 0, .stg⟩

/-- `PWR_RAILn` [27:16] (STG). DESIGN CHOICE 0: no reset value is given (log entry 3). -/
def PWR_RAIL.MAX (n : Nat) : Fld := ⟨0xC00100 + n * 0x10, 27, 16, 0, .stg⟩

/-- `PWR_RAILn` [11:0] (STG). DESIGN CHOICE 0: no reset value is given (log entry 3). -/
def PWR_RAIL.MIN (n : Nat) : Fld := ⟨0xC00100 + n * 0x10, 11, 0, 0, .stg⟩

/-- `PWR_RAIL_STAT` [111:64] (W1C). -/
def PWR_RAIL_STAT.FAULT : Fld := ⟨0xC00400, 111, 64, 0, .w1c⟩

/-- `PWR_RAIL_STAT` [47:0] (RO). -/
def PWR_RAIL_STAT.ON : Fld := ⟨0xC00400, 47, 0, 0, .ro⟩

/-- `PWR_HKk` [31:16] (RO). -/
def PWR_HK.ROUND (k : Nat) : Fld := ⟨0xC00500 + k * 0x4, 31, 16, 0, .ro⟩

/-- `PWR_HKk` [12:12] (RO). -/
def PWR_HK.OOR (k : Nat) : Fld := ⟨0xC00500 + k * 0x4, 12, 12, 0, .ro⟩

/-- `PWR_HKk` [11:0] (RO). -/
def PWR_HK.CODE (k : Nat) : Fld := ⟨0xC00500 + k * 0x4, 11, 0, 0, .ro⟩

/-- `PWR_STATE` [121:120] (RO). -/
def PWR_STATE.HEATH_SHADED : Fld := ⟨0xC00600, 121, 120, 0, .ro⟩

/-- `PWR_STATE` [119:114] (RO). -/
def PWR_STATE.DRAM_SHADED : Fld := ⟨0xC00600, 119, 114, 0, .ro⟩

/-- `PWR_STATE` [111:96] (RO). -/
def PWR_STATE.LAN_SHADED : Fld := ⟨0xC00600, 111, 96, 0, .ro⟩

/-- `PWR_STATE` [95:80] (RO). -/
def PWR_STATE.LAN_DIMMED : Fld := ⟨0xC00600, 95, 80, 0, .ro⟩

/-- `PWR_STATE` [79:72] (RO). -/
def PWR_STATE.PG_SHADED : Fld := ⟨0xC00600, 79, 72, 0, .ro⟩

/-- `PWR_STATE` [71:64] (RO). -/
def PWR_STATE.PG_DIMMED : Fld := ⟨0xC00600, 71, 64, 0, .ro⟩

/-- `PWR_STATE` [1:0] (RO). -/
def PWR_STATE.DEVICE : Fld := ⟨0xC00600, 1, 0, 0, .ro⟩

/-- `PWR_IDLE` [63:48] (STG). -/
def PWR_IDLE.BANK_S : Fld := ⟨0xC00700, 63, 48, 0, .stg⟩

/-- `PWR_IDLE` [47:32] (STG). -/
def PWR_IDLE.SHADE_US : Fld := ⟨0xC00700, 47, 32, 0, .stg⟩

/-- `PWR_IDLE` [15:0] (STG). -/
def PWR_IDLE.DIM_US : Fld := ⟨0xC00700, 15, 0, 0x32, .stg⟩

/-- `THM_MAX` [31:24] (RO). -/
def THM_MAX.TMAX : Fld := ⟨0xD00000, 31, 24, 0, .ro⟩

/-- `THM_MAX` [20:16] (RO). -/
def THM_MAX.INDEX : Fld := ⟨0xD00000, 20, 16, 0, .ro⟩

/-- `THM_MAX` [13:8] (RO). -/
def THM_MAX.SUSPECTS : Fld := ⟨0xD00000, 13, 8, 0, .ro⟩

/-- `THM_MAX` [2:0] (RO). -/
def THM_MAX.STAGE : Fld := ⟨0xD00000, 2, 0, 0, .ro⟩

/-- `THM_THR` [55:48] (STG). -/
def THM_THR.HYST : Fld := ⟨0xD00008, 55, 48, 3, .stg⟩

/-- `THM_THR` [47:40] (STG). -/
def THM_THR.TRIP : Fld := ⟨0xD00008, 47, 40, 0x6c, .stg⟩

/-- `THM_THR` [39:32] (STG). -/
def THM_THR.T3 : Fld := ⟨0xD00008, 39, 32, 0x67, .stg⟩

/-- `THM_THR` [31:24] (STG). -/
def THM_THR.T2 : Fld := ⟨0xD00008, 31, 24, 0x64, .stg⟩

/-- `THM_THR` [23:16] (STG). -/
def THM_THR.T1 : Fld := ⟨0xD00008, 23, 16, 0x5f, .stg⟩

/-- `THM_THR` [15:8] (STG). -/
def THM_THR.PACE_PCT : Fld := ⟨0xD00008, 15, 8, 0x32, .stg⟩

/-- `THM_THR` [3:0] (STG). -/
def THM_THR.SKIP_N : Fld := ⟨0xD00008, 3, 0, 4, .stg⟩

/-- `THM_DIMM` [15:8] (STG). -/
def THM_DIMM.DIMM_BW_PCT : Fld := ⟨0xD00010, 15, 8, 0x32, .stg⟩

/-- `THM_DIMM` [7:0] (STG). -/
def THM_DIMM.DIMM_THR : Fld := ⟨0xD00010, 7, 0, 0x5a, .stg⟩

/-- `THM_SENSn` [9:9] (RO). -/
def THM_SENS.SUSPECT (n : Nat) : Fld := ⟨0xD00100 + n * 0x4, 9, 9, 0, .ro⟩

/-- `THM_SENSn` [7:0] (RO). -/
def THM_SENS.TEMP (n : Nat) : Fld := ⟨0xD00100 + n * 0x4, 7, 0, 0, .ro⟩

/-- `THM_THERMk` [63:56] (STG). -/
def THM_THERM.HI (k : Nat) : Fld := ⟨0xD00200 + k * 0x8, 63, 56, 0x55, .stg⟩

/-- `THM_THERMk` [48:48] (STG). -/
def THM_THERM.CURVE (k : Nat) : Fld := ⟨0xD00200 + k * 0x8, 48, 48, 0, .stg⟩

/-- `THM_THERMk` [16:16] (RO). -/
def THM_THERM.OOR (k : Nat) : Fld := ⟨0xD00200 + k * 0x8, 16, 16, 0, .ro⟩

/-- `THM_THERMk` [7:0] (RO). -/
def THM_THERM.TEMP (k : Nat) : Fld := ⟨0xD00200 + k * 0x8, 7, 0, 0, .ro⟩

/-- `AGE_CTL` [63:48] (STG). -/
def AGE_CTL.LIFE_WARN_MO : Fld := ⟨0xE00000, 63, 48, 0x3c, .stg⟩

/-- `AGE_CTL` [47:32] (STG). -/
def AGE_CTL.VMAX_MV : Fld := ⟨0xE00000, 47, 32, 0x352, .stg⟩

/-- `AGE_CTL` [31:16] (STG). -/
def AGE_CTL.VMIN_MV : Fld := ⟨0xE00000, 31, 16, 0x2bc, .stg⟩

/-- `AGE_CTL` [15:8] (STG). -/
def AGE_CTL.SWEEP_H : Fld := ⟨0xE00000, 15, 8, 0x18, .stg⟩

/-- `AGE_CTL` [7:0] (STG). -/
def AGE_CTL.PLAN_H : Fld := ⟨0xE00000, 7, 0, 0x18, .stg⟩

/-- `AGE_PLAN_STAT` [127:80] (RO). -/
def AGE_PLAN_STAT.EPOCH : Fld := ⟨0xE00008, 127, 80, 0, .ro⟩

/-- `AGE_PLAN_STAT` [79:64] (RO). -/
def AGE_PLAN_STAT.VCORE_MV : Fld := ⟨0xE00008, 79, 64, 0, .ro⟩

/-- `AGE_PLAN_STAT` [63:32] (RO). -/
def AGE_PLAN_STAT.PLANS : Fld := ⟨0xE00008, 63, 32, 0, .ro⟩

/-- `AGE_PLAN_STAT` [3:0] (RO). -/
def AGE_PLAN_STAT.OUTCOME : Fld := ⟨0xE00008, 3, 0, 0, .ro⟩

/-- `AGE_ROk` [63:32] (RO). DESIGN CHOICE 0: no reset value is given (log entry 3). -/
def AGE_RO.BASE_HZ (k : Nat) : Fld := ⟨0xE00100 + k * 0x8, 63, 32, 0, .ro⟩

/-- `AGE_ROk` [31:0] (RO). -/
def AGE_RO.DRIFT_PPM (k : Nat) : Fld := ⟨0xE00100 + k * 0x8, 31, 0, 0, .ro⟩

/-- `AGE_LIFE` [127:96] (RWP). -/
def AGE_LIFE.EQ_HOURS : Fld := ⟨0xE00200, 127, 96, 0, .rwp⟩

/-- `AGE_LIFE` [95:80] (RO). -/
def AGE_LIFE.DRIFT_MO : Fld := ⟨0xE00200, 95, 80, 0, .ro⟩

/-- `AGE_LIFE` [79:64] (RO). -/
def AGE_LIFE.THERMAL_MO : Fld := ⟨0xE00200, 79, 64, 0, .ro⟩

/-- `AGE_LIFE` [15:0] (RO). -/
def AGE_LIFE.LIFE_MO : Fld := ⟨0xE00200, 15, 0, 0, .ro⟩

/-- `AGE_ENGL` [24:16] (RWP). -/
def AGE_ENG.RETIRED (L : Nat) : Fld := ⟨0xE00300 + L * 0x8, 24, 16, 0, .rwp⟩

/-- `AGE_ENGL` [15:8] (RO). DESIGN CHOICE 0: no reset value is given (log entry 3). -/
def AGE_ENG.ACTIVE (L : Nat) : Fld := ⟨0xE00300 + L * 0x8, 15, 8, 0, .ro⟩

/-- `AGE_ENGL` [3:0] (RO). DESIGN CHOICE 0: no reset value is given (log entry 3). -/
def AGE_ENG.SPARE (L : Nat) : Fld := ⟨0xE00300 + L * 0x8, 3, 0, 0, .ro⟩

/-- `AGE_HOLDUP` [16:16] (RO). -/
def AGE_HOLDUP.FAIL : Fld := ⟨0xE00400, 16, 16, 0, .ro⟩

/-- `AGE_HOLDUP` [11:0] (STG). -/
def AGE_HOLDUP.VMIN : Fld := ⟨0xE00400, 11, 0, 0, .stg⟩

/-- `FWM_CTL` [8:8] (W1S). -/
def FWM_CTL.ROLLBACK : Fld := ⟨0xF00000, 8, 8, 0, .w1s⟩

/-- `FWM_CTL` [7:0] (STG). -/
def FWM_CTL.CONFIRM_MIN : Fld := ⟨0xF00000, 7, 0, 0xa, .stg⟩

/-- `FWM_STAT` [63:48] (RO). -/
def FWM_STAT.WINDOW_S : Fld := ⟨0xF00008, 63, 48, 0, .ro⟩

/-- `FWM_STAT` [31:16] (RO). -/
def FWM_STAT.LANTERNS : Fld := ⟨0xF00008, 31, 16, 0, .ro⟩

/-- `FWM_STAT` [3:2] (RO). -/
def FWM_STAT.HOLD : Fld := ⟨0xF00008, 3, 2, 0, .ro⟩

/-- `FWM_STAT` [1:1] (RO). -/
def FWM_STAT.CONFIRMED : Fld := ⟨0xF00008, 1, 1, 0, .ro⟩

/-- `FWM_STAT` [0:0] (RO). DESIGN CHOICE 0: no reset value is given (log entry 3). -/
def FWM_STAT.ACTIVE : Fld := ⟨0xF00008, 0, 0, 0, .ro⟩

/-- `FWM_SLOTs` [63:32] (RO). DESIGN CHOICE 0: no reset value is given (log entry 3). -/
def FWM_SLOT.VERSION (s : Nat) : Fld := ⟨0xF00100 + s * 0x8, 63, 32, 0, .ro⟩

/-- `FWM_SLOTs` [31:24] (RO). DESIGN CHOICE 0: no reset value is given (log entry 3). -/
def FWM_SLOT.FMT_HI (s : Nat) : Fld := ⟨0xF00100 + s * 0x8, 31, 24, 0, .ro⟩

/-- `FWM_SLOTs` [23:16] (RO). DESIGN CHOICE 0: no reset value is given (log entry 3). -/
def FWM_SLOT.FMT_LO (s : Nat) : Fld := ⟨0xF00100 + s * 0x8, 23, 16, 0, .ro⟩

/-- `FWM_SLOTs` [2:0] (RO). DESIGN CHOICE 0: no reset value is given (log entry 3). -/
def FWM_SLOT.STATE (s : Nat) : Fld := ⟨0xF00100 + s * 0x8, 2, 0, 0, .ro⟩

/-- `EVT_SRCn` [31:31] (RW). -/
def EVT_SRC.MSIX_EN (n : Nat) : Fld := ⟨0x300000 + n * 0x4, 31, 31, 0, .rw⟩

/-- `EVT_SRCn` [30:30] (RW). -/
def EVT_SRC.IBI_EN (n : Nat) : Fld := ⟨0x300000 + n * 0x4, 30, 30, 0, .rw⟩

/-- `EVT_SRCn` [5:0] (RW). -/
def EVT_SRC.VECTOR (n : Nat) : Fld := ⟨0x300000 + n * 0x4, 5, 0, 0, .rw⟩

/-- `EVT_PENDg` [31:0] (W1C). -/
def EVT_PEND.PEND (g : Nat) : Fld := ⟨0x301000 + g * 0x8, 31, 0, 0, .w1c⟩

/-- `EVT_IBI_STAT` [31:16] (RO). -/
def EVT_IBI_STAT.IBI_LOST : Fld := ⟨0x301100, 31, 16, 0, .ro⟩

/-- `EVT_IBI_STAT` [4:0] (RO). -/
def EVT_IBI_STAT.DEPTH : Fld := ⟨0x301100, 4, 0, 0, .ro⟩

/-- `EVR_CTL` [2:0] (RW). -/
def EVR_CTL.MIN_SEV : Fld := ⟨0x400000, 2, 0, 1, .rw⟩

/-- `EVR_STAT` [63:32] (RO). -/
def EVR_STAT.NEXT_SEQ : Fld := ⟨0x400008, 63, 32, 0, .ro⟩

/-- `EVR_STAT` [12:0] (RO). -/
def EVR_STAT.COUNT : Fld := ⟨0x400008, 12, 0, 0, .ro⟩

/-- `EVR_LOST_CNT` [31:0] (RO). DESIGN CHOICE 0: no reset value is given (log entry 3). -/
def EVR_LOST_CNT.LOST : Fld := ⟨0x400010, 31, 0, 0, .ro⟩

/-- `EVR_LIFE` [63:32] (RWP). DESIGN CHOICE 0: no reset value is given (log entry 3). -/
def EVR_LIFE.PCYCLE : Fld := ⟨0x400018, 63, 32, 0, .rwp⟩

/-- `EVR_LIFE` [31:0] (RO). DESIGN CHOICE 0: no reset value is given (log entry 3). -/
def EVR_LIFE.HOURS : Fld := ⟨0x400018, 31, 0, 0, .ro⟩

/-- `EVR_TRIGt` [31:31] (RW). -/
def EVR_TRIG.EN (t : Nat) : Fld := ⟨0x400040 + t * 0x4, 31, 31, 0, .rw⟩

/-- `EVR_TRIGt` [8:0] (RW). -/
def EVR_TRIG.SOURCE (t : Nat) : Fld := ⟨0x400040 + t * 0x4, 8, 0, 0, .rw⟩

/-- `EVR_SNAPt_k` [31:31] (RW). -/
def EVR_SNAP.HIGH (t : Nat) (k : Nat) : Fld := ⟨0x400080 + t * 0x20 + k * 0x4, 31, 31, 0, .rw⟩

/-- `EVR_SNAPt_k` [25:3] (RW). -/
def EVR_SNAP.OFFSET (t : Nat) (k : Nat) : Fld := ⟨0x400080 + t * 0x20 + k * 0x4, 25, 3, 0, .rw⟩

/-- `EVR_CURSOR` [31:0] (RW). -/
def EVR_CURSOR.SEQ : Fld := ⟨0x400300, 31, 0, 0, .rw⟩

/-- `EVR_WIN_CTL` [0:0] (RW). -/
def EVR_WIN_CTL.AUTO : Fld := ⟨0x400308, 0, 0, 1, .rw⟩

/-- `EVR_WINk` [63:0] (RO). -/
def EVR_WIN.DATA (k : Nat) : Fld := ⟨0x400340 + k * 0x8, 63, 0, 0, .ro⟩

/-- `PMC_SELc` [25:25] (RO). -/
def PMC_SEL.SAMPLING (c : Nat) : Fld := ⟨0x500000 + c * 0x8, 25, 25, 0, .ro⟩

/-- `PMC_SELc` [24:24] (RO). -/
def PMC_SEL.ALL (c : Nat) : Fld := ⟨0x500000 + c * 0x8, 24, 24, 0, .ro⟩

/-- `PMC_SELc` [23:16] (RO). -/
def PMC_SEL.INST (c : Nat) : Fld := ⟨0x500000 + c * 0x8, 23, 16, 0, .ro⟩

/-- `PMC_SELc` [11:0] (RO). -/
def PMC_SEL.EVENT (c : Nat) : Fld := ⟨0x500000 + c * 0x8, 11, 0, 0, .ro⟩

/-- `PMC_CNTc` [63:0] (RO). -/
def PMC_CNT.COUNT (c : Nat) : Fld := ⟨0x501000 + c * 0x8, 63, 0, 0, .ro⟩

/-- `PMC_DUMP_STAT` [63:32] (RO). -/
def PMC_DUMP_STAT.SEQ : Fld := ⟨0x502000, 63, 32, 0, .ro⟩

/-- `PMC_DUMP_STAT` [31:0] (RO). -/
def PMC_DUMP_STAT.INTERVAL_US : Fld := ⟨0x502000, 31, 0, 0, .ro⟩

/-- `PMC_BW_CTL` [31:0] (RW). -/
def PMC_BW_CTL.WIN_US : Fld := ⟨0x502008, 31, 0, 0x3e8, .rw⟩

/-- `PMC_SAMP_STAT` [63:32] (RO). -/
def PMC_SAMP_STAT.SAMP_SKIP : Fld := ⟨0x502010, 63, 32, 0, .ro⟩

/-- `PMC_SAMP_STAT` [4:0] (RO). -/
def PMC_SAMP_STAT.ACTIVE : Fld := ⟨0x502010, 4, 0, 0, .ro⟩

/-- `PMC_BWp` [31:16] (RO). -/
def PMC_BW.TX (p : Nat) : Fld := ⟨0x502100 + p * 0x4, 31, 16, 0, .ro⟩

/-- `PMC_BWp` [15:0] (RO). -/
def PMC_BW.RX (p : Nat) : Fld := ⟨0x502100 + p * 0x4, 15, 0, 0, .ro⟩

/-- Registers of chapter 03: first offset, repetitions and strides, width in bits, reset class, fields. -/
def regsHpt : List RegDef := [
  ⟨"HPT_PG_CFG", 0x600000, 8, 0x40, 1, 0x0, 64, .full, fun g _ => [HPT_PG_CFG.LANE_EN g, HPT_PG_CFG.OCT_MODE g]⟩,
  ⟨"HPT_PFC_CTL", 0x600200, 1, 0x0, 1, 0x0, 64, .full, fun _ _ => [HPT_PFC_CTL.WD_MS, HPT_PFC_CTL.XOFF_KIB, HPT_PFC_CTL.QUANTA, HPT_PFC_CTL.LOSSLESS]⟩,
  ⟨"HPT_DSCP_MAP", 0x600240, 4, 0x8, 1, 0x0, 64, .full, fun n _ => (List.range 16).map (HPT_DSCP_MAP.PRI n)⟩,
  ⟨"HPT_CC_CTL", 0x600300, 1, 0x0, 1, 0x0, 64, .full, fun _ _ => [HPT_CC_CTL.AI_STEP, HPT_CC_CTL.RECOVER_US, HPT_CC_CTL.CNP_GAP_US, HPT_CC_CTL.BETA_SHIFT]⟩,
  ⟨"HPT_FAIR_CTL", 0x600400, 1, 0x0, 1, 0x0, 32, .full, fun _ _ => [HPT_FAIR_CTL.WMAX, HPT_FAIR_CTL.QUANTUM]⟩,
  ⟨"HPT_CM_SVC", 0x600500, 1, 0x0, 1, 0x0, 64, .never, fun _ _ => [HPT_CM_SVC.SERVICE_ID]⟩,
  ⟨"HPT_CM_CTL", 0x600508, 1, 0x0, 1, 0x0, 32, .full, fun _ _ => [HPT_CM_CTL.RTU_TO_MS, HPT_CM_CTL.ACCEPT]⟩,
  ⟨"HPT_CONN_STAT", 0x600600, 1, 0x0, 1, 0x0, 64, .full, fun _ _ => [HPT_CONN_STAT.OPEN, HPT_CONN_STAT.HOT, HPT_CONN_STAT.TAGS_BUSY]⟩,
  ⟨"HPT_MAC", 0x600800, 256, 0x8, 1, 0x0, 64, .full, fun p _ => [HPT_MAC.MAC p]⟩,
  ⟨"HPT_GID", 0x601000, 256, 0x100, 16, 0x10, 128, .full, fun p i => [HPT_GID.GID p i]⟩]

/-- Registers of chapter 04: first offset, repetitions and strides, width in bits, reset class, fields. -/
def regsVerb : List RegDef := [
  ⟨"HPT_VERB_CTL", 0x600700, 1, 0x0, 1, 0x0, 32, .full, fun _ _ => [HPT_VERB_CTL.XDL_US, HPT_VERB_CTL.IMM_EN, HPT_VERB_CTL.IMM_RING]⟩,
  ⟨"HPT_DROP_CNT", 0x600710, 1, 0x0, 1, 0x0, 64, .full, fun _ _ => [HPT_DROP_CNT.TAG_STALE, HPT_DROP_CNT.CONN_STALE]⟩,
  ⟨"HPT_DL_CNT", 0x600718, 1, 0x0, 1, 0x0, 64, .full, fun _ _ => [HPT_DL_CNT.LATE_APPLIED, HPT_DL_CNT.EXPIRED]⟩,
  ⟨"HPT_IMM_LOST", 0x600720, 1, 0x0, 1, 0x0, 32, .full, fun _ _ => [HPT_IMM_LOST.LOST]⟩]

/-- Registers of chapter 05: first offset, repetitions and strides, width in bits, reset class, fields. -/
def regsTier : List RegDef := [
  ⟨"TIER_HT_CFG", 0x700000, 1, 0x0, 1, 0x0, 64, .full, fun _ _ => [TIER_HT_CFG.BASE]⟩,
  ⟨"TIER_HT_SIZE", 0x700008, 1, 0x0, 1, 0x0, 64, .full, fun _ _ => [TIER_HT_SIZE.ENTRIES]⟩,
  ⟨"TIER_HEAT_CTL", 0x700040, 1, 0x0, 1, 0x0, 32, .full, fun _ _ => [TIER_HEAT_CTL.SAMPLE_SHIFT, TIER_HEAT_CTL.WR_INC, TIER_HEAT_CTL.RD_INC, TIER_HEAT_CTL.INTERVAL]⟩,
  ⟨"TIER_THRESH", 0x700048, 1, 0x0, 1, 0x0, 64, .full, fun _ _ => [TIER_THRESH.PIN_QUIET, TIER_THRESH.PROMOTE, TIER_THRESH.DEMOTE, TIER_THRESH.DEEP]⟩,
  ⟨"TIER_MDW_POOL", 0x700050, 1, 0x0, 1, 0x0, 64, .full, fun _ _ => [TIER_MDW_POOL.FREE, TIER_MDW_POOL.PROMO_FLOOR, TIER_MDW_POOL.FORCE]⟩,
  ⟨"TIER_PACE", 0x700058, 1, 0x0, 1, 0x0, 32, .full, fun _ _ => [TIER_PACE.EVAC_SHARE, TIER_PACE.BG_SHARE, TIER_PACE.MAX_REFUSE, TIER_PACE.MAX_MIG]⟩,
  ⟨"TIER_WIN_CTL", 0x700060, 1, 0x0, 1, 0x0, 32, .full, fun _ _ => [TIER_WIN_CTL.WIN_ABANDON]⟩,
  ⟨"TIER_CANDLE_CFG", 0x700068, 1, 0x0, 1, 0x0, 64, .full, fun _ _ => [TIER_CANDLE_CFG.COPIES, TIER_CANDLE_CFG.CANDLE_PLOTS]⟩,
  ⟨"TIER_WICK_INV", 0x700080, 1, 0x0, 1, 0x0, 128, .full, fun _ _ => [TIER_WICK_INV.COUNT, TIER_WICK_INV.FIRST, TIER_WICK_INV.LMASK, TIER_WICK_INV.BUSY, TIER_WICK_INV.GO]⟩,
  ⟨"TIER_WICK_STAT", 0x700100, 8, 0x8, 1, 0x0, 64, .full, fun n _ => [TIER_WICK_STAT.MISS n, TIER_WICK_STAT.HIT n]⟩,
  ⟨"TIER_MIG_STAT", 0x700200, 4, 0x10, 1, 0x0, 128, .full, fun m _ => [TIER_MIG_STAT.REFUSED m, TIER_MIG_STAT.CANCELLED m, TIER_MIG_STAT.COMMITTED m, TIER_MIG_STAT.ACTIVE m]⟩]

/-- Registers of chapter 06: first offset, repetitions and strides, width in bits, reset class, fields. -/
def regsDur : List RegDef := [
  ⟨"DUR_HOLDUP", 0x800000, 1, 0x0, 1, 0x0, 64, .full, fun _ _ => [DUR_HOLDUP.VALID, DUR_HOLDUP.P_SAVE_W, DUR_HOLDUP.E_DECL_J]⟩,
  ⟨"DUR_BUDGET_CTL", 0x800008, 1, 0x0, 1, 0x0, 64, .full, fun _ _ => [DUR_BUDGET_CTL.IMG_MAX, DUR_BUDGET_CTL.IMG_SHARE, DUR_BUDGET_CTL.MARK3, DUR_BUDGET_CTL.MARK2, DUR_BUDGET_CTL.MARK1, DUR_BUDGET_CTL.SAFETY]⟩,
  ⟨"DUR_BUDGET_STAT", 0x800010, 1, 0x0, 1, 0x0, 128, .full, fun _ _ => [DUR_BUDGET_STAT.RESERVED, DUR_BUDGET_STAT.DIRTY, DUR_BUDGET_STAT.BUDGET, DUR_BUDGET_STAT.LIMITER, DUR_BUDGET_STAT.WT, DUR_BUDGET_STAT.OVER, DUR_BUDGET_STAT.STAGE]⟩,
  ⟨"DUR_MOD", 0x800100, 20, 0x8, 1, 0x0, 64, .full, fun m _ => [DUR_MOD.WINDOW m, DUR_MOD.DUTY m, DUR_MOD.RATE m]⟩,
  ⟨"DUR_EPOCH_CFG", 0x800200, 1, 0x0, 1, 0x0, 64, .full, fun _ _ => [DUR_EPOCH_CFG.HOLD_MAX_S, DUR_EPOCH_CFG.TERR_MAX_NS, DUR_EPOCH_CFG.TIME_SRC, DUR_EPOCH_CFG.POLICY, DUR_EPOCH_CFG.L_MS]⟩,
  ⟨"DUR_EPOCH_STAT", 0x800210, 1, 0x0, 1, 0x0, 128, .full, fun _ _ => [DUR_EPOCH_STAT.LOCAL, DUR_EPOCH_STAT.OPEN]⟩,
  ⟨"DUR_HORIZON", 0x800220, 1, 0x0, 1, 0x0, 64, .full, fun _ _ => [DUR_HORIZON.HORIZON]⟩,
  ⟨"DUR_TIME_STAT", 0x800230, 1, 0x0, 1, 0x0, 64, .full, fun _ _ => [DUR_TIME_STAT.TERR_NS, DUR_TIME_STAT.STATE]⟩,
  ⟨"DUR_SAVE_AREA", 0x800300, 1, 0x0, 1, 0x0, 128, .full, fun _ _ => [DUR_SAVE_AREA.SIZE, DUR_SAVE_AREA.FREE, DUR_SAVE_AREA.RETAINED]⟩,
  ⟨"DUR_JRNL", 0x800310, 1, 0x0, 1, 0x0, 64, .full, fun _ _ => [DUR_JRNL.IN_USE, DUR_JRNL.JRNL_MIB]⟩,
  ⟨"DUR_SAVE_LOG", 0x800400, 1, 0x0, 1, 0x0, 128, .never, fun _ _ => [DUR_SAVE_LOG.EPOCH, DUR_SAVE_LOG.PAGES, DUR_SAVE_LOG.TIME_MS, DUR_SAVE_LOG.RESULT]⟩,
  ⟨"DUR_RESTORE_STAT", 0x800410, 1, 0x0, 1, 0x0, 128, .full, fun _ _ => [DUR_RESTORE_STAT.POISONED, DUR_RESTORE_STAT.REMAIN, DUR_RESTORE_STAT.EPOCH, DUR_RESTORE_STAT.PHASE]⟩]

/-- Registers of chapter 07: first offset, repetitions and strides, width in bits, reset class, fields. -/
def regsTwn : List RegDef := [
  ⟨"TWN_CFG", 0x900000, 1, 0x0, 1, 0x0, 64, .full, fun _ _ => [TWN_CFG.DETECT_US, TWN_CFG.GAP_PG, TWN_CFG.GAP_PRI, TWN_CFG.RESYNC_SHARE, TWN_CFG.LAMP_EN, TWN_CFG.ENABLE]⟩,
  ⟨"TWN_STAT", 0x900008, 1, 0x0, 1, 0x0, 64, .full, fun _ _ => [TWN_STAT.ROLE_VER, TWN_STAT.LGEN, TWN_STAT.WIDTH, TWN_STAT.PEER, TWN_STAT.LINK_PATH, TWN_STAT.LAMP_PATH, TWN_STAT.CLAIM, TWN_STAT.SNUF_RB, TWN_STAT.FENCE_RD, TWN_STAT.FENCE_WR, TWN_STAT.SNUF_IN, TWN_STAT.SIDE]⟩,
  ⟨"TWN_CTL", 0x900010, 1, 0x0, 1, 0x0, 64, .full, fun _ _ => [TWN_CTL.REGION, TWN_CTL.ALL, TWN_CTL.SWAP_RESULT, TWN_CTL.GIVEBACK, TWN_CTL.DECLARE, TWN_CTL.SWAP_BUSY, TWN_CTL.SWAP_GO]⟩,
  ⟨"TWN_KEY", 0x900018, 1, 0x0, 1, 0x0, 32, .full, fun _ _ => [TWN_KEY.KEYPH, TWN_KEY.REKEY, TWN_KEY.SLOT_ALT, TWN_KEY.SLOT]⟩,
  ⟨"TWN_SVC_GID", 0x900100, 16, 0x10, 1, 0x0, 128, .full, fun i _ => [TWN_SVC_GID.GID i]⟩,
  ⟨"TWN_PEER_GID", 0x900200, 16, 0x10, 1, 0x0, 128, .full, fun i _ => [TWN_PEER_GID.GID i]⟩,
  ⟨"TWN_ADOPT", 0x900300, 16, 0x8, 1, 0x0, 32, .full, fun i _ => [TWN_ADOPT.EN i, TWN_ADOPT.SLOT i, TWN_ADOPT.PORT i]⟩,
  ⟨"TWN_RESYNC_CTL", 0x900400, 1, 0x0, 1, 0x0, 64, .full, fun _ _ => [TWN_RESYNC_CTL.CUT_PAGES, TWN_RESYNC_CTL.MAX_PASS]⟩,
  ⟨"TWN_RESYNC_STAT", 0x900410, 1, 0x0, 1, 0x0, 128, .full, fun _ _ => [TWN_RESYNC_STAT.PASSES, TWN_RESYNC_STAT.REMAIN, TWN_RESYNC_STAT.BITMAP, TWN_RESYNC_STAT.PHASE]⟩,
  ⟨"TWN_LINK_CNT", 0x900500, 1, 0x0, 1, 0x0, 128, .full, fun _ _ => [TWN_LINK_CNT.AUTH_FAIL, TWN_LINK_CNT.RETX, TWN_LINK_CNT.STALE, TWN_LINK_CNT.DOWN]⟩]

/-- Registers of chapter 08: first offset, repetitions and strides, width in bits, reset class, fields. -/
def regsFab : List RegDef := [
  ⟨"FAB_CFG", 0xA00000, 1, 0x0, 1, 0x0, 64, .full, fun _ _ => [FAB_CFG.SPAN_BASE, FAB_CFG.PTP_LINK, FAB_CFG.PATHS, FAB_CFG.STEWARD_EN, FAB_CFG.ENABLE, FAB_CFG.LINK_EN]⟩,
  ⟨"FAB_ID", 0xA00008, 1, 0x0, 1, 0x0, 64, .never, fun _ _ => [FAB_ID.STEWARD, FAB_ID.VALID, FAB_ID.SRC, FAB_ID.LAST, FAB_ID.ID]⟩,
  ⟨"FAB_KEY", 0xA00010, 1, 0x0, 1, 0x0, 32, .full, fun _ _ => [FAB_KEY.KEYPH, FAB_KEY.REKEY, FAB_KEY.SLOT_ALT, FAB_KEY.SLOT]⟩,
  ⟨"FAB_FWD_CTL", 0xA00100, 1, 0x0, 1, 0x0, 64, .full, fun _ _ => [FAB_FWD_CTL.SLACK_NS, FAB_FWD_CTL.FJ_LIMIT_MS, FAB_FWD_CTL.FJ_MIB]⟩,
  ⟨"FAB_FJ_STAT", 0xA00108, 1, 0x0, 1, 0x0, 128, .full, fun _ _ => [FAB_FJ_STAT.FAILED, FAB_FJ_STAT.REDIRECTED, FAB_FJ_STAT.OPEN, FAB_FJ_STAT.IN_USE]⟩,
  ⟨"FAB_MEMBER", 0xA00200, 1, 0x0, 1, 0x0, 64, .full, fun _ _ => [FAB_MEMBER.COUNT, FAB_MEMBER.EXPEL_ID, FAB_MEMBER.EXPEL]⟩,
  ⟨"FAB_LINK_STAT", 0xA00400, 16, 0x8, 1, 0x0, 64, .full, fun n _ => [FAB_LINK_STAT.PEER n, FAB_LINK_STAT.LGEN n, FAB_LINK_STAT.STATE n]⟩,
  ⟨"FAB_RT_IDX", 0xA00600, 1, 0x0, 1, 0x0, 32, .full, fun _ _ => [FAB_RT_IDX.DEST]⟩,
  ⟨"FAB_RT_DATA", 0xA00608, 1, 0x0, 1, 0x0, 64, .full, fun _ _ => [FAB_RT_DATA.HOPS] ++ (List.range 4).map FAB_RT_DATA.V ++ (List.range 4).map FAB_RT_DATA.LINK⟩,
  ⟨"FAB_CNT", 0xA00700, 1, 0x0, 1, 0x0, 128, .full, fun _ _ => [FAB_CNT.STALE, FAB_CNT.SEG_REQ, FAB_CNT.AUTH_FAIL, FAB_CNT.HOP_DROP]⟩,
  ⟨"FAB_DEFER_LOG", 0xA00800, 64, 0x10, 1, 0x0, 128, .full, fun k _ => [FAB_DEFER_LOG.QPN k, FAB_DEFER_LOG.PSN k, FAB_DEFER_LOG.REGION k, FAB_DEFER_LOG.HOME k, FAB_DEFER_LOG.STATUS k]⟩]

/-- Registers of chapter 09: first offset, repetitions and strides, width in bits, reset class, fields. -/
def regsMdw : List RegDef := [
  ⟨"MDW_CFG", 0x1000000, 24, 0x40000, 1, 0x0, 64, .full, fun n _ => [MDW_CFG.SCRUB_SHARE n, MDW_CFG.SET n, MDW_CFG.GRAIN n, MDW_CFG.RATE n, MDW_CFG.EN n]⟩,
  ⟨"MDW_STAT", 0x1000008, 24, 0x40000, 1, 0x0, 64, .full, fun n _ => [MDW_STAT.CAP_GIB n, MDW_STAT.DPC n, MDW_STAT.TYPE n, MDW_STAT.SR n, MDW_STAT.DIMM_TEMP n, MDW_STAT.TRAIN n, MDW_STAT.STATE n]⟩,
  ⟨"MDW_REF", 0x1000010, 24, 0x40000, 1, 0x0, 32, .full, fun n _ => [MDW_REF.RFM_TH n, MDW_REF.SB n, MDW_REF.MULT n]⟩,
  ⟨"MDW_FRZ", 0x1000018, 24, 0x40000, 1, 0x0, 32, .full, fun n _ => [MDW_FRZ.CAUSE n, MDW_FRZ.THAW_BUSY n, MDW_FRZ.THAW n, MDW_FRZ.FREEZE n]⟩,
  ⟨"MDW_UE", 0x1000020, 24, 0x40000, 1, 0x0, 128, .full, fun n _ => [MDW_UE.HOURS n, MDW_UE.DEVMASK n, MDW_UE.SUB n, MDW_UE.RANK n, MDW_UE.BG n, MDW_UE.BANK n, MDW_UE.ROW n, MDW_UE.COL n, MDW_UE.LINE n]⟩,
  ⟨"MDW_CE", 0x1000030, 24, 0x40000, 1, 0x0, 64, .full, fun n _ => [MDW_CE.CE_CNT n, MDW_CE.LOG_OVF n, MDW_CE.REMAP_USED n, MDW_CE.CLEAR n]⟩,
  ⟨"MDW_CELOG", 0x1000100, 24, 0x40000, 32, 0x10, 128, .full, fun n k => [MDW_CELOG.VALID n k, MDW_CELOG.HARD n k, MDW_CELOG.COUNT n k, MDW_CELOG.HOURS n k, MDW_CELOG.DEVMASK n k, MDW_CELOG.SUB n k, MDW_CELOG.LINE n k]⟩,
  ⟨"MDW_REMAP", 0x1000400, 24, 0x40000, 16, 0x8, 64, .retrain, fun n k => [MDW_REMAP.VALID n k, MDW_REMAP.LINE n k]⟩,
  ⟨"MDW_PAT", 0x1000800, 24, 0x40000, 1, 0x0, 64, .full, fun n _ => [MDW_PAT.LINES n, MDW_PAT.KIND n, MDW_PAT.OP n, MDW_PAT.BUSY n, MDW_PAT.GO n]⟩,
  ⟨"MDW_PAT_ADDR", 0x1000808, 24, 0x40000, 1, 0x0, 64, .full, fun n _ => [MDW_PAT_ADDR.LINE n]⟩,
  ⟨"MDW_PAT_USER", 0x1000840, 24, 0x40000, 8, 0x8, 64, .full, fun n i => [MDW_PAT_USER.DATA n i]⟩,
  ⟨"MDW_CMP", 0x1000880, 24, 0x40000, 1, 0x0, 128, .full, fun n _ => [MDW_CMP.FAIL_LINES n, MDW_CMP.DQ_FAIL n]⟩,
  ⟨"MDW_CHK", 0x1000C00, 24, 0x40000, 1, 0x0, 64, .full, fun n _ => [MDW_CHK.EN n, MDW_CHK.GO n, MDW_CHK.BUSY n, MDW_CHK.OP n, MDW_CHK.LINE n]⟩,
  ⟨"MDW_CHK_DATA", 0x1000C40, 24, 0x40000, 8, 0x8, 64, .full, fun n i => [MDW_CHK_DATA.DATA n i]⟩,
  ⟨"MDW_CHK_ECC", 0x1000C80, 24, 0x40000, 1, 0x0, 128, .full, fun n _ => [MDW_CHK_ECC.ECC n]⟩,
  ⟨"MDW_CHK_RES", 0x1000C90, 24, 0x40000, 1, 0x0, 32, .full, fun n _ => [MDW_CHK_RES.DEVMASK n, MDW_CHK_RES.RESULT n]⟩]

/-- Registers of chapter 10: first offset, repetitions and strides, width in bits, reset class, fields. -/
def regsHth : List RegDef := [
  ⟨"HTH_STAT", 0x2000000, 160, 0x10000, 1, 0x0, 64, .full, fun n _ => [HTH_STAT.READQ n, HTH_STAT.BUSY n, HTH_STAT.DIES n, HTH_STAT.STATE n]⟩,
  ⟨"HTH_SCHED", 0x2000008, 160, 0x10000, 1, 0x0, 64, .full, fun n _ => [HTH_SCHED.PAD_US n, HTH_SCHED.REFRESH_TH n, HTH_SCHED.RETRY_MAX n, HTH_SCHED.SPARE_MIN n, HTH_SCHED.PROG_MAX n]⟩,
  ⟨"HTH_ECC", 0x2000010, 160, 0x10000, 1, 0x0, 128, .full, fun n _ => [HTH_ECC.UNCORR n, HTH_ECC.SOFT n, HTH_ECC.RETRY n, HTH_ECC.READS n]⟩,
  ⟨"HTH_DIE", 0x2000100, 160, 0x10000, 16, 0x8, 64, .full, fun n d => [HTH_DIE.GROWN_BAD n d, HTH_DIE.SPARE n d, HTH_DIE.TEMP n d, HTH_DIE.CELL n d, HTH_DIE.STATE n d]⟩,
  ⟨"HTH_MOD_CFG", 0x2008000, 20, 0x80000, 1, 0x0, 32, .full, fun m _ => [HTH_MOD_CFG.WIN_HI m, HTH_MOD_CFG.WIN_LO m, HTH_MOD_CFG.THERM m, HTH_MOD_CFG.EN m]⟩,
  ⟨"HTH_MOD_STAT", 0x2008008, 20, 0x80000, 1, 0x0, 64, .full, fun m _ => [HTH_MOD_STAT.SAVE_CAP m, HTH_MOD_STAT.CAP_GIB m, HTH_MOD_STAT.TEMP m, HTH_MOD_STAT.DIES m, HTH_MOD_STAT.PLANES m, HTH_MOD_STAT.PROTO m, HTH_MOD_STAT.WINDOW m, HTH_MOD_STAT.STATE m]⟩,
  ⟨"HTH_EDGE_CFG", 0x200C000, 2, 0x500000, 1, 0x0, 32, .full, fun e _ => [HTH_EDGE_CFG.RATE e]⟩]

/-- Registers of chapter 11: first offset, repetitions and strides, width in bits, reset class, fields. -/
def regsCph : List RegDef := [
  ⟨"CPH_CTL", 0xB00000, 1, 0x0, 1, 0x0, 32, .full, fun _ _ => [CPH_CTL.KAT_S, CPH_CTL.TAMPER_EN]⟩,
  ⟨"CPH_ALARM", 0xB00008, 1, 0x0, 1, 0x0, 32, .cold, fun _ _ => [CPH_ALARM.ACTIVE, CPH_ALARM.SELFTEST, CPH_ALARM.TEMP, CPH_ALARM.GLITCH, CPH_ALARM.TAMPER]⟩,
  ⟨"CPH_KEY_DATA", 0xB00100, 12, 0x8, 1, 0x0, 64, .full, fun i _ => [CPH_KEY_DATA.KEY i]⟩,
  ⟨"CPH_KEY_LOAD", 0xB00200, 1, 0x0, 1, 0x0, 64, .full, fun _ _ => [CPH_KEY_LOAD.GO, CPH_KEY_LOAD.BUSY, CPH_KEY_LOAD.OP, CPH_KEY_LOAD.RESULT, CPH_KEY_LOAD.FLAGS, CPH_KEY_LOAD.USAGE, CPH_KEY_LOAD.SLOT]⟩,
  ⟨"CPH_SLOT_IDX", 0xB00210, 1, 0x0, 1, 0x0, 32, .full, fun _ _ => [CPH_SLOT_IDX.SLOT]⟩,
  ⟨"CPH_SLOT_INFO", 0xB00218, 1, 0x0, 1, 0x0, 64, .full, fun _ _ => [CPH_SLOT_INFO.REGION, CPH_SLOT_INFO.JOB, CPH_SLOT_INFO.PERSIST, CPH_SLOT_INFO.STATE, CPH_SLOT_INFO.USAGE]⟩,
  ⟨"CPH_RNG", 0xB00300, 1, 0x0, 1, 0x0, 64, .full, fun _ _ => [CPH_RNG.DATA]⟩,
  ⟨"CPH_RNG_STAT", 0xB00308, 1, 0x0, 1, 0x0, 32, .full, fun _ _ => [CPH_RNG_STAT.FAIL_CNT, CPH_RNG_STAT.STATE]⟩,
  ⟨"CPH_QSTAT", 0xB00400, 1, 0x0, 1, 0x0, 64, .full, fun _ _ => [CPH_QSTAT.JOBS, CPH_QSTAT.TAG_FAIL, CPH_QSTAT.DEPTH]⟩]

/-- Registers of chapter 12: first offset, repetitions and strides, width in bits, reset class, fields. -/
def regsRing : List RegDef := [
  ⟨"RING_KICK", 0x200000, 1, 0x0, 1, 0x0, 32, .soft, fun _ _ => [RING_KICK.KICK]⟩,
  ⟨"RING_GSTAT", 0x200008, 1, 0x0, 1, 0x0, 64, .soft, fun _ _ => [RING_GSTAT.HB_AGE, RING_GSTAT.DIMMED, RING_GSTAT.BARRIER, RING_GSTAT.FETCH_ERR, RING_GSTAT.INFLIGHT]⟩,
  ⟨"RING_DB_CFG", 0x200010, 1, 0x0, 1, 0x0, 64, .soft, fun _ _ => [RING_DB_CFG.ADDR, RING_DB_CFG.EN]⟩,
  ⟨"RING_DB_PERIOD", 0x200018, 1, 0x0, 1, 0x0, 32, .soft, fun _ _ => [RING_DB_PERIOD.PERIOD_NS]⟩,
  ⟨"RING_SQ_CFG", 0x200100, 64, 0x10, 1, 0x0, 128, .soft, fun n _ => [RING_SQ_CFG.CQ n, RING_SQ_CFG.SIZE_LOG2 n, RING_SQ_CFG.PRIV n, RING_SQ_CFG.EN n, RING_SQ_CFG.BASE n]⟩,
  ⟨"RING_CQ_CFG", 0x200800, 64, 0x10, 1, 0x0, 128, .soft, fun n _ => [RING_CQ_CFG.VECTOR n, RING_CQ_CFG.SIZE_LOG2 n, RING_CQ_CFG.EN n, RING_CQ_CFG.BASE n]⟩,
  ⟨"RING_STAT", 0x201000, 64, 0x10, 1, 0x0, 128, .soft, fun n _ => [RING_STAT.DONE_CNT n, RING_STAT.SQ_HEAD n, RING_STAT.CQ_TAIL n, RING_STAT.CQ_PHASE n, RING_STAT.STALLED n]⟩]

/-- Registers of chapter 13: first offset, repetitions and strides, width in bits, reset class, fields. -/
def regsCfx : List RegDef := [
  ⟨"GLB_ID", 0x0, 1, 0x0, 1, 0x0, 128, .never, fun _ _ => [GLB_ID.SERIAL, GLB_ID.GRADE, GLB_ID.STEP, GLB_ID.DEVICE, GLB_ID.VENDOR]⟩,
  ⟨"GLB_CAP", 0x10, 1, 0x0, 1, 0x0, 128, .full, fun _ _ => [GLB_CAP.MDW_PLOTS, GLB_CAP.REGION_PLOTS]⟩,
  ⟨"GLB_RSV", 0x20, 1, 0x0, 1, 0x0, 128, .full, fun _ _ => [GLB_RSV.HOME_MIB, GLB_RSV.CONN_MIB, GLB_RSV.FJ_MIB, GLB_RSV.JRNL_MIB, GLB_RSV.CANDLE_MIB]⟩,
  ⟨"GLB_PWR_CAP", 0x30, 1, 0x0, 1, 0x0, 64, .never, fun _ _ => [GLB_PWR_CAP.BANKED_US, GLB_PWR_CAP.SHADED_US, GLB_PWR_CAP.DIMMED_US]⟩,
  ⟨"GLB_ILLEGAL_CNT", 0x40, 1, 0x0, 1, 0x0, 64, .full, fun _ _ => [GLB_ILLEGAL_CNT.LAST_KIND, GLB_ILLEGAL_CNT.LAST_OFFSET, GLB_ILLEGAL_CNT.COUNT]⟩,
  ⟨"CFX_CTL", 0x100000, 1, 0x0, 1, 0x0, 32, .soft, fun _ _ => [CFX_CTL.HOLDER, CFX_CTL.STATE, CFX_CTL.GRANT, CFX_CTL.DISCARD, CFX_CTL.OPEN]⟩,
  ⟨"CFX_RESULT", 0x100008, 1, 0x0, 1, 0x0, 128, .soft, fun _ _ => [CFX_RESULT.AT_NS, CFX_RESULT.OFFSET, CFX_RESULT.CHECK, CFX_RESULT.OUTCOME]⟩,
  ⟨"CFX_PEEK_ADDR", 0x100020, 1, 0x0, 1, 0x0, 32, .soft, fun _ _ => [CFX_PEEK_ADDR.OFFSET]⟩,
  ⟨"CFX_PEEK_DATA", 0x100028, 1, 0x0, 1, 0x0, 64, .soft, fun _ _ => [CFX_PEEK_DATA.DATA]⟩,
  ⟨"CFX_STORE", 0x100030, 1, 0x0, 1, 0x0, 64, .full, fun _ _ => [CFX_STORE.FORMAT, CFX_STORE.COPIES, CFX_STORE.GENERATION]⟩]

/-- Registers of chapter 14: first offset, repetitions and strides, width in bits, reset class, fields. -/
def regsSbp : List RegDef := [
  ⟨"SBP_CFG", 0x3000000, 1, 0x0, 1, 0x0, 32, .full, fun _ _ => [SBP_CFG.AUTH_EN, SBP_CFG.AUTH_SLOT]⟩,
  ⟨"SBP_STAT", 0x3000008, 1, 0x0, 1, 0x0, 64, .cold, fun _ _ => [SBP_STAT.EID, SBP_STAT.DYN_ADDR, SBP_STAT.IBI_EN, SBP_STAT.AUTHORITY, SBP_STAT.MAIN_ABSENT, SBP_STAT.CORE_DARK]⟩,
  ⟨"SBP_CNT", 0x3000010, 1, 0x0, 1, 0x0, 128, .cold, fun _ _ => [SBP_CNT.AUTH_FAIL, SBP_CNT.PEC_ERR, SBP_CNT.DARK, SBP_CNT.MSGS]⟩]

/-- Registers of chapter 15: first offset, repetitions and strides, width in bits, reset class, fields. -/
def regsPwr : List RegDef := [
  ⟨"PWR_CTL", 0xC00000, 1, 0x0, 1, 0x0, 32, .full, fun _ _ => [PWR_CTL.GO, PWR_CTL.BUSY, PWR_CTL.RESULT, PWR_CTL.BAY, PWR_CTL.OP]⟩,
  ⟨"PWR_SEQ_CFG", 0xC00008, 1, 0x0, 1, 0x0, 32, .cold, fun _ _ => [PWR_SEQ_CFG.SETTLE, PWR_SEQ_CFG.BUS, PWR_SEQ_CFG.AUTO_ON]⟩,
  ⟨"PWR_RAIL", 0xC00100, 48, 0x10, 1, 0x0, 128, .cold, fun n _ => [PWR_RAIL.EN n, PWR_RAIL.KEEP n, PWR_RAIL.ACTION n, PWR_RAIL.BAY n, PWR_RAIL.SENSE n, PWR_RAIL.SLAVE n, PWR_RAIL.PAGE n, PWR_RAIL.ON_SLOT n, PWR_RAIL.OFF_SLOT n, PWR_RAIL.MAX n, PWR_RAIL.MIN n]⟩,
  ⟨"PWR_RAIL_STAT", 0xC00400, 1, 0x0, 1, 0x0, 128, .full, fun _ _ => [PWR_RAIL_STAT.FAULT, PWR_RAIL_STAT.ON]⟩,
  ⟨"PWR_HK", 0xC00500, 64, 0x4, 1, 0x0, 32, .full, fun k _ => [PWR_HK.ROUND k, PWR_HK.OOR k, PWR_HK.CODE k]⟩,
  ⟨"PWR_STATE", 0xC00600, 1, 0x0, 1, 0x0, 128, .full, fun _ _ => [PWR_STATE.HEATH_SHADED, PWR_STATE.DRAM_SHADED, PWR_STATE.LAN_SHADED, PWR_STATE.LAN_DIMMED, PWR_STATE.PG_SHADED, PWR_STATE.PG_DIMMED, PWR_STATE.DEVICE]⟩,
  ⟨"PWR_IDLE", 0xC00700, 1, 0x0, 1, 0x0, 64, .full, fun _ _ => [PWR_IDLE.BANK_S, PWR_IDLE.SHADE_US, PWR_IDLE.DIM_US]⟩,
  ⟨"THM_MAX", 0xD00000, 1, 0x0, 1, 0x0, 32, .full, fun _ _ => [THM_MAX.TMAX, THM_MAX.INDEX, THM_MAX.SUSPECTS, THM_MAX.STAGE]⟩,
  ⟨"THM_THR", 0xD00008, 1, 0x0, 1, 0x0, 64, .full, fun _ _ => [THM_THR.HYST, THM_THR.TRIP, THM_THR.T3, THM_THR.T2, THM_THR.T1, THM_THR.PACE_PCT, THM_THR.SKIP_N]⟩,
  ⟨"THM_DIMM", 0xD00010, 1, 0x0, 1, 0x0, 32, .full, fun _ _ => [THM_DIMM.DIMM_BW_PCT, THM_DIMM.DIMM_THR]⟩,
  ⟨"THM_SENS", 0xD00100, 32, 0x4, 1, 0x0, 32, .full, fun n _ => [THM_SENS.SUSPECT n, THM_SENS.TEMP n]⟩,
  ⟨"THM_THERM", 0xD00200, 16, 0x8, 1, 0x0, 64, .full, fun k _ => [THM_THERM.HI k, THM_THERM.CURVE k, THM_THERM.OOR k, THM_THERM.TEMP k]⟩]

/-- Registers of chapter 16: first offset, repetitions and strides, width in bits, reset class, fields. -/
def regsAge : List RegDef := [
  ⟨"AGE_CTL", 0xE00000, 1, 0x0, 1, 0x0, 64, .full, fun _ _ => [AGE_CTL.LIFE_WARN_MO, AGE_CTL.VMAX_MV, AGE_CTL.VMIN_MV, AGE_CTL.SWEEP_H, AGE_CTL.PLAN_H]⟩,
  ⟨"AGE_PLAN_STAT", 0xE00008, 1, 0x0, 1, 0x0, 128, .full, fun _ _ => [AGE_PLAN_STAT.EPOCH, AGE_PLAN_STAT.VCORE_MV, AGE_PLAN_STAT.PLANS, AGE_PLAN_STAT.OUTCOME]⟩,
  ⟨"AGE_RO", 0xE00100, 48, 0x8, 1, 0x0, 64, .full, fun k _ => [AGE_RO.BASE_HZ k, AGE_RO.DRIFT_PPM k]⟩,
  ⟨"AGE_LIFE", 0xE00200, 1, 0x0, 1, 0x0, 128, .full, fun _ _ => [AGE_LIFE.EQ_HOURS, AGE_LIFE.DRIFT_MO, AGE_LIFE.THERMAL_MO, AGE_LIFE.LIFE_MO]⟩,
  ⟨"AGE_ENG", 0xE00300, 16, 0x8, 1, 0x0, 32, .never, fun L _ => [AGE_ENG.RETIRED L, AGE_ENG.ACTIVE L, AGE_ENG.SPARE L]⟩,
  ⟨"AGE_HOLDUP", 0xE00400, 1, 0x0, 1, 0x0, 32, .full, fun _ _ => [AGE_HOLDUP.FAIL, AGE_HOLDUP.VMIN]⟩,
  ⟨"FWM_CTL", 0xF00000, 1, 0x0, 1, 0x0, 32, .full, fun _ _ => [FWM_CTL.ROLLBACK, FWM_CTL.CONFIRM_MIN]⟩,
  ⟨"FWM_STAT", 0xF00008, 1, 0x0, 1, 0x0, 64, .full, fun _ _ => [FWM_STAT.WINDOW_S, FWM_STAT.LANTERNS, FWM_STAT.HOLD, FWM_STAT.CONFIRMED, FWM_STAT.ACTIVE]⟩,
  ⟨"FWM_SLOT", 0xF00100, 2, 0x8, 1, 0x0, 64, .never, fun s _ => [FWM_SLOT.VERSION s, FWM_SLOT.FMT_HI s, FWM_SLOT.FMT_LO s, FWM_SLOT.STATE s]⟩]

/-- Registers of chapter 17: first offset, repetitions and strides, width in bits, reset class, fields. -/
def regsEvt : List RegDef := [
  ⟨"EVT_SRC", 0x300000, 512, 0x4, 1, 0x0, 32, .full, fun n _ => [EVT_SRC.MSIX_EN n, EVT_SRC.IBI_EN n, EVT_SRC.VECTOR n]⟩,
  ⟨"EVT_PEND", 0x301000, 16, 0x8, 1, 0x0, 32, .full, fun g _ => [EVT_PEND.PEND g]⟩,
  ⟨"EVT_IBI_STAT", 0x301100, 1, 0x0, 1, 0x0, 32, .cold, fun _ _ => [EVT_IBI_STAT.IBI_LOST, EVT_IBI_STAT.DEPTH]⟩,
  ⟨"EVR_CTL", 0x400000, 1, 0x0, 1, 0x0, 32, .full, fun _ _ => [EVR_CTL.MIN_SEV]⟩,
  ⟨"EVR_STAT", 0x400008, 1, 0x0, 1, 0x0, 64, .full, fun _ _ => [EVR_STAT.NEXT_SEQ, EVR_STAT.COUNT]⟩,
  ⟨"EVR_LOST_CNT", 0x400010, 1, 0x0, 1, 0x0, 32, .never, fun _ _ => [EVR_LOST_CNT.LOST]⟩,
  ⟨"EVR_LIFE", 0x400018, 1, 0x0, 1, 0x0, 64, .never, fun _ _ => [EVR_LIFE.PCYCLE, EVR_LIFE.HOURS]⟩,
  ⟨"EVR_TRIG", 0x400040, 16, 0x4, 1, 0x0, 32, .full, fun t _ => [EVR_TRIG.EN t, EVR_TRIG.SOURCE t]⟩,
  ⟨"EVR_SNAP", 0x400080, 16, 0x20, 8, 0x4, 32, .full, fun t k => [EVR_SNAP.HIGH t k, EVR_SNAP.OFFSET t k]⟩,
  ⟨"EVR_CURSOR", 0x400300, 1, 0x0, 1, 0x0, 32, .soft, fun _ _ => [EVR_CURSOR.SEQ]⟩,
  ⟨"EVR_WIN_CTL", 0x400308, 1, 0x0, 1, 0x0, 32, .soft, fun _ _ => [EVR_WIN_CTL.AUTO]⟩,
  ⟨"EVR_WIN", 0x400340, 8, 0x8, 1, 0x0, 64, .soft, fun k _ => [EVR_WIN.DATA k]⟩,
  ⟨"PMC_SEL", 0x500000, 320, 0x8, 1, 0x0, 64, .full, fun c _ => [PMC_SEL.SAMPLING c, PMC_SEL.ALL c, PMC_SEL.INST c, PMC_SEL.EVENT c]⟩,
  ⟨"PMC_CNT", 0x501000, 320, 0x8, 1, 0x0, 64, .full, fun c _ => [PMC_CNT.COUNT c]⟩,
  ⟨"PMC_DUMP_STAT", 0x502000, 1, 0x0, 1, 0x0, 64, .full, fun _ _ => [PMC_DUMP_STAT.SEQ, PMC_DUMP_STAT.INTERVAL_US]⟩,
  ⟨"PMC_BW_CTL", 0x502008, 1, 0x0, 1, 0x0, 32, .full, fun _ _ => [PMC_BW_CTL.WIN_US]⟩,
  ⟨"PMC_SAMP_STAT", 0x502010, 1, 0x0, 1, 0x0, 64, .full, fun _ _ => [PMC_SAMP_STAT.SAMP_SKIP, PMC_SAMP_STAT.ACTIVE]⟩,
  ⟨"PMC_BW", 0x502100, 256, 0x4, 1, 0x0, 32, .full, fun p _ => [PMC_BW.TX p, PMC_BW.RX p]⟩]

/-- The register map (R404). -/
def regMap : List RegDef :=
  regsHpt ++ regsVerb ++ regsTier ++ regsDur ++ regsTwn ++ regsFab ++ regsMdw ++ regsHth ++ regsCph ++ regsRing ++ regsCfx ++ regsSbp ++ regsPwr ++ regsAge ++ regsEvt

/-- Key of a field in `Dev.regs`. -/
def Fld.key (x : Fld) : Nat := x.off * 128 + x.lo

/-- Width of a field in bits. -/
def Fld.width (x : Fld) : Nat := x.hi + 1 - x.lo

/-- Value of a field; an unlisted one holds its reset value. -/
def Dev.f (d : Dev) (x : Fld) : Nat := lookD d.regs x.key x.rst

/-- A one-bit field as a truth value. -/
def Dev.on (d : Dev) (x : Fld) : Bool := d.f x != 0

/-- The device with a field set to the low bits of `v`. -/
def Dev.fset (d : Dev) (x : Fld) (v : Nat) : Dev := { d with regs := put d.regs x.key (v % 2 ^ x.width) }

/-- The device with a count field advanced by `n`; it saturates. -/
def Dev.finc (d : Dev) (x : Fld) (n : Nat) : Dev := d.fset x (satAdd x.width (d.f x) n)

/-- The index pair of register `r` at byte offset `o`, if `o` falls on one of its repetitions. -/
def RegDef.at? (r : RegDef) (o : Nat) : Option (Nat × Nat) :=
  if o < r.base then none else
    let e := o - r.base
    let i := if r.stride1 = 0 then 0 else e / r.stride1
    let e1 := if r.stride1 = 0 then e else e % r.stride1
    let j := if r.stride2 = 0 then 0 else e1 / r.stride2
    let e2 := if r.stride2 = 0 then e1 else e1 % r.stride2
    if i < r.count1 ∧ j < r.count2 ∧ e2 < r.width / 8 then some (i, j) else none

/-- The register at byte offset `o`, its own offset and its fields. -/
def findReg (l : List RegDef) (o : Nat) : Option (RegDef × Nat × List Fld) :=
  match l with
  | [] => none
  | r :: rs =>
    match r.at? o with
    | some (i, j) => some (r, r.base + i * r.stride1 + j * r.stride2, r.flds i j)
    | none => findReg rs o

/-- Registers of the given classes return to their reset values (R504); fields with access code RWP are kept. -/
def Dev.resetRegs (d : Dev) (cls : List ResetClass) : Dev :=
  { d with regs := d.regs.filter (fun kv =>
      match findReg regMap (kv.1 / 128) with
      | some (r, _, fs) => !(cls.contains r.cls) || fs.any (fun x => x.key == kv.1 && x.acc == .rwp)
      | none => true) }

/-- The registers' fields with access code STG, RW or RWP that are listed, as `Dev.regs` holds them. -/
def Dev.listed (d : Dev) (a : Access) : List (Nat × Nat) :=
  d.regs.filter (fun kv =>
    match findReg regMap (kv.1 / 128) with
    | some (_, _, fs) => fs.any (fun x => x.key == kv.1 && x.acc == a)
    | none => false)

end Sys2Proof.Machine
end

