-- ==== Sys2Proof/Machine/Status.lean ====
section
/-! DEFINITION. Status fields that report the state they stand for, and what a read of the set-up space returns. -/

namespace Sys2Proof

/-- Codes of the tiers (Table 5.1). -/
def Tier.code : Tier → Nat
  | .meadow => 0 | .fast => 1 | .deep => 2 | .none => 3

/-- The tier of a code. -/
def Tier.ofCode (n : Nat) : Tier := if n = 0 then .meadow else if n = 1 then .fast else if n = 2 then .deep else .none

/-- Codes of the plot states (Table 5.2). -/
def PlotState.code : PlotState → Nat
  | .resident => 0 | .migratingOut => 1 | .migratingIn => 2 | .sealed => 3 | .poisoned => 4 | .evacuating => 5

/-- Codes of the region states (Table 4.9). -/
def RegionState.code : RegionState → Nat
  | .creating => 0 | .online => 1 | .sealing => 2 | .sealed => 3 | .offline => 4 | .destroying => 5

/-- Codes of the journal entry states (Table 8.5). -/
def FjState.code : FjState → Nat
  | .posted => 0 | .sent => 1 | .applied => 2 | .failed => 3

/-- Connections that count as open (R92, `HPT_CONN_STAT`). -/
def ConnState.isOpen : ConnState → Bool
  | .offered | .ready | .draining | .error => true
  | .free | .quarantine => false

end Sys2Proof

namespace Sys2Proof.Machine

/-- The 64-bit word of a home-table entry (Table 5.1). -/
def HomeEntry.word (e : HomeEntry) : Nat :=
  e.tier.code * 2 ^ 62 + e.loc % 2 ^ 36 * 2 ^ 26 + e.heat % 2 ^ 12 * 2 ^ 14 + (if e.pin then 2 ^ 13 else 0)
    + e.state.code * 2 ^ 8 + e.gen.toNat

/-- A truth value as a bit. -/
def bit (b : Bool) : Nat := if b then 1 else 0

/-- The 64 bytes of an event record (Table 17.2). -/
def Record.bytes (r : Record) : List Byte :=
  leBytes 4 r.hours ++ leBytes 4 r.pcycle ++ leBytes 8 r.ext ++ leBytes 4 r.seq ++ leBytes 2 r.source
    ++ leBytes 1 r.code
    ++ leBytes 1 (bit r.clr * 64 + bit r.lg * 32 + bit r.snap * 16 + bit r.extv * 8 + r.sev % 8)
    ++ leBytes 2 r.rep ++ leBytes 2 r.inst ++ leBytes 4 r.arg
    ++ ((List.range 8).map (fun k => leBytes 4 ((r.detail[k]?.getD 0).toNat))).flatten

/-- The record the window shows: the lowest SEQ at or above the cursor (R495). -/
def Dev.windowRecord (d : Dev) : Option Record := d.evt.recs.find? (fun r => d.f EVR_CURSOR.SEQ ≤ r.seq)

/-- Journal lines in use: those kept for earlier versions and those of open messages (R178, R197). -/
def Dev.jrnlLines (d : Dev) : Nat :=
  d.dur.jlines.length + (d.hpt.ops.map (fun o => if o.multi ∧ o.phase ≠ .applied then o.lines.length else 0)).foldl (· + ·) 0
    + (d.twn.reps.map (fun r => if r.acc then 0 else r.lines.length)).foldl (· + ·) 0

/-- Meadow pages that replica messages not accepted yet have changed (R178). -/
def Dev.repPages (d : Dev) : Nat :=
  ((d.twn.reps.filter (fun r => !r.acc)).flatMap (fun r => r.lines.map (· / 64))).eraseDups.length

/-- Pages of admitted writes that no image holds yet (R219). -/
def Dev.wtPages (d : Dev) : Nat :=
  (d.hpt.ops.map (fun o => o.reserved)).foldl (· + ·) 0 + (d.hpt.ops.flatMap (·.toImage)).eraseDups.length

/-- Dirty pages D, reservations and journal units included (R178); once write-through has drained, the pages of its admitted
writes alone (R219). -/
def Dev.dirtyPages (d : Dev) : Nat :=
  if d.on DUR_BUDGET_STAT.WT ∧ d.dur.wtDrained then d.wtPages
  else d.dur.dirty.length + d.repPages + d.dur.reserved + ceilDiv d.jrnlLines 64

/-- Key slots that an enabled link names in its current phase (R363). -/
def Dev.linkSlots (d : Dev) : List Nat :=
  (if d.on TWN_CFG.ENABLE then [d.f (if d.on TWN_KEY.KEYPH then TWN_KEY.SLOT_ALT else TWN_KEY.SLOT)] else [])
    ++ (if d.on FAB_CFG.ENABLE then [d.f (if d.on FAB_KEY.KEYPH then FAB_KEY.SLOT_ALT else FAB_KEY.SLOT)] else [])

/-- What the shadow bank holds of an STG field; the bank lists every field that does not hold its reset value (R408). -/
def Dev.shadowOf (d : Dev) (x : Fld) : Nat := lookD d.cfx.shadow x.key x.rst

/-- Four bytes of the shadow bank at an aligned offset; bits that are not STG read 0 (`CFX_PEEK_DATA`). -/
def Dev.peek4 (d : Dev) (o : Nat) : Nat :=
  match findReg regMap o with
  | none => 0
  | some (_, b, fs) =>
    let stg := fs.filter (fun x => x.acc == .stg)
    (stg.map (fun x => d.shadowOf x % 2 ^ x.width * 2 ^ x.lo)).foldl (· + ·) 0 / 2 ^ ((o - b) * 8) % 2 ^ 32

/-- The bits of a key slot's usage, flags and blob as `CPH_SLOT_INFO` packs them, by the field's lowest bit. -/
def Dev.slotInfo (d : Dev) (lo : Nat) : Nat :=
  let n := d.f CPH_SLOT_IDX.SLOT
  match look d.cph.slots n with
  | none => 0
  | some s =>
    let bound := d.rgn.find? (fun r => r.2.ownSlot == some n)
    if lo = CPH_SLOT_INFO.USAGE.lo then s.usage
    else if lo = CPH_SLOT_INFO.PERSIST.lo then bit s.persist
    else if lo = CPH_SLOT_INFO.JOB.lo then bit s.job
    else if lo = CPH_SLOT_INFO.STATE.lo then (if bound.isSome then 2 else if d.linkSlots.contains n then 3 else 1)
    else (bound.map (·.1)).getD 0

/-- Engine slots of a lantern that work: neither out of service nor retired (R12, R469, R471). -/
def Dev.workingSlots (d : Dev) (l : Nat) : List Nat :=
  (List.range 9).filter (fun s => !d.age.out.contains (9 * l + s) && d.f (AGE_ENG.RETIRED l) / 2 ^ s % 2 == 0)

/-- Slot of a lantern's spare; 15 where it has none (R12, `AGE_ENGL`). -/
def Dev.spareOf (d : Dev) (l : Nat) : Nat := lookD d.age.spares l 8

/-- Seconds left in the confirmation window (`FWM_STAT`). -/
def Dev.windowLeft (d : Dev) : Nat :=
  match d.fwm.window with
  | none => 0
  | some w => ceilDiv (w - d.clk) 1000000000

/-- Lantern 15 runs (R433). -/
def Dev.coreOn (d : Dev) : Bool := d.core.stage != 0

/-- The core serves the side-band port: lantern 15 runs and no save has begun (R433). -/
def Dev.serves (d : Dev) : Bool := d.coreOn && !d.dur.saving && !d.dur.held && !d.age.restarting.contains 15

/-- What the servo has slewed in since it began the present correction: at most 100 ppm of the time passed (R24, R26). -/
def Dev.slewed (d : Dev) : Int :=
  let most : Nat := min d.tim.slew.natAbs ((d.clk - d.tim.slewFrom) / 10000)
  if d.tim.slew < 0 then -(most : Int) else most

/-- The time-error estimate: the offset at the last pulse less what has been slewed out since; in Holdover it grows at the servo's
frequency uncertainty (R201). -/
def Dev.terrNow (d : Dev) : Nat :=
  if d.f DUR_TIME_STAT.STATE = 2 then d.tim.terrAtLoss + d.tim.spread * (d.clk - d.tim.lostAt) / 1000000000
  else d.f DUR_TIME_STAT.TERR_NS - d.slewed.natAbs

/-- Status fields with one index-free register that are computed from the state, by key. -/
def Dev.singles (d : Dev) : List (Nat × Nat) :=
  [(HPT_CONN_STAT.OPEN.key, (d.hpt.conns.filter (fun c => c.2.state.isOpen)).length),
   (HPT_CONN_STAT.HOT.key, (d.hpt.conns.filter (fun c => c.2.hot)).length),
   (HPT_CONN_STAT.TAGS_BUSY.key, d.hpt.busy.length),
   (TIER_MDW_POOL.FREE.key, d.tier.freePlots.length),
   (TIER_CANDLE_CFG.COPIES.key, d.tier.candle.length),
   (DUR_BUDGET_STAT.DIRTY.key, d.dirtyPages),
   (DUR_BUDGET_STAT.RESERVED.key, d.dur.reserved),
   (DUR_BUDGET_STAT.BUDGET.key, d.dur.budget),
   (DUR_EPOCH_STAT.OPEN.key, d.dur.openEp),
   (DUR_SAVE_AREA.FREE.key, d.dur.fSave),
   (DUR_RESTORE_STAT.REMAIN.key, 16 * d.mem.unrestored.length),
   (DUR_TIME_STAT.TERR_NS.key, d.terrNow),
   (DUR_JRNL.IN_USE.key, ceilDiv d.jrnlLines 64),
   (RING_GSTAT.INFLIGHT.key, (d.ring.cmds.filter (fun c => !c.mute && !c.sb)).length),
   (RING_GSTAT.HB_AGE.key, min ((d.clk - d.ring.hbAt) / 1000000) (2 ^ 32 - 1)),
   (RING_GSTAT.BARRIER.key, bit d.ring.barrier.isSome),
   (RING_GSTAT.DIMMED.key, d.f PWR_STATE.LAN_DIMMED / 2 ^ 15 % 2),
   (EVT_IBI_STAT.IBI_LOST.key, d.evt.ibiLost),
   (EVT_IBI_STAT.DEPTH.key, d.sbp.notify.length),
   (EVR_STAT.NEXT_SEQ.key, d.evt.nextSeq),
   (EVR_STAT.COUNT.key, d.evt.recs.length),
   (EVR_LOST_CNT.LOST.key, d.evt.lost),
   (PMC_SAMP_STAT.SAMP_SKIP.key, d.pmc.sampSkip),
   (PMC_SAMP_STAT.ACTIVE.key, d.pmc.samplers.length),
   (FAB_FJ_STAT.OPEN.key, (d.fab.fj.filter (fun f => f.state != .failed)).length),
   (FAB_FJ_STAT.IN_USE.key, ceilDiv ((d.fab.fj.map (fun f => 48 + f.data.length)).foldl (· + ·) 0) 4096),
   (FAB_MEMBER.COUNT.key, d.fab.members.length),
   (CPH_QSTAT.DEPTH.key, d.cph.jobs.length),
   (TWN_RESYNC_STAT.BITMAP.key, d.twn.rsBits.length),
   (TWN_KEY.REKEY.key, bit d.twn.rekeyDue),
   (FAB_KEY.REKEY.key, bit d.fab.rekeyDue),
   (TWN_CTL.SWAP_GO.key, d.f TWN_CTL.SWAP_BUSY),
   (TWN_CTL.DECLARE.key, bit d.twn.declared),
   (TWN_CTL.GIVEBACK.key, bit (d.hpt.conns.any (fun c => c.2.adopted && c.2.state.isOpen && c.2.dreqAt.isSome))),
   (FWM_CTL.ROLLBACK.key, bit d.fwm.rollback),
   (CFX_CTL.OPEN.key, bit (d.f CFX_CTL.STATE != 0)),
   (FWM_STAT.WINDOW_S.key, d.windowLeft),
   (SBP_STAT.CORE_DARK.key, bit (!d.serves)),
   (AGE_HOLDUP.FAIL.key, bit d.dur.holdFail),
   (GLB_ID.SERIAL.key, Config.serial.toNat),
   (GLB_ID.VENDOR.key, Config.vendor.toNat)]

/-- The pending bits of event group `g` (R485). -/
def Dev.pendWord (d : Dev) (g : Nat) : Nat :=
  ((d.evt.pend.filter (fun s => s / 32 == g)).map (fun s => 2 ^ (s % 32))).foldl (· + ·) 0

/-- `PMC_SELc` as the selections made give it, by the field's lowest bit. -/
def Dev.selField (d : Dev) (c lo : Nat) : Nat :=
  if lo = 25 then bit (d.pmc.samplers.any (fun s => s.ctr == c))
  else match d.pmc.sels.find? (fun s => s.ctr == c) with
    | none => 0
    | some s => if lo = 24 then bit s.all else if lo = 16 then s.inst else s.event

/-- Dies of a heath channel with what the scheduler holds for them (R345). -/
def Dev.diesOn (d : Dev) (ch : Nat) : List Die := (d.hth.dies.filter (fun k => k.1 / 16 == ch)).map (·.2)

/-- A start bit of DRAM channel `n` at offset `o` of its block: like every W1S bit with no note `reads 0` it reads 1 while what it
started goes on (R8, log entry 88). -/
def Dev.chanStart (d : Dev) (n o lo : Nat) : Nat :=
  if o = 0x18 then (if lo = 0 then bit (d.f (MDW_FRZ.CAUSE n) == 4) else d.f (MDW_FRZ.THAW_BUSY n))
  else if o = 0x800 then d.f (MDW_PAT.BUSY n) else 0

/-- A status field computed from the state it reports, or none where the field is stored. -/
def Dev.computed (d : Dev) (x : Fld) : Option Nat :=
  if 0x301000 ≤ x.off ∧ x.off < 0x301080 then some (d.pendWord ((x.off - 0x301000) / 8))
  else if 0x500000 ≤ x.off ∧ x.off < 0x500A00 then some (d.selField ((x.off - 0x500000) / 8) x.lo)
  else if 0x501000 ≤ x.off ∧ x.off < 0x501A00 then some (lookD d.pmc.cnts ((x.off - 0x501000) / 8) 0)
  else if 0x400340 ≤ x.off ∧ x.off < 0x400380 then
    some (match d.windowRecord with
      | none => 0
      | some r => ofLeBytes ((r.bytes.drop ((x.off - 0x400340))).take 8))
  else if x.acc = .w1s ∧ 0x1000000 ≤ x.off ∧ x.off < 0x1600000 then
    some (d.chanStart ((x.off - 0x1000000) / 0x40000) ((x.off - 0x1000000) % 0x40000) x.lo)
  else if x.off = CPH_SLOT_INFO.USAGE.off then some (d.slotInfo x.lo)
  else if x.off = CFX_PEEK_DATA.DATA.off then
    let o := d.f CFX_PEEK_ADDR.OFFSET * 8
    some (if d.f CFX_CTL.STATE = 0 then 0 else d.peek4 o + d.peek4 (o + 4) * 2 ^ 32)
  else if 0xE00100 ≤ x.off ∧ x.off < 0xE00280 ∧ x.lo = 32 ∧ x.acc = .ro ∧ (x.off - 0xE00100) / 8 < 48 then
    some (Config.roBase ((x.off - 0xE00100) / 8)).toNat
  else if 0xE00100 ≤ x.off ∧ x.off < 0xE00280 ∧ x.lo = 0 ∧ (x.off - 0xE00100) / 8 < 48 then
    some (Config.drift ((x.off - 0xE00100) / 8) d.pwr.round.toNat).toNat
  else if 0xE00300 ≤ x.off ∧ x.off < 0xE00380 ∧ x.lo = 8 then some (d.workingSlots ((x.off - 0xE00300) / 8)).length
  else if 0xE00300 ≤ x.off ∧ x.off < 0xE00380 ∧ x.lo = 0 then some (d.spareOf ((x.off - 0xE00300) / 8))
  else if 0x700200 ≤ x.off ∧ x.off < 0x700240 ∧ x.lo = 0 then
    some ((d.tier.migs.filter (fun m => m.lantern == 8 + (x.off - 0x700200) / 16)).length)
  else if 0x2000000 ≤ x.off ∧ x.off < 0x2A00000 ∧ (x.off - 0x2000000) % 0x10000 = 0 ∧ x.lo = 32 then
    some (((d.diesOn ((x.off - 0x2000000) / 0x10000)).map (fun y => y.reads.length)).foldl (· + ·) 0)
  else if 0x2000000 ≤ x.off ∧ x.off < 0x2A00000 ∧ (x.off - 0x2000000) % 0x10000 = 0 ∧ x.lo = 16 then
    some ((d.diesOn ((x.off - 0x2000000) / 0x10000)).filter (fun y => y.busy.any (fun b => b.1 < 3))).length
  else if x.off = FAB_RT_DATA.HOPS.off then
    match look d.fab.routes (d.f FAB_RT_IDX.DEST) with
    | none => some 0
    | some r =>
      some (if x.lo = FAB_RT_DATA.HOPS.lo then r.hops
        else if x.lo % 8 = 7 then bit (decide (x.lo / 8 < r.links.length))
        else (r.links[x.lo / 8]?).getD 0)
  else look d.singles x.key

/-- What a read of a field returns. A write-only field reads 0 (Table 0.4). -/
def Dev.view (d : Dev) (x : Fld) : Nat :=
  if x.acc = .wo then 0 else ((d.computed x).getD (d.f x)) % 2 ^ x.width

/-- The whole value of the register whose fields are `fs`. -/
def Dev.regValue (d : Dev) (fs : List Fld) : Nat := (fs.map (fun x => d.view x * 2 ^ x.lo)).foldl (· + ·) 0

/-- Four bytes of the set-up space at an aligned offset; 0 where no block defines a register (R404). -/
def Dev.read4 (d : Dev) (o : Nat) : Nat :=
  match findReg regMap o with
  | none => 0
  | some (_, b, fs) => d.regValue fs / 2 ^ ((o - b) * 8) % 2 ^ 32

/-- Eight bytes of the set-up space at an aligned offset, from one sample. -/
def Dev.read8 (d : Dev) (o : Nat) : Nat := d.read4 o + d.read4 (o + 4) * 2 ^ 32

end Sys2Proof.Machine
end

