-- ==== Sys2Proof/Machine/Ops.lean ====
section
/-! DEFINITION. Operations every family shares: running a command at its instant, what the device sends, free values, device
time and epochs, events and illegal sequences (spec/17), performance counters. -/

namespace Sys2Proof.Machine

/-- The time-base count moves on to the instant of a command; it never moves back (R26). -/
def Dev.tick (d : Dev) (t : Nat) : Dev := { d with clk := max d.clk t }

/-- A command's effect: the device goes on at instant `t`, and the waiting commands stay as they are. -/
def State.run (s : State) (t : Nat) (f : Dev → Dev) : Host.Outcome State Fault Refusal :=
  .next { s with dev := f (s.dev.tick t) }

/-- The device after it has sent `o`. -/
def Dev.send (d : Dev) (o : Out) : Dev := { d with out := o :: d.out }

/-- The device after it has sent a list of things, first to last. -/
def Dev.sendAll (d : Dev) (os : List Out) : Dev := os.foldl Dev.send d

/-- A value the spec leaves open (log entry 2). -/
def Dev.fresh (d : Dev) : BitVec 64 := Config.freeValue d.free

/-- The device after a free value has been used. -/
def Dev.used (d : Dev) : Dev := { d with free := d.free + 1 }

/-! ### Time -/



/-- Device time in ns: the local time base, the offset the servo has removed and what it is slewing in (R24, R26). -/
def Dev.now (d : Dev) : Nat := (d.clk + d.tim.off + d.slewed).toNat

/-- Time states of Table 6.3. -/
def timeInvalid : Nat := 0
def timeLocked : Nat := 1
def timeHoldover : Nat := 2
def timeUnlocked : Nat := 3
def timeFreeRun : Nat := 4

/-- External time is valid in a record (R488). -/
def Dev.extValid (d : Dev) : Bool :=
  d.f DUR_TIME_STAT.STATE == timeLocked || d.f DUR_TIME_STAT.STATE == timeHoldover

/-- Epoch length in ms (R61). -/
def Dev.epochLen (d : Dev) : Nat := max 1 (d.f DUR_EPOCH_CFG.L_MS)

/-- Epoch of a stamp: the first closing instant strictly after it, in ms (R60, R61). -/
def epochAt (len stamp : Nat) : Nat := (stamp / (len * 1000000) + 1) * len

/-- Epoch of a stamp under the length in force; from the one forward step of device time on, an epoch after the one that the step
closed (R60, R203). -/
def Dev.epochOf (d : Dev) (stamp : Nat) : Nat :=
  if d.dur.stepAt ≤ stamp then max d.dur.stepEp (epochAt d.epochLen stamp) else epochAt d.epochLen stamp

/-! ### Events (chapter 17) -/

/-- Source number of index `k` of group `g` (R483). -/
def source (g k : Nat) : Nat := 32 * g + k

/-- An MSI-X message of vector `v`: sent, or held in the pending bit array while the vector is masked (R485). -/
def Dev.postVector (d : Dev) (v : Nat) : Dev :=
  if d.evt.unmasked.contains v then d.send (.msix v)
  else { d with evt := { d.evt with pba := ins d.evt.pba v } }

/-- The pending bit of a source and its message (R485). -/
def Dev.signalMsix (d : Dev) (s : Nat) : Dev :=
  if d.evt.pend.contains s then d else
    let d := { d with evt := { d.evt with pend := ins d.evt.pend s } }
    if d.on (EVT_SRC.MSIX_EN s) then d.postVector (d.f (EVT_SRC.VECTOR s)) else d

/-- An in-band interrupt, where the controller has enabled it (R424). -/
def Dev.inBand (d : Dev) : Dev := if d.on SBP_STAT.IBI_EN then d.send .ibi else d

/-- EVENT_NOTIFY of a record (R486). -/
def Dev.signalIbi (d : Dev) (s : Nat) (r : Record) : Dev :=
  if !d.on (EVT_SRC.IBI_EN s) then d
  else if d.sbp.notify.length < 16 then
    ({ d with sbp := { d.sbp with notify := d.sbp.notify ++ [r.bytes] } }).inBand
  else { d with evt := { d.evt with ibiLost := satAdd 16 d.evt.ibiLost 1 } }

/-- The snapshot of the lowest-numbered enabled trigger that names the source (R489). -/
def Dev.snapshot (d : Dev) (s : Nat) : Option (List (BitVec 32)) :=
  ((List.range 16).find? (fun t => d.on (EVR_TRIG.EN t) && d.f (EVR_TRIG.SOURCE t) == s)).map (fun t =>
    (List.range 8).map (fun k =>
      BitVec.ofNat 32 (d.read4 (d.f (EVR_SNAP.OFFSET t k) * 8 + 4 * d.f (EVR_SNAP.HIGH t k)))))

/-- The record of an event (R487, R488). -/
def Dev.mkRecord (d : Dev) (s sev code inst arg : Nat) (detail : List (BitVec 32)) : Record :=
  let snap := d.snapshot s
  { hours := d.f EVR_LIFE.HOURS, pcycle := d.f EVR_LIFE.PCYCLE, ext := if d.extValid then d.now else 0,
    seq := d.evt.nextSeq, source := s, code := code, clr := false, lg := false, snap := snap.isSome,
    extv := d.extValid, sev := sev, rep := 0, inst := inst, arg := arg, detail := snap.getD detail }

/-- Two events make one record (R490). -/
def Record.sameAs (a b : Record) : Bool :=
  a.source == b.source && a.code == b.code && a.inst == b.inst && a.arg == b.arg && a.sev == b.sev && !a.clr

/-- The oldest record of a severity no higher than `sev` (R491). -/
def oldestUpTo (l : List Record) (sev : Nat) : Option Record := l.find? (fun r => r.sev ≤ sev)

/-- Where a new record is placed (R491). -/
def EvtSt.place (e : EvtSt) (r : Record) : EvtSt :=
  if e.recs.length < 4096 then { e with recs := e.recs ++ [r], nextSeq := e.nextSeq + 1 }
  else match oldestUpTo e.recs r.sev with
    | some o => { e with recs := e.recs.filter (fun x => x.seq != o.seq) ++ [r], nextSeq := e.nextSeq + 1 }
    | none => { e with lost := satAdd 32 e.lost 1 }

/-- The recorder with an event in it: a repeat of the newest record, a new record, or nothing below `MIN_SEV`
(R490, R491). A change waits to reach the mirror (R492). -/
def EvtSt.record (e : EvtSt) (r : Record) (minSev clk : Nat) : EvtSt :=
  if r.sev < minSev then e else
    let e' := match e.recs.getLast? with
      | some n => if n.sameAs r then { e with recs := e.recs.dropLast ++ [{ n with rep := satAdd 16 n.rep 1 }] }
                  else e.place r
      | none => e.place r
    { e' with dirtyAt := some (e'.dirtyAt.getD clk) }

/-- A record the supervisor takes while the core is dark: groups 1 and 2, up to 16 (R493). -/
def EvtSt.recordDark (e : EvtSt) (r : Record) : EvtSt :=
  if e.dark.length < 16 then { e with dark := e.dark ++ [r] } else { e with darkLost := e.darkLost + 1 }

/-- The recorder's contents reach its mirror (R492). -/
def Dev.writeMirror (d : Dev) : Dev :=
  { d with evt := { d.evt with mirror := d.evt.recs, mirLost := d.evt.lost, dirtyAt := none } }

/-- An event: pending bit and message, EVENT_NOTIFY, and its record (R485 to R493). -/
def Dev.raise (d : Dev) (s sev code inst arg : Nat) (detail : List (BitVec 32) := []) : Dev :=
  let r := d.mkRecord s sev code inst arg detail
  let d := { d with evt :=
    if d.coreOn then d.evt.record r (d.f EVR_CTL.MIN_SEV) d.clk
    else if s / 32 = 1 ∨ s / 32 = 2 then d.evt.recordDark r else d.evt }
  ((if d.coreOn then d.signalMsix s else d).signalIbi s r)

/-- An illegal sequence: ignored, counted and recorded (R400, R487). `loc` is a ring number or BAR0 offset [25:2]. -/
def Dev.illegal (d : Dev) (kind loc : Nat) (inst : Nat := 0) : Dev :=
  (((d.fset GLB_ILLEGAL_CNT.LAST_KIND kind).fset GLB_ILLEGAL_CNT.LAST_OFFSET loc).finc GLB_ILLEGAL_CNT.COUNT 1).raise
    (source 15 0) 1 kind inst loc

/-! ### Performance counters (R496, R500) -/

/-- What a sample says of the verb it was taken at (Table 17.5): opcode, region, QPN, offset, ns from stamp to commit. -/
structure SampleOf where
  /-- physical engine of an engine sample; the fields below then hold program counter (`qpn`), address (`off`) and latency (`ns`) -/
  engine : Option Nat := none
  opcode : Nat := 0
  region : Nat := 0
  qpn : Nat := 0
  off : Nat := 0
  ns : Nat := 0
  deriving DecidableEq, Repr

/-- A sample record: of an engine, which it names by its physical number (R13), or of a verb (Table 17.5). -/
def Sampler.entry (s : Sampler) (now : Nat) (x : SampleOf) : List Byte :=
  let head := match x.engine with
    | some p => leBytes 1 1 ++ leBytes 1 p ++ leBytes 2 0
    | none => leBytes 1 2 ++ leBytes 1 x.opcode ++ leBytes 2 x.region
  leBytes 8 now ++ head ++ leBytes 4 x.qpn ++ leBytes 8 x.off ++ leBytes 4 x.ns ++ leBytes 2 s.next ++ leBytes 2 s.ctr

/-- Whether a selection counts event `ev` of instance `inst` (R496). -/
def PmcSel.counts (p : PmcSel) (ev inst : Nat) : Bool := p.event == ev && (p.all || p.inst == inst)

/-- One sampler after `n` counted events: its countdown, and a record where the period ran out, at most one in a µs. -/
def Sampler.advance (s : Sampler) (n now : Nat) (x : SampleOf) : Sampler × Option Out × Nat :=
  let past := n - s.left
  let left := s.period - past % s.period
  if n < s.left then ({ s with left := s.left - n }, none, 0)
  else if s.lastUs = now / 1000 + 1 then ({ s with left := left }, none, 1 + past / s.period)
  else ({ s with left := left, lastUs := now / 1000 + 1, next := (s.next + 1) % 65536 },
    some (.hostWrite (s.addr + 32 * (s.next % s.entries)) (s.entry now x)), past / s.period)

/-- Samplers after an event, what they write, and how many samples were skipped. -/
def advanceAll (sels : List PmcSel) (ev inst n now : Nat) (x : SampleOf) :
    List Sampler → List Sampler × List Out × Nat
  | [] => ([], [], 0)
  | s :: r =>
    let (r', os, k) := advanceAll sels ev inst n now x r
    if sels.any (fun p => p.ctr == s.ctr && p.counts ev inst) then
      let (s', o, j) := s.advance n now x
      (s' :: r', o.toList ++ os, j + k)
    else (s :: r', os, k)

/-- `n` happenings of event `ev` of instance `inst` are counted and sampled. -/
def Dev.count (d : Dev) (ev inst n : Nat) (x : SampleOf := {}) : Dev :=
  if !d.pmc.sels.any (fun p => p.counts ev inst) then d else
    let cnts := d.pmc.sels.foldl (fun l p =>
      if p.counts ev inst then change l p.ctr 0 (fun v => (v + n) % 2 ^ 64) else l) d.pmc.cnts
    let (ss, os, k) := advanceAll d.pmc.sels ev inst n d.now x d.pmc.samplers
    ({ d with pmc := { d.pmc with cnts := cnts, samplers := ss, sampSkip := satAdd 32 d.pmc.sampSkip k } }).sendAll os

/-! ### Power units (codes of the units of R448) and lanterns that work -/

/-- A lantern is running: neither restarting nor out; the transport lanterns start last, after restore (R33, R506). -/
def Dev.lanternUp (d : Dev) (l : Nat) : Bool :=
  d.coreOn && !d.age.restarting.contains l && (decide (8 ≤ l) || d.core.transport)

end Sys2Proof.Machine
end

