-- ==== Sys2Proof/Machine/Home.lean ====
section
/-! DEFINITION. Plots: the meadow map (R300, R301), the home table (R146 to R151), the wick caches (R152 to R156), heat
(R158), dirty pages and the journal (R178, R190), and the bytes of plots. -/

namespace Sys2Proof.Machine

/-! ### Regions and where their home-table entries lie -/

/-- The counter region (R499). -/
def counterRegion : Nat := 0xFFF

/-- The region whose run of home-table entries holds `idx` (R43). -/
def Dev.regionOf (d : Dev) (idx : Nat) : Option (Nat × Region) :=
  d.rgn.find? (fun r => r.1 != counterRegion && decide (r.2.base ≤ idx) && decide (idx < r.2.base + r.2.run))

/-- The region's primary is this device: the role table, or the side it was created with (R37, R222). -/
def Dev.primaryHere (d : Dev) (rid : Nat) (r : Region) : Bool :=
  match r.mirror with
  | .no => true
  | .east => lookD d.twn.roles rid false == d.twn.side
  | .west => lookD d.twn.roles rid true == d.twn.side

/-- The region is mirrored. -/
def Region.mirrored (r : Region) : Bool := r.mirror != .no

/-- Placement tier lantern of a region (R17). -/
def placementLantern (rid : Nat) : Nat := 8 + rid % 4

/-! ### The meadow map -/

/-- Channel states (Table 9.2). -/
def chAbsent : Nat := 0
def chTraining : Nat := 1
def chOnline : Nat := 2
def chFrozen : Nat := 3
def chDraining : Nat := 4
def chEmpty : Nat := 5
def chOff : Nat := 6
def chFailed : Nat := 7

/-- State of a DRAM channel. -/
def Dev.chanState (d : Dev) (n : Nat) : Nat := d.f (MDW_STAT.STATE n)

/-- What the model keeps of a channel beyond its registers. -/
def Dev.chan (d : Dev) (n : Nat) : Chan := lookD d.mdw.chans n {}

/-- The device with that changed. -/
def Dev.setChan (d : Dev) (n : Nat) (f : Chan → Chan) : Dev :=
  { d with mdw := { d.mdw with chans := change d.mdw.chans n {} f } }

/-- Members of channel set `s`, ascending (R301). -/
def Dev.setMembers (d : Dev) (s : Nat) : List Nat := (List.range 24).filter (fun n => d.f (MDW_CFG.SET n) == s)

/-- Bytes of a channel that belong to its set (R300). -/
def Dev.setBytes (d : Dev) (n : Nat) : Nat :=
  d.f (MDW_STAT.CAP_GIB n) * 2 ^ 30 - (d.chan n).ranks * 65536 - d.mdw.reserve - d.mdw.slice

/-- Bytes of the whole portion of set `s`. -/
def Dev.portion (d : Dev) (s : Nat) : Nat :=
  match d.setMembers s with
  | [] => 0
  | n :: r => (r.length + 1) * d.setBytes n

/-- Channel and channel address of meadow address `a`, searching the sets in `l` laid end to end (R301). -/
def Dev.locateIn (d : Dev) (a : Nat) : List Nat → Option (Nat × Nat)
  | [] => none
  | s :: r =>
    if a < d.portion s then
      let c := d.setMembers s
      let g := 256 * 2 ^ d.f (MDW_CFG.GRAIN (c.headD 0))
      let u := a / g
      some (c.getD (u % c.length) 0, u / c.length * g + a % g)
    else d.locateIn (a - d.portion s) r

/-- Channel and channel address of a meadow byte address. -/
def Dev.locate (d : Dev) (a : Nat) : Option (Nat × Nat) := d.locateIn a (List.range 24)

/-- A channel whose lines hosts are refused: Frozen, or Draining out of Frozen (R329). -/
def Dev.chanBarred (d : Dev) (n : Nat) : Bool :=
  d.chanState n == chFrozen || (d.chanState n == chDraining && (d.chan n).cameFrom == .frozen)

/-- The line at a meadow byte address lies on a frozen channel (Table 2.3, check 9). -/
def Dev.lineFrozen (d : Dev) (a : Nat) : Bool := (d.locate a).any (fun c => d.chanBarred c.1)

/-- Channels that hold a line of meadow plot `loc` (R304). -/
def Dev.plotChans (d : Dev) (loc : Nat) : List Nat :=
  (((List.range 256).filterMap (fun k => d.locate (loc * 65536 + k * 256))).map (·.1)).eraseDups

/-- Every channel that holds a line of the plot is Online (R304). -/
def Dev.plotOnline (d : Dev) (loc : Nat) : Bool := (d.plotChans loc).all (fun n => d.chanState n == chOnline)

/-! ### The home table -/

/-- Home-table entry (R146); an entry never written reads as tier none, resident. -/
def Dev.entry (d : Dev) (idx : Nat) : HomeEntry := lookD d.tier.home idx {}

/-- A page version of an epoch waits to be imaged (R178, R190). -/
def addVersion (l : List Version) (page epoch : Nat) : List Version :=
  if l.any (fun v => v.page == page && v.epoch == epoch) then l else l ++ [{ page := page, epoch := epoch }]

/-- A meadow page is dirty in an epoch. -/
def Dev.dirtyPage (d : Dev) (page epoch : Nat) : Dev :=
  { d with dur := { d.dur with dirty := addVersion d.dur.dirty page epoch } }

/-- First page of the region table's area, which lies outside the set portions (R178, R303). -/
def rgnPage : Nat := 2 ^ 47

/-- The region with ID `rid` after a change; the page of the region table that holds it is imaged like any other (R178). -/
def Dev.setRegion (d : Dev) (rid : Nat) (r : Region) : Dev :=
  ({ d with rgn := put d.rgn rid r }).dirtyPage (rgnPage + rid) d.dur.openEp

/-- The meadow page that holds a home-table entry (R146); it is imaged like any other page (R178). -/
def Dev.homePage (d : Dev) (idx : Nat) : Nat := d.f TIER_HT_CFG.BASE * 16 + idx / 512

/-- The entry is written by its update unit. -/
def Dev.setEntry (d : Dev) (idx : Nat) (e : HomeEntry) : Dev :=
  ({ d with tier := { d.tier with home := put d.tier.home idx e } }).dirtyPage (d.homePage idx) d.dur.openEp

/-- The broadcast of an index: wick copies go, walks in flight are to be repeated (R155, R156). -/
def Dev.broadcast (d : Dev) (idx : Nat) : Dev :=
  { d with tier := { d.tier with
      wick := d.tier.wick.filter (fun w => w.2.idx != idx)
      walks := d.tier.walks.map (fun w => if w.idx = idx then { w with dirty := true } else w) } }

/-- The broadcast of a whole run of indices (R44). -/
def Dev.broadcastRun (d : Dev) (base n : Nat) : Dev :=
  let inRun (i : Nat) : Bool := decide (base ≤ i) && decide (i < base + n)
  { d with tier := { d.tier with
      wick := d.tier.wick.filter (fun w => !inRun w.2.idx)
      walks := d.tier.walks.map (fun w => if inRun w.idx then { w with dirty := true } else w) } }

/-- A home change: TIER and LOC with GEN + 1 in one update, HEAT and PIN kept; broadcast (R149). -/
def Dev.homeChange (d : Dev) (idx : Nat) (t : Tier) (loc : Nat) (st : PlotState) : Dev :=
  let e := d.entry idx
  (d.setEntry idx { e with tier := t, loc := loc, state := st, gen := e.gen + 1 }).broadcast idx

/-- A state change: GEN unchanged; broadcast (R149). -/
def Dev.setPlotState (d : Dev) (idx : Nat) (st : PlotState) : Dev :=
  (d.setEntry idx { d.entry idx with state := st }).broadcast idx

/-- PIN set or cleared, as a state change (R163). -/
def Dev.setPin (d : Dev) (idx : Nat) (p : Bool) : Dev :=
  (d.setEntry idx { d.entry idx with pin := p }).broadcast idx

/-- A heat increment: HEAT alone, saturating, no broadcast; the line is marked (R148, R158, R159). -/
def Dev.addHeat (d : Dev) (idx n : Nat) : Dev :=
  if n = 0 then d else
    let e := d.entry idx
    let d := d.setEntry idx { e with heat := satAdd 12 e.heat n }
    { d with tier := { d.tier with marked := ins d.tier.marked (idx / 8) } }

/-! ### Sampling (R158) -/

/-- One host access that resolved an entry: one in 2^SAMPLE_SHIFT adds `inc` to HEAT, written through to the
lantern's wick copy (R153). -/
def Dev.sample (d : Dev) (lantern idx inc : Nat) : Dev :=
  let n := lookD d.tier.sample lantern 0 + 1
  let d := { d with tier := { d.tier with sample := put d.tier.sample lantern n } }
  if n % 2 ^ d.f TIER_HEAT_CTL.SAMPLE_SHIFT = 0 then
    let d := d.addHeat idx inc
    { d with tier := { d.tier with wick := d.tier.wick.map (fun w =>
        if w.1 / 64 = lantern ∧ w.2.idx = idx then (w.1, { w.2 with entry := d.entry idx }) else w) } }
  else d

/-! ### Wick caches (R152 to R156) -/

/-- The tree bits of entry `e` set to point away from it, from node `node` down over `k` levels. -/
def plruTouch (b : BitVec 63) (e node : Nat) : Nat → BitVec 63
  | 0 => b
  | k + 1 =>
    let right := e / 2 ^ k % 2 == 1
    let m : BitVec 63 := BitVec.ofNat 63 (2 ^ (node - 1))
    plruTouch (if right then b &&& ~~~m else b ||| m) e (2 * node + bit right) k

/-- The entry the tree bits point to, from node `node` with `acc` decided, over `k` levels. -/
def plruVictim (b : BitVec 63) (node acc : Nat) : Nat → Nat
  | 0 => acc
  | k + 1 =>
    let right := b.getLsbD (node - 1)
    plruVictim b (2 * node + bit right) (2 * acc + bit right) k

/-- Entry of lantern `l`'s cache that holds `idx`. -/
def Dev.wickFind (d : Dev) (l idx : Nat) : Option Nat :=
  (List.range 64).find? (fun e => ((look d.tier.wick (l * 64 + e)).any (fun w => w.idx == idx)))

/-- The device with the replacement tree touched at an entry. -/
def Dev.wickTouch (d : Dev) (l e : Nat) : Dev :=
  { d with tier := { d.tier with plru := change d.tier.plru l 0 (fun b => plruTouch b e 1 6) } }

/-- Entry a fill takes: the lowest invalid one, else the one the tree points to (R152). -/
def Dev.wickSlot (d : Dev) (l : Nat) : Nat :=
  ((List.range 64).find? (fun e => (look d.tier.wick (l * 64 + e)).isNone)).getD
    (plruVictim (lookD d.tier.plru l 0) 1 0 6)

/-- A lookup of an index by lantern `l`: a hit, or a miss that sends the walker (R152, R153). -/
def Dev.wickLookup (d : Dev) (l idx : Nat) : Dev :=
  let d := d.count 0x208 l 1
  match d.wickFind l idx with
  | some e => ((d.finc (TIER_WICK_STAT.HIT l) 1).wickTouch l e).count 0x209 l 1
  | none =>
    let d := (d.finc (TIER_WICK_STAT.MISS l) 1).count 0x20A l 1
    if d.tier.walks.any (fun w => w.lantern == l && w.idx == idx) then d
    else { d with tier := { d.tier with walks := d.tier.walks ++ [{ lantern := l, idx := idx, dirty := false }] } }

/-! ### First writes (R45, R150, R151) -/

/-- Bytes of a plot. -/
def plotBytes : Nat := 65536

/-- A meadow plot's bytes become zeros (a plot newly homed holds what was written to it and zeros, R45). -/
def Dev.clearPlot (d : Dev) (loc : Nat) : Dev :=
  { d with mem := { d.mem with meadow := memClear d.mem.meadow (loc * plotBytes) plotBytes } }

/-- The walker of lantern `l` gives a never-written plot a meadow home; none where its queue is empty (R150, R151). -/
def Dev.firstWrite (d : Dev) (l idx : Nat) (st : PlotState := .resident) : Option Dev :=
  match lookD d.tier.queues l [] with
  | [] => none
  | p :: r =>
    let d := { d with tier := { d.tier with queues := put d.tier.queues l r } }
    some ((d.clearPlot p).homeChange idx .meadow p st)

/-- Batches of 64 moved to a lantern's queue until it holds 256, each by the tier lantern whose turn it is (R150). -/
def Dev.refill (d : Dev) (l : Nat) : Nat → Dev
  | 0 => d
  | fuel + 1 =>
    let q := lookD d.tier.queues l []
    let n := min 64 (256 - q.length)
    let take := (d.tier.freePlots.filter d.plotOnline).take n
    if n = 0 ∨ take.isEmpty then d
    else
      ({ d with tier := { d.tier with
          queues := put d.tier.queues l (q ++ take)
          freePlots := d.tier.freePlots.filter (fun p => !take.contains p)
          turn := (d.tier.turn + 1) % 4 } }).refill l fuel

/-! ### Bytes of meadow, dirty pages and the journal of earlier versions (R190) -/

/-- A page holds a version of an epoch before `epoch` that is not yet imaged. -/
def Dev.holdsOld (d : Dev) (page epoch : Nat) : Bool :=
  d.dur.dirty.any (fun v => v.page == page && decide (v.epoch < epoch))

/-- A line that a write of `epoch` changes is copied into the journal area for the newest earlier version of its page, once. -/
def Dev.journalLine (d : Dev) (epoch line : Nat) : Dev :=
  match (d.dur.dirty.filter (fun v => v.page == line / 64 && decide (v.epoch < epoch))).getLast? with
  | none => d
  | some v =>
    if d.dur.jlines.contains (line, v.epoch) then d
    else { d with dur := { d.dur with jlines := d.dur.jlines ++ [(line, v.epoch)] } }

/-- Numbers of the `sz`-byte units that bytes `a` to `a + n - 1` touch. -/
def unitsOf (a n sz : Nat) : List Nat :=
  if n = 0 then [] else (List.range ((a + n - 1) / sz - a / sz + 1)).map (fun k => a / sz + k)

/-- Lines change in an epoch: earlier versions of their pages are kept, and the pages are dirty in it (R178, R190). -/
def Dev.dirtyLines (d : Dev) (lines : List Nat) (epoch : Nat) : Dev :=
  (lines.map (· / 64)).foldl (fun d p => d.dirtyPage p epoch) (lines.foldl (fun d l => d.journalLine epoch l) d)

/-- Bytes stored in meadow from byte address `a`. -/
def Dev.pokeMeadow (d : Dev) (a : Nat) (bs : List Byte) : Dev :=
  { d with mem := { d.mem with meadow := memWrite d.mem.meadow a bs } }

/-- Bytes written to meadow from byte address `a`, in an epoch: earlier versions kept, pages dirty. -/
def Dev.writeMeadow (d : Dev) (a : Nat) (bs : List Byte) (epoch : Nat) : Dev :=
  (d.dirtyLines (unitsOf a bs.length 64) epoch).pokeMeadow a bs

/-- Pages a request reserves: one a page it spans, one more where that page holds an earlier version (R184). -/
def Dev.pagesFor (d : Dev) (a n : Nat) : Nat :=
  ((unitsOf a n 4096).map (fun p => if d.holdsOld p d.dur.openEp then 2 else 1)).foldl (· + ·) 0

/-- The home-table index whose home is a meadow plot. -/
def Dev.idxOfPlot (d : Dev) (plot : Nat) : Option Nat :=
  (d.tier.home.find? (fun e => e.2.tier == .meadow && e.2.loc == plot)).map (·.1)

/-- The read copy of a sealed plot in the candle store (R173). -/
def Dev.candleOf (d : Dev) (idx : Nat) : Option Nat := look d.tier.candle idx

/-- `n` bytes at byte `off` of the plot of an entry, from its home or from a read copy; a plot with no home reads zeros. -/
def Dev.plotRead (d : Dev) (idx off n : Nat) : List Byte :=
  let e := d.entry idx
  match e.tier with
  | .none => List.replicate n 0
  | .meadow => memRead d.mem.meadow (e.loc * plotBytes + off) n
  | .fast | .deep =>
    match d.candleOf idx with
    | some p => memRead d.mem.meadow (p * plotBytes + off) n
    | none => memRead d.mem.heath (e.loc * plotBytes + off) n

/-- Reads of a candle copy keep it young: it goes to the end of the list (R173). -/
def Dev.candleTouch (d : Dev) (idx : Nat) : Dev :=
  match d.candleOf idx with
  | none => d
  | some p => { d with tier := { d.tier with candle := d.tier.candle.filter (fun c => c.1 != idx) ++ [(idx, p)] } }

/-- Candle copies dropped for indices that meet `p`. -/
def Dev.candleDrop (d : Dev) (p : Nat → Bool) : Dev :=
  { d with tier := { d.tier with candle := d.tier.candle.filter (fun c => !p c.1) } }

/-- Plot number of slot `k` of the candle store: its area lies in the system stripe, beyond the set portions (R303). -/
def candlePlot (k : Nat) : Nat := 2 ^ 40 + k

/-- Set of the candle directory that an index falls in: four ways a set, indexed by home-table index (R173, log entry 70). -/
def Dev.candleSet (d : Dev) (idx : Nat) : Nat := idx % max 1 (d.f TIER_CANDLE_CFG.CANDLE_PLOTS / 4)

/-- The copy that gives way to a new one: the least recently read of a full set, or of a full store (R173). -/
def Dev.candleVictim (d : Dev) (idx : Nat) : Option Nat :=
  let ways := d.tier.candle.filter (fun c => d.candleSet c.1 == d.candleSet idx)
  if 4 ≤ ways.length then (ways.head?).map (·.1)
  else if d.f TIER_CANDLE_CFG.CANDLE_PLOTS ≤ d.tier.candle.length then (d.tier.candle.head?).map (·.1) else none

/-- A read copy of a sealed heath plot goes to the candle store (R173). -/
def Dev.candleAdd (d : Dev) (idx : Nat) : Dev :=
  if d.f TIER_CANDLE_CFG.CANDLE_PLOTS = 0 ∨ (d.candleOf idx).isSome then d else
    let d := match d.candleVictim idx with | some v => d.candleDrop (· == v) | none => d
    match (List.range (d.tier.candle.length + 1)).find? (fun k => !d.tier.candle.any (fun c => c.2 == candlePlot k)) with
    | none => d
    | some k =>
      let p := candlePlot k
      let e := d.entry idx
      let bs := memRead d.mem.heath (e.loc * plotBytes) plotBytes
      { d with
        tier := { d.tier with candle := d.tier.candle ++ [(idx, p)] }
        mem := { d.mem with meadow := memWrite (memClear d.mem.meadow (p * plotBytes) plotBytes) (p * plotBytes) bs } }

/-- A home is released: a meadow plot returns to the free pool, a heath plot to its pool (R166, M5). -/
def Dev.releaseHome (d : Dev) (t : Tier) (loc : Nat) : Dev :=
  match t with
  | .none => d
  | .meadow => if d.plotOnline loc then { d with tier := { d.tier with freePlots := ins d.tier.freePlots loc } } else d
  | .fast | .deep => { d with tier := { d.tier with heathFree := d.tier.heathFree ++ [(t.code, loc)] } }

end Sys2Proof.Machine
end

