-- ==== Sys2Proof/Machine/Migrate.lean ====
section
/-! DEFINITION. Migrations: raising, merging, cancelling, refusing and committing them (R160 to R171), with the capacity
and pressure figures they depend on (R38, R162, R529). -/

namespace Sys2Proof

/-- Priority of a kind of migration, 1 highest (Table 5.4). -/
def MigKind.prio : MigKind → Nat
  | .demand => 1 | .evacuation => 2 | .promotion => 3 | .demotion => 4

/-- A promotion or demand migration reserves 16 pages (R184). -/
def MigKind.reserves : MigKind → Bool
  | .demand | .promotion => true
  | .evacuation | .demotion => false

/-- The moving state of a kind (Table 5.4). -/
def MigKind.moving : MigKind → PlotState
  | .demand | .promotion => .migratingIn
  | .evacuation => .evacuating
  | .demotion => .migratingOut

end Sys2Proof

namespace Sys2Proof.Machine

/-- The plot belongs to a Sealed region (R55, R172); the sweep records it in the entry. -/
def Dev.sealedPlot (d : Dev) (idx : Nat) : Bool :=
  (d.entry idx).state == .sealed || (d.regionOf idx).any (fun r => r.2.state == .sealed)

/-- Tier lantern that owns a heath location (R147). -/
def heathLantern (loc : Nat) : Nat := 8 + loc / 2 ^ 34 % 4

/-- The migration of a plot, if it has one (R164). -/
def Dev.migOf (d : Dev) (idx : Nat) : Option Migration := d.tier.migs.find? (fun m => m.idx == idx)

/-- The device with the migration of a plot changed. -/
def Dev.setMig (d : Dev) (idx : Nat) (f : Migration → Migration) : Dev :=
  { d with tier := { d.tier with migs := d.tier.migs.map (fun m => if m.idx = idx then f m else m) } }

/-- The tracker entry of a plot is freed. -/
def Dev.dropMig (d : Dev) (idx : Nat) : Dev :=
  { d with tier := { d.tier with migs := d.tier.migs.filter (fun m => m.idx != idx) } }

/-- Meadow plots that count in the capacity: every line of them on a channel that is Online or Frozen; a channel that trains
counts again when it is Online (R529, R331). -/
def Dev.plotsOf (d : Dev) (s : Nat) : Nat :=
  if (d.setMembers s).all (fun n => d.chanState n == chOnline || d.chanState n == chFrozen) then d.portion s / plotBytes
  else
    let ms := d.setMembers s
    let bad := ms.filter (fun n => !(d.chanState n == chOnline || d.chanState n == chFrozen))
    let grain := 256 * 2 ^ d.f (MDW_CFG.GRAIN (ms.headD 0))
    if grain = 65536 then d.portion s / plotBytes / ms.length * (ms.length - bad.length)
    else if ms.length * grain ≤ 65536 then 0
    else ((List.range (d.portion s / plotBytes)).filter (fun p =>
      !(List.range (65536 / grain)).any (fun k => bad.contains (ms.getD ((p * (65536 / grain) + k) % ms.length) 0)))).length

/-- Meadow region capacity in plots (R529). -/
def Dev.meadowPlots (d : Dev) : Nat := ((List.range 24).map d.plotsOf).foldl (· + ·) 0

/-- Free meadow plots in thousandths of the meadow region capacity lie below a mark (R162). -/
def Dev.freeBelow (d : Dev) (mark : Nat) : Bool :=
  decide (d.tier.freePlots.length * 1000 < mark * d.f GLB_CAP.MDW_PLOTS)

/-- Meadow pressure exists (R162). -/
def Dev.meadowPressure (d : Dev) : Bool := d.freeBelow (d.f TIER_MDW_POOL.FORCE)

/-- Promotions are stopped: below `PROMO_FLOOR`, in governor stages 2 and 3, or by the stop flag, which acts as stage 3
(R162, R207, Table 6.2). -/
def Dev.promosStopped (d : Dev) : Bool :=
  d.freeBelow (d.f TIER_MDW_POOL.PROMO_FLOOR) || decide (2 ≤ d.f DUR_BUDGET_STAT.STAGE) || d.dur.stop

/-- D may grow by `pages` without passing B (R183); in write-through, once D has first reached 0 and while the image writer's
queue holds less than 1 GiB (R218, R219). -/
def Dev.budgetTakes (d : Dev) (pages : Nat) : Bool :=
  if d.on DUR_BUDGET_STAT.WT then d.dur.wtDrained && decide (d.dirtyPages < 262144)
  else decide (d.dirtyPages + pages ≤ d.dur.budget)

/-- Heath windows (R352): 0 normal, 1 save window only, 2 outside both. -/
def Dev.modWindow (d : Dev) (m : Nat) : Nat := d.f (HTH_MOD_STAT.WINDOW m)

/-- Module states (Table 10.4). -/
def modAbsent : Nat := 0
def modInit : Nat := 1
def modOnline : Nat := 2
def modDraining : Nat := 3
def modEmpty : Nat := 4
def modOff : Nat := 5
def modFailed : Nat := 6

/-- Module that holds a heath plot: the heath map names the channel and die (R339). -/
def Dev.modOfHeath (d : Dev) (loc : Nat) : Nat := lookD d.hth.map loc 0 / 16 / 8

/-- Home-table indices of the plots homed on a module. -/
def Dev.plotsOnModule (d : Dev) (m : Nat) : List Nat :=
  (d.tier.home.filter (fun e => (e.2.tier == .fast || e.2.tier == .deep) && d.modOfHeath e.2.loc == m)).map (·.1)

/-- A heath location may take a new plot (R345): its module is Online and inside its normal window. -/
def Dev.heathTakes (d : Dev) (loc : Nat) : Bool :=
  d.f (HTH_MOD_STAT.STATE (d.modOfHeath loc)) == modOnline && d.modWindow (d.modOfHeath loc) == 0

/-- Reads queued on the die of a heath location (R345). -/
def Dev.dieQueue (d : Dev) (loc : Nat) : Nat := (lookD d.hth.dies (lookD d.hth.map loc 0) {}).reads.length

/-- The heath location a migration takes: the die with the fewest queued reads, then the lowest channel and die (R345). -/
def Dev.heathDest (d : Dev) (t : Tier) : Option Nat :=
  let c := (d.tier.heathFree.filter (fun x => x.1 == t.code && d.heathTakes x.2)).map (·.2)
  c.foldl (fun best l => match best with
    | none => some l
    | some b =>
      if d.dieQueue l < d.dieQueue b ∨ (d.dieQueue l = d.dieQueue b ∧ lookD d.hth.map l 0 < lookD d.hth.map b 0)
      then some l else some b) none

/-- A destination plot is taken out of its pool; none where the pool has none fit. -/
def Dev.takeDest (d : Dev) (t : Tier) : Option (Nat × Dev) :=
  match t with
  | .none => none
  | .meadow =>
    match d.tier.freePlots.find? d.plotOnline with
    | none => none
    | some p => some (p, { d with tier := { d.tier with freePlots := rem d.tier.freePlots p } })
  | .fast | .deep =>
    match d.heathDest t with
    | none => none
    | some l => some (l, { d with tier := { d.tier with heathFree := d.tier.heathFree.filter (fun x => x.2 != l) } })

/-! ### Capacities (R38, R529) -/

/-- Sum of the sizes of the regions homed here; the counter region counts in none (R38, R499). -/
def Dev.regionSum (d : Dev) (p : Region → Bool) : Nat :=
  ((d.rgn.filter (fun r => r.1 != counterRegion && !r.2.remoteHeld && !r.2.keySide && p r.2)).map (fun r => r.2.run + r.2.reserve)).foldl (· + ·) 0

/-- Dies of a module in service, as its registers count them. -/
def Dev.modDies (d : Dev) (m : Nat) : Nat := d.f (HTH_MOD_STAT.DIES m)

/-- Native plots that the blocks of the save area take from a module's pools: the save area lies on the modules in proportion to
their dies, and a pSLC block holds a third (TLC) or a quarter (QLC) of its native plots (R529, R531). -/
def Dev.saveShare (d : Dev) (m : Nat) : Nat :=
  let all := ((List.range 20).map d.modDies).foldl (· + ·) 0
  let k := if d.f (HTH_DIE.CELL (8 * m) 0) = 2 then 4 else 3
  if all = 0 then 0 else ceilDiv (d.f DUR_SAVE_AREA.SIZE * d.modDies m * k) (16 * all)

/-- Native plots of the Online modules' heath pools, without the blocks of the save area (R529). -/
def Dev.heathPlots (d : Dev) : Nat :=
  ((List.range 20).map (fun m =>
    if d.f (HTH_MOD_STAT.STATE m) = modOnline then lookD d.hth.native m 0 - d.saveShare m else 0)).foldl (· + ·) 0

/-- The capacities of `GLB_CAP` formed again (R529). -/
def Dev.formCaps (d : Dev) : Dev :=
  let mp := d.meadowPlots
  (d.fset GLB_CAP.MDW_PLOTS mp).fset GLB_CAP.REGION_PLOTS (mp + d.heathPlots)

/-- Native plots a heath home takes: a pSLC plot three (TLC) or four (QLC) of them (R529). -/
def Dev.nativeCost (d : Dev) (e : HomeEntry) : Nat :=
  let k := lookD d.hth.map e.loc 0
  if e.tier = .fast then (if d.f (HTH_DIE.CELL (k / 16) (k % 16)) = 2 then 4 else 3) else if e.tier = .deep then 1 else 0

/-- Heath pressure: free heath space at native density, with `saved` plots of it yet to be freed, is smaller than the plots
the heath may yet have to hold (R529). -/
def Dev.pressureBut (d : Dev) (saved : Nat) : Bool :=
  let homed := (d.tier.home.filter (fun h => h.2.tier == .fast || h.2.tier == .deep)).map (·.2)
  let used := (homed.map d.nativeCost).foldl (· + ·) 0
  decide (d.heathPlots - (used - saved) < d.regionSum (fun _ => true) - d.f GLB_CAP.MDW_PLOTS - homed.length)

/-- Heath pressure as it stands (R529). -/
def Dev.heathPressure (d : Dev) : Bool := d.pressureBut 0

/-- Number of the heat interval device time stands in (R159). -/
def Dev.heatInterval (d : Dev) : Nat := d.now / (max 1 (d.f TIER_HEAT_CTL.INTERVAL) * 1000000)

/-- A migration is cancelled: STATE back to resident, or sealed, at the old home; the destination is released (R168). -/
def Dev.cancelMig (d : Dev) (idx : Nat) : Dev :=
  match d.migOf idx with
  | none => d
  | some m =>
    let d := d.dropMig idx
    let d := if (d.entry idx).state = .sealed ∨ (d.entry idx).state = .poisoned then d else
      d.setPlotState idx (if d.sealedPlot idx then .sealed else .resident)
    let d := { d with dur := { d.dur with reserved := d.dur.reserved - m.res } }
    (d.releaseHome m.dstTier m.dstLoc).finc (TIER_MIG_STAT.CANCELLED (m.lantern - 8)) 1

/-- Paced migrations of a tier lantern (R176). -/
def Dev.paced (d : Dev) (l : Nat) : Nat := (d.tier.migs.filter (fun m => m.lantern == l && m.kind != .demand)).length

/-- The youngest demotion of a lantern's tracker gives way to a demand migration that finds it full (R176). -/
def Dev.makeRoom (d : Dev) (l : Nat) : Dev :=
  if (d.tier.migs.filter (fun m => m.lantern == l)).length < 512 then d else
    match (d.tier.migs.filter (fun m => m.lantern == l && m.kind == .demotion)).getLast? with
    | some m => d.cancelMig m.idx
    | none => d

/-- M1 of a migration with its destination taken: tracker entry, moving state, broadcast, reservation (R166, R184). -/
def Dev.beginMig (d : Dev) (idx : Nat) (kind : MigKind) (t : Tier) (loc lantern : Nat) : Dev :=
  let e := d.entry idx
  let pages := if kind.reserves then 16 else 0
  let m : Migration :=
    { idx := idx, kind := kind, srcTier := e.tier, srcLoc := e.loc, dstTier := t, dstLoc := loc,
      step := .copying, gen0 := e.gen, lantern := lantern, res := pages }
  let d := { d with tier := { d.tier with migs := d.tier.migs ++ [m] } }
  let d := { d with dur := { d.dur with reserved := d.dur.reserved + pages } }
  if e.state = .sealed ∨ e.state = .poisoned then d.broadcast idx else d.setPlotState idx kind.moving

/-- The heath is under pressure or the meadow is: a demotion that finds no destination waits for one (R345). -/
def Dev.forced (d : Dev) : Bool := d.meadowPressure || d.heathPressure

/-- Requests that wait for a plot. -/
def Dev.waiting (d : Dev) (idx : Nat) : List (MigKind × Tier) := (d.tier.waitDst.filter (fun w => w.1 == idx)).map (·.2)

/-- The request that waits for a plot with the highest priority, the oldest of that priority (R164, R176). -/
def Dev.nextFor (d : Dev) (idx : Nat) : Option (MigKind × Tier) :=
  (d.waiting idx).foldl (fun b w => match b with
    | none => some w
    | some x => if w.1.prio < x.1.prio then some w else b) none

/-- A request of a plot no longer waits. -/
def Dev.unqueue (d : Dev) (idx : Nat) (w : MigKind × Tier) : Dev :=
  { d with tier := { d.tier with waitDst := d.tier.waitDst.filter (fun x => !(x.1 == idx && x.2 == w)) } }

/-- A promotion or demotion of a plot is not raised: it is barred until the next sweep (R168), promotions are stopped (R162,
Table 6.2), or a sealed plot would enter meadow (R55, R172). -/
def Dev.noRaise (d : Dev) (idx : Nat) (kind : MigKind) (t : Tier) : Bool :=
  ((kind == .promotion || kind == .demotion) && d.tier.barred.contains idx) || (kind == .promotion && d.promosStopped)
    || (t == .meadow && (d.entry idx).tier != .meadow && kind != .demand && d.sealedPlot idx)

/-- The plot's region moves to a new run, and no migration of it is raised (R44). -/
def Dev.growing (d : Dev) (idx : Nat) : Bool := d.tier.grow.any (fun g => (d.regionOf idx).any (fun r => r.1 == g.region))

/-- A move of a plot waits at its tier lantern until the plot is resident and its turn comes (R164, R176). A demand migration
ends the demotions that wait for the plot: its write has made them out of date. -/
def Dev.queueMig (d : Dev) (idx : Nat) (kind : MigKind) (t : Tier) : Dev :=
  if d.dur.saving ∨ d.noRaise idx kind t then d
  else if d.growing idx then d
  else
    let keep (w : Nat × (MigKind × Tier)) : Bool := !(w.1 == idx && kind == .demand && w.2.1 == .demotion)
    let q := d.tier.waitDst.filter keep
    if (d.waiting idx).contains (kind, t) then d else { d with tier := { d.tier with waitDst := q ++ [(idx, (kind, t))] } }

/-- Tier lantern at which a request for a plot waits: the placement lantern of its region for a plot in meadow, else the owner
of its heath home (R17, R147). -/
def Dev.srcLantern (d : Dev) (idx : Nat) : Nat :=
  if (d.entry idx).tier = .meadow then placementLantern (((d.regionOf idx).map (·.1)).getD 0) else heathLantern (d.entry idx).loc

/-- A lantern's tracker holds all the migrations it can (R166, R176). -/
def Dev.trackerFull (d : Dev) (l : Nat) : Bool := decide (512 ≤ (d.tier.migs.filter (fun m => m.lantern == l)).length)

/-- A waiting migration is issued (M1), the request with the highest priority first: the destination is sought; without one an
evacuation, a demand migration or a forced move goes on waiting, and any waits for a lantern that restarts, for a tracker
entry and for room in the dirty budget (R166, R176, R183, R345, R506). -/
def Dev.issueMig (d : Dev) (idx : Nat) : Dev :=
  match d.nextFor idx, d.migOf idx with
  | some (kind, t), none =>
    let e := d.entry idx
    let drop := d.unqueue idx (kind, t)
    if e.tier = .none ∨ (e.tier = t ∧ kind ≠ .evacuation) ∨ d.noRaise idx kind t then drop
    else if d.dur.saving then d
    else
      let src := d.srcLantern idx
      if ¬ d.lanternUp src ∨ (kind.reserves ∧ ¬ d.budgetTakes 16) then d else
      let d := if kind = .demand then d.makeRoom src else d
      match d.takeDest t with
      | none => if kind = .promotion ∨ (kind = .demotion ∧ ¬ d.forced) then drop else d
      | some (loc, d') =>
        let l := if t = .meadow then src else heathLantern loc
        if ¬ d.lanternUp l ∨ d.trackerFull l ∨ (kind ≠ .demand ∧ d.f TIER_PACE.MAX_MIG ≤ d.paced l) then d
        else (d'.beginMig idx kind t loc l).unqueue idx (kind, t)
  | _, _ => d

/-- A request to move a plot, against a migration it may have (R164): merged where both move it to one tier, the one in
flight cancelled where the new one is of higher priority, else the request waits. -/
def Dev.startMig (d : Dev) (idx : Nat) (kind : MigKind) (t : Tier) : Dev :=
  match d.migOf idx with
  | none => d.queueMig idx kind t
  | some m =>
    if m.kind.prio ≤ kind.prio then d.queueMig idx kind t
    else if m.dstTier = t then d.setMig idx (fun m => { m with kind := kind })
    else (d.cancelMig idx).queueMig idx kind t

/-- A plot must not leave meadow by choice: its region is pin-meadow or its PIN is set (R328). -/
def Dev.keepsMeadow (d : Dev) (idx : Nat) : Bool :=
  (d.entry idx).pin || (d.regionOf idx).any (fun r => r.2.policy == .pinMeadow)

/-- Where an evacuation takes a plot (R328, R356); a sealed plot in heath stays in heath (R55, R172). -/
def Dev.evacTier (d : Dev) (idx : Nat) : Tier :=
  let e := d.entry idx
  let roomy := !d.freeBelow (d.f TIER_MDW_POOL.PROMO_FLOOR) && (e.tier == .meadow || !d.sealedPlot idx)
  match e.tier with
  | .none => .none
  | .meadow =>
    if d.keepsMeadow idx ∨ roomy then .meadow
    else match d.regionOf idx with
      | some (_, r) => if r.cls = .deep then .deep else .fast
      | none => .fast
  | .fast => if (d.heathDest .fast).isNone ∧ roomy then .meadow else .fast
  | .deep => if (d.heathDest .deep).isNone ∧ roomy then .meadow else .deep

/-- An evacuation of a plot is asked for. -/
def Dev.evacuate (d : Dev) (idx : Nat) : Dev := d.startMig idx .evacuation (d.evacTier idx)

/-- A demand migration to meadow for a write that meets a heath home (R46, R169). -/
def Dev.demand (d : Dev) (idx : Nat) : Dev := d.startMig idx .demand .meadow

/-- The witness of a meadow line write (R165): a demotion is cancelled, an evacuation copies the line again. -/
def Dev.witness (d : Dev) (idx off n : Nat) : Dev :=
  match d.migOf idx with
  | none => d
  | some m =>
    if m.kind = .evacuation then
      d.setMig idx (fun m => { m with wt := true, bitmap := (unitsOf off n 64).foldl ins m.bitmap })
    else if m.srcTier = .meadow then d.cancelMig idx
    else d

/-- The target of a placement decision under the auto policy (Table 5.3); none where the plot stays. The demotions of meadow
pressure are `Dev.forceDown` (R162). -/
def Dev.autoTarget (d : Dev) (e : HomeEntry) (cls : SvcClass) : Option Tier :=
  let hot := d.f TIER_THRESH.PROMOTE ≤ e.heat
  match e.tier with
  | .none => none
  | .meadow =>
    if e.heat < d.f TIER_THRESH.DEMOTE ∧ cls ≠ .meadow then some .fast else none
  | .fast =>
    if hot then some .meadow else if e.heat < d.f TIER_THRESH.DEEP ∧ cls = .deep then some .deep else none
  | .deep =>
    if hot then some .meadow else if d.f TIER_THRESH.DEEP < e.heat then some .fast else none

/-- A placement decision on one plot, made by the placement lantern of its region (R17, R160, R161, R172): a plot with PIN set
stays, and a sealed plot is never moved into meadow but takes a read copy. -/
def Dev.placePlot (d : Dev) (idx : Nat) : Dev :=
  match d.regionOf idx with
  | none => d
  | some (rid, r) =>
    let e := d.entry idx
    let target : Option Tier := match r.policy with
      | .auto => d.autoTarget e r.cls
      | .pinMeadow => if e.tier = .fast ∨ e.tier = .deep then some .meadow else none
      | .pinHeath => none
    match target with
    | none => d
    | some t =>
      if ¬ d.lanternUp (placementLantern rid) ∨ e.pin then d
      else if d.sealedPlot idx ∧ t = .meadow then if e.state = .poisoned then d else d.candleAdd idx
      else if e.tier.code < t.code then d.startMig idx .demotion t
      else d.startMig idx .promotion t

/-- Reads of a plot count for heat, and a heath read whose sampled access leaves HEAT at `PROMOTE` or above decides at once, also
where the plot migrates (R158, R160, R164). -/
def Dev.heatDecides (d : Dev) (lantern idx : Nat) : Bool :=
  let e := d.entry idx
  (e.tier == .fast || e.tier == .deep)
    && lookD d.tier.sample lantern 0 % 2 ^ d.f TIER_HEAT_CTL.SAMPLE_SHIFT == 0 && decide (d.f TIER_THRESH.PROMOTE ≤ e.heat)

/-- Bytes of a plot copied to the destination of its migration (M2, M3). A poisoned plot copies none (R171). -/
def Dev.copyPlot (d : Dev) (m : Migration) : Dev :=
  if (d.entry m.idx).state = .poisoned then d else
    let src := if m.srcTier = .meadow then d.mem.meadow else d.mem.heath
    let bs := memRead src (m.srcLoc * plotBytes) plotBytes
    if m.dstTier = .meadow then
      ({ d with mem := { d.mem with meadow := memClear d.mem.meadow (m.dstLoc * plotBytes) plotBytes } }).writeMeadow
        (m.dstLoc * plotBytes) bs d.dur.openEp
    else { d with mem := { d.mem with
      heath := memWrite (memClear d.mem.heath (m.dstLoc * plotBytes) plotBytes) (m.dstLoc * plotBytes) bs } }

/-- A commit is refused: back to M3, and after MAX_REFUSE a promotion or demotion is cancelled until the next sweep (R168). -/
def Dev.refuseMig (d : Dev) (idx : Nat) : Dev :=
  match d.migOf idx with
  | none => d
  | some m =>
    let d := ((d.setMig idx (fun m => { m with refusals := m.refusals + 1, step := .making, wt := false })).finc
      (TIER_MIG_STAT.REFUSED (m.lantern - 8)) 1).count 0x601 0 1
    if m.refusals + 1 ≥ d.f TIER_PACE.MAX_REFUSE ∧ (m.kind = .promotion ∨ m.kind = .demotion) then
      let d := d.cancelMig idx
      { d with tier := { d.tier with barred := ins d.tier.barred idx } }
    else d

/-- The home change of M4 and the release of M5 (R166, R167). -/
def Dev.commitMig (d : Dev) (idx : Nat) : Dev :=
  match d.migOf idx with
  | none => d
  | some m =>
    if (d.entry idx).gen ≠ m.gen0 then d.cancelMig idx else
      let old := d.entry idx
      let st : PlotState := if old.state = .poisoned then .poisoned
        else if d.sealedPlot idx then .sealed else .resident
      let d := d.homeChange idx m.dstTier m.dstLoc st
      let d := { d with dur := { d.dur with reserved := d.dur.reserved - m.res } }
      let d := (d.releaseHome m.srcTier m.srcLoc).dropMig idx
      (d.finc (TIER_MIG_STAT.COMMITTED (m.lantern - 8)) 1).count 0x600 0 1

/-- A line of the home table stays marked: an entry has heat, or it is a pin-meadow plot homed in heath (R159, R161). -/
def Dev.keepsMark (d : Dev) (line : Nat) : Bool :=
  (List.range 8).any (fun k =>
    let e := d.entry (8 * line + k)
    e.heat != 0 || ((e.tier == .fast || e.tier == .deep) &&
      (d.regionOf (8 * line + k)).any (fun r => r.2.policy == .pinMeadow)))

end Sys2Proof.Machine
end

