-- ==== Sys2Proof/Machine/Budget.lean ====
section
/-! DEFINITION. The dirty budget and the governor (R178 to R189, R217 to R219): B, the stages, admission and its hints. -/

namespace Sys2Proof.Machine

/-- B_SAVE: save rates of the modules in save duty, in 100 MB/s (Table 6.1). A module that leaves by request counts no
longer, though it stays in duty until D has fallen (R181). -/
def Dev.saveRate (d : Dev) : Nat :=
  ((List.range 20).map (fun m => if d.f (DUR_MOD.DUTY m) = 1 then d.f (DUR_MOD.RATE m) else 0)).foldl (· + ·) 0

/-- Energy term of the budget in pages (R179): T_HOLD is at most 1.9 s and T_FIX is 40 ms. -/
def energyPages (safety rate joules watts : Nat) : Nat :=
  if watts = 0 then 0
  else if 19 * watts ≤ 10 * joules then (100 - safety) * rate * 100000000 * 186 / (100 * 100 * 4096)
  else (100 - safety) * rate * 100000000 * (100 * joules - 4 * watts) / (100 * 100 * watts * 4096)

/-- 768 GiB, in pages (R179). -/
def capPages : Nat := 201326592

/-- B_ENERGY of the device. -/
def Dev.energyTerm (d : Dev) : Nat :=
  energyPages (d.f DUR_BUDGET_CTL.SAFETY) d.saveRate (d.f DUR_HOLDUP.E_DECL_J) (d.f DUR_HOLDUP.P_SAVE_W)

/-- B_SPACE of the device: free save-area space less 16 GiB. -/
def Dev.spaceTerm (d : Dev) : Nat := d.dur.fSave - 4194304

/-- The device must work in write-through (R217). -/
def Dev.wtCause (d : Dev) : Bool := !d.on DUR_HOLDUP.VALID || d.pwr.holdLow == 2 || d.dur.holdFail

/-- B as its terms give it now (R179, R217). -/
def Dev.budgetNow (d : Dev) : Nat :=
  if d.wtCause then 0 else min capPages (min d.energyTerm d.spaceTerm)

/-- The term that sets B, as `LIMITER` codes it. -/
def Dev.limiter (d : Dev) : Nat :=
  if d.wtCause then 3
  else if capPages ≤ min d.energyTerm d.spaceTerm then 0
  else if d.energyTerm ≤ d.spaceTerm then 1 else 2

/-- D exceeds B because a term changed (R183). -/
def Dev.setOver (d : Dev) : Dev :=
  if d.on DUR_BUDGET_STAT.OVER then d
  else ((d.fset DUR_BUDGET_STAT.OVER 1).fset DUR_BUDGET_STAT.STAGE 3).raise (source 11 0) 5 0 0 0

/-- Write-through begins or ends as its causes stand (R217, R219). -/
def Dev.writeThrough (d : Dev) : Dev :=
  if d.wtCause = d.on DUR_BUDGET_STAT.WT then d
  else if d.wtCause then
    let d := d.fset DUR_BUDGET_STAT.WT 1
    if d.dirtyPages = 0 then { d with dur := { d.dur with wtDrained := true } }
    else (({ d with dur := { d.dur with wtDrained := false, exposure := true } }).setOver).raise (source 11 1) 5 0 0 0
  else { (d.fset DUR_BUDGET_STAT.WT 0) with dur := { d.dur with wtDrained := false, exposure := false } }

/-- B is computed again after a term changed: a fall acts at once, and ends the rises above it; a rise acts 1 ms later, each at
its own instant (R182, R183). -/
def Dev.rebudget (d : Dev) : Dev :=
  let b := d.budgetNow
  let d := (d.fset DUR_BUDGET_STAT.LIMITER d.limiter).writeThrough
  let up := d.dur.rise.filter (fun r => r.1 ≤ b)
  if b < d.dur.budget then
    let d := { d with dur := { d.dur with budget := b, rise := [] } }
    if b < d.dirtyPages ∧ ¬ d.wtCause then d.setOver else d
  else if b = d.dur.budget ∨ up.any (fun r => r.1 == b) then { d with dur := { d.dur with rise := up } }
  else { d with dur := { d.dur with rise := up ++ [(b, d.clk + 1000000)] } }

/-- The stage that U = D ÷ B enters or leaves, given the stage it stands in (R185). -/
def stageOf (dirty b m1 m2 m3 cur : Nat) : Nat :=
  let at_ (m : Nat) := dirty ≠ 0 ∧ m * b ≤ dirty * 100
  let up := if at_ m3 then 3 else if at_ m2 then 2 else if at_ m1 then 1 else 0
  let left (m : Nat) := dirty * 100 + 2 * b ≤ m * b
  if cur < up then up
  else
    let down (s m : Nat) (c : Nat) := if c = s ∧ left m then s - 1 else c
    down 1 m1 (down 2 m2 (down 3 m3 cur))

/-- The governor's stage as evaluated now (R185, R183, R219). -/
def Dev.stageNow (d : Dev) : Nat :=
  if d.on DUR_BUDGET_STAT.OVER then 3
  else if d.on DUR_BUDGET_STAT.WT then 0
  else stageOf d.dirtyPages d.dur.budget (d.f DUR_BUDGET_CTL.MARK1) (d.f DUR_BUDGET_CTL.MARK2)
    (d.f DUR_BUDGET_CTL.MARK3) (d.f DUR_BUDGET_STAT.STAGE)

/-- A figure in µs within the limits of R187. -/
def clampHint (us : Nat) : Nat := min 65535 (max 10 us)

/-- Time in µs for the image writer to write `pages` at `rate` pages a ms. -/
def drainUs (pages rate : Nat) : Nat := if rate = 0 then 65535 else ceilDiv (pages * 1000) rate

/-- Hint of stage 3: until U falls below `MARK2` (R187). -/
def Dev.stageHint (d : Dev) : Nat :=
  clampHint (drainUs (d.dirtyPages - d.f DUR_BUDGET_CTL.MARK2 * d.dur.budget / 100) d.dur.imgRate)

/-- Token store brought up to now: accrual at the image rate, at most 100 µs of it (R186). -/
def Dev.tokensNow (d : Dev) : Nat :=
  min (d.dur.imgRate * 100000) (d.dur.tokens + d.dur.imgRate * (d.clk - d.dur.tokAt))

/-- Stage that meters a write: for a mirrored region the higher of this device's and the twin's (R188). -/
def Dev.stageFor (d : Dev) (mirrored : Bool) : Nat :=
  if mirrored then max (d.f DUR_BUDGET_STAT.STAGE) d.twn.peerStage else d.f DUR_BUDGET_STAT.STAGE

/-- Hint of write-through: what the image writer's queue needs to drain (R218, R219, log entry 71). -/
def Dev.wtHint (d : Dev) : Nat := clampHint (drainUs d.dirtyPages d.dur.imgRate)

/-- Whether a write or atomic that reserves `pages` is admitted, or the hint it is answered with (R141, R183 to R188,
R207, R218, R219). A write that would bring D above B below stage 3 takes the hint of stage 3 (log entry 72). -/
def Dev.admits (d : Dev) (pages : Nat) (mirrored : Bool) : Option Nat :=
  if d.dur.stop then some d.stageHint
  else if d.on DUR_BUDGET_STAT.WT then if d.budgetTakes pages then none else some d.wtHint
  else if d.stageFor mirrored = 3 then some d.stageHint
  else if ¬ d.budgetTakes pages then some d.stageHint
  else if d.stageFor mirrored = 2 ∧ d.tokensNow < pages * 1000000 then some 10
  else none

/-- An admitted request takes its tokens and reserves its pages (R184, R186, R188). -/
def Dev.takeAdmission (d : Dev) (pages : Nat) (mirrored : Bool := false) : Dev :=
  let t := d.tokensNow
  { d with dur := { d.dur with
      reserved := d.dur.reserved + pages
      tokens := if d.stageFor mirrored = 2 ∧ ¬ d.on DUR_BUDGET_STAT.WT then t - pages * 1000000 else t
      tokAt := d.clk } }

/-- Reserved pages are given back. -/
def Dev.unreserve (d : Dev) (pages : Nat) : Dev := { d with dur := { d.dur with reserved := d.dur.reserved - pages } }

/-- Share of a busy heath channel, in percent, that the image writer has: it rises from `IMG_SHARE` at `MARK1` to `IMG_MAX` at
`MARK2`; a SEAL_NOW that runs gives it `IMG_MAX` (Table 6.2, R207). -/
def Dev.imgShare (d : Dev) : Nat :=
  let lo := d.f DUR_BUDGET_CTL.IMG_SHARE
  let hi := d.f DUR_BUDGET_CTL.IMG_MAX
  let m1 := d.f DUR_BUDGET_CTL.MARK1
  let m2 := d.f DUR_BUDGET_CTL.MARK2
  if ¬ d.dur.sealNow.isEmpty ∨ d.dur.stop ∨ d.on DUR_BUDGET_STAT.OVER ∨ 2 ≤ d.f DUR_BUDGET_STAT.STAGE then hi
  else if d.f DUR_BUDGET_STAT.STAGE = 0 ∨ d.dur.budget = 0 then lo
  else min hi (lo + (hi - lo) * (d.dirtyPages * 100 - m1 * d.dur.budget) / max 1 ((m2 - m1) * d.dur.budget))

/-- Share of a busy heath channel, in percent, that paced migrations of a kind have: halved in stage 1 (R177, Table 6.2). -/
def Dev.pacedShare (d : Dev) (k : MigKind) : Nat :=
  let s := match k with
    | .demand => 100
    | .evacuation => d.f TIER_PACE.EVAC_SHARE
    | .promotion | .demotion => d.f TIER_PACE.BG_SHARE
  if k ≠ .demand ∧ d.f DUR_BUDGET_STAT.STAGE = 1 then s / 2 else s

/-- The journal area has a free line (R200). -/
def Dev.journalFree (d : Dev) : Bool := decide (d.jrnlLines < d.f DUR_JRNL.JRNL_MIB * 16384)

end Sys2Proof.Machine
end

