-- ==== Sys2Proof/Machine/Flags.lean ====
section
/-! DEFINITION. Answers: status codes and their carriers (Table 4.4), the status header (Table 4.3), deferred errors (R114),
what an answer does to its connection (R97, R113, R123), tags and credit (R101, R105). -/

namespace Sys2Proof

/-- Status codes of Table 4.4. -/
def Status.code : Status → Nat
  | .ok => 0 | .redirect => 1 | .retryAfter => 2 | .regionOffline => 3 | .poisoned => 4 | .accessDenied => 5
  | .outOfRange => 6 | .sealedReadOnly => 7 | .deferredWriteError => 8 | .channelFrozen => 9 | .protocolNak => 10

/-- Status of a code. -/
def Status.ofCode (n : Nat) : Status :=
  ([Status.ok, .redirect, .retryAfter, .regionOffline, .poisoned, .accessDenied, .outOfRange, .sealedReadOnly,
    .deferredWriteError, .channelFrozen, .protocolNak][n]?).getD .ok

/-- A verb that changes memory. -/
def OpKind.writes : OpKind → Bool
  | .write | .cmpSwap | .fetchAdd | .atomicWrite => true
  | .read | .flush | .fenceCount | .sealQuery | .regionInfo => false

/-- An extension verb (R122). -/
def OpKind.extension : OpKind → Bool
  | .fenceCount | .sealQuery | .regionInfo => true
  | .write | .read | .cmpSwap | .fetchAdd | .flush | .atomicWrite => false

/-- A verb that counts against responder resources (R103, R122). -/
def OpKind.responder : OpKind → Bool
  | .read | .cmpSwap | .fetchAdd | .fenceCount | .sealQuery | .regionInfo => true
  | .write | .flush | .atomicWrite => false

/-- Bit of PERM a verb needs (Table 4.1, R41): 0 read, 1 write, 2 atomic, 3 flush, 4 extension query. -/
def OpKind.perm : OpKind → Nat
  | .read => 0 | .write => 1 | .cmpSwap | .fetchAdd | .atomicWrite => 2 | .flush => 3
  | .fenceCount | .sealQuery | .regionInfo => 4

/-- BTH opcode of the response that answers a verb `OK` in one packet (Table 4.1); FLUSH and ATOMIC WRITE take the READ
Response Only of the memory placement extensions (PRESUMED, log entry 68). -/
def OpKind.response : OpKind → Nat
  | .write => 0x11 | .read | .flush | .atomicWrite => 0x10 | .cmpSwap | .fetchAdd => 0x12
  | .fenceCount | .sealQuery | .regionInfo => 0xC8

/-- Headers of a request packet in their order (R109): which packet of its message it is, whether it carries an immediate, and
whether its connection was granted the deadline header. -/
def requestHeaders (k : OpKind) (first imm dl : Bool) (data : Bool) : List Hdr :=
  [.bth]
    ++ (match k with
      | .write => if first then [.reth] else []
      | .read | .atomicWrite => [.reth]
      | .cmpSwap | .fetchAdd => [.atomicEth]
      | .flush => [.feth, .reth]
      | .fenceCount | .sealQuery | .regionInfo => [.ext])
    ++ (if imm then [.immDt] else []) ++ (if dl && first then [.deadline] else []) ++ (if data then [.payload] else [])

/-- BTH opcode of a verb as a single packet (Table 4.1). -/
def OpKind.opcode : OpKind → Nat
  | .write => 0x0A | .read => 0x0C | .cmpSwap => 0x13 | .fetchAdd => 0x14 | .flush => 0x1C | .atomicWrite => 0x1D
  | .fenceCount => 0xC0 | .sealQuery => 0xC1 | .regionInfo => 0xC2

end Sys2Proof

namespace Sys2Proof.Machine

/-- IBTA RNR timer codes 01h to 1Ah with their times in µs; a longer time takes 1Bh (log entry 11). -/
def rnrTimes : List (Nat × Nat) :=
  [(1, 10), (2, 20), (3, 30), (4, 40), (5, 60), (6, 80), (7, 120), (8, 160), (9, 240), (10, 320), (11, 480), (12, 640),
   (13, 960), (14, 1280), (15, 1920), (16, 2560), (17, 3840), (18, 5120), (19, 7680), (20, 10240), (21, 15360),
   (22, 20480), (23, 30720), (24, 40960), (25, 61440), (26, 81920)]

/-- The smallest timer code whose time is at or above `us` (Table 4.4). -/
def rnrCode (us : Nat) : Nat := ((rnrTimes.find? (fun c => us ≤ c.2)).map (·.1)).getD 27

/-- AETH syndromes: ACK with the invalid credit count (R532), RNR NAK, NAK. -/
def aethAck : Nat := 0x1F
def aethRnr (code : Nat) : Nat := 0x20 + code
def nakSeq : Nat := 0x60
def nakInvalid : Nat := 0x61
def nakAccess : Nat := 0x62
def nakOperational : Nat := 0x63

/-- The AETH that carries a status, with and without the status header (Table 4.4). -/
def carrier (hdr : Bool) (st : Status) (us : Nat) (nak : Nat) : Nat :=
  match st with
  | .ok => aethAck
  | .redirect => aethRnr 1
  | .retryAfter => aethRnr (rnrCode us)
  | .protocolNak => nak
  | .regionOffline | .channelFrozen => if hdr then aethAck else aethRnr 0
  | .poisoned | .deferredWriteError => if hdr then aethAck else nakOperational
  | .accessDenied | .outOfRange | .sealedReadOnly => if hdr then aethAck else nakAccess

/-- An RNR NAK: the operation is not final (R113). -/
def isRnr (aeth : Nat) : Bool := decide (0x20 ≤ aeth) && decide (aeth < 0x40)

/-- A NAK fatal to the responder (R108). -/
def isFatal (aeth : Nat) : Bool := aeth == nakInvalid || aeth == nakAccess || aeth == nakOperational

/-! ### Connections -/

/-- Connection at an index. -/
def Dev.conn (d : Dev) (c : Nat) : Conn := lookD d.hpt.conns c {}

/-- The device with a connection changed. -/
def Dev.setConn (d : Dev) (c : Nat) (f : Conn → Conn) : Dev :=
  { d with hpt := { d.hpt with conns := change d.hpt.conns c {} f } }

/-- Stream number of the blocks of a data command, above every connection; it stands in for the QPN as well (R283, R393). -/
def jobConn (cmd : Nat) : Nat := 2 ^ 60 + cmd % 2 ^ 24

/-- QPN of a connection (R85); the blocks of a data command go under a number no connection has. -/
def Dev.qpn (d : Dev) (c : Nat) : Nat := if 2 ^ 60 ≤ c then 2 ^ 36 + c % 2 ^ 24 else (d.conn c).cgen.toNat * 65536 + c

/-- Operation with tag `id`. -/
def Dev.op (d : Dev) (id : Nat) : Option Op := d.hpt.ops.find? (fun o => o.id == id)

/-- The device with an operation changed. -/
def Dev.setOp (d : Dev) (id : Nat) (f : Op → Op) : Dev :=
  { d with hpt := { d.hpt with ops := d.hpt.ops.map (fun o => if o.id = id then f o else o) } }

/-- Port of a number; one that is not up carries nothing. -/
def Dev.port (d : Dev) (p : Nat) : Port := lookD d.hpt.ports p {}

/-- The device with a port changed. -/
def Dev.setPort (d : Dev) (p : Nat) (f : Port → Port) : Dev :=
  { d with hpt := { d.hpt with ports := change d.hpt.ports p {} f } }

/-- A port holds a priority still because its peer paused it and the pause time runs (R81, R82). -/
def Port.holds (p : Port) (pri clk : Nat) : Bool :=
  (look p.pausedAt pri).any (fun x => decide (clk < x.2)) && (look p.ignoreAt pri).isNone

/-! ### Response packets and egress (R80, R81, R100, R101, R109, R111, R116) -/

/-- The packets of a response: a READ's data go in packets of path-MTU payload, of which those in the middle carry neither AETH
nor status header (R109, R116). -/
def Resp.packets (r : Resp) (mtu : Nat) : List Resp :=
  let n := ceilDiv r.data.length (max 1 mtu)
  if r.opcode ≠ 0x10 ∨ n ≤ 1 then [r]
  else (List.range n).map (fun k =>
    let ends := k == 0 || k + 1 == n
    let p : Resp := { conn := r.conn, pri := r.pri, dscp := r.dscp, acks := false }
    { (if ends then r else p) with
      psn := (r.psn + 2 ^ 24 + 1 + k - n) % 2 ^ 24
      opcode := if k = 0 then 0x0D else if ends then 0x0F else 0x0E
      data := (r.data.drop (k * max 1 mtu)).take (max 1 mtu) })

/-- Headers of a response packet in their order (R109). -/
def Resp.headers (r : Resp) : List Hdr :=
  [.bth] ++ (if r.acks then [.aeth] else []) ++ (if r.orig.isSome then [.atomicAckEth] else [])
    ++ (if r.hdr then [.status] else []) ++ (if r.hdr ∧ r.status = .redirect then [.gid] else [])
    ++ (if r.data.isEmpty then [] else [.payload])

/-- The status header as its 16 bytes (Table 4.3), little-endian. -/
def Resp.statusHeader (r : Resp) : List Byte :=
  leBytes 8 (r.epoch.getD 0 % 2 ^ 48 * 2 ^ 16 + r.arg % 2 ^ 16)
    ++ leBytes 8 (r.dpsn % 2 ^ 24 * 2 ^ 32 + bit r.inDoubt * 2 ^ 11 + bit r.more * 2 ^ 10 + bit r.done * 2 ^ 9
      + bit r.epoch.isSome * 2 ^ 8 + r.status.code)

/-- The service GID after a REDIRECT's status header: 16 bytes in network byte order (R111). -/
def Resp.gidBytes (r : Resp) : List Byte := (leBytes 16 r.gid).reverse

/-- UDP source port of a response, taken from its connection's index (R78, log entry 69). -/
def Resp.sourcePort (r : Resp) : BitVec 16 := Config.sourcePort r.conn

/-- A tag is freed. -/
def Dev.freeTag (d : Dev) (id : Nat) : Dev := { d with hpt := { d.hpt with busy := rem d.hpt.busy (id % 32768) } }

/-- A response's tag, if it has one, is freed (R101). -/
def Dev.freeTags (d : Dev) (tags : List Nat) : Dev := tags.foldl Dev.freeTag d

/-- Frames leave on a port, wait while their priority is paused, or are discarded with a port that is down; the tag of a
response is freed when its last packet has left (R81, R100, R101). -/
def Dev.egress (d : Dev) (port : Nat) (h : Held) : Dev :=
  if ¬ (d.port port).up then d.freeTags h.tag.toList
  else if (d.port port).holds h.pri d.clk then d.setPort port (fun q => { q with held := q.held ++ [h] })
  else (d.sendAll h.outs).freeTags h.tag.toList

/-- A response leaves on its connection's port; `tag` is the tag it still holds. -/
def Dev.emit (d : Dev) (r : Resp) (tag : Option Nat := none) : Dev :=
  d.egress (d.conn r.conn).port
    { pri := r.pri, outs := (r.packets (d.conn r.conn).mtu).map .resp, tag := tag, resp := true }

/-- Frames that waited on a priority no longer paused leave, oldest first (R81). -/
def Dev.letOut (d : Dev) (p : Nat) : Dev :=
  let q := d.port p
  if q.held.isEmpty then d
  else
    let go := q.held.filter (fun h => !q.holds h.pri d.clk)
    ((d.setPort p (fun q => { q with held := q.held.filter (fun h => q.holds h.pri d.clk) })).sendAll
      (go.flatMap (·.outs))).freeTags (go.filterMap (·.tag))

/-! ### Tags and credit (R101, R102, R105) -/

/-- The lowest free tag slot of a transport lantern. -/
def Dev.freeSlot (d : Dev) (l : Nat) : Option Nat :=
  (List.range 4096).find? (fun s => !d.hpt.busy.contains (l * 4096 + s))

/-- A tag is allocated in a slot: its generation advances (Table 3.6). -/
def Dev.takeTag (d : Dev) (l slot : Nat) : Nat × Dev :=
  let k := l * 4096 + slot
  let g := lookD d.hpt.tgens k 0 + 1
  (g.toNat * 32768 + k, { d with hpt := { d.hpt with tgens := put d.hpt.tgens k g, busy := ins d.hpt.busy k } })

/-- Bytes rounded up to whole lines. -/
def lineBytes (n : Nat) : Nat := ceilDiv n 64 * 64

/-- Cost of a request in credit (R105). -/
def costOf (k : OpKind) (n : Nat) : Nat := match k with
  | .read | .write => lineBytes n
  | .cmpSwap | .fetchAdd | .atomicWrite | .flush | .fenceCount | .sealQuery | .regionInfo => 64

/-! ### Deadlines (R131) -/

/-- D of a request: its stamp plus the deadline asked for (Table 4.2), kept between 2 µs and 250 µs (R131). -/
def deadline (stamp : Nat) (hdr : Option (BitVec 64)) (dfltUs : Nat) : Nat :=
  let raw := match hdr with
    | some w =>
      let x := w.toNat % 2 ^ 62
      if w.toNat / 2 ^ 62 = 1 then stamp + x else if w.toNat / 2 ^ 62 = 2 then x else stamp + dfltUs * 1000
    | none => stamp + dfltUs * 1000
  max (stamp + 2000) (min (stamp + 250000) raw)

/-! ### The peer's service address (R231, `TWN_PEER_GIDi`) -/

/-- Nonzero service GIDs the peer reported, in index order. -/
def Dev.peerGids (d : Dev) : List Nat := ((List.range 16).map (fun i => d.f (TWN_PEER_GID.GID i))).filter (· != 0)

/-- The GID a redirection for a region names; none where the peer reported none. -/
def Dev.redirectGid (d : Dev) (rid : Nat) : Option Nat :=
  let g := d.peerGids
  if g.isEmpty then none else g[rid % g.length]?

/-! ### Answers -/

/-- What an operation is answered with. -/
structure Answer where
  st : Status := .ok
  us : Nat := 0
  nak : Nat := 0
  epoch : Option Nat := none
  inDoubt : Bool := false
  gid : Nat := 0
  data : List Byte := []
  orig : Option (BitVec 64) := none
  deriving DecidableEq, Repr

/-- A redirection to the twin; with no address named by the peer, gid 0, it goes to the host as RETRY_AFTER with hint `us`
(R231). -/
def Dev.redirect (d : Dev) (rid us : Nat) (inDoubt : Bool := false) : Answer :=
  { st := .redirect, gid := (d.redirectGid rid).getD 0, us := us, inDoubt := inDoubt }

/-- The answer as a host gets it: a hint goes with RETRY_AFTER alone, from 1 to 65 535 µs (R111). -/
def Answer.forHost (a : Answer) : Answer :=
  let st := if a.st = .redirect ∧ a.gid = 0 then .retryAfter else a.st
  { a with st := st, us := if st = .retryAfter then max 1 (min 65535 a.us) else 0 }

/-- A final answer as one response: a deferred error takes the place of `OK`, or rides on a FLUSH (R114). -/
def Dev.shape (d : Dev) (o : Op) (a : Answer) : Resp × Bool :=
  let c := d.conn o.conn
  let psn := if isRnr (carrier c.stHdr a.st a.us a.nak) then o.psn else o.endPsn
  let base : Resp :=
    { conn := o.conn, psn := psn, pri := o.pri, dscp := o.dscp, opcode := if a.st = .ok then o.kind.response else 0x11,
      hdr := c.stHdr, data := a.data, orig := a.orig }
  match c.deferred with
  | e :: rest =>
    if a.st = .ok ∨ (o.kind = .flush ∧ ¬ isRnr (carrier c.stHdr a.st a.us a.nak)) then
      ({ base with aeth := carrier c.stHdr .deferredWriteError 0 0, status := .deferredWriteError, region := e.region,
                   arg := e.region, dpsn := e.psn, more := !rest.isEmpty, done := a.st == .ok }, true)
    else ({ base with aeth := carrier c.stHdr a.st a.us a.nak, status := a.st, arg := a.us, retryUs := a.us,
                      epoch := a.epoch, inDoubt := a.inDoubt, gid := a.gid }, false)
  | [] =>
    ({ base with aeth := carrier c.stHdr a.st a.us a.nak, status := a.st, arg := a.us, retryUs := a.us,
                 epoch := a.epoch, inDoubt := a.inDoubt, gid := a.gid }, false)

/-- What an answer changes in its connection: the completion count, the PSN awaited after an RNR NAK, the state after a
fatal NAK, the caches for duplicates (R97, R108, R123, R127, R142). -/
def Conn.afterAnswer (c : Conn) (o : Op) (a : Answer) (r : Resp) (usedDef : Bool) (now : Nat) : Conn :=
  let final := !isRnr r.aeth
  { c with
    count := if final ∧ ¬ o.dup then c.count + 1 else c.count
    rnrPsn := if final ∨ o.dup then c.rnrPsn else some o.psn
    ePsn := if final ∨ o.dup then c.ePsn else o.psn
    state := if isFatal r.aeth ∧ c.state ≠ .draining then .error else c.state
    since := if isFatal r.aeth ∧ c.state ≠ .draining then now else c.since
    deferred := if usedDef then c.deferred.drop 1 else c.deferred
    openMsg := if (final ∧ ¬ isFatal r.aeth) ∨ o.dup then c.openMsg else none
    cur := if (final ∧ ¬ isFatal r.aeth) ∨ o.dup then c.cur else none
    acked := if final ∧ o.kind.writes then r :: c.acked else c.acked
    atomics := match a.orig with
      | some v => if final ∧ a.st = .ok then ((o.psn, v) :: c.atomics).take c.resp else c.atomics
      | none => c.atomics }

/-- Previous contents go back to meadow; the migrations of their plots witness it as they do a write (R70, R165, R199). -/
def Dev.putBack (d : Dev) (journal : List (Nat × Byte)) (lines : List Nat) : Dev :=
  lines.foldl (fun d l => match d.idxOfPlot (l / 1024) with
    | some i => d.witness i (l % 1024 * 64) 64
    | none => d)
    { d with mem := { d.mem with meadow := journal.foldl (fun m c => memPut m c.1 c.2) d.mem.meadow } }

/-- Previous contents written back where a message is abandoned or refused (R199). -/
def Dev.rollback (d : Dev) (o : Op) : Dev := d.putBack o.journal o.lines

/-- A host's own operation: it holds a tag and its connection's credit; a forwarded one and a block of a data command hold
neither (R283, R393). -/
def Op.hosted (o : Op) : Bool := !o.fwd && o.cmd.isNone

/-- An operation leaves the table: its credit is added back, its reservation released (R105, R184). -/
def Dev.unlist (d : Dev) (o : Op) : Dev :=
  let d := d.unreserve o.reserved
  let d := { d with
    hpt := { d.hpt with ops := d.hpt.ops.filter (fun x => x.id != o.id) }
    fab := { d.fab with fwd := d.fab.fwd.filter (fun x => x.opId != o.id) } }
  if ¬ o.hosted then d
  else d.setConn o.conn (fun c => { c with
    credit := c.credit + o.cost
    cur := if c.cur.any (fun m => m.opId == o.id && m.refused.isNone) then none else c.cur })

/-- An operation leaves the device with nothing to answer: its tag is freed as well (R101). -/
def Dev.retire (d : Dev) (o : Op) : Dev :=
  let d := d.unlist o
  if o.hosted then d.freeTag o.id else d

/-- PSN `a` lies after `b` in the 24-bit circle. -/
def psnAfter (a b : Nat) : Bool :=
  let k := (a + 2 ^ 24 - b) % 2 ^ 24
  decide (0 < k) && decide (k < 2 ^ 23)

/-- A deferred error becomes pending on a connection and is raised as an event (R114, R289). -/
def Dev.defer (d : Dev) (conn rid psn : Nat) : Dev :=
  (d.setConn conn (fun c => { c with deferred := c.deferred ++ [{ region := rid, psn := psn }] })).raise
    (source 13 0) 2 0 rid psn

end Sys2Proof.Machine
end

