-- ==== Sys2Proof/Machine/Operands.lean ====
section
/-! DEFINITION. Operands of verbs: region keys and offsets (R39, R43, R279), the plots a request touches, and the checks
before and at access (Table 2.3, Table 4.5, Table 4.11). -/

namespace Sys2Proof.Machine

/-- Parts of an R_Key (Table 2.2). -/
def keyRegion (k : BitVec 32) : Nat := bitsOf k.toNat 31 20
def keyIdx (k : BitVec 32) : Nat := bitsOf k.toNat 19 16
def keyTag (k : BitVec 32) : BitVec 16 := BitVec.ofNat 16 k.toNat

/-- This device's fabric ID, where it has one. -/
def Dev.fabricId (d : Dev) : Option Nat := if d.on FAB_ID.VALID then some (d.f FAB_ID.ID) else none

/-- Members named by stripe entry `s`: the one that is primary now (R279). -/
def Stripe.home (s : Stripe) : Nat := match s.twin with
  | some t => if s.cur then t else s.member
  | none => s.member

/-- A part of a request: the member that homes it (none: this device), its offset there, its offset in the region, its
length and its place in the data. -/
structure Piece where
  home : Option Nat
  loff : Nat
  roff : Nat
  len : Nat
  pos : Nat
  deriving DecidableEq, Repr

/-- Home member and local byte offset of a region byte offset (R279). -/
def Region.resolve (r : Region) (off : Nat) : Stripe × Nat :=
  let q := off / 65536
  let u := q / 2 ^ r.grain
  let n := max 1 r.stripes.length
  (r.stripes.getD (u % n) {}, (u / n * 2 ^ r.grain + q % 2 ^ r.grain) * 65536 + off % 65536)

/-- The parts of bytes `off` to `off + len - 1` of a region, in ascending order, over at most `fuel` stripes. -/
def Dev.piecesFrom (d : Dev) (r : Region) (off len pos : Nat) : Nat → List Piece
  | 0 => []
  | fuel + 1 =>
    if len = 0 then [] else
      let span := 65536 * 2 ^ r.grain
      let n := min len (span - off % span)
      let (s, l) := r.resolve off
      let here := some s.home = d.fabricId
      { home := if here then none else some s.home, loff := l, roff := off, len := n, pos := pos } ::
        d.piecesFrom r (off + n) (len - n) (pos + n) fuel

/-- The parts of a request (R43, R282). -/
def Dev.pieces (d : Dev) (r : Region) (off len : Nat) : List Piece :=
  if r.spanned then d.piecesFrom r off len 0 (len / (65536 * 2 ^ r.grain) + 2)
  else if len = 0 then [] else [{ home := none, loff := off, roff := off, len := len, pos := 0 }]

/-- Parts homed elsewhere. -/
def Dev.remotePieces (d : Dev) (r : Region) (off len : Nat) : List Piece :=
  (d.pieces r off len).filter (fun p => p.home.isSome)

/-- A touch of one plot: home-table index, byte in the plot, bytes, place in the data. -/
structure Touch where
  idx : Nat
  off : Nat
  n : Nat
  pos : Nat
  deriving DecidableEq, Repr

/-- Touches of bytes `loff` on of a region's local run, over at most `fuel` plots (R43). -/
def touchesFrom (base loff n pos : Nat) : Nat → List Touch
  | 0 => []
  | fuel + 1 =>
    if n = 0 then [] else
      let k := min n (65536 - loff % 65536)
      { idx := base + loff / 65536, off := loff % 65536, n := k, pos := pos } :: touchesFrom base (loff + k) (n - k) (pos + k) fuel

/-- The plots of this device a request touches. -/
def Dev.touches (d : Dev) (r : Region) (off len : Nat) : List Touch :=
  ((d.pieces r off len).filter (fun p => p.home.isNone)).flatMap (fun p =>
    touchesFrom r.base p.loff p.len p.pos (p.len / 65536 + 2))

/-- The device homes a piece, as the member a stripe entry names or as that member's twin (R279). -/
def Dev.homesHere (d : Dev) (s : Stripe) : Bool := some s.member == d.fabricId || (s.twin.isSome && s.twin == d.fabricId)

/-- The plots of this device under bytes that another member or the twin sends it, whichever twin is primary (R236, R281). -/
def Dev.homeTouches (d : Dev) (r : Region) (off len : Nat) : List Touch :=
  ((d.pieces r off len).filter (fun p => p.home.isNone || d.homesHere (r.resolve p.roff).1)).flatMap (fun p =>
    touchesFrom r.base p.loff p.len p.pos (p.len / 65536 + 2))

/-- Touches of an operation: those of a forwarded one are all of its bytes here. -/
def Dev.opTouches (d : Dev) (o : Op) (r : Region) (off len : Nat) : List Touch :=
  if o.fwd then d.homeTouches r off len else d.touches r off len

/-- Parts of an operation homed elsewhere. -/
def Dev.opAway (d : Dev) (o : Op) (r : Region) : List Piece := if o.fwd then [] else d.remotePieces r o.off o.len

/-- Touches of a local run (COPY, FILL, a forwarded message, a replica leg). -/
def localTouches (r : Region) (loff len : Nat) : List Touch := touchesFrom r.base loff len 0 (len / 65536 + 2)

/-! ### Checks 1 to 7 of Table 2.3 -/

/-- Region state at a stamp: a region that is Sealing takes writes stamped before its seal instant (Table 2.4). -/
def Region.refusesWrite (r : Region) (stamp : Nat) : Bool :=
  r.state == .sealed || (r.state == .sealing && r.sealAt.any (fun t => t ≤ stamp))

/-- Checks 1 and 2: the region and the key entry the R_Key names. -/
def Dev.keyEntry (d : Dev) (k : BitVec 32) : Option (Region × KeyEntry) :=
  match look d.rgn (keyRegion k) with
  | none => none
  | some r =>
    if r.state = .creating then none else
      match look r.keys (keyIdx k) with
      | none => none
      | some e => if e.enabled ∧ e.ktag = keyTag k then some (r, e) else none

/-- The region of an R_Key is a failed peer's unmirrored one (R252). -/
def Dev.lostRegion (d : Dev) (k : BitVec 32) : Bool := (look d.rgn (keyRegion k)).any (fun r => r.keySide)

/-- Checks 1 to 3, and before them R252. -/
def Dev.check3 (d : Dev) (k : BitVec 32) (kind : OpKind) : Option Status :=
  if d.lostRegion k then some .regionOffline
  else match d.keyEntry k with
    | none => some .accessDenied
    | some (_, e) => if e.perm.getLsbD kind.perm then none else some .accessDenied

/-- Checks 4 and 5 of a region and key entry. -/
def check5 (r : Region) (e : KeyEntry) (off len : Nat) : Option Status :=
  if r.size * 65536 < off + len then some .outOfRange
  else if off < e.winFirst * 65536 ∨ (e.winFirst + e.winCount) * 65536 < off + len then some .accessDenied
  else none

/-- Checks 6 and 7; both twins on one side answer REGION_OFFLINE for mirrored regions (R229), and so does a returning unit
whose survivor has failed (R259). -/
def Dev.check7 (d : Dev) (r : Region) (kind : OpKind) (stamp : Nat) : Option Status :=
  if r.state = .offline ∨ r.state = .destroying ∨ (r.mirrored ∧ (d.twn.conflict ∨ (d.twn.returning ∧ d.twn.declared))) then some .regionOffline
  else if kind.writes ∧ r.refusesWrite stamp then some .sealedReadOnly
  else none

/-- Checks 1 to 7 of Table 2.3 on a request. FLUSH meets 1 to 3 only (R121), and so does
REGION_INFO (R126). Checks 6 and 7 are those of the home: a request with no part here meets 1 to 5 (R281). -/
def Dev.checkAccess (d : Dev) (k : BitVec 32) (kind : OpKind) (off len stamp : Nat) : Option Status :=
  match d.check3 k kind with
  | some s => some s
  | none =>
    if kind = .flush ∨ kind = .regionInfo then none else
      match d.keyEntry k with
      | none => some .accessDenied
      | some (r, e) =>
        match check5 r e off len with
        | some s => some s
        | none => if (d.touches r off len).isEmpty then none else d.check7 r kind stamp

/-- The region whose default deadline a request takes; none under the exception of R131. -/
def Dev.deadlineUs (d : Dev) (k : BitVec 32) (kind : OpKind) : Nat :=
  if kind.extension then d.f HPT_VERB_CTL.XDL_US
  else match d.check3 k kind, d.keyEntry k with
    | none, some (r, _) => r.dlUs
    | _, _ => 6

/-! ### Conditions of plots (checks 8 and 9, Table 4.11) -/

/-- The twin serves: its link is up and no failure, isolation or resynchronisation stands (R133, Table 2.3). -/
def Dev.twinGood (d : Dev) : Bool :=
  d.on TWN_CFG.ENABLE && d.twn.linkUp && d.twn.hello && !d.twn.declared && !d.twn.isolated && !d.twn.soleMeadow

/-- A plot touched is poisoned (check 8). -/
def Dev.anyPoisoned (d : Dev) (ts : List Touch) : Bool := ts.any (fun t => (d.entry t.idx).state == .poisoned)

/-- A line touched lies on a frozen channel (check 9); a meadow home or the read copy of a sealed plot. -/
def Dev.anyFrozen (d : Dev) (ts : List Touch) : Bool :=
  ts.any (fun t =>
    let e := d.entry t.idx
    e.tier == .meadow && (unitsOf t.off t.n 64).any (fun l => d.lineFrozen (e.loc * plotBytes + l * 64)))

/-- The home-table line of a plot touched lies on a frozen channel and no wick copy of lantern `l` holds it (Table 1.8). -/
def Dev.tableFrozen (d : Dev) (l : Nat) (ts : List Touch) : Bool :=
  ts.any (fun t =>
    (d.mdw.stripe.length != 0) &&
    d.chanBarred (d.mdw.stripe.getD (d.homePage t.idx % d.mdw.stripe.length) 0) && (d.wickFind l t.idx).isNone)

/-- The answer checks 8 and 9 give, if they fail. -/
def Dev.check9 (d : Dev) (rid : Nat) (r : Region) (l : Nat) (ts : List Touch) : Option Answer :=
  let alt (st : Status) : Answer := if r.mirrored ∧ d.twinGood then d.redirect rid r.dlUs else { st := st }
  if d.anyPoisoned ts then some (alt .poisoned)
  else if d.anyFrozen ts ∨ d.tableFrozen l ts then some (alt .channelFrozen)
  else none

/-- A line of bytes at meadow address `a` belongs to a write that is applied and not durable (R128). -/
def Dev.lineOpen (d : Dev) (line : Nat) : Bool :=
  d.hpt.ops.any (fun o => o.lines.contains line) || d.twn.reps.any (fun r => r.lines.contains line)

/-- Meadow lines a touch covers at its present home. -/
def Dev.linesOf (d : Dev) (t : Touch) : List Nat :=
  let e := d.entry t.idx
  if e.tier = .meadow then unitsOf (e.loc * plotBytes + t.off) t.n 64 else []

/-- A meadow page touched has not been restored yet (R214). -/
def Dev.unrestored (d : Dev) (ts : List Touch) : Bool :=
  ts.any (fun t => let e := d.entry t.idx; e.tier == .meadow && d.mem.unrestored.contains e.loc)

/-- Phase B restores the plots touched ahead of its own order (R214). -/
def Dev.restoreNow (d : Dev) (ts : List Touch) : Dev :=
  { d with mem := { d.mem with unrestored := d.mem.unrestored.filter (fun p =>
      !ts.any (fun t => let e := d.entry t.idx; e.tier == .meadow && e.loc == p)) } }

end Sys2Proof.Machine
end

