-- ==== Sys2Proof/Machine/RingOps.lean ====
section
/-! DEFINITION. Completion rings and command completions (R386, R388), and immediate notifications (R118). -/

namespace Sys2Proof.Machine

/-- Command status codes (Table 12.5). -/
def csDone : Nat := 0x00
def csBadField : Nat := 0x01
def csRefused : Nat := 0x02
def csAborted : Nat := 0x03
def csNoSpace : Nat := 0x04
def csNotReady : Nat := 0x05
def csDmaFault : Nat := 0x06
def csHeld : Nat := 0x07
def csSideband : Nat := 0x08
def csNotAuthorised : Nat := 0x09
def csBusy : Nat := 0x0A
def csData : Nat := 0x0B
def csCipher : Nat := 0x0C

/-- Entries of a completion ring. -/
def Dev.cqSize (d : Dev) (n : Nat) : Nat := 2 ^ d.f (RING_CQ_CFG.SIZE_LOG2 n)

/-- Positions of ring `n` that no register holds. -/
def Dev.ringAt (d : Dev) (n : Nat) : Ring := lookD d.ring.rings n {}

/-- The device with those changed. -/
def Dev.setRing (d : Dev) (n : Nat) (f : Ring → Ring) : Dev :=
  { d with ring := { d.ring with rings := change d.ring.rings n {} f } }

/-- One more entry would reach CQ_HEAD (R386). -/
def Dev.cqFull (d : Dev) (n : Nat) : Bool := (d.f (RING_STAT.CQ_TAIL n) + 1) % d.cqSize n == (d.ringAt n).cqHead

/-- The phase bit of an entry, bit 0 of byte 7 (Table 12.4, Table 4.6). -/
def withPhase (e : BitVec 128) (phase : Nat) : BitVec 128 := e ||| BitVec.ofNat 128 (phase % 2 * 2 ^ 56)

/-- An entry is written to a completion ring with its phase; the tail moves on, the phase turns on a wrap (R386). -/
def Dev.cqWrite (d : Dev) (n : Nat) (e : BitVec 128) : Dev :=
  let tail := d.f (RING_STAT.CQ_TAIL n)
  let phase := d.f (RING_STAT.CQ_PHASE n)
  let next := (tail + 1) % d.cqSize n
  let d := d.send (.completion n (withPhase e phase))
  let d := d.fset (RING_STAT.CQ_TAIL n) next
  if next = 0 then d.fset (RING_STAT.CQ_PHASE n) (1 - phase) else d

/-- The completion entry of a command without its phase (Table 12.4). -/
def Cmd.entry (c : Cmd) (status res0 res1 : Nat) : BitVec 128 :=
  BitVec.ofNat 128 (res0 % 2 ^ 32 + c.tag % 2 ^ 16 * 2 ^ 32 + status * 2 ^ 48 + c.ring % 32 * 2 * 2 ^ 56
    + (res1 % 2 ^ 63 + c.ring / 32 * 2 ^ 63) * 2 ^ 64)

/-- A completion is written, or waits in order while the ring is full (R386); `DONE_CNT` counts it when written (R390). -/
def Dev.postCompletion (d : Dev) (c : Cmd) (e : BitVec 128) : Dev :=
  let n := d.f (RING_SQ_CFG.CQ c.ring)
  if d.cqFull n ∨ ¬ (d.ringAt n).held.isEmpty then
    (d.setRing n (fun r => { r with held := r.held ++ [e], heldIrq := r.heldIrq ++ [c.irq] })).fset (RING_STAT.STALLED n) 1
  else
    let d := (d.cqWrite n e).fset (RING_STAT.DONE_CNT c.ring) (d.f (RING_STAT.DONE_CNT c.ring) + 1)
    let d := if d.cqFull n then d.fset (RING_STAT.STALLED n) 1 else d
    if c.irq then d.postVector (d.f (RING_CQ_CFG.VECTOR n)) else d

/-- Held completions are written as room appears, at most `fuel` of them (R386). -/
def Dev.releaseHeld (d : Dev) (n : Nat) : Nat → Dev
  | 0 => d
  | fuel + 1 =>
    match (d.ringAt n).held, (d.ringAt n).heldIrq with
    | e :: es, i :: is =>
      if d.cqFull n then d else
        let sq := bitsOf e.toNat 61 57 + 32 * bitsOf e.toNat 127 127
        let d := (d.setRing n (fun r => { r with held := es, heldIrq := is })).cqWrite n e
        let d := d.fset (RING_STAT.DONE_CNT sq) (d.f (RING_STAT.DONE_CNT sq) + 1)
        let d := if i then d.postVector (d.f (RING_CQ_CFG.VECTOR n)) else d
        d.releaseHeld n fuel
    | _, _ => if d.cqFull n then d else d.fset (RING_STAT.STALLED n) 0

/-- Command with fetch number `id`. -/
def Dev.cmd (d : Dev) (id : Nat) : Option Cmd := d.ring.cmds.find? (fun c => c.id == id)

/-- The device with a command changed. -/
def Dev.setCmd (d : Dev) (id : Nat) (f : Cmd → Cmd) : Dev :=
  { d with ring := { d.ring with cmds := d.ring.cmds.map (fun c => if c.id = id then f c else c) } }

/-- A command leaves the device without an answer. -/
def Dev.dropCmd (d : Dev) (id : Nat) : Dev :=
  { d with ring := { d.ring with cmds := d.ring.cmds.filter (fun c => c.id != id) } }

/-- Byte `i` of a descriptor's body (bytes 16 to 63), and wider fields of it. -/
def Cmd.byte (c : Cmd) (i : Nat) : Nat := (c.body.getD ((i - 16) / 8) 0).toNat / 2 ^ ((i - 16) % 8 * 8) % 256
def Cmd.u16 (c : Cmd) (i : Nat) : Nat := c.byte i + 256 * c.byte (i + 1)
def Cmd.u32 (c : Cmd) (i : Nat) : Nat := c.u16 i + 65536 * c.u16 (i + 2)
def Cmd.u64 (c : Cmd) (i : Nat) : Nat := c.u32 i + 2 ^ 32 * c.u32 (i + 4)

/-- Opcodes of the two waiting commands (Table 12.6). -/
def ocFlush : Nat := 0x11
def ocWait : Nat := 0x12

/-- Vendor codes of the commands that enter lantern 15's order (Table 14.2), and the model's code of PLDM ActivateFirmware. -/
def vcEvacuate : Nat := 7
def vcCommit : Nat := 11
def vcConfirm : Nat := 13
def vcBlob : Nat := 14
def vcActivate : Nat := 256

/-- A side-band command's answer: what Table 14.2 lays down for its response payload, after the request's instance; the PLDM
response for ActivateFirmware, whose form is outside the spec (R428, R429). -/
def Dev.answerSide (d : Dev) (c : Cmd) (status res0 res1 : Nat) : Dev :=
  if c.ring = vcActivate then d.send (.mctp 1 (BitVec.ofNat 8 5 :: Config.standardReply 0x51A [BitVec.ofNat 8 status]))
  else if c.ring = vcBlob then d.send (.vendor c.ring 0 [c.tag, if status = csCipher then res0 else status])
  else if c.ring = vcConfirm then d.send (.vendor c.ring 0 [c.tag, status])
  else if c.ring = vcCommit then d.send (.vendor c.ring 0 [c.tag, status, res0])
  else d.send (.vendor c.ring 0 [c.tag, status, res0, res1])

/-- A side-band command that reached lantern 15 before it stopped is answered 82h, and counted (R433). -/
def Dev.answerDark (d : Dev) (c : Cmd) : Dev :=
  let d := d.finc SBP_CNT.DARK 1
  if c.ring = vcActivate then d.send (.mctp 1 [5, 0x1A, 0x82]) else d.send (.vendor c.ring 0x82 [c.tag])

/-- A command's completion is written; a side-band command is answered on the port (R432); one that outlived the drain of a
soft reset raises an event in its place (R402). -/
def Dev.finish (d : Dev) (c : Cmd) (status res0 res1 : Nat) : Dev :=
  let d := d.dropCmd c.id
  let e := c.entry status res0 res1
  if c.sb then d.answerSide c status res0 res1
  else if c.mute then
    d.raise (source 15 7) 2 c.op c.ring c.tag
      ((List.range 4).map (fun k => BitVec.ofNat 32 (e.toNat / 2 ^ (32 * k))))
  else
    let d := d.postCompletion c e
    { d with ring := { d.ring with doneTags := ins d.ring.doneTags (c.ring * 65536 + c.tag) } }

/-- The status and result with which a running FLUSH or WAIT_COUNT completes now, if it does (R396, R397). -/
def Dev.waitOver (d : Dev) (c : Cmd) : Option (Nat × Nat) :=
  if ¬ c.running ∨ c.sb then none
  else if c.op = ocFlush then
    let earlier (x : Cmd) : Bool := decide (x.id < c.id) && !x.sb && !x.mute && (x.ring == c.ring || c.byte 16 % 2 == 1)
    if d.ring.cmds.any earlier then none else some (csDone, 0)
  else if c.op = ocWait then
    let n := c.byte 16 % 64
    let done := d.f (RING_STAT.DONE_CNT n)
    if ¬ d.on (RING_SQ_CFG.EN n) then some (csRefused, 12)
    else if (done + 2 ^ 32 - c.u32 20) % 2 ^ 32 < 2 ^ 31 then some (csDone, done) else none
  else none

/-- Waiting commands complete, oldest first, each perhaps letting another pass; at most `fuel` of them. -/
def Dev.settleWaits (d : Dev) : Nat → Dev
  | 0 => d
  | fuel + 1 =>
    match d.ring.cmds.find? (fun c => (d.waitOver c).isSome) with
    | none => d
    | some c =>
      match d.waitOver c with
      | some (st, res) => (d.finish c st res 0).settleWaits fuel
      | none => d

/-- A command completes, and commands that waited for it go on (R388, R396, R397). -/
def Dev.complete (d : Dev) (c : Cmd) (status : Nat) (res0 : Nat := 0) (res1 : Nat := 0) : Dev :=
  (d.finish c status res0 res1).settleWaits d.ring.cmds.length

/-- The immediate notification entry without its phase (Table 4.6). -/
def immEntry (imm qpn : Nat) (ovf : Bool) (rid epoch : Nat) : BitVec 128 :=
  BitVec.ofNat 128 (imm % 2 ^ 32 + qpn % 2 ^ 24 * 2 ^ 32 + bit ovf * 2 ^ 57 + rid % 2 ^ 12 * 2 ^ 64 + epoch % 2 ^ 48 * 2 ^ 80)

/-- An immediate notification is posted, dropped and counted on a full ring, or discarded with `IMM_EN` = 0 (R118). -/
def Dev.notifyImm (d : Dev) (qpn : Nat) (imm : Nat) (rid epoch : Nat) : Dev :=
  if ¬ d.on HPT_VERB_CTL.IMM_EN then d
  else
    let n := d.f HPT_VERB_CTL.IMM_RING
    if ¬ d.on (RING_CQ_CFG.EN n) ∨ d.cqFull n then
      { (d.finc HPT_IMM_LOST.LOST 1) with hpt := { d.hpt with immOvf := true } }
    else
      let d' := d.cqWrite n (immEntry imm qpn d.hpt.immOvf rid epoch)
      { d' with hpt := { d'.hpt with immOvf := false } }

end Sys2Proof.Machine
end

