-- ==== Sys2Proof/Machine/LinkOps.lean ====
section
/-! DEFINITION. The twin link and the fabric links as carriers: frames, their order and stores (R225 to R228, R264), and
fabric messages with their indices (R275 to R277). -/

namespace Sys2Proof.Machine

/-! ### Message types -/

/-- Twin message types (Table 7.2). -/
def twHello : Nat := 0x01
def twHb : Nat := 0x02
def twLeg : Nat := 0x10
def twComplete : Nat := 0x11
def twAbandon : Nat := 0x12
def twConf : Nat := 0x13
def twDur : Nat := 0x14
def twEoe : Nat := 0x18
def twSealrep : Nat := 0x19
def twSwapReq : Nat := 0x20
def twSwapReady : Nat := 0x21
def twSwapRefuse : Nat := 0x22
def twRgnReq : Nat := 0x24
def twRgnAck : Nat := 0x25
def twRgnRefuse : Nat := 0x26
def twRsPlot : Nat := 0x30
def twRsPage : Nat := 0x31
def twRsDone : Nat := 0x32
def twKeyph : Nat := 0x3E
def twRetx : Nat := 0x3F

/-- Fabric message types (Table 8.3). -/
def fwdReq : Nat := 0x10
def fwdWrite : Nat := 0x11
def fwdResp : Nat := 0x12
def fwdAck : Nat := 0x13
def segReq : Nat := 0x14
def epochRep : Nat := 0x20
def horizonMsg : Nat := 0x21
def memberMsg : Nat := 0x22
def recoverMsg : Nat := 0x23
def idAsk : Nat := 0x30
def idGrant : Nat := 0x31
def spanTxn : Nat := 0x32
def spanVote : Nat := 0x33

/-! ### Frames -/

/-- Bytes a frame takes in the store of frames not acknowledged. -/
def TxFrame.size (f : TxFrame) : Nat := 48 + f.data.length

/-- Bytes the store holds. -/
def storeBytes (l : List TxFrame) : Nat := (l.map TxFrame.size).foldl (· + ·) 0

/-- Stores of frames not acknowledged: 4 MiB a direction on the twin link, 512 KiB on a fabric link (R228, R264). -/
def twinStore : Nat := 4194304
def fabStore : Nat := 524288

/-- The most payload one frame carries (R225, R264). -/
def frameBytes : Nat := 8192

/-- Bytes 0 to 18 of a frame header, the same on the twin link and a fabric link (Table 7.1). -/
def FrameHdr.common (h : FrameHdr) : List Byte :=
  leBytes 1 h.ftype ++ leBytes 1 h.lgen ++ leBytes 2 h.len ++ leBytes 4 h.seq ++ leBytes 4 h.ack ++ leBytes 6 h.nctr
    ++ leBytes 1 (h.keyph % 2)

/-- The 32 bytes of a twin frame header (Table 7.1). -/
def FrameHdr.twinBytes (h : FrameHdr) : List Byte := h.common ++ leBytes 1 0 ++ leBytes 8 h.stamp ++ leBytes 4 h.msgid

/-- The 48 bytes of a fabric frame header (Table 8.1). -/
def FrameHdr.fabricBytes (h : FrameHdr) : List Byte :=
  h.common ++ leBytes 1 h.hops ++ leBytes 2 (h.dst % 4096) ++ leBytes 2 (h.src % 4096) ++ leBytes 1 h.mtype
    ++ leBytes 1 (h.vc % 4) ++ leBytes 2 0 ++ leBytes 4 h.msgid ++ leBytes 4 h.msglen ++ leBytes 4 h.off ++ leBytes 8 h.stamp

/-- The GCM nonce of a twin frame: the sender's side, the mark of the twin link, NCTR (R226). -/
def twinNonce96 (west : Bool) (nctr : Nat) : BitVec 96 := BitVec.ofNat 96 (bit west * 2 ^ 84 + 2 ^ 80 + nctr % 2 ^ 48)

/-- The GCM nonce of a fabric frame: the sender's fabric ID, the mark of a fabric link, its link, NCTR (R265). -/
def fabricNonce96 (id link nctr : Nat) : BitVec 96 :=
  BitVec.ofNat 96 (id % 2 ^ 12 * 2 ^ 84 + 2 * 2 ^ 80 + link % 16 * 2 ^ 76 + nctr % 2 ^ 48)

/-- A key phase is near the 2^44 nonces it may use: within one block of them (R226). -/
def phaseSpent (nctr start : Nat) : Bool := decide (start + 2 ^ 44 ≤ nctr + 2 ^ 32)

/-! ### The twin link -/

/-- One more nonce is used; a block is recorded in the settings store before its first value is used (R226, R265). -/
def Dev.twinNonce (d : Dev) : Dev :=
  let n := d.twn.nctr + 1
  let d := { d with twn := { d.twn with nctr := n } }
  if n / 2 ^ 32 < d.store.nonceBlk then d
  else { d with store := { d.store with nonceBlk := n / 2 ^ 32 + 1, dirty := true } }

/-- The header of a twin frame formed now (Table 7.1). -/
def Dev.twinHdr (d : Dev) (f : TxFrame) : FrameHdr :=
  { ftype := f.ftype, lgen := d.f TWN_STAT.LGEN, len := f.data.length, seq := f.seq, ack := (d.twn.rxSeq + 2 ^ 32 - 1) % 2 ^ 32,
    nctr := d.twn.nctr, keyph := d.f TWN_KEY.KEYPH, stamp := d.now, msgid := f.msgid }

/-- A frame leaves on the twin link under the next nonce. -/
def Dev.twinPut (d : Dev) (f : TxFrame) : Dev := (d.twinNonce).send (.twin ((d.twinNonce).twinHdr f) f.args f.data)

/-- The sender's frames name a key phase from here on (R226). -/
def Dev.twinPhase (d : Dev) (next : Nat) : Dev :=
  let d := d.fset TWN_KEY.KEYPH next
  { d with twn := { d.twn with phaseFrom := d.twn.nctr } }

/-- A twin frame leaves under the next SEQ and is kept until acknowledged; after a KEYPH frame the other phase holds. -/
def Dev.twinTransmit (d : Dev) (f : TxFrame) : Dev :=
  let f := { f with seq := d.twn.txSeq, sentAt := d.clk }
  let d := { d with twn := { d.twn with txSeq := (d.twn.txSeq + 1) % 2 ^ 32, unacked := d.twn.unacked ++ [f] } }
  let d := (d.twinPut f).count 0x700 0 1
  if f.ftype = twKeyph then d.twinPhase (f.args.headD 0) else d

/-- A frame to the twin: sent, or waiting while the store is full; nothing is sent on a link that is down (R228). -/
def Dev.twinQueue (d : Dev) (f : TxFrame) : Dev :=
  if ¬ d.twn.linkUp then d
  else if twinStore < storeBytes d.twn.unacked + f.size ∨ ¬ d.twn.txWait.isEmpty then
    { d with twn := { d.twn with txWait := d.twn.txWait ++ [f] } }
  else d.twinTransmit f

/-- The key slot of a link's phase holds a key (R226, R368). -/
def Dev.slotLoaded (d : Dev) (n usage : Nat) : Bool := (look d.cph.slots n).any (fun s => s.usage == usage)

/-- Key slot of a phase of the twin link. -/
def Dev.twinSlot (d : Dev) (phase : Nat) : Nat := if phase = 0 then d.f TWN_KEY.SLOT else d.f TWN_KEY.SLOT_ALT

/-- REKEY: the sender moves to the other phase once that phase's slot holds a key, with a KEYPH frame where the link is up;
`TWN_KEY.REKEY` clears then (R226). -/
def Dev.twinRekey (d : Dev) : Dev :=
  let next := 1 - d.f TWN_KEY.KEYPH
  if d.slotLoaded (d.twinSlot next) 2 then
    let d := { d.fset TWN_KEY.REKEY 0 with twn := { d.twn with rekeyDue := false } }
    if d.twn.linkUp then d.twinQueue { ftype := twKeyph, args := [next] } else d.twinPhase next
  else { d with twn := { d.twn with rekeyDue := true } }

/-- Before a phase has used 2^44 nonces the sender moves to the other one (R226). -/
def Dev.twinRenew (d : Dev) : Dev :=
  if phaseSpent d.twn.nctr d.twn.phaseFrom ∧ ¬ d.twn.txWait.any (fun f => f.ftype == twKeyph) then d.twinRekey else d

/-- A message to the twin (R225). -/
def Dev.twinSend (d : Dev) (mtype msgid : Nat) (args : List Nat := []) (data : List Byte := []) : Dev :=
  (d.twinQueue { ftype := mtype, msgid := msgid, args := args, data := data }).twinRenew

/-- HB and RETX: outside the store, with the next SEQ to be sent in their SEQ field (R228). -/
def Dev.twinNow (d : Dev) (mtype : Nat) (args : List Nat) : Dev :=
  if ¬ d.twn.linkUp then d else (d.twinPut { ftype := mtype, seq := d.twn.txSeq, args := args }).count 0x700 0 1

/-- Frames that waited leave as the store has room, at most `fuel` of them. -/
def Dev.twinDrain (d : Dev) : Nat → Dev
  | 0 => d
  | fuel + 1 =>
    match d.twn.txWait with
    | [] => d
    | f :: r =>
      if twinStore < storeBytes d.twn.unacked + f.size then d
      else (({ d with twn := { d.twn with txWait := r } }).twinTransmit f).twinDrain fuel

/-- Serial number `a` is at or before `b` modulo 2^32. -/
def seqLe (a b : Nat) : Bool := decide ((b + 2 ^ 32 - a) % 2 ^ 32 < 2 ^ 31)

/-- The peer has received in order up to `ack`: frames up to it leave the store. -/
def Dev.twinAck (d : Dev) (ack : Nat) : Dev :=
  let left := d.twn.unacked.filter (fun f => !seqLe f.seq ack)
  let waits (k : Nat) : Bool := (left ++ d.twn.txWait).any (fun f => f.ftype == twEoe && f.args == [k])
  let d := { d with twn := { d.twn with unacked := left, eoeOpen := d.twn.eoeOpen.filter waits } }
  d.twinDrain d.twn.txWait.length

/-- Frames from SEQ `first` on are sent again, with new nonces (R226, R228). -/
def Dev.twinResend (d : Dev) (first : Nat) : Dev :=
  let again := d.twn.unacked.filter (fun f => seqLe first f.seq)
  let d := again.foldl (fun d f => ((d.twinPut f).finc TWN_LINK_CNT.RETX 1).count 0x701 0 1) d
  { d with twn := { d.twn with unacked := d.twn.unacked.map (fun f =>
      if seqLe first f.seq then { f with sentAt := d.clk } else f) } }

/-- A frame is stale: LGEN of another link-up, or NCTR not above the last of its phase (R227). -/
def Dev.twinStale (d : Dev) (h : TwHdr) : Bool :=
  h.lgen != d.f TWN_STAT.LGEN || (look d.twn.rxNctr h.keyph).any (fun n => h.nctr ≤ n)

/-- The link goes down: pending writes wait, and it counts (R229, R238). -/
def Dev.twinDown (d : Dev) : Dev :=
  if ¬ d.twn.linkUp then d else
    let d := { d with twn := { d.twn with linkUp := false, hello := false, unacked := [], txWait := [] } }
    ((d.fset TWN_STAT.WIDTH 0).fset TWN_STAT.LINK_PATH 0).finc TWN_LINK_CNT.DOWN 1

/-- A tag failure: dropped and counted, and more than 16 in 1 ms take the link down with an event (R227). -/
def Dev.twinTagFail (d : Dev) : Dev :=
  let recent := (d.clk :: d.twn.tagFails).filter (fun t => d.clk < t + 1000000)
  let d := ({ d with twn := { d.twn with tagFails := recent } }).finc TWN_LINK_CNT.AUTH_FAIL 1
  if 16 < recent.length then
    (d.twinDown).raise (source 14 1) 2 0 0xFFFF 0
  else d

/-- A valid frame shows life (R240). -/
def Dev.twinLife (d : Dev) (h : TwHdr) : Dev :=
  let d := if d.f TWN_STAT.LINK_PATH = 0 then d.fset TWN_STAT.LINK_PATH 1 else d
  { d with twn := { d.twn with linkSeen := d.clk, rxNctr := put d.twn.rxNctr h.keyph h.nctr } }

/-- A twin frame arrives: dropped and counted under R227, held to the SEQ order of R228, and otherwise taken by `act`.
`free` marks HB and RETX, taken at once outside the order. -/
def Dev.twinRx (d : Dev) (h : TwHdr) (free : Bool) (act : Dev → Dev) : Dev :=
  if ¬ d.twn.linkUp then d
  else if ¬ h.tagOk then d.twinTagFail
  else if d.twinStale h then d.finc TWN_LINK_CNT.STALE 1
  else
    let d := (d.twinLife h).twinAck h.ack
    if free then act d
    else if h.seq = d.twn.rxSeq then
      act { d with twn := { d.twn with rxSeq := (d.twn.rxSeq + 1) % 2 ^ 32 } }
    else if seqLe h.seq d.twn.rxSeq then d
    else d.twinNow twRetx [d.twn.rxSeq]

/-! ### Fabric links and messages -/

/-- Link `n` of the fabric beyond its registers. -/
def Dev.flink (d : Dev) (n : Nat) : FabLink := lookD d.fab.links n {}

/-- The device with a fabric link changed. -/
def Dev.setFlink (d : Dev) (n : Nat) (f : FabLink → FabLink) : Dev :=
  { d with fab := { d.fab with links := change d.fab.links n {} f } }

/-- States of `FAB_LINK_STATn`: 0 down, 1 training, 2 HELLO only, 3 up, 4 refused. -/
def linkUpState : Nat := 3

/-- The link has come up. -/
def Dev.fabUp (d : Dev) (n : Nat) : Bool := d.f (FAB_LINK_STAT.STATE n) == linkUpState

/-- Frame types of the fabric links (Table 8.2). -/
def frHello : Nat := 1
def frLsa : Nat := 2
def frSeg : Nat := 3
def frPtp : Nat := 4
def frKeyph : Nat := 0x3E
def frRetx : Nat := 0x3F

/-- The control message types: they take the first path (R273, Table 8.3). -/
def controlType (mtype : Nat) : Bool := decide (0x14 ≤ mtype)

/-- Virtual channel of a message type: 0 control, 1 response, 2 request (Table 8.3). -/
def vcOf (mtype : Nat) : Nat := if controlType mtype then 0 else if mtype = fwdResp ∨ mtype = fwdAck then 1 else 2

/-- One more nonce of a fabric link is used, its block recorded before its first value is used (R265). -/
def Dev.fabNonce (d : Dev) (n : Nat) : Dev :=
  let k := (d.flink n).nctr + 1
  let d := d.setFlink n (fun l => { l with nctr := k })
  if k % 2 ^ 32 = 0 then { d with store := { d.store with dirty := true } } else d

/-- The header of a fabric frame formed now (Table 8.1). -/
def Dev.fabHdr (d : Dev) (n : Nat) (f : TxFrame) : FrameHdr :=
  let l := d.flink n
  { ftype := f.ftype, lgen := d.f (FAB_LINK_STAT.LGEN n), len := f.data.length, seq := f.seq,
    ack := (l.rxSeq + 2 ^ 32 - 1) % 2 ^ 32, nctr := l.nctr, keyph := d.f FAB_KEY.KEYPH, stamp := f.stamp, msgid := f.msgid,
    hops := f.hops, dst := f.dst, src := f.src, mtype := f.mtype, vc := f.vc, msglen := f.msglen, off := f.off }

/-- A frame leaves on a fabric link under the next nonce (R265). -/
def Dev.fabPut (d : Dev) (n : Nat) (f : TxFrame) : Dev :=
  (d.fabNonce n).send (.frame n ((d.fabNonce n).fabHdr n f) f.args f.data)

/-- Credit left in the pool of a virtual channel. -/
def FabLink.pool (l : FabLink) (vc : Nat) : Nat := lookD l.credit vc 0

/-- A frame may leave: its own channel's pool has credit for it, and the store has room; control is never blocked by the frames
of the other channels (R264, R267, log entry 74). -/
def FabLink.takes (l : FabLink) (f : TxFrame) : Bool :=
  decide (f.size ≤ l.pool f.vc) && (f.vc == 0 || decide (storeBytes l.unacked + f.size ≤ fabStore))

/-- The frame that leaves next: the oldest of the first virtual channel whose frame may leave, control before responses before
requests before bulk (R267). -/
def FabLink.next (l : FabLink) : Option TxFrame :=
  ((List.range 4).filterMap (fun v => l.txWait.find? (fun f => f.vc == v))).find? l.takes

/-- A frame on a fabric link under its next SEQ, kept until acknowledged; it takes credit of its channel (R264, R267). -/
def Dev.fabTransmit (d : Dev) (n : Nat) (f : TxFrame) : Dev :=
  let f := { f with seq := (d.flink n).txSeq, sentAt := d.clk }
  (d.setFlink n (fun l => { l with
    txSeq := (l.txSeq + 1) % 2 ^ 32, unacked := l.unacked ++ [f], credit := put l.credit f.vc (l.pool f.vc - f.size) })).fabPut n f

/-- Frames that wait on a link leave as credit and the store allow, at most `fuel` of them. -/
def Dev.fabDrain (d : Dev) (n : Nat) : Nat → Dev
  | 0 => d
  | fuel + 1 =>
    match (d.flink n).next with
    | none => d
    | some f => ((d.setFlink n (fun l => { l with txWait := l.txWait.erase f })).fabTransmit n f).fabDrain n fuel

/-- A frame to a link's far end takes its place on its virtual channel. -/
def Dev.fabFrame (d : Dev) (n : Nat) (f : TxFrame) : Dev :=
  let d := d.setFlink n (fun l => { l with txWait := l.txWait ++ [f] })
  d.fabDrain n (d.flink n).txWait.length

/-- A frame that carries no message: it travels on the control channel. -/
def Dev.fabNow (d : Dev) (n ftype : Nat) (args : List Nat) : Dev :=
  d.fabFrame n { ftype := ftype, args := args, stamp := d.now, src := d.fabricId.getD 0 }

/-- RETX: outside SEQ and the store (R228, R264). -/
def Dev.fabAskAgain (d : Dev) (n : Nat) : Dev :=
  let l := d.flink n
  d.fabPut n { ftype := frRetx, seq := l.txSeq, args := [l.rxSeq], stamp := d.now, src := d.fabricId.getD 0 }

/-- The far end has received in order up to `ack`: frames up to it leave the store and their credit returns (R267, log entry 74). -/
def Dev.fabAck (d : Dev) (n ack : Nat) : Dev :=
  let gone := (d.flink n).unacked.filter (fun f => seqLe f.seq ack)
  let d := d.setFlink n (fun l => { l with
    unacked := l.unacked.filter (fun f => !seqLe f.seq ack)
    credit := gone.foldl (fun c f => put c f.vc (lookD c f.vc 0 + f.size)) l.credit })
  d.fabDrain n (d.flink n).txWait.length

/-- Frames from SEQ `first` on are sent again with new nonces (R264, R265). -/
def Dev.fabResend (d : Dev) (n first : Nat) : Dev :=
  let d := ((d.flink n).unacked.filter (fun f => seqLe first f.seq)).foldl (fun (d : Dev) f => d.fabPut n f) d
  d.setFlink n (fun l => { l with unacked := l.unacked.map (fun f =>
    if seqLe first f.seq then { f with sentAt := d.clk } else f) })

/-- States of a fabric link in which it carries frames besides up: HELLO and LSA frames alone (R266). -/
def linkHelloOnly : Nat := 2

/-- The link carries frames. -/
def Dev.fabLive (d : Dev) (n : Nat) : Bool :=
  d.on FAB_CFG.ENABLE && (d.f (FAB_LINK_STAT.STATE n) == linkHelloOnly || d.f (FAB_LINK_STAT.STATE n) == linkUpState)

/-- Links that carry frames. -/
def Dev.liveLinks (d : Dev) : List Nat := (List.range 16).filter d.fabLive

/-- A rekey of the fabric links, or one that waited for a key; `FAB_KEY.REKEY` clears with it (R226, R265). -/
def Dev.fabRekey (d : Dev) : Dev :=
  let next := 1 - d.f FAB_KEY.KEYPH
  if d.slotLoaded (if next = 1 then d.f FAB_KEY.SLOT_ALT else d.f FAB_KEY.SLOT) 2 then
    let d := d.liveLinks.foldl (fun d n => d.fabNow n frKeyph [next]) d
    let d := (d.fset FAB_KEY.KEYPH next).fset FAB_KEY.REKEY 0
    { d with fab := { d.fab with
        rekeyDue := false, links := d.fab.links.map (fun l => (l.1, { l.2 with phaseFrom := l.2.nctr })) } }
  else { d with fab := { d.fab with rekeyDue := true } }

/-- Before any link has used 2^44 nonces in a phase the device moves to the other one (R226, R265). -/
def Dev.fabRenew (d : Dev) : Dev := if d.fab.links.any (fun l => phaseSpent l.2.nctr l.2.phaseFrom) then d.fabRekey else d

/-- The path a segment takes: the first for control, round robin among the paths with credit on its channel otherwise (R273). -/
def Dev.pathFor (d : Dev) (r : Route) (vc : Nat) : Nat :=
  let open_ := r.links.filter (fun n => decide (0 < (d.flink n).pool vc))
  let among := if open_.isEmpty then r.links else open_
  if vc = 0 then r.links.headD 0 else among.getD (d.fab.rr % max 1 among.length) 0

/-- A route to a member is in force. -/
def Dev.hasRoute (d : Dev) (dst : Nat) : Bool := (look d.fab.routes dst).any (fun r => !r.links.isEmpty)

/-- A message index is taken, least recently freed first, and its MGEN advances from FFh to 01h (R277). -/
def Dev.takeMidx (d : Dev) : Option (Nat × Nat × Dev) :=
  let pick : Option (Nat × Dev) := match d.fab.freeMidx with
    | i :: r => some (i, { d with fab := { d.fab with freeMidx := r } })
    | [] => if d.fab.nextMidx < 65536 then
        some (d.fab.nextMidx, { d with fab := { d.fab with nextMidx := d.fab.nextMidx + 1 } }) else none
  match pick with
  | none => none
  | some (i, d) =>
    let g := lookD d.fab.mgens i 0
    let g' : BitVec 8 := if g = 255 then 1 else g + 1
    some (i, g'.toNat * 2 ^ 24 + i, { d with fab := { d.fab with mgens := put d.fab.mgens i g' } })

/-- Segments of a message of `len` bytes leave, each on its own path; at most `fuel` of them (R273, R275). -/
def Dev.sendSegs (d : Dev) (r : Route) (f : TxFrame) (data : List Byte) : Nat → Dev
  | 0 => d
  | fuel + 1 =>
    let n := d.pathFor r f.vc
    let d := { d with fab := { d.fab with rr := d.fab.rr + 1 } }
    let d := (d.fabFrame n { f with data := (data.drop f.off).take frameBytes }).count 0x702 0 1
    if f.msglen ≤ f.off + frameBytes then d else d.sendSegs r { f with off := f.off + frameBytes } data fuel

/-- A message to a member of the fabric: an index is taken, the segments leave and the message is kept (R275 to R277).
`stamp` is the ingress arrival stamp of a forwarded verb (R59, Table 8.1). Without a fabric ID, a route or an index nothing is
sent. -/
def Dev.fabSend (d : Dev) (dst mtype : Nat) (args : List Nat := []) (data : List Byte := []) (stamp : Option Nat := none) : Dev :=
  if ¬ d.on FAB_CFG.ENABLE ∨ ¬ d.on FAB_ID.VALID then d else
  match look d.fab.routes dst with
  | none => d
  | some r =>
    if r.links.isEmpty then d else
    match d.takeMidx with
    | none => d
    | some (i, msgid, d) =>
      let f : TxFrame :=
        { ftype := frSeg, msgid := msgid, stamp := stamp.getD d.now, hops := 15, dst := dst, src := d.f FAB_ID.ID,
          mtype := mtype, vc := vcOf mtype, msglen := data.length, args := args }
      let d := ((d.send (.fabric dst mtype args data)).sendSegs r f data (data.length / frameBytes + 2)).fabRenew
      { d with fab := { d.fab with sent := d.fab.sent ++
          [{ midx := i, msgid := msgid, dst := dst, mtype := mtype, sentAt := d.clk, args := args, data := data, stamp := f.stamp }] } }

/-- The answer to a kept message came, or its 1 ms ended: the index is freed into quarantine (R276, R277). -/
def Dev.freeMsg (d : Dev) (p : Sent → Bool) : Dev :=
  let gone := d.fab.sent.filter p
  { d with fab := { d.fab with
      sent := d.fab.sent.filter (fun s => !p s)
      quarMidx := d.fab.quarMidx ++ gone.map (fun s => (s.midx, d.clk)) } }

/-- The steward: the lowest serial number among the devices with `STEWARD_EN` = 1, or among all where none has it (R270). -/
def Dev.stewardRec (d : Dev) : Option Lsa :=
  let pool := if d.fab.db.any (fun l => l.steward) then d.fab.db.filter (fun l => l.steward) else d.fab.db
  pool.foldl (fun best l => match best with
    | none => some l
    | some b => if l.serial.toNat < b.serial.toNat then some l else some b) none

/-- This device acts as steward (R270); a twin pair without fabric links takes the lower serial number (R291). -/
def Dev.isSteward (d : Dev) : Bool :=
  match d.stewardRec with
  | some l => l.serial == Config.serial
  | none => true

end Sys2Proof.Machine
end

