-- ==== Sys2Proof/Machine/PowerOps.lean ====
section
/-! DEFINITION. Power units and their states (R447 to R450): what sleeps, what wakes it and what a unit that powers down
answers. Unit codes of the model: lanterns 0 to 15, port groups 16 to 23, DRAM groups 24 to 29, heath edge dies 30 and 31. -/

namespace Sys2Proof.Machine

/-- Unit of a port, of a DRAM channel (Table 1.6) and of a heath channel (R335). -/
def portUnit (port : Nat) : Nat := 16 + port / 32
def dramUnit (ch : Nat) : Nat := 24 + ch / 4
def heathUnit (ch : Nat) : Nat := 30 + ch / 80

/-- Bit `i` of a field. -/
def Dev.fbit (d : Dev) (x : Fld) (i : Nat) : Bool := d.f x / 2 ^ i % 2 == 1

/-- The device with bit `i` of a field set or cleared. -/
def Dev.setFbit (d : Dev) (x : Fld) (i : Nat) (b : Bool) : Dev :=
  if d.fbit x i = b then d else d.fset x (if b then d.f x + 2 ^ i else d.f x - 2 ^ i)

/-- Fields of `PWR_STATE` that tell whether a unit is Dimmed and whether it is Shaded, with its bit. -/
def dimField (u : Nat) : Option (Fld × Nat) :=
  if u < 16 then some (PWR_STATE.LAN_DIMMED, u) else if u < 24 then some (PWR_STATE.PG_DIMMED, u - 16) else none

/-- The Shaded field of a unit. -/
def shadeField (u : Nat) : Fld × Nat :=
  if u < 16 then (PWR_STATE.LAN_SHADED, u) else if u < 24 then (PWR_STATE.PG_SHADED, u - 16)
  else if u < 30 then (PWR_STATE.DRAM_SHADED, u - 24) else (PWR_STATE.HEATH_SHADED, u - 30)

/-- The unit is Dimmed. -/
def Dev.dimmed (d : Dev) (u : Nat) : Bool := (dimField u).any (fun x => d.fbit x.1 x.2)

/-- The unit is Shaded. -/
def Dev.shaded (d : Dev) (u : Nat) : Bool := d.fbit (shadeField u).1 (shadeField u).2

/-- The unit is Dimmed or Shaded: work for it waits. -/
def Dev.asleep (d : Dev) (u : Nat) : Bool := d.dimmed u || d.shaded u

/-- The unit has stopped accepting work and drains (R450). -/
def Dev.drainingUnit (d : Dev) (u : Nat) : Bool := (look d.pwr.draining u).isSome

/-- Work queued for a unit wakes it (R449); one that is powering down wakes as soon as it has powered off (Table 15.6). -/
def Dev.wake (d : Dev) (u : Nat) : Dev :=
  if d.asleep u ∨ d.drainingUnit u then { d with pwr := { d.pwr with waking := ins d.pwr.waking u } } else d

/-- No unit of the core sleeps. -/
def Dev.allAwake (d : Dev) : Dev :=
  [PWR_STATE.HEATH_SHADED, PWR_STATE.DRAM_SHADED, PWR_STATE.LAN_SHADED, PWR_STATE.LAN_DIMMED, PWR_STATE.PG_SHADED,
    PWR_STATE.PG_DIMMED].foldl (fun (d : Dev) x => d.fset x 0) d

/-- Hint for a verb headed for a unit that powers down: what is left of the 20 µs and the exit latency (Table 15.6). -/
def Dev.powerHint (d : Dev) (u : Nat) : Nat :=
  ceilDiv (lookD d.pwr.draining u 0 + 20000 - d.clk) 1000 + d.f GLB_PWR_CAP.SHADED_US

end Sys2Proof.Machine
end

