-- ==== Sys2Proof/Machine/VerbOps.lean ====
section
/-! DEFINITION. What an operation does once it is in the device: waiting, applying, serving, posting and becoming durable
(R116 to R141, R230 to R237, R281 to R287), and the pump that lets waiting operations go on. -/

namespace Sys2Proof.Machine

/-! ### Answers -/

/-- Transport lantern whose pipeline an operation uses: its connection's, or region ID mod 8 for a forwarded one
at its home and for a block of a data command (R533). -/
def Dev.laneOf (d : Dev) (o : Op) : Nat := if o.hosted then (d.conn o.conn).lantern else keyRegion o.rkey % 8

/-! ### Data commands (R393) -/

/-- Writes to the region go to both meadows (R58); a survivor's do not (R249). -/
def Dev.mirroring (d : Dev) (rid : Nat) (r : Region) : Bool :=
  d.on TWN_CFG.ENABLE && r.mirrored && d.primaryHere rid r && !d.twn.soleMeadow

/-- Pages that bytes at touches reserve (R184). -/
def Dev.pagesOf (d : Dev) (ts : List Touch) : Nat :=
  (ts.map (fun t =>
    let e := d.entry t.idx
    if e.tier = .meadow then d.pagesFor (e.loc * plotBytes + t.off) t.n else (unitsOf t.off t.n 4096).length)).foldl (· + ·) 0

/-- Opcodes of the data commands that write (Table 12.6). -/
def ocCopy : Nat := 0x03
def ocFill : Nat := 0x04

/-- Region and offset a data command writes, and those a COPY reads (Table 12.7). -/
def Cmd.dest (c : Cmd) : Nat × Nat := if c.op = ocCopy then (c.u16 18 % 4096, c.u64 32) else (c.u16 16 % 4096, c.u64 24)
def Cmd.src (c : Cmd) : Nat × Nat := (c.u16 16 % 4096, c.u64 24)

/-- Bytes of the next destination atomic block a data command writes (R67, R393). -/
def Cmd.blockLen (c : Cmd) : Nat := min (262144 - (c.dest.2 + c.progress) % 262144) (c.u64 40 - c.progress)

/-- The block meets a region condition that ends the command (R393). -/
def Dev.blockBar (d : Dev) (r : Region) (write : Bool) : Option Status :=
  if r.state = .offline ∨ r.state = .destroying ∨ r.state = .creating then some .regionOffline
  else if write && r.refusesWrite d.now then some .sealedReadOnly else none

/-- The operation of one block. -/
def Dev.blockOp (d : Dev) (c : Cmd) (kind : OpKind) (rid off len : Nat) (data : List Byte) : Op :=
  { id := 2 ^ 23 + d.fab.nextFwd, conn := jobConn c.id, psn := c.progress / 64, endPsn := c.progress / 64, kind := kind,
    rkey := BitVec.ofNat 32 (rid * 2 ^ 20), off := off, len := len, data := data, stamp := d.now,
    epoch := max (d.epochOf d.now) d.dur.openEp, phase := .waiting, whole := true, cmd := some c.id, fill := c.op == ocFill }

/-- The block joins the operations of the device. -/
def Dev.addBlock (d : Dev) (o : Op) : Dev :=
  { d with fab := { d.fab with nextFwd := d.fab.nextFwd + 1 }, hpt := { d.hpt with ops := d.hpt.ops ++ [o] } }

/-- A block is written, once the governor lets it (R393). -/
def Dev.writeBlock (d : Dev) (c : Cmd) (data : List Byte) : Dev :=
  let rid := c.dest.1
  match look d.rgn rid with
  | none => d.complete c csRefused 2
  | some r =>
    match d.blockBar r true with
    | some st => d.complete c csData st.code c.progress
    | none =>
      let o := d.blockOp c .write rid (c.dest.2 + c.progress) data.length data
      let pages := d.pagesOf (d.opTouches o r o.off o.len)
      let mir := d.mirroring rid r
      if (d.admits pages mir).isSome then d
      else
        let d := if pages = 0 then d else d.takeAdmission pages
        let o := { o with mirrored := mir, msgid := if mir then d.twn.nextMsg else 0, reserved := pages }
        let d := if mir then
            { d with twn := { d.twn with
                nextMsg := (d.twn.nextMsg + 1) % 2 ^ 32, msgs := d.twn.msgs ++ [{ msgid := o.msgid, opId := o.id }] } }
          else d
        d.addBlock o

/-- The source bytes of a block are read. -/
def Dev.readBlock (d : Dev) (c : Cmd) : Dev :=
  match look d.rgn c.src.1 with
  | none => d.complete c csRefused 2
  | some r =>
    match d.blockBar r false with
    | some st => d.complete c csData st.code c.progress
    | none => d.addBlock (d.blockOp c .read c.src.1 (c.src.2 + c.progress) c.blockLen [])

/-- Whole poisoned plots that a FILL covered return to resident (R325). -/
def Dev.healPlots (d : Dev) (c : Cmd) : Dev :=
  match look d.rgn c.dest.1 with
  | none => d
  | some r =>
    if r.mirrored then d
    else (((d.touches r c.dest.2 (c.u64 40)).filter (fun t => t.n == plotBytes && (d.entry t.idx).state == .poisoned)).map
      (·.idx)).foldl (fun d i => d.setPlotState i .resident) d

/-- A data command whose block is done goes on with the next, or completes once every byte is durable at its home (R391). -/
def Dev.stepJob (d : Dev) (id : Nat) : Dev :=
  match d.cmd id with
  | none => d
  | some c =>
    if ¬ c.running ∨ ¬ (c.op = ocCopy ∨ c.op = ocFill) ∨ d.hpt.ops.any (fun o => o.cmd == some id) then d
    else if c.u64 40 ≤ c.progress then
      if d.fab.fj.any (fun f => f.conn == jobConn id && f.origin == d.fabricId.getD 0 && (f.state == .posted || f.state == .sent))
      then d
      else (if c.op = ocFill then d.healPlots c else d).complete c csDone 0 c.progress
    else if c.op = ocFill then
      d.writeBlock c ((List.range c.blockLen).map (fun i => BitVec.ofNat 8 (c.byte (48 + i % 8))))
    else d.readBlock c

/-- What a block's answer does to its command: data read are written; a write counts as progress; a status that no later
moment mends ends the command (R393). -/
def Dev.replyBlock (d : Dev) (o : Op) (a : Answer) : Dev :=
  match o.cmd.bind d.cmd with
  | none => d
  | some c =>
    if a.st = .retryAfter then d
    else if a.st ≠ .ok then d.complete c csData a.st.code c.progress
    else if o.kind = .read then d.writeBlock c a.data
    else d.setCmd c.id (fun c => { c with progress := c.progress + o.len })

/-- A whole poisoned plot of an unmirrored region under a FILL gets a meadow home, and stays poisoned (R325). -/
def Dev.fillHome (d : Dev) (o : Op) (r : Region) (t : Touch) : Dev :=
  let e := d.entry t.idx
  if ¬ o.fill ∨ r.mirrored ∨ t.n ≠ plotBytes ∨ e.state ≠ .poisoned ∨ e.tier = .meadow then d
  else
    let blank : HomeEntry := { state := .poisoned, gen := e.gen }
    let d := if e.tier = .none then d else (d.releaseHome e.tier e.loc).setEntry t.idx blank
    (d.firstWrite (d.laneOf o) t.idx .poisoned).getD d

/-- Touches of a block that a FILL may write although their plots are poisoned. -/
def Dev.mayFill (d : Dev) (o : Op) (r : Region) (t : Touch) : Bool :=
  o.fill && !r.mirrored && t.n == plotBytes && (d.entry t.idx).state == .poisoned

/-! ### Answers to other devices and to hosts -/

/-- The home's record of an origin (R287). -/
def Dev.appliedOf (d : Dev) (origin : Nat) : Applied :=
  (d.fab.applied.find? (fun a => a.origin == origin)).getD { origin := origin }

/-- The record with a JSEQ settled: the count below which all are settled moves on over at most `fuel` of them. -/
def Applied.slide (a : Applied) : Nat → Applied
  | 0 => a
  | n + 1 =>
    if a.bits.contains a.low ∨ (look a.refused a.low).isSome then
      ({ a with low := a.low + 1, bits := rem a.bits a.low }).slide n
    else a

/-- A forwarded write is applied, or refused with a status, at its home (R287, R288). -/
def Dev.settleJseq (d : Dev) (origin jseq : Nat) (refused : Option Nat) : Dev :=
  let a := d.appliedOf origin
  let a : Applied := match refused with
    | some st => { a with refused := (put a.refused jseq st).filter (fun x => decide (a.low ≤ x.1 + 4096)) }
    | none => { a with bits := ins a.bits jseq }
  let a := a.slide 4097
  { d with fab := { d.fab with applied := (d.fab.applied.filter (fun x => x.origin != origin)) ++ [a] } }

/-- This device's ID as origin. -/
def Dev.selfId (d : Dev) : Nat := d.fabricId.getD 0

/-- A write's effect is taken back: previous contents return, its journal entries go and the twin is told (R139, R199, R232). -/
def Dev.undo (d : Dev) (o : Op) : Dev :=
  let d := d.rollback o
  let own (f : Fj) : Bool := !o.fwd && f.origin == d.selfId && f.conn == o.conn && f.psn == o.psn && f.state == .posted
  let d := { d with fab := { d.fab with fj := d.fab.fj.filter (fun f => !own f) } }
  if o.mirrored then
    let d := { d with twn := { d.twn with msgs := d.twn.msgs.filter (fun m => m.msgid != o.msgid) } }
    d.twinSend twAbandon o.msgid
  else d

/-- An open message or an operation is abandoned: previous contents back, ABANDON to the twin, nothing answered (R69). -/
def Dev.abandon (d : Dev) (o : Op) : Dev := (d.undo o).retire o

/-- After an RNR NAK for PSN `psn` every buffered request after it goes unapplied (R127). -/
def Dev.dropAfter (d : Dev) (c psn : Nat) : Dev :=
  let later (o : Op) : Bool :=
    o.hosted && o.conn == c && psnAfter o.psn psn && o.phase != .applied && o.phase != .posted && !o.dup
  let d := { d with hpt := { d.hpt with
    ingress := d.hpt.ingress.filter (fun e => !(e.o.conn == c && psnAfter e.o.psn psn && !e.o.dup)) } }
  (d.hpt.ops.filter later).foldl Dev.abandon d

/-- FWD_ACK: JSEQ, ORIGIN, status, hint or region, home epoch, and the new primary for a REDIRECT (Table 8.4). -/
def Dev.sendVerdict (d : Dev) (dst jseq origin st arg h other : Nat) : Dev := d.fabSend dst fwdAck [jseq, origin, st, arg, h, other]

/-- The home's answer to a forwarded message: a verdict on a posted write, else status and data (R231, R284, R288). A write that is
to be sent again gives its CSEQ back, and what followed it in its stream is discarded. -/
def Dev.replyFwd (d : Dev) (o : Op) (a : Answer) : Dev :=
  let a := a.forHost
  if o.kind = .read ∨ o.kind = .cmpSwap ∨ o.kind = .fetchAdd then
    d.fabSend o.fwdSrc fwdResp ([o.fwdTag, o.off, a.st.code, a.us, a.epoch.getD 0, bit a.inDoubt, d.twn.peerFab,
      (a.orig.getD 0).toNat]) a.data
  else
    let again := a.st == .retryAfter || a.st == .redirect
    let d := if a.st = .ok then d.settleJseq o.origin o.jseq none
      else if again then d else d.settleJseq o.origin o.jseq (some a.st.code)
    let d := d.sendVerdict o.fwdSrc o.jseq o.origin a.st.code a.us o.epoch d.twn.peerFab
    if again then
      let later (x : Op) : Bool := x.conn == o.conn && decide (o.cseq < x.cseq) && x.phase != .applied
      let d := (d.hpt.ops.filter later).foldl Dev.abandon d
      { d with fab := { d.fab with rxCseq := put d.fab.rxCseq (o.conn - 65536) o.cseq } }
    else d

/-- An answer goes out for a request, and its connection follows. The tag, where one is held, is freed at once by a refusal, and
with the last packet of its response otherwise (R101). -/
def Dev.reply (d : Dev) (o : Op) (a : Answer) (tag : Option Nat := none) : Dev :=
  if o.fwd then d.replyFwd o a
  else if o.cmd.isSome then d.replyBlock o a
  else
    let a := a.forHost
    let (r, usedDef) := d.shape o a
    let d := d.setConn o.conn (fun c => c.afterAnswer o a r usedDef d.clk)
    let d := if isRnr r.aeth then
        (if o.dup then d else d.dropAfter o.conn o.psn).count 0x204 (d.conn o.conn).lantern 1
      else d
    if a.st = .ok then d.emit r tag else (d.freeTags tag.toList).emit r

/-- The operation leaves the device and is answered. -/
def Dev.answer (d : Dev) (o : Op) (a : Answer) : Dev := (d.unlist o).reply o a (if o.hosted then some o.id else none)

/-! ### Mirrors and fences -/

/-- A claim is wanted: a declaration or east's isolation stands (R242, R247). -/
def Dev.claimWanted (d : Dev) : Bool := d.on TWN_CFG.ENABLE && !d.twn.conflict && (d.twn.declared || (d.twn.isolated && !d.twn.side))

/-- A claim is wanted and not held (R247). -/
def Dev.claimOpen (d : Dev) : Bool := d.claimWanted && d.f TWN_STAT.CLAIM != 2

/-- The switch-over gap runs: from the declaration to the end of adoption, 200 µs at most (R250). -/
def Dev.inGap (d : Dev) : Bool := d.twn.gap && decide (d.clk < d.twn.declAt + 200000)

/-- A planned swap that runs names the region: one this side asked for, or the peer (R253, R254). -/
def Dev.swapping (d : Dev) (rid : Nat) (r : Region) : Bool :=
  if d.twn.swapOut then d.twn.swapReg == rid || (d.twn.swapReg == 4096 && d.primaryHere rid r)
  else d.twn.swapIn.any (fun x => x == rid || (x == 4096 && !d.primaryHere rid r))

/-- Why a verb on a mirrored region is answered before its plots are looked at: fences, replicas, a returning unit, an open
claim (R140, R230, R245, R247, R256). -/
def Dev.mirrorAnswer (d : Dev) (rid : Nat) (r : Region) (kind : OpKind) : Option Answer :=
  if ¬ r.mirrored then none
  else
    let away := d.redirect rid (if kind.extension then d.f HPT_VERB_CTL.XDL_US else r.dlUs)
    if d.on TWN_STAT.FENCE_RD ∧ (kind = .read ∨ kind = .cmpSwap ∨ kind = .fetchAdd ∨ kind = .regionInfo) then some away
    else if d.twn.returning ∧ kind ≠ .flush ∧ kind ≠ .regionInfo then some away
    else if kind.writes then
      if d.primaryHere rid r then
        if d.on TWN_STAT.FENCE_WR then some away
        else if d.claimOpen then some { st := .retryAfter, us := 100 }
        else if d.swapping rid r then some away
        else none
      else if d.inGap then none
      else some away
    else none

/-- A verb waits through the switch-over gap (R250). -/
def Dev.gapHolds (d : Dev) (rid : Nat) (r : Region) : Bool := d.inGap && r.mirrored && !d.primaryHere rid r

/-- The dirty-page bit of a region page, as resynchronisation keeps it (R257). -/
def rsBit (rid page : Nat) : Nat := rid * 2 ^ 38 + page

/-- Pages of a region that bytes `off` to `off + n - 1` touch, as resynchronisation bits. -/
def rsBitsOf (rid off n : Nat) : List Nat := (unitsOf off n 4096).map (rsBit rid)

/-- The resynchronisation bits of a write are set while it runs before cut-over (R257). -/
def Dev.rsMark (d : Dev) (rid : Nat) (r : Region) (off n : Nat) : Dev :=
  if r.mirrored ∧ d.twn.rsSource ∧ d.twn.soleMeadow then
    { d with twn := { d.twn with rsBits := (rsBitsOf rid off n).foldl ins d.twn.rsBits } }
  else d

/-- From cut-over on a write to a page whose bit is set waits until the page is sent (Table 7.6). -/
def Dev.rsHolds (d : Dev) (rid : Nat) (off n : Nat) : Bool :=
  d.twn.rs == .cutOver && (rsBitsOf rid off n).any (fun b => d.twn.rsBits.contains b)

/-! ### Plots made ready for a write (Table 4.11) -/

/-- One plot made ready: a home in meadow and no handshake that holds it. Answers the device and whether the write may go
on now (R45, R46, R136, R137, R167 to R169). -/
def Dev.readyPlot (d : Dev) (lantern idx : Nat) : Dev × Bool :=
  let e := d.entry idx
  match e.tier with
  | .none =>
    match d.firstWrite lantern idx with
    | some d' => (d', true)
    | none => (d, false)
  | .fast | .deep => (d.demand idx, false)
  | .meadow =>
    match d.migOf idx with
    | none => (d, true)
    | some m =>
      if m.step = .quiescing then
        if m.kind = .evacuation ∧ d.f TIER_PACE.MAX_REFUSE ≤ m.refusals then (d, false)
        else (d.refuseMig idx, true)
      else (d, true)

/-- Every plot of a request made ready; all of them are asked, so that each demand migration is raised. -/
def Dev.readyAll (d : Dev) (lantern : Nat) : List Touch → Dev × Bool
  | [] => (d, true)
  | t :: r =>
    let (d1, a) := d.readyPlot lantern t.idx
    let (d2, b) := d1.readyAll lantern r
    (d2, a && b)

/-- The plots of a request are looked up in its lantern's wick cache, once (R152, R153). -/
def Dev.lookUp (d : Dev) (o : Op) (l : Nat) (ts : List Touch) : Dev :=
  if o.looked then d
  else (ts.foldl (fun d t => d.wickLookup l t.idx) d).setOp o.id (fun x => { x with looked := true })

/-! ### Applying -/

/-- Region of an operation's key. -/
def Op.rid (o : Op) : Nat := keyRegion o.rkey

/-- A LEG frame of a mirrored write (R232). -/
def Dev.leg (d : Dev) (o : Op) (off pos : Nat) (bs : List Byte) : Dev :=
  d.twinSend twLeg o.msgid [o.rid, off, bs.length, pos] bs

/-- Bytes of one touch applied in meadow: previous contents kept until the message is accepted and durable, the migration's
witness presented, the access counted once for each packet (R117, R158, R165, R197, log entry 78). -/
def Dev.applyTouch (d : Dev) (o : Op) (t : Touch) (bs : List Byte) : Dev :=
  let e := d.entry t.idx
  let a := e.loc * plotBytes + t.off
  let lines := unitsOf a bs.length 64
  let prev := ((List.range bs.length).filter (fun i => !o.journal.any (fun c => c.1 == a + i))).map (fun i =>
    (a + i, memGet d.mem.meadow (a + i)))
  let d := (d.pokeMeadow a bs).witness t.idx t.off bs.length
  let d := { d with tier := { d.tier with lastWr := put d.tier.lastWr t.idx d.clk } }
  let d := if o.cmd.isSome then d else d.sample (d.laneOf o) t.idx (d.f TIER_HEAT_CTL.WR_INC)
  d.setOp o.id (fun x => { x with lines := lines.foldl ins x.lines, journal := prev ++ x.journal })

/-- Bytes applied touch by touch. -/
def Dev.applyTouches (d : Dev) (id : Nat) (data : List Byte) : List Touch → Dev
  | [] => d
  | t :: r =>
    match d.op id with
    | none => d
    | some o => (d.applyTouch o t ((data.drop t.pos).take t.n)).applyTouches id data r

/-- A write that is accepted after its epoch closed belongs to what the save area holds of that epoch and of later ones
(R60, R191): the bytes at the addresses of its journal, and the homes of plots that had none. -/
def Dev.snapWrite (d : Dev) (epoch : Nat) (journal : List (Nat × Byte)) : Dev :=
  let late (s : EpochSnap) : EpochSnap :=
    if epoch ≤ s.epoch then
      { s with
        meadow := journal.foldl (fun m c => memPut m c.1 (memGet d.mem.meadow c.1)) s.meadow
        home := d.tier.home.foldl (fun h e =>
          if (lookD s.home e.1 {}).tier = .none ∧ e.2.tier = .meadow ∧ journal.any (fun c => c.1 / plotBytes == e.2.loc)
          then put h e.1 e.2 else h) s.home }
    else s
  { d with dur := { d.dur with snaps := d.dur.snaps.map late } }

/-- An operation is accepted once its completing packet has come and all its lines are applied: its pages become dirty in the
epoch of its stamp, its journal lines the earlier-version lines of R190, and COMPLETE goes to the twin of a mirrored region with
the stamp (R59, R62, R198, R232). -/
def Dev.acceptOp (d : Dev) (id : Nat) : Dev :=
  match d.op id with
  | none => d
  | some o =>
    if ¬ o.whole ∨ o.appl < o.data.length then d
    else
      let o := if o.cmd.isSome then { o with stamp := d.now, epoch := max (d.epochOf d.now) d.dur.openEp } else o
      let d := d.setOp id (fun _ => { o with
        phase := .applied, reserved := 0, toImage := (o.toImage ++ o.lines.map (· / 64)).eraseDups })
      let d := ((d.unreserve o.reserved).dirtyLines o.lines o.epoch).snapWrite o.epoch o.journal
      if o.mirrored then
        let d := d.twinSend twComplete o.msgid [o.stamp]
        { d with twn := { d.twn with
            msgs := d.twn.msgs.map (fun m => if m.msgid = o.msgid then { m with complete := true, stamp := o.stamp } else m) } }
      else d

/-- The result of an atomic on the original word: what is written, if anything (R119, R120). -/
def atomicResult (o : Op) (orig : BitVec 64) : Option (BitVec 64) :=
  match o.kind with
  | .cmpSwap => if orig = o.cmp then some o.swp else none
  | .fetchAdd => some (orig + o.swp)
  | .atomicWrite => some o.swp
  | .write | .read | .flush | .fenceCount | .sealQuery | .regionInfo => none

/-- The word at a touch. -/
def Dev.wordAt (d : Dev) (t : Touch) : BitVec 64 := BitVec.ofNat 64 (ofLeBytes (d.plotRead t.idx t.off 8))

/-- A message whose First packet is refused, on a connection with the status header: the refusal goes out with the Last (R117). -/
def Dev.holdRefusal (d : Dev) (o : Op) (st : Status) : Dev :=
  d.setConn o.conn (fun c => { c with cur := some { psn := o.psn, refused := some st } })

/-- An operation is answered with something else than its completion, what it applied being taken back first (R139, R199).
A refusal of a message whose Last packet has not come is sent with that packet, where the connection has the status header
(R117). -/
def Dev.refuse (d : Dev) (o : Op) (a : Answer) : Dev :=
  let d := d.undo o
  if o.hosted ∧ ¬ o.whole ∧ (d.conn o.conn).stHdr ∧ ¬ isRnr (carrier true a.forHost.st a.us a.nak) then
    (d.retire o).holdRefusal o a.st
  else d.answer o a

/-! ### The forwarding journal (R285 to R288) -/

/-- Bytes the journal's entries take: header and payload. -/
def Dev.fjBytes (d : Dev) : Nat := (d.fab.fj.map (fun f => 48 + f.data.length)).foldl (· + ·) 0

/-- First page of the forwarding journal's area, which lies outside the set portions (R285); its pages count in D (R178). -/
def fjPage : Nat := 2 ^ 46

/-- The journal has room for `n` more bytes (R285). -/
def Dev.fjRoom (d : Dev) (n : Nat) : Bool := decide (d.fjBytes + n + 48 ≤ d.f FAB_FWD_CTL.FJ_MIB * 1048576)

/-- The next CSEQ of a connection to a home (R283). -/
def Dev.takeCseq (d : Dev) (conn home : Nat) : Nat × Dev :=
  let k := conn * 4096 + home
  let n := lookD d.fab.cseqs k 0
  (n, { d with fab := { d.fab with cseqs := put d.fab.cseqs k (n + 1) } })

/-- Words of a forward header (Table 8.4). -/
def Fj.header (f : Fj) : List Nat :=
  [f.verb, f.region, f.qpn, f.cseq, f.jseq, f.origin, 0, f.off, 0, f.data.length]

/-- The journal key of an entry. -/
def Fj.same (f : Fj) (origin home jseq : Nat) : Bool := f.origin == origin && f.home == home && f.jseq == jseq

/-- The oldest JSEQ to a home that is not yet Applied (R287). -/
def Dev.oldestJseq (d : Dev) (origin home : Nat) : Nat :=
  ((d.fab.fj.filter (fun f => f.origin == origin && f.home == home && (f.state == .posted || f.state == .sent))).map
    (·.jseq)).foldl min (2 ^ 48)

/-- An entry is sent to its home, or waits in Posted beyond the window of 4096 (R287). -/
def Dev.fjSend (d : Dev) (f : Fj) : Dev :=
  if d.oldestJseq f.origin f.home + 4096 ≤ f.jseq then d
  else
    let sent (x : Fj) : Fj :=
      if x.same f.origin f.home f.jseq then { x with state := .sent, sentAt := d.clk, hint := 100 } else x
    let d := { d with fab := { d.fab with fj := d.fab.fj.map sent } }
    d.fabSend f.home fwdWrite f.header f.data (some f.stamp)

/-- One journal entry for a part of a posted write (R285, R287). -/
def Dev.fjPost (d : Dev) (o : Op) (p : Piece) (home : Nat) : Dev :=
  let jseq := lookD d.fab.jseqs home 0
  let (cseq, d) := d.takeCseq o.conn home
  let f : Fj :=
    { origin := d.selfId, home := home, jseq := jseq, cseq := cseq, conn := o.conn, qpn := d.qpn o.conn, psn := o.psn,
      verb := o.kind.opcode, region := o.rid, off := p.roff, data := (o.data.drop p.pos).take p.len, stamp := o.stamp }
  let pages := (unitsOf d.fjBytes (48 + p.len) 4096).map (fjPage + ·)
  let d := (pages.foldl (fun d k => d.dirtyPage k (d.epochOf o.stamp)) d).setOp o.id (fun x =>
    { x with toImage := pages.foldl ins x.toImage })
  let d := { d with fab := { d.fab with jseqs := put d.fab.jseqs home (jseq + 1), fj := d.fab.fj ++ [f] } }
  let d := d.count 0x703 0 1
  if o.mirrored then d.twinSend twLeg o.msgid [o.rid, p.roff, p.len, 3] f.data else d

/-- Entries of a write that became durable leave for their homes (Table 8.5). -/
def Dev.sendPosted (d : Dev) (o : Op) : Dev :=
  (d.fab.fj.filter (fun f => f.origin == d.selfId && f.conn == o.conn && f.psn == o.psn && f.state == .posted)).foldl
    Dev.fjSend d

/-- A forwarded request for a part of a READ, or an atomic (R281 to R284). -/
def Dev.fwdPost (d : Dev) (o : Op) (p : Piece) (home : Nat) : Dev :=
  let (cseq, d) := d.takeCseq o.conn home
  let f : FwdOut := { opId := o.id, home := home, sentAt := d.clk, cseq := cseq, part := p.pos, len := p.len }
  let d := { d with fab := { d.fab with fwd := d.fab.fwd ++ [f] } }
  d.fabSend home fwdReq [o.kind.opcode, o.rid, d.qpn o.conn, cseq, 0, d.selfId, o.id, p.roff, o.dl, p.len,
    o.cmp.toNat, o.swp.toNat] [] (some o.stamp)

/-- The plots homed on members that are gone or have no route (R281). -/
def Dev.unreachable (d : Dev) (ps : List Piece) : Bool :=
  ps.any (fun p => p.home.any (fun h => !d.hasRoute h || !d.fab.members.any (fun m => m.id == h)))

/-! ### Serving -/

/-- A counter snapshot as Table 17.4 lays it out. An entry is written as its dump is taken, so no dump is ever skipped. -/
def Snap.bytes (s : Snap) (interval : Nat) : List Byte :=
  leBytes 8 s.seq ++ leBytes 8 s.takenAt ++ leBytes 4 interval ++ leBytes 4 0 ++ leBytes 8 s.bwAt
    ++ List.replicate 32 0
    ++ ((List.range 320).map (fun c => leBytes 8 (lookD s.counts c 0).toNat)).flatten
    ++ ((List.range 256).map (fun p => leBytes 4 (lookD s.bw p 0).toNat)).flatten

/-- `n` bytes of the counter region at `off`. -/
def Dev.counterRead (d : Dev) (off n : Nat) : List Byte :=
  let b := d.pmc.snap.bytes (d.f PMC_DUMP_STAT.INTERVAL_US)
  (List.range n).map (fun i => b.getD (off + i) 0)

/-- Data of touches, in ascending order. -/
def Dev.readTouches (d : Dev) (ts : List Touch) : List Byte := ts.flatMap (fun t => d.plotRead t.idx t.off t.n)

/-- A read of plots counted for heat, once for each plot it touches; a heath read that lifts HEAT to `PROMOTE` decides at once
(R158, R160, log entry 78). -/
def Dev.readHeat (d : Dev) (lantern : Nat) (ts : List Touch) : Dev :=
  ts.foldl (fun d t =>
    let d := (d.sample lantern t.idx (d.f TIER_HEAT_CTL.RD_INC)).candleTouch t.idx
    if d.heatDecides lantern t.idx then d.placePlot t.idx else d) d

/-- A plot of the read lies in heath with no read copy: its die is asked. -/
def Dev.needsDie (d : Dev) (ts : List Touch) : List Nat :=
  (ts.filter (fun t =>
    let e := d.entry t.idx
    (e.tier == .fast || e.tier == .deep) && (d.candleOf t.idx).isNone)).map (fun t => lookD d.hth.map (d.entry t.idx).loc 0)

/-- Units that hold the data of touches: DRAM groups of meadow lines, heath edge dies of heath plots (R448). -/
def Dev.unitsUnder (d : Dev) (ts : List Touch) : List Nat :=
  (ts.flatMap (fun t =>
    let e := d.entry t.idx
    match e.tier with
    | .none => []
    | .meadow => (unitsOf t.off t.n 256).filterMap (fun k => (d.locate (e.loc * plotBytes + k * 256)).map (fun c => dramUnit c.1))
    | .fast | .deep => [heathUnit (lookD d.hth.map e.loc 0 / 16)])).eraseDups

/-- What Table 15.6 answers a verb headed for a unit that powers down. -/
def Dev.powerAnswer (d : Dev) (rid : Nat) (r : Region) (kind : OpKind) (ts : List Touch) : Option Answer :=
  ((d.unitsUnder ts).find? d.drainingUnit).map (fun u =>
    if kind = .read ∧ r.mirrored ∧ d.twinGood then d.redirect rid (d.powerHint u)
    else { st := .retryAfter, us := d.powerHint u })

/-- Units that sleep under touches are woken; whether any does (R449). -/
def Dev.wakeUnder (d : Dev) (ts : List Touch) : Dev × Bool :=
  let us := (d.unitsUnder ts).filter d.asleep
  (us.foldl Dev.wake d, !us.isEmpty)

/-- A lookup of a plot is held by a commit handshake (R167). -/
def Dev.quiesced (d : Dev) (ts : List Touch) : Bool :=
  ts.any (fun t => (d.migOf t.idx).any (fun m => m.step == .quiescing))

/-- What a completed verb counts at its egress commit: READ bytes, WRITE bytes or one atomic (R496, R500). -/
def Dev.countDone (d : Dev) (o : Op) : Dev :=
  if ¬ o.hosted then d else
  let l := (d.conn o.conn).lantern
  let x : SampleOf :=
    { opcode := o.kind.opcode, region := o.rid, qpn := d.qpn o.conn, off := o.off, ns := d.now - o.stamp }
  match o.kind with
  | .read => d.count 0x201 l o.len x
  | .write => d.count 0x202 l o.len x
  | .cmpSwap | .fetchAdd | .atomicWrite => d.count 0x203 l 1 x
  | .flush | .fenceCount | .sealQuery | .regionInfo => d

/-- A READ answered with its data: the egress commit (R116, R132). -/
def Dev.finishRead (d : Dev) (o : Op) (ts : List Touch) (data : List Byte) : Dev :=
  let d := if o.cmd.isSome then d else d.readHeat (d.laneOf o) ts
  (d.countDone o).answer o { data := data }

/-- Every part of a READ homed elsewhere has come (R282). -/
def Dev.partsIn (d : Dev) (o : Op) : Bool :=
  d.fab.fwd.any (fun f => f.opId == o.id) && (d.fab.fwd.filter (fun f => f.opId == o.id)).all (fun f => f.got.isSome)

/-- Data of a READ in ascending order: parts from other members, and the local plots (R282). -/
def Dev.readData (d : Dev) (o : Op) (r : Region) : List Byte :=
  if o.rid = counterRegion then []
  else if o.fwd then d.readTouches (d.homeTouches r o.off o.len)
  else (d.pieces r o.off o.len).flatMap (fun p => match p.home with
    | none => d.readTouches (touchesFrom r.base p.loff p.len p.pos (p.len / 65536 + 2))
    | some _ => ((d.fab.fwd.find? (fun f => f.opId == o.id && f.part == p.pos)).bind (·.got)).getD [])

/-- The `REGION_INFO` answer (Table 4.9). -/
def Dev.regionInfo (d : Dev) (k : BitVec 32) (r : Region) (e : KeyEntry) : List Byte :=
  let mir := match r.mirror with
    | .no => 0
    | _ => if lookD d.twn.roles (keyRegion k) (r.mirror == .west) then 2 else 1
  let pol := match r.policy with | .auto => 0 | .pinMeadow => 1 | .pinHeath => 2
  let cls := match r.cls with | .meadow => 0 | .fast => 1 | .deep => 2
  leBytes 8 (r.size % 2 ^ 47)
    ++ leBytes 8 (e.perm.toNat * 2 ^ 48 + keyIdx k * 2 ^ 44 + d.selfId * 2 ^ 32 + bit r.ownSlot.isSome * 2 ^ 31
      + bit r.spanned * 2 ^ 30 + mir * 2 ^ 28 + r.dlUs * 2 ^ 20 + cls * 2 ^ 18 + pol * 2 ^ 16 + r.state.code * 2 ^ 12
      + keyRegion k)
    ++ leBytes 8 e.winFirst ++ leBytes 8 e.winCount

/-- The `SEAL_QUERY` answer (Table 4.8). -/
def Dev.sealInfo (d : Dev) : List Byte :=
  leBytes 8 (d.epochLen * 2 ^ 48 + d.f DUR_HORIZON.HORIZON) ++ leBytes 8 (d.f DUR_EPOCH_STAT.LOCAL % 2 ^ 48)

/-- The target of a fence is not open under the generation named (R124). -/
def Dev.fenceClosed (d : Dev) (o : Op) : Bool :=
  let c := d.conn (o.tgt % 65536)
  !c.state.isOpen || c.cgen.toNat != o.tgt / 65536

/-- The fence's condition: the count reached, as a signed difference, or the target gone (R124). -/
def Dev.fencePasses (d : Dev) (o : Op) : Bool :=
  d.fenceClosed o || !((d.conn (o.tgt % 65536)).count - o.cnt).msb

/-- A fence is answered with the count reached and CLOSED; with CLOSED = 1 the count is that of the connection which now holds the
index, 0 where none does (R124, log entry 76). -/
def Dev.finishFence (d : Dev) (o : Op) : Dev :=
  d.answer o { data := leBytes 8 ((d.conn (o.tgt % 65536)).count.toNat + bit (d.fenceClosed o) * 2 ^ 32) }

/-- Every earlier write of the connection is durable at its home (R121). -/
def Dev.flushPasses (d : Dev) (o : Op) : Bool :=
  !(d.hpt.ops.takeWhile (fun x => x.id != o.id)).any (fun x => x.conn == o.conn && x.kind.writes) &&
  !d.fab.fj.any (fun f => f.origin == d.selfId && f.conn == o.conn && (f.state == .posted || f.state == .sent))

/-- A FLUSH is answered with the highest epoch among the writes it covers: the earlier writes of its connection (R111, R121). -/
def Dev.finishFlush (d : Dev) (o : Op) : Dev := d.answer o { epoch := o.covers }

/-- FLUSHes behind operation `id` of a connection cover its write of an epoch (R111). -/
def coverBy (c id e : Nat) : List Op → List Op
  | [] => []
  | x :: r =>
    if x.id = id then
      x :: r.map (fun y => if y.conn = c ∧ y.kind = .flush then { y with covers := some (max e (y.covers.getD 0)) } else y)
    else x :: coverBy c id e r

/-! ### One step of an operation -/

/-- An earlier fence of the connection holds this operation (R124). -/
def Dev.fenceHolds (d : Dev) (o : Op) : Bool :=
  (d.hpt.ops.takeWhile (fun x => x.id != o.id)).any (fun x => x.conn == o.conn && x.kind == .fenceCount)

/-- An earlier write or atomic of the connection has lines yet to apply (R127). -/
def Dev.orderHolds (d : Dev) (o : Op) : Bool :=
  (d.hpt.ops.takeWhile (fun x => x.id != o.id)).any (fun x =>
    x.conn == o.conn && x.kind.writes && x.phase != .applied && x.phase != .posted)

/-- A READ goes on as far as it can (R116, R128, R136, R282). -/
def Dev.stepRead (d : Dev) (o : Op) (r : Region) : Dev :=
  let ts := d.opTouches o r o.off o.len
  let away := d.opAway o r
  let l := d.laneOf o
  if o.rid = counterRegion then d.finishRead o [] (d.counterRead o.off o.len)
  else match d.mirrorAnswer o.rid r .read with
  | some a => d.answer o a
  | none =>
    if d.unreachable away then d.answer o { st := .regionOffline }
    else match (d.check9 o.rid r l ts).or (d.powerAnswer o.rid r .read ts) with
    | some a => d.answer o a
    | none =>
      let (d, sleeps) := d.wakeUnder ts
      if sleeps ∨ d.gapHolds o.rid r ∨ d.quiesced ts then d
      else if ts.any (fun t => (d.linesOf t).any d.lineOpen) then d
      else
        let d := (d.restoreNow ts).lookUp o l ts
        if ¬ away.isEmpty ∧ ¬ d.partsIn o then
          let d := d.setOp o.id (fun x => { x with phase := .forwarded })
          away.foldl (fun d p => match p.home with | some h => d.fwdPost o p h | none => d) d
        else match (if o.dieRead then [] else d.needsDie ts) with
        | [] => d.finishRead o ts (d.readData o r)
        | dies =>
          let d := { d with hth := { d.hth with dies := dies.foldl (fun m k =>
            change m k {} (fun y => { y with reads := y.reads ++ [o.id] })) d.hth.dies } }
          d.setOp o.id (fun x => { x with phase := .issued })

/-- A write posted to other members: journal entries for the parts homed elsewhere, the local part applied (R282, R285,
R286). -/
def Dev.postWrite (d : Dev) (o : Op) (away : List Piece) : Dev :=
  if ¬ o.whole then d
  else
    let o := if o.cmd.isSome then { o with stamp := d.now } else o
    let d := away.foldl (fun d p => match p.home with | some h => d.fjPost o p h | none => d) d
    (d.acceptOp o.id).setOp o.id (fun x => { x with phase := .posted })

/-- Packet positions of a LEG (Table 7.2): 0 First, 1 Middle, 2 Last, 3 Only. -/
def legPos (first last : Bool) : Nat := if first then (if last then 3 else 0) else if last then 2 else 1

/-- Bytes from `off` on cut into what one frame carries, over at most `fuel` frames (R225). -/
def cutFrames (off : Nat) (bs : List Byte) : Nat → List (Nat × List Byte)
  | 0 => []
  | fuel + 1 =>
    if bs.length ≤ frameBytes then [(off, bs)]
    else (off, bs.take frameBytes) :: cutFrames (off + frameBytes) (bs.drop frameBytes) fuel

/-- LEG frames of what this device homes of a mirrored write's bytes; `first` and `last` say whether they begin and end the
message (R232). -/
def Dev.legs (d : Dev) (o : Op) (r : Region) (off : Nat) (first last : Bool) (bs : List Byte) : Dev :=
  if ¬ o.mirrored then d
  else
    let parts := if o.fwd then [(off, bs)]
      else ((d.pieces r off bs.length).filter (fun p => p.home.isNone)).map (fun p => (p.roff, (bs.drop p.pos).take p.len))
    let cut := parts.flatMap (fun p => cutFrames p.1 p.2 (p.2.length / frameBytes + 1))
    (cut.zipIdx).foldl (fun d x =>
      d.leg o x.1.1 (legPos (first && x.2 == 0) (last && x.2 + 1 == cut.length)) x.1.2) d

/-- A write or atomic goes on as far as it can (R117, R119, R120, R136, R285). -/
def Dev.stepWrite (d : Dev) (o : Op) (r : Region) : Dev :=
  let l := d.laneOf o
  let away := d.opAway o r
  match d.mirrorAnswer o.rid r o.kind with
  | some a => d.refuse o a
  | none =>
    if d.unreachable away then d.refuse o { st := .regionOffline }
    else if ¬ away.isEmpty ∧ (o.kind = .cmpSwap ∨ o.kind = .fetchAdd) then
      let d := d.setOp o.id (fun x => { x with phase := .forwarded })
      away.foldl (fun d p => match p.home with | some h => d.fwdPost o p h | none => d) d
    else
      let n := if o.kind = .write then o.data.length else 8
      let ts := (d.opTouches o r o.off n).filter (fun t => o.appl ≤ t.pos ∨ o.appl < t.pos + t.n)
      match (d.check9 o.rid r l (ts.filter (fun t => !d.mayFill o r t))).or (d.powerAnswer o.rid r o.kind ts) with
      | some a => d.refuse o a
      | none =>
        let (d, sleeps) := d.wakeUnder ts
        if sleeps ∨ d.gapHolds o.rid r ∨ d.rsHolds o.rid o.off n then d
        else
          let (d, ready) := (((ts.foldl (fun d t => d.fillHome o r t) d).restoreNow ts).lookUp o l ts).readyAll l ts
          if ¬ ready then d
          else match o.kind with
          | .cmpSwap | .fetchAdd | .atomicWrite =>
            if o.kind ≠ .atomicWrite ∧ ts.any (fun t => (d.linesOf t).any d.lineOpen) then d
            else
              let orig := match ts with | t :: _ => d.wordAt t | [] => 0
              match atomicResult o orig with
              | none =>
                let d := if o.cmd.isSome then d else ts.foldl (fun d t => d.sample l t.idx (d.f TIER_HEAT_CTL.WR_INC)) d
                let d := { d with twn := { d.twn with msgs := d.twn.msgs.filter (fun m => m.msgid != o.msgid) } }
                (d.countDone o).answer { o with orig := orig } { orig := some orig, epoch := some (d.epochOf o.stamp) }
              | some v =>
                let bs := leBytes 8 v.toNat
                let d := (d.setOp o.id (fun x => { x with orig := orig, data := bs, appl := 8 })).applyTouches o.id bs ts
                let d := d.rsMark o.rid r o.off 8
                let d := d.legs o r o.off true true bs
                if away.isEmpty then d.acceptOp o.id else d.postWrite { o with data := bs } away
          | _ =>
            let bs := o.data.drop o.appl
            let fresh := d.opTouches o r (o.off + o.appl) bs.length
            let d := d.applyTouches o.id bs fresh
            let d := (d.setOp o.id (fun x => { x with appl := o.data.length })).rsMark o.rid r (o.off + o.appl) bs.length
            let d := if bs.isEmpty then d
              else d.legs o r (o.off + o.appl) (o.appl == 0) o.whole bs
            if away.isEmpty then d.acceptOp o.id else d.postWrite o away

/-- A zero-length READ or WRITE: `OK`, no plot touched (R115). -/
def Dev.stepEmpty (d : Dev) (o : Op) : Dev :=
  if o.kind = .read then d.answer o {} else d.acceptOp o.id

/-- An admitted operation goes on, when neither a fence nor an earlier write holds it. -/
def Dev.stepOp (d : Dev) (o : Op) : Dev :=
  if d.fenceHolds o then d
  else match o.kind with
  | .sealQuery => d.answer o { data := d.sealInfo }
  | .fenceCount => if d.fencePasses o then d.finishFence o else d.setOp o.id (fun x => { x with phase := .fenced })
  | .flush => if d.flushPasses o then d.finishFlush o else d
  | .regionInfo =>
    match d.keyEntry o.rkey with
    | none => d.answer o { st := .accessDenied }
    | some (r, e) =>
      match d.mirrorAnswer o.rid r .regionInfo with
      | some a => d.answer o a
      | none => d.answer o { data := d.regionInfo o.rkey r e }
  | .read | .write | .cmpSwap | .fetchAdd | .atomicWrite =>
    if d.orderHolds o then d
    else if o.len = 0 then d.stepEmpty o
    else match look d.rgn o.rid with
    | none => d.answer o { st := .accessDenied }
    | some r => if o.kind = .read then d.stepRead o r else d.stepWrite o r

/-- An operation goes on: its lantern must run (R506). -/
def Dev.tryOp (d : Dev) (id : Nat) : Dev :=
  match d.op id with
  | none => d
  | some o =>
    let l := d.laneOf o
    if o.phase ≠ .waiting ∨ ¬ d.lanternUp l then d
    else if d.asleep l then d.wake l
    else d.stepOp o

/-- Messages that are incomplete when their connection is Draining or in Error are abandoned; one whose completing packet has come
is accepted, though it may wait (R98, R99). -/
def Dev.closeMsg (d : Dev) (c : Nat) : Dev :=
  match (d.conn c).openMsg with
  | none => d
  | some m =>
    let d := { d with hpt := { d.hpt with ingress := d.hpt.ingress.filter (fun e => !(e.o.conn == c && e.msg == m.psn && !e.o.dup)) } }
    let gone := d.hpt.ops.filter (fun o => o.hosted && o.conn == c && o.psn == m.psn && !o.whole)
    (gone.foldl Dev.abandon d).setConn c (fun x => { x with openMsg := none, cur := none })

/-- Incomplete messages of connections that are Draining or in Error are abandoned (R98). -/
def Dev.closeOpen (d : Dev) : Dev :=
  ((d.hpt.conns.filter (fun c => (c.2.state == .draining || c.2.state == .error) && c.2.openMsg.isSome)).map (·.1)).foldl
    Dev.closeMsg d

/-! ### Admission from the ingress buffer (R101 to R105, R115, R117) -/

/-- Pages a write reserves at admission: one a page it spans where its plot has no meadow home yet, and the pages its entries take
in the forwarding journal (R184). -/
def Dev.pagesNeeded (d : Dev) (r : Region) (o : Op) : Nat :=
  let away := d.remotePieces r o.off o.len
  let fj := (away.map (fun p => 48 + p.len)).foldl (· + ·) 0
  d.pagesOf (d.touches r o.off o.len) + (unitsOf d.fjBytes fj 4096).length

/-- Whether admission answers the write instead: the governor, the journal area, the forwarding journal (R141, R186, R200,
R285). -/
def Dev.admission (d : Dev) (o : Op) (r : Region) : Option Answer :=
  let away := d.remotePieces r o.off o.len
  if d.unreachable away then some { st := .regionOffline }
  else match d.admits (d.pagesNeeded r o) (d.mirroring o.rid r) with
  | some us => some { st := .retryAfter, us := us }
  | none =>
    if (o.multi ∧ ¬ d.journalFree) ∨ (¬ away.isEmpty ∧ ¬ d.fjRoom o.len) then some { st := .retryAfter, us := 10 }
    else none

/-- The stage-2 refusals the counters count (Table 17.3). -/
def Dev.countRefusal (d : Dev) (a : Answer) : Dev :=
  if a.st = .retryAfter ∧ d.f DUR_BUDGET_STAT.STAGE = 2 then d.count 0x603 0 1 else d

/-- What admission counts: one request, with what a sample says of it (R496, R500). -/
def Dev.countAdmitted (d : Dev) (o : Op) : Dev :=
  d.used.count 0x200 (d.conn o.conn).lantern 1
    { opcode := o.kind.opcode, region := o.rid, qpn := d.qpn o.conn, off := o.off, ns := d.fresh.toNat % 2 ^ 32 }

/-- Credit that an admission takes: all of a packet's cost; of a READ the units that the credit still admits, those after them
going on as the earlier ones complete (R105, log entry 75). -/
def Dev.charge (d : Dev) (o : Op) : Nat :=
  if o.kind = .read then min o.toAdmit (ceilDiv (d.conn o.conn).credit.toNat 4096 * 4096) else o.toAdmit

/-- The operation takes its place: credit, tag, replica message of a mirrored write, the writes a FLUSH covers, and its turn
(R101, R105, R111, R232). -/
def Dev.enter (d : Dev) (o : Op) (slot pages : Nat) : Dev :=
  let (id, d) := d.takeTag (d.conn o.conn).lantern slot
  let mir := o.kind.writes && o.len != 0 && (look d.rgn o.rid).any (fun r => d.mirroring o.rid r)
  let d := if pages = 0 then d else d.takeAdmission pages mir
  let o := { o with
    id := id, reserved := pages, mirrored := mir, msgid := if mir then d.twn.nextMsg else 0, phase := .waiting,
    cost := d.charge o, toAdmit := 0, covers := (d.conn o.conn).maxWrEpoch }
  let d := if mir then
      { d with twn := { d.twn with
          nextMsg := (d.twn.nextMsg + 1) % 2 ^ 32, msgs := d.twn.msgs ++ [{ msgid := o.msgid, opId := id }] } }
    else d
  let d := { d with hpt := { d.hpt with ops := d.hpt.ops ++ [o] } }
  (d.countAdmitted o).setConn o.conn (fun c => { c with
    credit := c.credit - o.cost, cur := if o.multi then some { psn := o.psn, opId := id } else c.cur })

/-- What answers a request with a tag free in place of its entering: its verdict under checks 1 to 7, fences and roles, checks 8
and 9 over the whole length, the governor (R48, R115, R117, Table 2.3). -/
def Dev.refusal (d : Dev) (o : Op) (verdict : Option Status) : Option Answer :=
  match verdict with
  | some st => some { st := st }
  | none =>
    if ¬ o.kind.writes ∨ o.len = 0 then none
    else match look d.rgn o.rid with
    | none => some { st := .accessDenied }
    | some r =>
      ((d.mirrorAnswer o.rid r o.kind).or (d.check9 o.rid r (d.laneOf o) (d.touches r o.off o.len))).or (d.admission o r)

/-- A First, Only or single-packet request with credit is admitted or answered: tag (R102), checks, its place. -/
def Dev.admitRequest (d : Dev) (o : Op) (verdict : Option Status) : Dev :=
  let l := (d.conn o.conn).lantern
  match d.freeSlot l with
  | none => (d.raise (source 9 0) 2 0 l 0).reply o { st := .retryAfter, us := 10 }
  | some slot =>
    match d.refusal o verdict with
    | none => d.enter o slot (match look d.rgn o.rid with
        | some r => if o.kind.writes ∧ o.len ≠ 0 then d.pagesNeeded r o else 0
        | none => 0)
    | some a =>
      let d := d.countRefusal a
      if o.multi ∧ (d.conn o.conn).stHdr ∧ ¬ isRnr (carrier true a.forHost.st a.us a.nak) then d.holdRefusal o a.st
      else d.reply o a

/-- A further packet of a message with credit (R117): its bytes join the operation; the Last packet gives the stamp, the epoch, the
deadline and the verdict of checks 1 to 7 at that stamp (R48, R59, R131). -/
def Dev.admitMore (d : Dev) (e : IngPkt) : Dev :=
  let last := e.part == .last
  match (d.conn e.o.conn).cur with
  | none => d
  | some m =>
    let d := if last then d.setConn e.o.conn (fun c => { c with cur := none }) else d
    match m.refused with
    | some st => if last then d.reply e.o { st := st } else d
    | none =>
      let cost := e.o.toAdmit
      let d := (d.setConn e.o.conn (fun c => { c with credit := c.credit - cost })).setOp m.opId (fun x => { x with
        data := x.data ++ e.o.data, endPsn := e.o.psn, whole := last, imm := e.o.imm, phase := .waiting, looked := false,
        cost := x.cost + cost
        stamp := if last then e.o.stamp else x.stamp, epoch := if last then e.o.epoch else x.epoch,
        dl := if last then e.o.dl else x.dl })
      match d.op m.opId, e.verdict with
      | some x, some st => if last then d.refuse x { st := st } else d
      | _, _ => d

/-- A packet is the first of its connection in the ingress buffer, its connection's credit is above 0, and its lantern runs
(R105). -/
def Dev.admissible (d : Dev) (e : IngPkt) : Bool :=
  let c := d.conn e.o.conn
  (d.hpt.ingress.find? (fun x => x.o.conn == e.o.conn)) == some e && decide (0 < c.credit)
    && d.lanternUp c.lantern && !d.asleep c.lantern

/-- A packet leaves the ingress buffer. -/
def Dev.takeIngress (d : Dev) (e : IngPkt) : Dev :=
  let d := { d with hpt := { d.hpt with ingress := d.hpt.ingress.erase e } }
  if e.part = .middle ∨ e.part = .last then d.admitMore e else d.admitRequest e.o e.verdict

/-- Packets are admitted, the oldest stamp first, at most `fuel` of them (R105). -/
def Dev.serveIngress (d : Dev) : Nat → Dev
  | 0 => d
  | fuel + 1 =>
    match d.hpt.ingress.find? d.admissible with
    | none => d
    | some e => (d.takeIngress e).serveIngress fuel

/-- A packet enters the ingress buffer behind those with older or equal stamps. -/
def Dev.pushIngress (d : Dev) (e : IngPkt) : Dev :=
  let older (x : IngPkt) : Bool := decide (x.o.stamp ≤ e.o.stamp)
  { d with hpt := { d.hpt with ingress := d.hpt.ingress.filter older ++ [e] ++ d.hpt.ingress.filter (fun x => !older x) } }

/-- Lanterns that packets wait for wake. -/
def Dev.wakeIngress (d : Dev) : Dev :=
  (d.hpt.ingress.map (fun e => (d.conn e.o.conn).lantern)).eraseDups.foldl (fun d l => if d.asleep l then d.wake l else d) d

/-- A write whose completing packet was stamped in epoch `k` or earlier still waits in an ingress buffer. -/
def Dev.ingressIn (d : Dev) (k : Nat) : Bool :=
  d.hpt.ingress.any (fun e => e.o.kind.writes && !e.o.dup && decide (e.o.epoch ≤ k))
    || d.hpt.cold.any (fun p => p.a.any (fun a => a.kind.writes) && decide (d.epochOf p.stamp ≤ k))

/-- A message stamped in epoch `k` or earlier has lines yet to be sent to the replica (R237). -/
def Dev.eoeHeld (d : Dev) (k : Nat) : Bool :=
  d.ingressIn k
    || d.hpt.ops.any (fun o => o.mirrored && o.whole && decide (o.epoch ≤ k) && o.phase != .applied && o.phase != .posted)

/-- EOE of closed epochs, in order, as far as the messages of each have gone (R237). -/
def Dev.sendEoes (d : Dev) : List Nat → Dev
  | [] => d
  | k :: r =>
    if d.eoeHeld k then d
    else
      let d := d.twinSend twEoe 0 [k]
      ({ d with twn := { d.twn with eoeDue := r, eoeOpen := d.twn.eoeOpen ++ [k] } }).sendEoes r

/-- A write to the region stamped before its seal instant is not durable yet (R49). -/
def Dev.sealHeld (d : Dev) (rid at_ : Nat) : Bool :=
  d.hpt.ops.any (fun o => o.rid == rid && o.kind.writes && o.whole && decide (o.stamp < at_))
    || d.hpt.ingress.any (fun e => e.o.rid == rid && e.o.kind.writes && decide (e.o.stamp < at_))
    || d.twn.reps.any (fun r => r.region == rid && r.stamp.any (fun s => decide (s < at_)))
    || d.fab.fj.any (fun f => f.region == rid && decide (f.stamp < at_) && (f.state == .posted || f.state == .sent))

/-- Regions whose seal instant has passed, with every earlier write durable, become Sealed (Table 2.4, R49); the sweep records it in
their entries (R172). -/
def Dev.settleSeals (d : Dev) : Dev :=
  (d.rgn.filter (fun r => r.2.state == .sealing && r.2.sealAt.any (fun t => decide (t ≤ d.now) && !d.sealHeld r.1 t))).foldl
    (fun d r => d.setRegion r.1 { r.2 with state := .sealed }) d

/-- The role of a region moves to a side (R222, R254). -/
def Dev.setRole (d : Dev) (rid : Nat) (west : Bool) : Dev := { d with twn := { d.twn with roles := put d.twn.roles rid west } }

/-- `ROLE_VER` advances by one (R222). -/
def Dev.nextRoleVer (d : Dev) : Dev := d.fset TWN_STAT.ROLE_VER (d.f TWN_STAT.ROLE_VER + 1)

/-- Mirrored regions of the swap that runs. -/
def Dev.swapRegions (d : Dev) : List (Nat × Region) := d.rgn.filter (fun r => r.2.mirrored && d.swapping r.1 r.2)

/-- A swap ends with a result for the side that asked for it (R253). -/
def Dev.endSwap (d : Dev) (result : Nat) : Dev :=
  let d := if d.twn.swapOut then (d.fset TWN_CTL.SWAP_RESULT result).fset TWN_CTL.SWAP_BUSY 0 else d
  { d with twn := { d.twn with swapOut := false, swapIn := none } }

/-- The current primary has completed its pending writes: EOE, SWAP_READY, and the role goes to the peer (R254). -/
def Dev.settleSwap (d : Dev) : Dev :=
  let rs := d.swapRegions.filter (fun r => d.primaryHere r.1 r.2)
  if (¬ d.twn.swapOut ∧ d.twn.swapIn.isNone) ∨ rs.isEmpty then d
  else if d.hpt.ops.any (fun o => o.mirrored && rs.any (fun r => r.1 == o.rid)) then d
  else
    let d := (d.twinSend twEoe 0 [d.dur.openEp]).twinSend twSwapReady 0
    ((rs.foldl (fun d r => d.setRole r.1 (!d.twn.side)) d).nextRoleVer).endSwap 1

/-- The homes of a run of home-table entries are released; each entry reads as never written, its generation moved on (R50). -/
def Dev.releaseRun (d : Dev) (base n : Nat) : Dev :=
  ((d.tier.home.filter (fun e => decide (base ≤ e.1) && decide (e.1 < base + n) && e.2.tier != .none)).map (·.1)).foldl
    (fun d i =>
      let d := (d.cancelMig i).candleDrop (· == i)
      let e := d.entry i
      let blank : HomeEntry := { gen := e.gen + 1 }
      ((d.releaseHome e.tier e.loc).setEntry i blank).broadcast i)
    { d with tier := { d.tier with waitDst := d.tier.waitDst.filter (fun w => !(decide (base ≤ w.1) && decide (w.1 < base + n))) } }

/-- A key slot is erased, its blob with it. -/
def Dev.eraseSlot (d : Dev) (n : Nat) : Dev :=
  { d with cph := { d.cph with slots := del d.cph.slots n, blobs := del d.cph.blobs n } }

/-- Destroyed regions whose earlier verbs and replica messages have completed release their homes and their key slot (R50). -/
def Dev.settleDestroys (d : Dev) : Dev :=
  let busy (rid : Nat) : Bool := d.hpt.ops.any (fun o => o.rid == rid) || d.hpt.ingress.any (fun e => e.o.rid == rid && e.verdict.isNone)
    || d.twn.reps.any (fun r => r.region == rid) || d.twn.legWait.any (fun l => l.region == rid)
  (d.rgn.filter (fun r => r.2.state == .destroying && !busy r.1)).foldl (fun d r =>
    let d := d.releaseRun r.2.base r.2.run
    let d := match r.2.ownSlot with | some n => d.eraseSlot n | none => d
    { d with rgn := del d.rgn r.1 }) d

/-! ### Replica messages (R232 to R236) -/

/-- The replica message with an identifier. -/
def Dev.rep (d : Dev) (msgid : Nat) : Option Replica := d.twn.reps.find? (fun r => r.msgid == msgid)

/-- The device with a replica message changed. -/
def Dev.setRep (d : Dev) (msgid : Nat) (f : Replica → Replica) : Dev :=
  { d with twn := { d.twn with reps := d.twn.reps.map (fun r => if r.msgid = msgid then f r else r) } }

/-- A replica message leaves the device. -/
def Dev.dropRep (d : Dev) (msgid : Nat) : Dev :=
  { d with twn := { d.twn with
      reps := d.twn.reps.filter (fun r => r.msgid != msgid), legWait := d.twn.legWait.filter (fun l => l.msgid != msgid) } }

/-- The replica holds every line of the message and COMPLETE has arrived (R233). -/
def Replica.whole (r : Replica) : Bool := r.stamp.isSome && r.want == some r.got

/-- The message is accepted at the replica: its pages are dirty in the epoch of the stamp its primary gave it, and the copies of
the primary's journal entries carry that stamp (R59, R62, R190, R198). -/
def Dev.acceptRep (d : Dev) (r : Replica) (stamp : Nat) : Dev :=
  let d := ((d.setRep r.msgid (fun r => { r with acc := true })).dirtyLines r.lines (d.epochOf stamp)).snapWrite
    (d.epochOf stamp) r.journal
  let copy (f : Fj) : Bool := f.origin == d.twn.peerFab && f.conn == 0 && f.qpn == 0 && f.psn == r.msgid
  { d with fab := { d.fab with fj := d.fab.fj.map (fun f => if copy f then { f with stamp := stamp } else f) } }

/-- CONF, once the message is whole (R233). -/
def Dev.confirm (d : Dev) (msgid : Nat) : Dev :=
  match d.rep msgid with
  | none => d
  | some r => match r.stamp with
    | some stamp => if r.whole ∧ ¬ r.acc then (d.acceptRep r stamp).twinSend twConf msgid else d
    | none => d

/-- A replica message is rolled back: the previous contents return (R70, R199, R232). -/
def Dev.undoRep (d : Dev) (r : Replica) : Dev := (d.putBack r.journal r.lines).dropRep r.msgid

/-- A plot receives a meadow home from the free-plot queue of transport lantern (region ID mod 8), in the state given (R236,
R325, R533). -/
def Dev.giveHome (d : Dev) (idx : Nat) (st : PlotState) : Option Dev :=
  d.firstWrite (((d.regionOf idx).map (fun r => r.1 % 8)).getD 0) idx st

/-- The plots of a LEG have meadow homes: a heath home is moved first, a plot that has none receives one, and a commit handshake on
a meadow home is refused as by a host's write (R167, R236). -/
def Dev.readyLeg (d : Dev) : List Touch → Dev × Bool
  | [] => (d, true)
  | t :: r =>
    let e := d.entry t.idx
    let (d1, a) := if e.tier = .none then
        (match d.giveHome t.idx e.state with
        | some d' => (d', true)
        | none => (d, false))
      else d.readyPlot (((d.regionOf t.idx).map (fun r => r.1 % 8)).getD 0) t.idx
    let (d2, b) := d1.readyLeg r
    (d2, a && b)

/-- Bytes of a replica write applied at one touch, under the replica's journal, by lantern region ID mod 8 (R197, R232, R533). -/
def Dev.applyRep (d : Dev) (msgid : Nat) (t : Touch) (bs : List Byte) : Dev :=
  match d.rep msgid with
  | none => d
  | some r =>
    let e := d.entry t.idx
    let a := e.loc * plotBytes + t.off
    let prev := ((List.range bs.length).filter (fun i => !r.journal.any (fun c => c.1 == a + i))).map (fun i =>
      (a + i, memGet d.mem.meadow (a + i)))
    let lines := unitsOf a bs.length 64
    let d := (d.pokeMeadow a bs).witness t.idx t.off bs.length
    let d := { d with tier := { d.tier with lastWr := put d.tier.lastWr t.idx d.clk } }
    let d := (d.wickLookup (r.region % 8) t.idx).sample (r.region % 8) t.idx (d.f TIER_HEAT_CTL.WR_INC)
    let d := if d.twn.refetch.contains t.idx then
        { d with twn := { d.twn with rsReject := ins d.twn.rsReject t.idx } }
      else d
    d.setRep msgid (fun r => { r with journal := prev ++ r.journal, lines := lines.foldl ins r.lines })

/-- Journal entries of the peer that this device holds a copy of: bytes homed on neither twin (R286, R290). -/
def Dev.copyEntries (d : Dev) (r : Region) (l : LegIn) : Dev :=
  ((d.pieces r l.off l.data.length).filter (fun p => p.home.isSome && !d.homesHere (r.resolve p.roff).1)).foldl (fun d p =>
    let home := p.home.getD 0
    let key := 4096 * (d.twn.peerFab + 1) + home
    let j := lookD d.fab.jseqs key 0
    let f : Fj :=
      { origin := d.twn.peerFab, home := home, jseq := j, psn := l.msgid, verb := 0x0A, region := l.region,
        off := p.roff, data := (l.data.drop p.pos).take p.len, stamp := d.now }
    { d with fab := { d.fab with jseqs := put d.fab.jseqs key (j + 1), fj := d.fab.fj ++ [f] } }) d

/-- The journal area and the dirty budget take a LEG's bytes; while they do not, it waits in the receive buffer (R236). -/
def Dev.takesLeg (d : Dev) (ts : List Touch) : Bool := d.journalFree && d.budgetTakes (d.pagesOf ts)

/-- The LEG at the front is applied, if its plots and the budget let it; whether it was. -/
def Dev.applyLeg (d : Dev) (l : LegIn) : Dev × Bool :=
  match look d.rgn l.region with
  | none => (d, true)
  | some r =>
    let ts := d.homeTouches r l.off l.data.length
    if ¬ d.takesLeg ts then (d, false)
    else
      let (d, ready) := d.readyLeg ts
      if ¬ ready then (d, false)
      else
        let d := (ts.foldl (fun d t => d.applyRep l.msgid t ((l.data.drop t.pos).take t.n)) d).copyEntries r l
        let last := l.pos == 2 || l.pos == 3
        let d := d.setRep l.msgid (fun r => { r with
          got := r.got + l.data.length, want := if last then some (r.got + l.data.length) else r.want })
        (d.confirm l.msgid, true)

/-- LEGs that wait are applied in link order, as far as they can be (R235, R236). -/
def Dev.legPump (d : Dev) : Nat → Dev
  | 0 => d
  | fuel + 1 =>
    match d.twn.legWait with
    | [] => d
    | l :: rest =>
      let (d, done) := d.applyLeg l
      if done then ({ d with twn := { d.twn with legWait := rest } }).legPump fuel else d

/-- Operation `a` is served before `b`: the older stamp, then the lower transport lantern, then the lower CIDX (R104, R129,
Table 4.13). -/
def Dev.before (d : Dev) (a b : Op) : Bool :=
  decide (a.stamp < b.stamp) || (a.stamp == b.stamp && (decide (d.laneOf a < d.laneOf b)
    || (d.laneOf a == d.laneOf b && decide (a.conn < b.conn))))

/-- An operation in its place among others in serving order. -/
def Dev.insertOp (d : Dev) (o : Op) : List Op → List Op
  | [] => [o]
  | x :: r => if d.before x o then x :: d.insertOp o r else o :: x :: r

/-- Operations in the order they are served. -/
def Dev.servingOrder (d : Dev) : List Nat := (d.hpt.ops.foldr d.insertOp []).map (·.id)

/-- Every operation goes on as far as it can, and packets are admitted, for as long as that admits any (`fuel` rounds). -/
def Dev.serveAll (d : Dev) : Nat → Dev
  | 0 => d
  | fuel + 1 =>
    let d := (d.servingOrder.foldl Dev.tryOp d.closeOpen).closeOpen
    let n := d.hpt.ingress.length
    let d := d.serveIngress n
    if d.hpt.ingress.length = n then d else d.serveAll fuel

/-- LEGs that wait are applied, and data commands issue their next blocks; then operations, oldest stamp first, go on as far as
they can, and packets that wait for credit are admitted as it returns (R104, R105, R129, R236). -/
def Dev.pump (d : Dev) : Dev :=
  let d := ((d.ring.cmds.map (·.id)).foldl Dev.stepJob (d.legPump d.twn.legWait.length)).wakeIngress
  let d := d.serveAll (d.hpt.ingress.length + 2)
  let d := if d.hpt.ops.any (fun o => o.cmd.isSome && o.phase == .waiting) then d.serveAll (d.hpt.ingress.length + 2) else d
  ((d.hpt.ports.map (·.1)).foldl Dev.letOut (d.sendEoes d.twn.eoeDue)).settleSeals.settleDestroys.settleSwap

/-! ### Durability (R57, R128, R134, R218, R233) -/

/-- A journal entry of the write waits for its twin copy or is not yet held (R286). -/
def Op.needsTwin (o : Op) : Bool := o.mirrored && !o.conf

/-- In write-through every page of the write must be imaged (R218). -/
def Dev.imagedNow (d : Dev) (o : Op) : Bool :=
  !d.on DUR_BUDGET_STAT.WT || o.toImage.isEmpty

/-- The write may become durable: applied or posted whole, the twin's meadow holds it where it must, and write-through's
image too. A write answered in doubt waits for CONF alone (R134). -/
def Dev.canDurable (d : Dev) (o : Op) : Bool :=
  (o.phase == .applied || o.phase == .posted) && o.whole &&
  (!o.needsTwin || (d.twn.soleMeadow && !o.inDoubt)) && d.imagedNow o

/-- An answer given after D to a write that awaited only the twin is counted (R134). -/
def Dev.countLate (d : Dev) (o : Op) : Dev :=
  if o.late ∧ o.hosted then (d.finc HPT_DL_CNT.LATE_APPLIED 1).count 0x206 (d.conn o.conn).lantern 1 else d

/-- A write becomes durable: visible, answered `OK`, its immediate posted, DUR sent to the replica; its journal lines go
(R118, R128, R198, R233). -/
def Dev.makeDurable (d : Dev) (o : Op) : Dev :=
  let e := d.epochOf o.stamp
  let d := d.setOp o.id (fun x => { x with lines := [], journal := [] })
  let d := if o.mirrored then
      let d := { d with twn := { d.twn with msgs := d.twn.msgs.filter (fun m => m.msgid != o.msgid) } }
      ({ d with dur := { d.dur with lastMir := max d.dur.lastMir e } }).twinSend twDur o.msgid [d.now]
    else { d with dur := { d.dur with lastEp := max d.dur.lastEp e } }
  let d := if o.inDoubt then d else d.countLate o
  let d := if o.fwd then d
    else if o.cmd.isSome then d.sendPosted o
    else (({ d with hpt := { d.hpt with ops := coverBy o.conn o.id e d.hpt.ops } }.setConn o.conn (fun c => { c with maxWrEpoch := some (max e (c.maxWrEpoch.getD 0)) })).countDone o).sendPosted o
  let d := match o.imm with
    | some i => d.notifyImm (d.qpn o.conn) i.toNat o.rid e
    | none => d
  if o.inDoubt then d.retire o
  else d.answer { o with lines := [], journal := [] }
    { epoch := some e, orig := if o.kind = .cmpSwap ∨ o.kind = .fetchAdd then some o.orig else none }

end Sys2Proof.Machine
end

