-- ==== Sys2Proof/Machine/HeathOps.lean ====
section
/-! DEFINITION. Heath dies: what may be programmed when (R343, R345, R353), and the programs that migrations wait for. -/

namespace Sys2Proof.Machine

/-- A die by key, channel * 16 + die. -/
def Dev.die (d : Dev) (k : Nat) : Die := lookD d.hth.dies k {}

/-- The device with a die changed. -/
def Dev.setDie (d : Dev) (k : Nat) (f : Die → Die) : Dev := { d with hth := { d.hth with dies := change d.hth.dies k {} f } }

/-- What a program serves: a migration, the image, a save, filler, a seal record, a refresh. -/
def whyMig : Nat := 0
def whyRefresh : Nat := 5

def whyImage : Nat := 1
def whySave : Nat := 2
def whyFill : Nat := 3
def whySeal : Nat := 4

/-- Array operations: pSLC program, native program, erase, read. -/
def opPslc : Nat := 0
def opNative : Nat := 1
def opErase : Nat := 2
def opRead : Nat := 3

/-- Dies of a channel busy with a program or erase that no save asked for (R345). -/
def Dev.progBusy (d : Dev) (ch : Nat) : Nat :=
  ((d.diesOn ch).filter (fun y => y.busy.any (fun b => b.1 != opRead) && y.why != whySave)).length

/-- Module of a heath channel. -/
def moduleOf (ch : Nat) : Nat := ch / 8

/-- A program or erase for anything but a save may be issued to a die: no read queued, the die idle and in service, the
channel below `PROG_MAX`, the module in its normal window and powered (R345, R353). -/
def Dev.canProgram (d : Dev) (k : Nat) : Bool :=
  (d.die k).busy.isNone && (d.die k).reads.isEmpty && d.f (HTH_DIE.STATE (k / 16) (k % 16)) == 1
    && decide (d.progBusy (k / 16) < d.f (HTH_SCHED.PROG_MAX (k / 16)))
    && d.modWindow (moduleOf (k / 16)) == 0 && !d.asleep (heathUnit (k / 16)) && !d.dur.saving && !d.cph.alarmed

/-- Reads are queued on a die of the channel (R177). -/
def Dev.readsQueued (d : Dev) (ch : Nat) : Bool := (d.diesOn ch).any (fun y => !y.reads.isEmpty)

/-- A kind of paced work may use a channel: while host reads are queued there, its share must not be 0 (R177, R185). -/
def Dev.mayPace (d : Dev) (kind : MigKind) (ch : Nat) : Bool := decide (0 < d.pacedShare kind) || !d.readsQueued ch

/-- The program of a migration's destination is issued to its die, when it may be. -/
def Dev.issueProgram (d : Dev) (idx : Nat) : Dev :=
  match d.migOf idx with
  | none => d
  | some m =>
    let k := lookD d.hth.map m.dstLoc 0
    if m.step = .making ∧ m.dstTier ≠ .meadow ∧ m.prog = 0 ∧ d.canProgram k ∧ d.mayPace m.kind (k / 16) then
      ((d.setDie k (fun y => { y with
        busy := some (if m.dstTier = .deep then opNative else opPslc, d.clk), why := whyMig, ref := idx })).setMig idx
        (fun m => { m with prog := 1 })).count 0x501 (k / 16) 1
    else d

/-- The location is the home of a deep-heath plot. -/
def Dev.deepLoc (d : Dev) (loc : Nat) : Bool := d.tier.home.any (fun e => e.2.tier == .deep && e.2.loc == loc)

/-- The program that moves a plot of a block to be refreshed is issued to its die, paced as promotions and demotions are; the heath
map keeps naming the die (R339, R349). -/
def Dev.issueRefresh (d : Dev) (loc : Nat) : Dev :=
  let k := lookD d.hth.map loc 0
  if d.canProgram k ∧ d.mayPace .demotion (k / 16) then
    (d.setDie k (fun y => { y with busy := some (if d.deepLoc loc then opNative else opPslc, d.clk), why := whyRefresh, ref := loc })).count
      0x501 (k / 16) 1
  else d

/-- Programs that wait are issued in the order of their migrations, those of the higher priority first, then the moves of blocks to
be refreshed (R176, R349). -/
def Dev.pumpDies (d : Dev) : Dev :=
  let byPrio := fun p => (d.tier.migs.filter (fun m => m.kind.prio == p)).map (·.idx)
  let d := (byPrio 1 ++ byPrio 2 ++ byPrio 3 ++ byPrio 4).foldl Dev.issueProgram d
  d.hth.refresh.foldl Dev.issueRefresh d

/-- A block that corrected more than `REFRESH_TH` bits in one codeword is to be refreshed: the plot read stands for it (R349, log
entry 91). -/
def Dev.wantRefresh (d : Dev) (loc bits : Nat) : Dev :=
  let ch := lookD d.hth.map loc 0 / 16
  if d.f (HTH_SCHED.REFRESH_TH ch) < bits then { d with hth := { d.hth with refresh := ins d.hth.refresh loc } } else d

/-- The destination of a migration in heath is closed: its program has passed and, in a native block, the group after it has
(R343). -/
def Dev.heathClosed (d : Dev) (m : Migration) : Bool :=
  m.prog == 2 && !(d.die (lookD d.hth.map m.dstLoc 0)).openIdx.contains m.idx

end Sys2Proof.Machine
end

