-- ==== Sys2Proof/Machine/DurOps.lean ====
section
/-! DEFINITION. Imaging, seal records, completion reports and the sealed horizon (R62 to R66, R190 to R195, R202, R206,
R291), and the closing of an epoch. -/

namespace Sys2Proof.Machine

/-! ### The save area (R191 to R195) -/

/-- Slot of the save-image key (R361). -/
def slotSave : Nat := 0xFFF

/-- Words of the save-image key. -/
def Dev.saveKey (d : Dev) : List (BitVec 64) := ((look d.cph.slots slotSave).map (·.key)).getD []

/-- CRC-32C after one more byte, bits reflected (R192). -/
def crcByte (c : Nat) (b : Byte) : Nat :=
  (List.range 8).foldl (fun c _ => if c % 2 = 1 then Nat.xor (c / 2) 0x82F63B78 else c / 2) (Nat.xor c b.toNat)

/-- CRC-32C of bytes (R192). -/
def crc32c (bs : List Byte) : Nat := Nat.xor (bs.foldl crcByte 0xFFFFFFFF) 0xFFFFFFFF

/-- Meadow without what open messages have applied: previous contents at the bytes of their journals (R198, R199). -/
def Dev.settledMeadow (d : Dev) : List Host.Cell :=
  let back (m : List Host.Cell) (j : List (Nat × Byte)) : List Host.Cell := j.foldl (fun m c => memPut m c.1 c.2) m
  let m := ((d.hpt.ops.filter (fun o => !o.whole)).reverse.map (·.journal)).foldl back d.mem.meadow
  ((d.twn.reps.filter (fun r => r.stamp.isNone)).reverse.map (·.journal)).foldl back m

/-- Plaintext of a page version: as of the close of its epoch where that has passed, and without what open messages have applied
(R191, R198). -/
def Dev.versionBytes (d : Dev) (page epoch : Nat) : List Byte :=
  let m := match d.dur.snaps.find? (fun s => s.epoch == epoch) with
    | some s => s.meadow
    | none => d.settledMeadow
  memRead m (page * 4096) 4096

/-- An image is no longer needed: a later image of its page is at or below the horizon, or it has been written again (R195). -/
def superseded (l : List ImageRec) (horizon : Nat) (x : ImageRec) : Bool :=
  l.any (fun y => y.page == x.page &&
    ((decide (x.epoch < y.epoch) && decide (y.epoch ≤ horizon)) || (x.epoch == y.epoch && decide (x.seq < y.seq))))

/-- Two images lie in one save-area block. -/
def ImageRec.sameBlock (x y : ImageRec) : Bool := x.mod == y.mod && x.blk == y.blk

/-- Images of the blocks that are not reclaimable: a block is held whole by any image in it that is still needed (R195). -/
def heldImages (l : List ImageRec) (horizon : Nat) : List ImageRec :=
  l.filter (fun x => l.any (fun y => y.sameBlock x && !superseded l horizon y))

/-- Reclaimable blocks are erased; free space and the pages retained follow from the images held (R195, R531). -/
def Dev.countImages (d : Dev) : Dev :=
  let h := d.f DUR_HORIZON.HORIZON
  let kept := heldImages d.dur.images h
  let d := { d with dur := { d.dur with
    images := kept, sums := d.dur.sums.filter (fun s => kept.any (fun x => x.mod == s.mod && x.blk == s.blk))
    fSave := d.f DUR_SAVE_AREA.SIZE - kept.length } }
  (d.fset DUR_SAVE_AREA.RETAINED ((kept.filter (fun x => !superseded kept h x && decide (h < x.epoch))).length)).rebudget

/-- Source DRAM channel set of a meadow page; the areas of the system stripe count as set 24 (R191). -/
def Dev.pageSet (d : Dev) (page : Nat) : Nat :=
  match d.locate (page * 4096) with
  | some c => d.f (MDW_CFG.SET c.1)
  | none => 24

/-- A page lies on a frozen channel. -/
def Dev.pageFrozen (d : Dev) (page : Nat) : Bool := d.lineFrozen (page * 4096)

/-- Version `a` is imaged before `b`: epoch order, then the order of the source channel sets; in a save the pages of frozen
channels come last (R191, R212). -/
def Dev.imageBefore (d : Dev) (a b : Version) : Bool :=
  let key (v : Version) : Nat := if d.dur.saving ∧ d.pageFrozen v.page then 1 else 0
  decide (key a < key b) || (key a == key b && (decide (a.epoch < b.epoch)
    || (a.epoch == b.epoch && decide (d.pageSet a.page < d.pageSet b.page))))

/-- A version in its place among versions in the image writer's order. -/
def Dev.insertVersion (d : Dev) (v : Version) : List Version → List Version
  | [] => [v]
  | w :: r => if d.imageBefore v w then v :: w :: r else w :: d.insertVersion v r

/-- Versions in the image writer's order (R191). -/
def Dev.imageOrder (d : Dev) (l : List Version) : List Version := l.foldl (fun a v => d.insertVersion v a) []

/-- Versions the image writer may image now: of closed epochs, and in write-through those of the open epoch behind them
(R191). -/
def Dev.imageable (d : Dev) : List Version :=
  d.imageOrder (if d.on DUR_BUDGET_STAT.WT then d.dur.dirty
    else d.dur.dirty.filter (fun v => !d.dur.isOpen || decide (v.epoch < d.dur.openEp)))

/-- The image writer may use a module: in save duty, and inside the normal window but for a save (R181, R196); after an
alarm nothing is imaged (R373). -/
def Dev.writesImages (d : Dev) (mod : Nat) : Bool :=
  !d.cph.alarmed && d.f (DUR_MOD.DUTY mod) != 0 && decide (d.modWindow mod ≤ if d.dur.saving then 1 else 0)

/-- Modules the image writer may use. -/
def Dev.imageMods (d : Dev) : List Nat := (List.range 20).filter d.writesImages

/-- Tier lantern that programs a module, as a number from 0: five modules each (R17, R448). -/
def modLane (mod : Nat) : Nat := mod / 5

/-- Tier lantern that images a page: the sets are dealt to the four tier lanterns in turn; where none of the lantern's modules
takes images, its work goes to the others (R17, R196, log entry 82). -/
def Dev.imagesPage (d : Dev) (mod page : Nat) : Bool :=
  let l := d.pageSet page % 4
  l == modLane mod || !d.imageMods.any (fun m => modLane m == l)

/-- Versions that a module's lantern may image now: its own, up to the first epoch of which another lantern holds a version yet
(R17, R191). -/
def Dev.imageableOn (d : Dev) (mod : Nat) : List Version :=
  let l := d.imageable
  let other := (l.filter (fun v => !d.imagesPage mod v.page)).map (·.epoch)
  l.filter (fun v => d.imagesPage mod v.page && other.all (fun k => decide (v.epoch ≤ k)))

/-- The image of a page version: encrypted with AES-256-XTS, its save-area location the tweak, described by epoch, CRC-32C of its
plaintext and sequence number (R192, R196). -/
def Dev.imageOf (d : Dev) (page epoch mod blk : Nat) (window : Bool) : ImageRec :=
  let bs := d.versionBytes page epoch
  let loc := leBytes 2 mod ++ leBytes 6 blk ++ leBytes 8 d.dur.imgSeq
  { page := page, epoch := epoch, window := window, mod := mod, blk := blk, seq := d.dur.imgSeq, crc := crc32c bs,
    data := Config.cipher 1 false d.saveKey bs loc }

/-- An image joins the log. -/
def Dev.addImage (d : Dev) (x : ImageRec) : Dev :=
  { d with dur := { d.dur with images := d.dur.images ++ [x], imgSeq := d.dur.imgSeq + 1 } }

/-- A version becomes imaged; journal lines that no version needs any more are released, and writes of its epoch or earlier wait
for that page no longer (R191, R193, R218). -/
def Dev.imaged (d : Dev) (window : Bool) (mod blk : Nat) (v : Version) : Dev :=
  let d := d.addImage (d.imageOf v.page v.epoch mod blk window)
  let dirty := d.dur.dirty.filter (fun x => x != v)
  let needed (j : Nat × Nat) : Bool := dirty.any (fun x => x.page == j.1 / 64 && decide (x.epoch ≤ j.2))
  let done (o : Op) : Op :=
    if o.epoch ≤ v.epoch ∧ (o.phase = .applied ∨ o.phase = .posted) then { o with toImage := rem o.toImage v.page } else o
  { d with
    dur := { d.dur with dirty := dirty, jlines := d.dur.jlines.filter needed }
    hpt := { d.hpt with ops := d.hpt.ops.map done } }

/-- Images that may be written again from meadow into another block: those of pages not changed since, on a module that drains
first, then in the order of the log (R195, R356). -/
def Dev.rewritable (d : Dev) (mod blk : Nat) : List ImageRec :=
  let newest (x : ImageRec) : Bool :=
    !d.dur.images.any (fun y => y.page == x.page && (decide (x.epoch < y.epoch) || (x.epoch == y.epoch && decide (x.seq < y.seq))))
  let l := d.dur.images.filter (fun x => newest x && !d.dur.dirty.any (fun v => v.page == x.page) && !(x.mod == mod && x.blk == blk))
  let leaves (x : ImageRec) : Bool := d.f (HTH_MOD_STAT.STATE x.mod) == modDraining
  l.filter leaves ++ l.filter (fun x => !leaves x)

/-- A wordline group of `n` images is closed with its summary: versions that wait, and where fewer wait, images written again
(R192, R193, R195). -/
def Dev.closeGroup (d : Dev) (n mod blk : Nat) : Dev :=
  let w := d.modWindow mod != 0
  let first := d.dur.imgSeq
  let vs := (d.imageableOn mod).take n
  let d := vs.foldl (fun d v => d.imaged w mod blk v) d
  let again := if d.dur.saving then [] else (d.rewritable mod blk).take (n - vs.length)
  let d := again.foldl (fun d x => d.addImage (d.imageOf x.page x.epoch mod blk w)) d
  let group := d.dur.images.filter (fun x => decide (first ≤ x.seq))
  let text := group.flatMap (fun x => leBytes 8 x.page ++ leBytes 6 x.epoch ++ leBytes 4 x.crc ++ leBytes 8 x.seq ++ leBytes 1 (bit x.window))
  let s : SumRec := { mod := mod, blk := blk, seqs := group.map (·.seq), mac := Config.cipher 4 false d.saveKey text [] }
  if group.isEmpty then d else { d with dur := { d.dur with sums := d.dur.sums ++ [s] } }

/-- A module leaves save duty; the plots of one that drains begin to move (R181, R356). -/
def Dev.leaveDuty (d : Dev) (m : Nat) : Dev :=
  let d := d.fset (DUR_MOD.DUTY m) 0
  if d.f (HTH_MOD_STAT.STATE m) = modDraining then (d.plotsOnModule m).foldl Dev.evacuate d else d

/-- D has come down to B: `OVER` clears, and modules that wait for it leave save duty (R181, R183). -/
def Dev.settleOver (d : Dev) : Dev :=
  if d.dur.budget < d.dirtyPages then d
  else
    let d := if d.on DUR_BUDGET_STAT.OVER ∧ ¬ d.on DUR_BUDGET_STAT.WT then d.fset DUR_BUDGET_STAT.OVER 0 else d
    (List.range 20).foldl (fun (d : Dev) m => if d.f (DUR_MOD.DUTY m) = 2 then d.leaveDuty m else d) d

/-- SEAL_NOW commands whose versions are all imaged complete with the newest epoch complete on the device (R207). -/
def Dev.settleSealNow (d : Dev) : Dev :=
  let done (x : Nat × Nat) : Bool :=
    !d.dur.dirty.any (fun v => decide (v.epoch ≤ d.epochOf x.2)) && (decide (d.epochOf x.2 < d.dur.openEp) || d.dirtyPages == 0)
  let fin := d.dur.sealNow.filter done
  let d := { d with dur := { d.dur with sealNow := d.dur.sealNow.filter (fun x => !done x) } }
  fin.foldl (fun d x => match d.cmd x.1 with
    | none => d
    | some c => d.complete c csDone 0 (d.f DUR_EPOCH_STAT.LOCAL)) d

/-! ### Reports and the horizon (R51, R64 to R66, R291) -/

/-- The device is in no fabric and has no twin (R51). -/
def Dev.alone (d : Dev) : Bool := !d.on FAB_CFG.ENABLE && !d.on TWN_CFG.ENABLE

/-- Completion is reported as valid: the values of the fabric agree, and the epoch's interval lies after the lock, in Locked
or Holdover (Table 6.3, R202, R206). -/
def Dev.reportValid (d : Dev) : Bool :=
  !d.dur.mismatch && (d.f DUR_TIME_STAT.STATE == timeLocked || d.f DUR_TIME_STAT.STATE == timeHoldover)
    && decide (d.tim.lockAt ≤ (d.f DUR_EPOCH_STAT.LOCAL - d.epochLen) * 1000000)

/-- This device's completion report (R291). -/
def Dev.ownReport (d : Dev) : EpochReport :=
  { epoch := d.f DUR_EPOCH_STAT.LOCAL, valid := d.reportValid, lms := d.f DUR_EPOCH_CFG.L_MS, policy := d.on DUR_EPOCH_CFG.POLICY,
    spanBase := d.f FAB_CFG.SPAN_BASE, short := d.dur.short }

/-- The words of a report. -/
def reportWords (r : EpochReport) : List Nat := [r.epoch, bit r.valid, r.lms, bit r.policy, r.spanBase, bit r.short]

/-- The horizon rises: what only lower epochs needed is released (R50, R64, R66, R195, Table 8.5). The states of lower epochs
stay known to the model, because a chain of seal records that is broken below the horizon leads back to them (R73, R215, log
entry 83). -/
def Dev.raiseHorizon (d : Dev) (h : Nat) : Dev :=
  if h ≤ d.f DUR_HORIZON.HORIZON then d
  else
    let d := d.fset DUR_HORIZON.HORIZON h
    let sealedBy (f : Fj) : Bool := if f.origin = d.selfId then f.state == FjState.applied && decide (f.homeEpoch ≤ h)
      else decide (d.epochOf (f.stamp + d.f FAB_FWD_CTL.FJ_LIMIT_MS * 1000000) ≤ h)
    let d := { d with
      fab := { d.fab with fj := d.fab.fj.filter (fun (f : Fj) => !sealedBy f) }
      dur := { d.dur with destroyed := d.dur.destroyed.filter (fun x => h < x.2) } }
    d.countImages

/-- A member's report as the steward keeps it: an epoch is taken from a valid report alone (R206, R291). -/
def Member.take (m : Member) (r : EpochReport) : Member :=
  { m with epoch := if r.valid then some r.epoch else m.epoch, lms := r.lms, policy := r.policy, spanBase := r.spanBase,
           short := r.short }

/-- A report of member `id` is taken. -/
def Dev.takeReport (d : Dev) (id : Nat) (r : EpochReport) : Dev :=
  { d with fab := { d.fab with members := d.fab.members.map (fun m => if m.id = id then m.take r else m) } }

/-- The lowest epoch reported over the member set; none while a member has reported none (R291, R292). -/
def lowestEpoch (l : List Member) : Option Nat :=
  l.foldl (fun a m => match a, m.epoch with | some x, some y => some (min x y) | _, _ => none)
    ((l.head?).bind (fun m => m.epoch))

/-- A message to every other member. -/
def Dev.toMembers (d : Dev) (mtype : Nat) (args : List Nat) : Dev :=
  ((d.fab.members.map (·.id)).filter (fun i => i != d.selfId)).foldl (fun d i => d.fabSend i mtype args) d

/-- A steward's horizon rises and is sent to the members (R291). -/
def Dev.stewardHorizon (d : Dev) : Dev :=
  if ¬ d.isSteward then d
  else match lowestEpoch d.fab.members with
  | none => d
  | some h => if h ≤ d.f DUR_HORIZON.HORIZON then d else (d.raiseHorizon h).toMembers horizonMsg [h]

/-- The horizon as the device can now judge it: alone its own highest sealed epoch (R51); in a twin pair without fabric the
lower of both reports, or its own alone when the peer has left the set (R65, R291). -/
def Dev.settleHorizon (d : Dev) : Dev :=
  let own := d.f DUR_EPOCH_STAT.LOCAL
  if d.alone then d.raiseHorizon own
  else if d.on FAB_CFG.ENABLE then d.stewardHorizon
  else if ¬ d.reportValid then d
  else if d.twn.declared ∨ d.twn.soleMeadow then d.raiseHorizon own
  else match d.twn.peerRep with
  | some r => d.raiseHorizon (min own r.epoch)
  | none => d

/-- A report goes to the steward, or to the twin of a pair without fabric (R291). -/
def Dev.sendReport (d : Dev) (r : EpochReport) : Dev :=
  if d.alone then d
  else if d.on FAB_CFG.ENABLE then
    if d.isSteward then d.takeReport d.selfId r else d.fabSend (d.f FAB_ID.STEWARD) epochRep (reportWords r)
  else d.twinSend twSealrep 0 (reportWords r)

/-- The completion report of the newest epoch complete on the device (R291). -/
def Dev.report (d : Dev) : Dev := d.sendReport d.ownReport

/-- The report of a restart: its restore epoch, which was sealed before it, is valid in every time state (R293). -/
def Dev.reportRestore (d : Dev) : Dev :=
  let r := d.ownReport
  d.sendReport { r with valid := !d.dur.mismatch }

/-! ### Completion of an epoch (R62, R194) -/

/-- EOE of the epoch is awaited from the peer (R62, R237, R249). -/
def Dev.awaitsEoe (d : Dev) (k : Nat) : Bool :=
  d.on TWN_CFG.ENABLE && !d.twn.soleMeadow && !d.twn.declared && !d.twn.returning && !d.dur.saving
    && d.rgn.any (fun r => r.2.mirrored && !d.primaryHere r.1 r.2) && !d.dur.eoe.contains k

/-- The critical event that names lost epochs, from `a` to `b`: ARG holds the first, DETAIL both (R73, R215, log entry 84). -/
def Dev.nameLost (d : Dev) (a b : Nat) : Dev :=
  d.raise (source 11 2) 5 0 0xFFFF a
    [BitVec.ofNat 32 a, BitVec.ofNat 32 (a / 2 ^ 32), BitVec.ofNat 32 b, BitVec.ofNat 32 (b / 2 ^ 32)]

/-- A horizon or a peer's report lies above the restore epoch of a start: the epochs lost are named, and the restore was short
(R73, R215). -/
def Dev.judgeHorizon (d : Dev) (epoch : Nat) : Dev :=
  let e := d.f DUR_RESTORE_STAT.EPOCH
  if d.core.transport ∨ ¬ d.core.phaseADone ∨ epoch ≤ e ∨ d.dur.cut.isSome ∨ d.dur.lost.any (fun x => epoch ≤ x) then d
  else ({ d with dur := { d.dur with short := true, lost := some epoch } }).nameLost (e + 1) epoch

/-- A write of epoch `k` or earlier is neither imaged nor refused, or waits to be admitted (R62). -/
def Dev.epochHeld (d : Dev) (k : Nat) : Bool :=
  d.dur.dirty.any (fun v => decide (v.epoch ≤ k)) || d.ingressIn k
    || d.hpt.ops.any (fun o => o.kind.writes && o.whole && decide (o.epoch ≤ k) && o.phase != .applied && o.phase != .posted)
    || d.twn.reps.any (fun r => !r.acc && r.stamp.any (fun s => decide (d.epochOf s ≤ k)))

/-- The seal record of an epoch: its closing instant, the count of its images, and a CMAC that chains to the record before it
(R194). -/
def Dev.sealRec (d : Dev) (k : Nat) (mods : List Nat) : SealRec :=
  let at_ := if d.dur.saving ∧ k = d.dur.openEp then d.dur.saveE else k * 1000000
  let n := (d.dur.images.filter (fun x => x.epoch == k)).length
  let prev := ((d.dur.seals.head?).map (·.mac)).getD []
  { epoch := k, at_ := at_, count := n, mods := mods,
    mac := Config.cipher 4 false d.saveKey (prev ++ leBytes 6 k ++ leBytes 8 at_ ++ leBytes 4 n) [] }

/-- The seal record of an epoch is written on two modules (R194). -/
def Dev.writeSeal (d : Dev) (k : Nat) (mods : List Nat) : Dev :=
  { d with dur := { d.dur with seals := d.sealRec k mods :: d.dur.seals } }

/-- An epoch is complete on the device: it is sealed, reported, and may raise the horizon (R62, R194). -/
def Dev.completeEpoch (d : Dev) (k : Nat) : Dev :=
  let d := { d with
    dur := { d.dur with
      closed := d.dur.closed.filter (fun x => x != k), sealed := k :: d.dur.sealed, eoe := d.dur.eoe.filter (fun x => k < x) }
    tim := { d.tim with pend := k * 1000000 } }
  ((((d.fset DUR_EPOCH_STAT.LOCAL k).report).settleHorizon).countImages).settleSealNow

/-- A closed epoch is sealed on the first two modules that take images (R194). -/
def Dev.sealEpoch (d : Dev) (k : Nat) : Dev := (d.writeSeal k (d.imageMods.take 2)).completeEpoch k

/-! ### Closing an epoch (R198, R205) -/

/-- What the save area will hold of the epoch that closes now. -/
def Dev.snapNow (d : Dev) (k : Nat) : EpochSnap :=
  { epoch := k, home := d.tier.home, rgn := d.rgn, meadow := d.settledMeadow, heath := d.mem.heath, fj := d.fab.fj,
    applied := d.fab.applied }

/-- The open epoch closes; EOE follows to the twin (R205, R237). -/
def Dev.shutEpoch (d : Dev) : Dev :=
  let k := d.dur.openEp
  let d := { d with dur := { d.dur with
    isOpen := false, closed := d.dur.closed ++ [k], snaps := d.dur.snaps ++ [d.snapNow k] } }
  if d.on TWN_CFG.ENABLE ∧ ¬ d.twn.soleMeadow ∧ ¬ d.twn.declared then
    { d with twn := { d.twn with eoeDue := d.twn.eoeDue ++ [k] } }
  else d

/-- The epoch that device time lies in opens (R60, R204, R205). -/
def Dev.openEpoch (d : Dev) : Dev :=
  { d with dur := { d.dur with openEp := d.epochOf d.now, isOpen := true } }

end Sys2Proof.Machine
end

