-- ==== Sys2Proof/Machine/RgnOps.lean ====
section
/-! DEFINITION. Regions as they are made, changed, grown and destroyed (R35 to R50, R278 to R280, R529, R535): runs of
home-table entries, capacity, the agreement of the pair and of the fabric. -/

namespace Sys2Proof.Machine

/-! ### Functions of a region change (R392, `RegionMsg.func`) -/

def fnCreate : Nat := 0
def fnModify : Nat := 1
def fnSeal : Nat := 2
def fnKey : Nat := 3
def fnGrow : Nat := 4
def fnDestroy : Nat := 5
def fnHold : Nat := 6
def fnUnhold : Nat := 7

/-! ### Runs of home-table entries (R43, R44) -/

/-- Runs in use: base and plots. -/
def Dev.runs (d : Dev) : List (Nat × Nat) :=
  (d.rgn.filter (fun r => r.2.run != 0)).map (fun r => (r.2.base, r.2.run))
    ++ d.tier.grow.map (fun g => (g.newBase, g.newSize))

/-- Entries `b` to `b + n - 1` lie in none of the runs. -/
def clearOf (l : List (Nat × Nat)) (b n : Nat) : Bool := !l.any (fun x => decide (b < x.1 + x.2) && decide (x.1 < b + n))

/-- The lowest base of a free run of `n` entries: the table's start or the end of a run. -/
def Dev.freeRun (d : Dev) (n : Nat) : Nat :=
  let l := d.runs
  let ends := l.map (fun x => x.1 + x.2)
  ((0 :: ends).filter (fun b => clearOf l b n)).foldl min (ends.foldl max 0)

/-! ### Portions of a spanned region (R279) -/

/-- Plots of stripe entry `k` of `n`, with grain `g`, of a region of `size` plots. -/
def spanShare (n g size k : Nat) : Nat :=
  let q := ceilDiv size (2 ^ g)
  if k < q then ((q - 1 - k) / n + 1) * 2 ^ g else 0

/-- The stripe entry names this device, or this device as a member's twin. -/
def Dev.inStripe (d : Dev) (s : Nat × Option Nat) : Bool := s.1 == d.selfId || s.2 == some d.selfId

/-- Plots of the region that this device homes. -/
def Dev.localRun (d : Dev) (m : RegionMsg) : Nat :=
  if m.stripes.isEmpty then m.size
  else ((List.range m.stripes.length).map (fun k =>
    if d.inStripe (m.stripes.getD k (0, none)) then spanShare m.stripes.length m.grain m.size k else 0)).foldl (· + ·) 0

/-! ### Capacity (R38) -/

/-- Plots of the pin-meadow regions homed here. -/
def Dev.pinSum (d : Dev) : Nat := d.regionSum (fun r => r.policy == .pinMeadow)

/-- `n` further plots keep within both capacities, `p` of them pin-meadow (R38). -/
def Dev.roomFor (d : Dev) (n p : Nat) : Bool :=
  decide (d.regionSum (fun _ => true) + n ≤ d.f GLB_CAP.REGION_PLOTS) && decide (d.pinSum + p ≤ d.f GLB_CAP.MDW_PLOTS)

/-- Plots of a change that count as pin-meadow. -/
def pinnedOf (m : RegionMsg) (n : Nat) : Nat := if m.policy = .pinMeadow then n else 0

/-! ### A region from what a change carries -/

/-- The key entry a change carries (R40, R41). -/
def keyOf (m : RegionMsg) : KeyEntry :=
  { enabled := m.ken, ktag := m.ktag, perm := m.perm, winFirst := m.winFirst, winCount := m.winCount }

/-- The region a creation makes. -/
def Region.ofMsg (m : RegionMsg) (st : RegionState) (base run : Nat) : Region :=
  { state := st, size := m.size, policy := m.policy, cls := m.cls, dlUs := m.dlUs, mirror := m.mirror,
    spanned := !m.stripes.isEmpty, ownSlot := m.ownSlot, keys := if m.ken then [(m.kidx, keyOf m)] else [], base := base,
    stripes := m.stripes.map (fun s => { member := s.1, twin := s.2, cur := false }), grain := m.grain, run := run }

/-- A disabled entry keeps its tag, so that the next draw differs from it (R40). -/
def Region.setKey (r : Region) (m : RegionMsg) : Region :=
  { r with keys := change r.keys m.kidx {} (fun e => if m.ken then keyOf m else { e with enabled := false }) }

/-- A region of which only the ID is held (R35, R535). -/
def heldRegion : Region := { state := .online, remoteHeld := true }

/-- The run of a region being created is reserved; the region reads Creating (R38, R47). -/
def Dev.reserveRegion (d : Dev) (m : RegionMsg) : Dev :=
  let n := d.localRun m
  d.setRegion m.region (Region.ofMsg m .creating (d.freeRun n) n)

/-- Home-table lines of a region's plots are marked, so that the next sweep decides on them (R159, R161). -/
def Dev.markRun (d : Dev) (r : Region) : Dev :=
  let lines := ((d.tier.home.filter (fun e => decide (r.base ≤ e.1) && decide (e.1 < r.base + r.run))).map (fun e => e.1 / 8))
  { d with tier := { d.tier with marked := lines.foldl ins d.tier.marked } }

/-! ### Growth (R44) -/

/-- Migrations of a region's plots are cancelled, and those that wait are dropped. -/
def Dev.cancelRegion (d : Dev) (r : Region) : Dev :=
  let here (i : Nat) : Bool := decide (r.base ≤ i) && decide (i < r.base + r.run)
  let d := ((d.tier.migs.filter (fun m => here m.idx)).map (·.idx)).foldl Dev.cancelMig d
  { d with tier := { d.tier with waitDst := d.tier.waitDst.filter (fun w => !here w.1) } }

/-- A growth extends the run in place, or begins the move onto a new one; whether it is done. -/
def Dev.grow (d : Dev) (rid : Nat) (r : Region) (size run : Nat) (cmd : Option Nat) : Dev × Bool :=
  let others := (d.runs).filter (fun x => x.1 != r.base || x.2 != r.run)
  if clearOf others r.base run then (d.setRegion rid { r with size := size, run := run, reserve := 0 }, true)
  else
    let b := d.freeRun run
    let g : GrowMove := { region := rid, newBase := b, newSize := run, size := size, cmdId := cmd }
    ({ d.cancelRegion r with tier := { (d.cancelRegion r).tier with grow := d.tier.grow ++ [g] } }, false)

/-- One entry moved to the new run. -/
def Dev.moveEntry (d : Dev) (old new : Nat) (e : Nat × HomeEntry) : Dev :=
  let i := new + (e.1 - old)
  let blank : HomeEntry := { gen := e.2.gen }
  ((d.setEntry i e.2).setEntry e.1 blank).broadcast e.1

/-- The copy of a home-run move is complete: the region takes the new base, the old run is released, its plots are not raised
again until the next sweep (R44, steps 4 and 5). -/
def Dev.endGrow (d : Dev) (g : GrowMove) (r : Region) : Dev :=
  let es := d.tier.home.filter (fun e => decide (r.base ≤ e.1) && decide (e.1 < r.base + r.run))
  let d := (es.foldl (fun d e => d.moveEntry r.base g.newBase e) d).broadcastRun r.base r.run
  let moved (i : Nat) : Nat := if r.base ≤ i ∧ i < r.base + r.run then g.newBase + (i - r.base) else i
  let now := es.map (fun e => moved e.1)
  let again (c : Nat × Nat) : Nat × Nat := (moved c.1, c.2)
  let tier : TierSt := d.tier
  let d := { d with tier := { tier with
    grow := tier.grow.filter (fun x => x.region != g.region)
    barred := now.foldl ins tier.barred
    marked := (now.map (fun i => i / 8)).foldl ins tier.marked
    candle := tier.candle.map again
    lastWr := tier.lastWr.map again } }
  d.setRegion g.region { r with base := g.newBase, run := g.newSize, size := g.size, reserve := 0 }

/-! ### Changes taking effect (R48 to R50) -/

/-- A region is destroyed: its keys are void, it reads Destroying, and its ID waits for the fabric seal of its epoch (R40, R50). -/
def Dev.destroy (d : Dev) (rid : Nat) (r : Region) : Dev :=
  let off (k : Nat × KeyEntry) : Nat × KeyEntry := (k.1, { k.2 with enabled := false })
  let d := d.setRegion rid { r with state := .destroying, keys := r.keys.map off }
  let d := { d with tier := { d.tier with grow := d.tier.grow.filter (fun (g : GrowMove) => g.region != rid) } }
  { d with dur := { d.dur with destroyed := d.dur.destroyed ++ [(rid, d.epochOf d.now)] } }

/-- A policy forbids a kind of move: pin-meadow every demotion, pin-heath every promotion (R161). -/
def policyForbids (p : Policy) (k : MigKind) : Bool :=
  match p with | .auto => false | .pinMeadow => k == .demotion | .pinHeath => k == .promotion

/-- Moves of a region that its policy forbids are cancelled, those that wait are dropped (R48, Table 5.6). -/
def Dev.stopForbidden (d : Dev) (r : Region) : Dev :=
  let here (i : Nat) : Bool := decide (r.base ≤ i) && decide (i < r.base + r.run)
  let d := ((d.tier.migs.filter (fun m => here m.idx && policyForbids r.policy m.kind)).map (·.idx)).foldl Dev.cancelMig d
  { d with tier := { d.tier with waitDst := d.tier.waitDst.filter (fun w => !(here w.1 && policyForbids r.policy w.2.1)) } }

/-- A modification takes effect: a change to pin-meadow marks the region's lines, so that the sweep finds its heath plots (R161). -/
def Dev.modify (d : Dev) (rid : Nat) (r : Region) (m : RegionMsg) : Dev :=
  let r' := { r with policy := m.policy, cls := m.cls, dlUs := m.dlUs }
  let d := (d.setRegion rid r').stopForbidden r'
  if r.policy ≠ .pinMeadow ∧ r'.policy = .pinMeadow then d.markRun r' else d

/-- A change of a region that stands in the table takes effect at instant `at_`; whether it is done at once. -/
def Dev.changeRegion (d : Dev) (m : RegionMsg) (r : Region) (at_ : Nat) (cmd : Option Nat) : Dev × Bool :=
  if m.func = fnCreate then (d.setRegion m.region { r with state := .online }, true)
  else if m.func = fnModify then (d.modify m.region r m, true)
  else if m.func = fnSeal then (d.setRegion m.region { r with state := .sealing, sealAt := some at_ }, true)
  else if m.func = fnKey then (d.setRegion m.region (r.setKey m), true)
  else if m.func = fnGrow then
    if r.spanned then
      let stripes := r.stripes.map (fun s => (s.member, s.twin))
      d.grow m.region r m.size (d.localRun { m with stripes := stripes, grain := r.grain }) cmd
    else d.grow m.region r m.size m.size cmd
  else if m.func = fnDestroy then (d.destroy m.region r, true)
  else if m.func = fnUnhold ∧ r.remoteHeld then ({ d with rgn := del d.rgn m.region }, true)
  else (d, true)

/-- A change takes effect; whether it is done at once. -/
def Dev.applyMsg (d : Dev) (m : RegionMsg) (at_ : Nat) (cmd : Option Nat) : Dev × Bool :=
  match look d.rgn m.region with
  | some r => d.changeRegion m r at_ cmd
  | none =>
    if m.func = fnCreate then
      let n := d.localRun m
      (d.setRegion m.region (Region.ofMsg m .online (d.freeRun n) n), true)
    else if m.func = fnHold then (d.setRegion m.region heldRegion, true)
    else (d, true)

/-- The R_Key of the key entry a change makes, else 0 (Table 12.6, Table 2.2). -/
def rkeyOf (m : RegionMsg) : Nat :=
  if (m.func = fnCreate ∨ m.func = fnKey) ∧ m.ken then m.region * 2 ^ 20 + m.kidx * 2 ^ 16 + m.ktag.toNat else 0

/-- The command of a change completes: RESULT1 is the device time of the change, the seal instant for a seal (Table 12.6). -/
def Dev.completeChange (d : Dev) (m : RegionMsg) (at_ : Nat) (cmd : Option Nat) : Dev :=
  match cmd.bind d.cmd with
  | some c => d.complete c csDone (rkeyOf m) at_
  | none => d

/-- A change takes effect and its command completes; a growth that moves its run completes with the move. -/
def Dev.finishChange (d : Dev) (m : RegionMsg) (at_ : Nat) (cmd : Option Nat) : Dev :=
  let (d, done) := d.applyMsg m at_ cmd
  if done then d.completeChange m at_ cmd else d

/-- The seal instant of a seal accepted now, the present instant of any other change (R48, R49). -/
def Dev.changeAt (d : Dev) (m : RegionMsg) : Nat := if m.func = fnSeal then d.epochOf d.now * 1000000 else d.now

/-- What was reserved for a change that does not come about is given back (R280, R535). -/
def Dev.unreserveRegion (d : Dev) (m : RegionMsg) : Dev :=
  match look d.rgn m.region with
  | none => d
  | some r =>
    if m.func = fnCreate ∧ r.state = .creating then { d with rgn := del d.rgn m.region }
    else if m.func = fnGrow then d.setRegion m.region { r with reserve := 0 }
    else d

/-- A change is refused: its command completes `REFUSED` with the reason (R394). -/
def Dev.refuseChange (d : Dev) (m : RegionMsg) (cmd : Option Nat) (reason : Nat) : Dev :=
  let d := d.unreserveRegion m
  match cmd.bind d.cmd with
  | some c => d.complete c csRefused reason
  | none => d

/-! ### Whether a device can hold a change -/

/-- The region's state forbids the function (Table 12.8, reason 2). -/
def stateForbids (func : Nat) (r : Region) : Bool :=
  r.remoteHeld || r.keySide || r.state == .creating || r.state == .destroying
    || ((func == fnSeal || func == fnGrow) && r.state != .online)

/-- The ID is in use here, or awaits fabric seal after a destroy (R35, R50). -/
def Dev.idTaken (d : Dev) (rid : Nat) : Bool := (look d.rgn rid).isSome || d.dur.destroyed.any (fun x => x.1 == rid)

/-- Plots a growth adds on this device. -/
def Dev.growBy (d : Dev) (m : RegionMsg) (r : Region) : Nat :=
  if r.spanned then d.localRun { m with stripes := r.stripes.map (fun s => (s.member, s.twin)), grain := r.grain } - r.run
  else m.size - r.run

/-- Why this device cannot hold a change, if it cannot: reason 1 or 2, or 0 for want of capacity (R38, R280, R535). -/
def Dev.cannotHold (d : Dev) (m : RegionMsg) : Option Nat :=
  if m.func = fnCreate then
    if d.idTaken m.region then some 1
    else
      let n := d.localRun m
      if (m.mirror ≠ .no ∨ ¬ m.stripes.isEmpty) ∧ ¬ d.roomFor n (pinnedOf m n) then some 0 else none
  else match look d.rgn m.region with
  | none => some 2
  | some r =>
    if stateForbids m.func r then some 2
    else if m.func = fnGrow then
      let n := d.growBy m r
      if d.roomFor n (if r.policy = .pinMeadow then n else 0) then none else some 0
    else if m.func = fnModify ∧ m.policy = .pinMeadow ∧ r.policy ≠ .pinMeadow ∧ ¬ d.roomFor 0 r.run then some 0
    else none

/-- What a change this device has agreed to needs is reserved (R38). -/
def Dev.holdChange (d : Dev) (m : RegionMsg) : Dev :=
  if m.func = fnCreate then d.reserveRegion m
  else if m.func = fnGrow then
    match look d.rgn m.region with
    | some r => d.setRegion m.region { r with reserve := d.growBy m r }
    | none => d
  else d

/-! ### The words of a change on the links -/

/-- Words of a region message. -/
def changeWords (m : RegionMsg) : List Nat :=
  [m.region, m.func, m.size, match m.policy with | .auto => 0 | .pinMeadow => 1 | .pinHeath => 2,
   match m.cls with | .meadow => 0 | .fast => 1 | .deep => 2, m.dlUs, match m.mirror with | .no => 0 | .east => 1 | .west => 2,
   m.kidx, bit m.ken, m.ktag.toNat, m.perm.toNat, m.winFirst, m.winCount, m.grain,
   match m.ownSlot with | some n => n + 1 | none => 0]
    ++ m.stripes.flatMap (fun s => [s.1, match s.2 with | some t => t + 1 | none => 0])

/-! ### The pair (R535) -/

/-- The device makes changes alone: it has no twin, or its twin is declared failed, or it holds the claim in isolation, and
has not yet returned. -/
def Dev.changesAlone (d : Dev) : Bool :=
  !d.on TWN_CFG.ENABLE || ((d.twn.declared || d.twn.soleMeadow) && !(d.twn.linkUp && d.twn.hello))

/-- A change goes to the peer before it takes effect. -/
def Dev.askPeer (d : Dev) (m : RegionMsg) (cmd : Option Nat) : Dev :=
  if ¬ d.twn.linkUp ∨ ¬ d.twn.hello then d.refuseChange m cmd 13
  else
    let p : PeerId := { region := m.region, func := m.func, cmdId := cmd, m := m }
    ({ d with twn := { d.twn with rgnPend := d.twn.rgnPend ++ [p] } }).twinSend twRgnReq 0 (changeWords m)

/-- RGN_ACK came, or the device now decides alone: a mirrored region's change waits for the next closing instant (R535). -/
def Dev.agreed (d : Dev) (p : PeerId) : Dev :=
  let mirrored := p.m.mirror != .no || (look d.rgn p.region).any (fun r => r.mirrored)
  if mirrored then { d with twn := { d.twn with rgnApply := d.twn.rgnApply ++ [p] } }
  else d.finishChange p.m (d.changeAt p.m) p.cmdId

/-- Agreed changes take effect at a closing instant (R280, R535). -/
def Dev.applyAgreed (d : Dev) (at_ : Nat) : Dev :=
  let l := d.twn.rgnApply
  l.foldl (fun d p => d.finishChange p.m at_ p.cmdId) { d with twn := { d.twn with rgnApply := [] } }

/-- The pending request for a region is taken from those that wait. -/
def Dev.takePend (d : Dev) (rid func : Nat) : Option PeerId × Dev :=
  (d.twn.rgnPend.find? (fun p => p.region == rid && p.func == func),
   { d with twn := { d.twn with rgnPend := d.twn.rgnPend.filter (fun p => !(p.region == rid && p.func == func)) } })

/-- Requests that wait for the peer go on alone once it is declared failed (R535). -/
def Dev.agreeAlone (d : Dev) : Dev :=
  let l := d.twn.rgnPend
  l.foldl Dev.agreed { d with twn := { d.twn with rgnPend := [] } }

/-! ### The fabric (R278, R280) -/

/-- The members' values of `SPAN_BASE` agree (R278). -/
def Dev.spanBaseAgrees (d : Dev) : Bool := d.fab.members.all (fun m => m.spanBase == d.f FAB_CFG.SPAN_BASE)

/-- A change voted for, or its refusal, is settled on this device. -/
def Dev.settleSpan (d : Dev) (m : RegionMsg) (ok : Bool) : Dev :=
  let p : PeerId := (d.fab.spanPend.find? (fun p => p.region == m.region)).getD { region := m.region, func := m.func, m := m }
  let d := { d with fab := { d.fab with
    spanPend := d.fab.spanPend.filter (fun p => p.region != m.region)
    spanHeld := d.fab.spanHeld.filter (fun h => h.region != m.region) } }
  if ¬ ok then d.refuseChange m p.cmdId 5
  else if m.func = fnCreate then d.finishChange m (d.changeAt m) p.cmdId
  else { d with twn := { d.twn with rgnApply := d.twn.rgnApply ++ [{ p with m := m }] } }

/-- Every member has voted: the outcome goes to all of them and takes effect here. -/
def Dev.endSpan (d : Dev) (x : SpanTxn) : Dev :=
  let d := { d with fab := { d.fab with spans := d.fab.spans.filter (fun s => s.region != x.region) } }
  (d.toMembers spanVote [x.region, bit x.ok]).settleSpan x.m x.ok

/-- The steward runs a transaction: it votes itself and asks every other member. -/
def Dev.startSpan (d : Dev) (m : RegionMsg) (origin : Nat) : Dev :=
  let held := (d.cannotHold m).isNone && d.spanBaseAgrees
  let d := if held then { d.holdChange m with fab := { (d.holdChange m).fab with spanHeld := d.fab.spanHeld ++ [m] } } else d
  let others := (d.fab.members.map (·.id)).filter (fun i => i != d.selfId)
  let x : SpanTxn := { region := m.region, func := m.func, origin := origin, voters := others, ok := held, m := m }
  if others.isEmpty ∨ ¬ held then d.endSpan x
  else ({ d with fab := { d.fab with spans := d.fab.spans ++ [x] } }).toMembers spanTxn (changeWords m)

/-- A change to a spanned region is asked of the steward. -/
def Dev.askSpan (d : Dev) (m : RegionMsg) (cmd : Option Nat) : Dev :=
  let p : PeerId := { region := m.region, func := m.func, cmdId := cmd, m := m }
  let d := { d with fab := { d.fab with spanPend := d.fab.spanPend ++ [p] } }
  if d.isSteward then d.startSpan m d.selfId else d.fabSend (d.f FAB_ID.STEWARD) spanTxn (changeWords m)

/-! ### A change that this device's host asks for -/

/-- An accepted change: through the steward where the region is spanned, with the peer's agreement where R535 asks for it, and
at once otherwise. -/
def Dev.submitChange (d : Dev) (m : RegionMsg) (cmd : Option Nat) : Dev :=
  let r := look d.rgn m.region
  let spanned := !m.stripes.isEmpty || r.any (fun r => r.spanned)
  let mirrored := m.mirror != .no || r.any (fun r => r.mirrored)
  if spanned then d.askSpan m cmd
  else
    let d := d.holdChange m
    if d.changesAlone then d.finishChange m (d.changeAt m) cmd
    else if m.func = fnCreate ∨ mirrored then d.askPeer m cmd
    else
      let d := if m.func = fnDestroy then d.twinSend twRgnReq 0 (changeWords { m with func := fnUnhold }) else d
      d.finishChange m (d.changeAt m) cmd

end Sys2Proof.Machine
end

