-- ==== Sys2Proof/Machine/TwinOps.lean ====
section
/-! DEFINITION. The twin pair: replica messages, heartbeats, declaration, claim, takeover and resynchronisation
(spec/07_twin.md). -/

namespace Sys2Proof.Machine

/-! ### Values of `TWN_STAT` -/

def pathSilent : Nat := 0
def pathHealthy : Nat := 1
def pathFault : Nat := 2

def peerAbsent : Nat := 0
def peerHealthy : Nat := 1
def peerSaving : Nat := 2
def peerDown : Nat := 3
def peerDeclared : Nat := 4
def peerIsolated : Nat := 5
def peerReturning : Nat := 6
def peerInSync : Nat := 7

def claimNone : Nat := 0
def claimAsserting : Nat := 1
def claimHeld : Nat := 2
def claimBackoff : Nat := 3
def claimFailed : Nat := 4

/-- Codes of the heartbeat statuses on the link (R240). -/
def statusCode (p : PathStatus) : Nat := match p with | .healthy => 0 | .saving => 1 | .down => 2 | .silent => 3

/-- The status this device sends on both paths (Table 7.3). -/
def Dev.setStatus (d : Dev) (p : PathStatus) : Dev :=
  let d := { d with twn := { d.twn with lampOut := p } }
  if d.on TWN_CFG.ENABLE ∧ d.on TWN_CFG.LAMP_EN then d.send (.lampOut p) else d

/-- A heartbeat leaves with the device's status, stage, highest sealed epoch, role version and claim (Table 7.2). -/
def Dev.heartbeat (d : Dev) : Dev :=
  let p : PathStatus := match d.twn.lampOut with | .silent => .healthy | x => x
  d.twinNow twHb [statusCode p, d.f DUR_BUDGET_STAT.STAGE, d.f DUR_EPOCH_STAT.LOCAL, d.f TWN_STAT.ROLE_VER, d.f TWN_STAT.CLAIM]

/-! ### Link-up (R229, R238, R509) -/

/-- HELLO: serial, side, fabric ID, role version, restore epoch, service GIDs and the role table, which travels with it (R222, R229,
R509, log entry 79). -/
def Dev.sendHello (d : Dev) : Dev :=
  d.twinSend twHello 0 ([Config.serial.toNat, bit d.twn.side, d.selfId, d.f TWN_STAT.ROLE_VER, d.f DUR_RESTORE_STAT.EPOCH]
    ++ (List.range 16).map (fun i => d.f (TWN_SVC_GID.GID i)) ++ d.twn.roles.flatMap (fun r => [r.1, bit r.2]))

/-- A message for which the primary holds no CONF is sent again: what has been applied of it, its journal entries, and COMPLETE
(R238). -/
def Dev.resendMsg (d : Dev) (m : TwinMsg) : Dev :=
  match d.op m.opId with
  | none => d
  | some o =>
    if o.conf ∨ o.appl = 0 then d
    else
      let last := decide (o.whole ∧ o.data.length ≤ o.appl)
      let d := match look d.rgn o.rid with
        | some r => d.legs o r o.off true last (o.data.take o.appl)
        | none => d
      let mine (f : Fj) : Bool := f.origin == d.selfId && f.conn == o.conn && f.psn == o.psn && f.state == .posted
      let d := (d.fab.fj.filter mine).foldl (fun d f => d.twinSend twLeg o.msgid [o.rid, f.off, f.data.length, 3] f.data) d
      if m.complete then d.twinSend twComplete m.msgid [m.stamp] else d

/-- What a link-up does to pending mirrored writes (R238). -/
def Dev.resumeMirror (d : Dev) : Dev :=
  let lost := d.twn.reps.filter (fun r => r.stamp.isNone)
  let d := lost.foldl Dev.undoRep d
  let d := d.twn.msgs.foldl Dev.resendMsg d
  d.twn.eoeOpen.foldl (fun d k => d.twinSend twEoe 0 [k]) d

/-- Version `a` is newer than `b`, modulo 256 (R222). -/
def newerVer (a b : BitVec 8) : Bool := decide (1 ≤ (a - b).toNat) && decide ((a - b).toNat ≤ 127)

/-- The role table after HELLO: the newer version's, or east's where neither is newer (R222). -/
def Dev.takeRoles (d : Dev) (m : HelloMsg) : Dev :=
  let own : BitVec 8 := BitVec.ofNat 8 (d.f TWN_STAT.ROLE_VER)
  if newerVer m.roleVer own ∨ (¬ newerVer own m.roleVer ∧ d.twn.side) then
    { d.fset TWN_STAT.ROLE_VER m.roleVer.toNat with
      twn := { (d.fset TWN_STAT.ROLE_VER m.roleVer.toNat).twn with roles := m.roles } }
  else d

/-- The survivor's Join (Table 7.6): the bitmap is cleared, the region table sent in RGN_REQ frames (R535); Bulk follows. -/
def Dev.join (d : Dev) : Dev :=
  let d := { d with twn := { d.twn with rsSource := true, soleMeadow := true, rsBits := [], rs := .bulk } }
  let d := (d.fset TWN_STAT.PEER peerReturning).fset TWN_RESYNC_STAT.PHASE 2
  let d := d.fset TWN_RESYNC_STAT.PASSES 0
  let send (d : Dev) (rid : Nat) (r : Region) (k : Nat × KeyEntry) (func : Nat) : Dev :=
    d.twinSend twRgnReq 0 (changeWords
      { region := rid, func := func, size := r.size, policy := r.policy, cls := r.cls, dlUs := r.dlUs, mirror := r.mirror,
        kidx := k.1, ken := k.2.enabled, ktag := k.2.ktag, perm := k.2.perm, winFirst := k.2.winFirst, winCount := k.2.winCount,
        ownSlot := r.ownSlot, grain := r.grain, stripes := r.stripes.map (fun s => (s.member, s.twin)) })
  (d.rgn.filter (fun r => r.2.mirrored)).foldl (fun d r =>
    let d := send d r.1 r.2 (r.2.keys.headD (0, {})) fnCreate
    let d := (r.2.keys.drop 1).foldl (fun d k => send d r.1 r.2 k fnKey) d
    if r.2.state = .sealing ∨ r.2.state = .sealed then send d r.1 r.2 (0, {}) fnSeal else d) d

/-- The IDs this device holds go to the peer at every link-up (R535). -/
def Dev.sendHeld (d : Dev) : Dev :=
  (d.rgn.filter (fun r => !r.2.mirrored && !r.2.remoteHeld && r.1 != 0xFFF)).foldl (fun d r =>
    d.twinSend twRgnReq 0 (changeWords { region := r.1, func := fnHold })) d

/-- Roles when both twins start: the higher restore epoch is the source, east where they are equal; a device whose input is
asserted by a held claim returns, one whose own claim is held is the survivor (R509). -/
def Dev.settleRoles (d : Dev) (m : HelloMsg) : Dev :=
  let own := d.f DUR_RESTORE_STAT.EPOCH
  let source := d.f TWN_STAT.CLAIM == claimHeld ||
    (!d.on TWN_STAT.SNUF_IN && (decide (m.restoreEpoch < own) || (m.restoreEpoch == own && !d.twn.side)))
  let d := { d with core := { d.core with rolesSettled := true } }
  if source then d.join
  else
    let d := { d with twn := { d.twn with roles := m.roles, returning := true, rsNamed := [] } }
    d.fset TWN_STAT.ROLE_VER m.roleVer.toNat

/-- HELLO of the peer is accepted (R229, R509, R535); a device that a held claim fences comes back as replica (R256). -/
def Dev.acceptHello (d : Dev) (m : HelloMsg) : Dev :=
  let d := { d with twn := { d.twn with
    hello := true, conflict := false, peerSerial := m.serial, peerFab := m.fabricId, peerRoleVer := m.roleVer } }
  let d := (List.range 16).foldl (fun (d : Dev) i => d.fset (TWN_PEER_GID.GID i) (m.gids.getD i 0)) d
  let d := if ¬ d.core.rolesSettled ∨ (d.on TWN_STAT.FENCE_WR ∧ ¬ d.twn.soleMeadow ∧ ¬ d.twn.returning) then d.settleRoles m
    else if d.twn.soleMeadow then (d.takeRoles m).join
    else if d.twn.returning then d.takeRoles m
    else (d.takeRoles m).fset TWN_STAT.PEER peerHealthy
  d.sendHeld

/-! ### Declaration, claim and takeover (R241 to R252) -/

/-- A port of the gap's groups pauses its priorities, or lets them go (R250). -/
def Dev.gapPause (d : Dev) (on : Bool) (port : Nat) : Dev :=
  ((List.range 8).filter (fun p => d.fbit TWN_CFG.GAP_PRI p)).foldl (fun d pri =>
    let d := (d.send (.pause port pri (if on then d.f HPT_PFC_CTL.QUANTA else 0))).count 0x304 port 1
    d.setPort port (fun p => { p with pausing := if on then put p.pausing pri d.clk else del p.pausing pri })) d

/-- Ports of the groups `GAP_PG` selects that are up. -/
def Dev.gapPorts (d : Dev) : List Nat :=
  (d.hpt.ports.filter (fun p => p.2.up && d.fbit TWN_CFG.GAP_PG (p.1 / 32))).map (·.1)

/-- The gap ends: zero-time pause (R250). -/
def Dev.endGap (d : Dev) : Dev :=
  if ¬ d.twn.gap then d
  else d.gapPorts.foldl (fun d p => d.gapPause false p) { d with twn := { d.twn with gap := false } }

/-- TWIN_SNUF_OUT driven: asserted is low. -/
def Dev.snuf (d : Dev) (on : Bool) : Dev :=
  let d := { d with twn := { d.twn with snufOut := on, snufOutAt := d.clk, holdFrom := d.clk } }
  (d.fset TWN_STAT.SNUF_RB (bit on)).send (.snufOut (!on))

/-- A claim is asserted, where one is wanted and the input lets it be (R244, R246). -/
def Dev.startClaim (d : Dev) : Dev :=
  if d.claimWanted ∧ ¬ d.twn.snufOut ∧ ¬ d.on TWN_STAT.SNUF_IN ∧ ¬ d.dur.saving ∧
    (d.f TWN_STAT.CLAIM = claimNone ∨ d.f TWN_STAT.CLAIM = claimFailed)
  then (d.snuf true).fset TWN_STAT.CLAIM claimAsserting
  else d

/-- A swap that runs is abandoned (R255). -/
def Dev.abandonSwap (d : Dev) : Dev := if d.twn.swapOut ∨ d.twn.swapIn.isSome then d.endSwap 3 else d

/-- A failed member leaves the set: its twin reports the declaration to the steward, who tells the members (R65, R292). -/
def Dev.reportFailed (d : Dev) : Dev :=
  if ¬ d.on FAB_CFG.ENABLE then d
  else if d.isSteward then
    let d := { d with fab := { d.fab with members := d.fab.members.filter (fun m => m.id != d.twn.peerFab) } }
    (d.toMembers memberMsg [d.twn.peerFab, 0]).stewardHorizon
  else d.fabSend (d.f FAB_ID.STEWARD) memberMsg [d.twn.peerFab, 0]

/-- The peer is declared failed (R241, R243): the gap begins, the claim is asserted, pending changes go on alone. -/
def Dev.declare (d : Dev) : Dev :=
  if ¬ d.on TWN_CFG.ENABLE ∨ d.twn.declared ∨ d.twn.conflict ∨ d.dur.saving then d
  else
    let d := { d with twn := { d.twn with
      declared := true, isolated := false, declAt := d.clk, gap := !d.twn.soleMeadow, eoeDue := [], peerRep := none } }
    let d := ((d.fset TWN_STAT.PEER peerDeclared).abandonSwap).raise (source 12 1) 2 0 0xFFFF 0
    let d := { d with twn := { d.twn with rs := if d.twn.rsSource then .join else d.twn.rs } }
    let d := if d.twn.gap then d.gapPorts.foldl (fun d p => d.gapPause true p) d else d
    ((d.reportFailed).startClaim).agreeAlone.settleHorizon.pump

/-- Isolation: both live and cannot mirror; east claims (R242). -/
def Dev.isolate (d : Dev) : Dev :=
  if ¬ d.on TWN_CFG.ENABLE ∨ d.twn.declared ∨ d.twn.isolated ∨ d.twn.conflict ∨ d.dur.saving then d
  else
    let d := { d with twn := { d.twn with isolated := true } }
    let d := ((d.fset TWN_STAT.PEER peerIsolated).abandonSwap).raise (source 12 1) 2 0 0xFFFF 0
    d.startClaim.pump

/-- A peer GID is adopted: written into its port's entry and announced (R251). -/
def Dev.adopt (d : Dev) (i : Nat) : Dev :=
  let g := d.f (TWN_PEER_GID.GID i)
  if ¬ d.on (TWN_ADOPT.EN i) ∨ g = 0 then d
  else
    let port := d.f (TWN_ADOPT.PORT i)
    let d := (d.fset (HPT_GID.GID port (d.f (TWN_ADOPT.SLOT i))) g).send (.announce port g)
    { d with twn := { d.twn with adopted := put d.twn.adopted i 1 } }

/-- Writes awaiting CONF are durable at P: each is answered `OK`, one in doubt has been answered (R134, R248). -/
def Dev.durableAlone (d : Dev) (id : Nat) : Dev :=
  match d.op id with
  | none => d
  | some o => if o.mirrored ∧ ¬ o.inDoubt ∧ o.phase = .applied ∧ o.whole ∧ (d.imagedNow o) then d.makeDurable { o with mirrored := false } else d

/-- What the lamp path counts as: silent with `LAMP_EN` = 0 (R240). -/
def Dev.lampPath (d : Dev) : Nat := if d.on TWN_CFG.LAMP_EN then d.f TWN_STAT.LAMP_PATH else pathSilent

/-- A path that has shown a fault for 8 µs declares the peer failed, unless the other path is healthy (R241, Table 7.4). -/
def Dev.judgeFaults (d : Dev) : Dev :=
  let long (a : Option Nat) : Bool := a.any (fun a => decide (a + 8000 ≤ d.clk))
  let link := d.f TWN_STAT.LINK_PATH
  if (link = pathFault ∧ long d.twn.linkFaultAt ∧ d.lampPath ≠ pathHealthy) ∨
      (d.lampPath = pathFault ∧ long d.twn.lampFaultAt ∧ link ≠ pathHealthy) then d.declare else d

/-- Promotion at P (R248 to R252). -/
def Dev.promote (d : Dev) : Dev :=
  let d := d.fset TWN_STAT.CLAIM claimHeld
  let d := { d with twn := { d.twn with soleMeadow := true, promotedAt := d.clk }, core := { d.core with rolesSettled := true } }
  let d := ((d.rgn.filter (fun r => r.2.mirrored)).foldl (fun d r => d.setRole r.1 d.twn.side) d).nextRoleVer
  let d := (d.twn.reps.filter (fun r => !r.whole)).foldl Dev.undoRep d
  let d := { d with twn := { d.twn with reps := [], legWait := [] } }
  let d := (d.hpt.ops.map (·.id)).foldl Dev.durableAlone d
  let d := { d with twn := { d.twn with msgs := [] } }
  let d := if d.twn.declared then
      let d := (List.range 16).foldl Dev.adopt d
      let lost (r : Nat × Region) : Nat × Region := (r.1, { r.2 with keySide := r.2.keySide || r.2.remoteHeld })
      ({ d with rgn := d.rgn.map lost }).endGap
    else d
  let d := (d.fab.fj.filter (fun f => f.origin == d.twn.peerFab && f.origin != d.selfId && f.state != .failed)).foldl
    Dev.fjSend d
  d.agreeAlone.settleHorizon.pump

/-! ### Resynchronisation (R256 to R260) -/

/-- A plot goes to the returning unit in frames of 8 KiB, or as a poison marker; a plot of tier none is skipped (R225,
Table 7.6). -/
def Dev.sendPlot (d : Dev) (rid : Nat) (r : Region) (plot : Nat) : Dev :=
  let idx := r.base + plot
  let e := d.entry idx
  if e.state = .poisoned then d.twinSend twRsPlot 0 [rid, plot, 1, 0]
  else if e.tier = .none then d
  else (List.range (plotBytes / frameBytes)).foldl (fun d k =>
    d.twinSend twRsPlot 0 [rid, plot, 0, k * frameBytes] (d.plotRead idx (k * frameBytes) frameBytes)) d

/-- Every plot of every mirrored region, in region-then-plot order. -/
def Dev.sendBulk (d : Dev) : Dev :=
  (d.rgn.filter (fun r => r.2.mirrored)).foldl (fun d r =>
    ((d.tier.home.filter (fun e => decide (r.2.base ≤ e.1) && decide (e.1 < r.2.base + r.2.run))).map (·.1)).foldl
      (fun d i => d.sendPlot r.1 r.2 (i - r.2.base)) d) d

/-- The pages whose bits are set are sent, each bit cleared as its page goes (Table 7.6). -/
def Dev.sendPages (d : Dev) : Dev :=
  let bits := d.twn.rsBits
  bits.foldl (fun d b =>
    let rid := b / 2 ^ 38
    let page := b % 2 ^ 38
    match look d.rgn rid with
    | none => d
    | some r => d.twinSend twRsPage 0 [rid, page] (d.plotRead (r.base + page / 16) (page % 16 * 4096) 4096))
    { d with twn := { d.twn with rsBits := [] } }

/-- A resynchronised plot's home: the meadow plot it has, or a fresh one that takes the place of a heath home with its
contents. -/
def Dev.resyncHome (d : Dev) (idx : Nat) : Option Dev :=
  let e := d.entry idx
  match e.tier with
  | .meadow => some d
  | .none => d.giveHome idx e.state
  | .fast | .deep =>
    let old := d.plotRead idx 0 plotBytes
    ((d.cancelMig idx).giveHome idx e.state).map (fun x =>
      (x.writeMeadow ((x.entry idx).loc * plotBytes) old (x.epochOf x.now)).releaseHome e.tier e.loc)

/-- State of a plot that holds good data: sealed in a Sealed region, else resident. -/
def Dev.goodState (d : Dev) (idx : Nat) : PlotState :=
  if (d.regionOf idx).any (fun r => r.2.state == .sealed) then .sealed else .resident

/-- Resynchronised bytes are written at a plot through lantern region ID mod 8, and the migrations of the plot witness it (R165,
R257, R258, R533). -/
def Dev.resyncWrite (d : Dev) (idx off : Nat) (bs : List Byte) : Dev :=
  match d.resyncHome idx with
  | none => d
  | some d =>
    let lane := ((d.regionOf idx).map (fun r => r.1 % 8)).getD 0
    ((d.wickLookup lane idx).writeMeadow ((d.entry idx).loc * plotBytes + off) bs (d.epochOf d.now)).witness idx off bs.length

end Sys2Proof.Machine
end

