-- ==== Sys2Proof/Machine/FabOps.lean ====
section
/-! DEFINITION. The fabric: frames of a link, the link-state database, the steward, identity and routes (R263 to R273), the
home of forwarded messages and the ingress's journal (R281 to R290). -/

namespace Sys2Proof.Machine

/-! ### Frames (R264, as R227 and R228 on a fabric link) -/

/-- Link states: down, training, HELLO only, up, refused (`FAB_LINK_STATn`). -/
def linkDownState : Nat := 0
def linkRefused : Nat := 4

/-- The link goes down: its routes stand until they are recomputed (R272). -/
def Dev.fabDown (d : Dev) (n : Nat) : Dev :=
  let d := (d.fset (FAB_LINK_STAT.STATE n) linkDownState).fset (FAB_LINK_STAT.PEER n) 0
  d.setFlink n (fun l => { l with unacked := [], txWait := [], txSeq := 0, rxSeq := 0, peerSerial := 0, credit := [] })

/-- A tag failure: dropped and counted; more than 16 in 1 ms take the link down with an event (R227, R264). -/
def Dev.fabTagFail (d : Dev) (n : Nat) : Dev :=
  let recent := (d.clk :: (d.flink n).tagFails).filter (fun t => d.clk < t + 1000000)
  let d := (d.setFlink n (fun l => { l with tagFails := recent })).finc FAB_CNT.AUTH_FAIL 1
  if 16 < recent.length then (d.fabDown n).raise (source 14 1) 2 0 n 0 else d

/-- A frame of another LGEN, or whose NCTR is not above the last of its phase (R227). -/
def Dev.fabStale (d : Dev) (h : FabHdr) : Bool :=
  h.lgen != d.f (FAB_LINK_STAT.LGEN h.link) || (look (d.flink h.link).rxNctr h.keyph).any (fun n => h.nctr ≤ n)

/-- A fabric frame arrives: dropped and counted, held to the SEQ order, or taken by `act`. `free` marks RETX, taken outside
the order; with no valid ID only HELLO and LSA are taken (`early`) (R264, R266). -/
def Dev.fabRx (d : Dev) (h : FabHdr) (free early : Bool) (act : Dev → Dev) : Dev :=
  if ¬ d.fabLive h.link then d
  else if ¬ h.tagOk then d.fabTagFail h.link
  else if d.fabStale h then d.finc FAB_CNT.STALE 1
  else if ¬ d.on FAB_ID.VALID ∧ ¬ early then d
  else
    let d := d.setFlink h.link (fun l => { l with rxNctr := put l.rxNctr h.keyph h.nctr })
    let d := d.fabAck h.link h.ack
    if free then act d
    else if h.seq = (d.flink h.link).rxSeq then
      act (d.setFlink h.link (fun l => { l with rxSeq := (l.rxSeq + 1) % 2 ^ 32 }))
    else if seqLe h.seq (d.flink h.link).rxSeq then d
    else d.fabAskAgain h.link

/-! ### The link-state database (R270) -/

/-- Up links of this device and the serial number at each far end. -/
def Dev.ownPeers (d : Dev) : List (Nat × BitVec 64) := (d.liveLinks.map (fun n => (n, (d.flink n).peerSerial))).filter (fun p => p.2 != 0)

/-- The database with a record in place of the one of its device. -/
def putLsa (db : List Lsa) (l : Lsa) : List Lsa := db.filter (fun x => x.serial != l.serial) ++ [l]

/-- Words of a record on a link. -/
def lsaWords (l : Lsa) : List Nat :=
  [l.serial.toNat, match l.id with | some i => i + 1 | none => 0, bit l.steward, l.ver] ++ l.peers.flatMap (fun p => [p.1, p.2.toNat])

/-- A record leaves on the live links but `except`. -/
def Dev.floodLsa (d : Dev) (l : Lsa) (except : Option Nat) : Dev :=
  (d.liveLinks.filter (fun n => some n != except)).foldl (fun d n => d.fabNow n frLsa (lsaWords l)) d

/-- The steward's fabric ID as the database names it. -/
def Dev.nameSteward (d : Dev) : Dev :=
  let d := match d.stewardRec with
    | some l => d.fset FAB_ID.STEWARD (l.id.getD 0)
    | none => d
  let none_ := !d.fab.db.any (fun l => l.steward)
  let was := d.fab.noSteward
  let d := { d with fab := { d.fab with noSteward := none_ } }
  if none_ ∧ ¬ was then d.raise (source 13 3) 4 0 d.selfId 0 else d

/-- This device's record, formed again with the next version and flooded (R270). -/
def Dev.ownLsa (d : Dev) : Dev :=
  let v := d.fab.lsaVer + 1
  let l : Lsa :=
    { serial := Config.serial, id := d.fabricId, steward := d.on FAB_CFG.STEWARD_EN, ver := v, peers := d.ownPeers }
  let d := { d with fab := { d.fab with lsaVer := v, db := putLsa d.fab.db l, recompute := true, lsaAt := d.clk } }
  ((d.floodLsa l none).nameSteward).fabRenew

/-! ### Identity (R268, R269, R271) -/

/-- An ID is held or strapped by no device of the database, and not granted to another. -/
def Dev.idFree (d : Dev) (i : Nat) : Bool :=
  !d.fab.db.any (fun l => l.id == some i) && !d.fab.members.any (fun m => m.id == i) && !d.fab.granted.contains i

/-- The ID the steward grants: `LAST` where it is free, else the lowest free one. -/
def Dev.grantId (d : Dev) (last : Nat) : Option Nat :=
  if d.idFree last then some last else (List.range 4096).find? d.idFree

/-- The device's fabric ID becomes valid; HELLOs that waited for it make their links up. -/
def Dev.takeId (d : Dev) (i src : Nat) : Dev :=
  let d := ((d.fset FAB_ID.ID i).fset FAB_ID.SRC src).fset FAB_ID.VALID 1
  let d := (d.liveLinks).foldl (fun d n =>
    if (d.flink n).peerSerial = 0 then d else d.fset (FAB_LINK_STAT.STATE n) linkUpState) d
  d.ownLsa

/-- A granted ID is written to `LAST` and becomes the device's (R268). -/
def Dev.takeGrant (d : Dev) (i : Nat) : Dev := (d.fset FAB_ID.LAST i).takeId i 2

/-- A steward-assigned device asks the steward for its ID; a steward grants itself one. -/
def Dev.askId (d : Dev) : Dev :=
  if ¬ d.on FAB_CFG.ENABLE ∨ d.on FAB_ID.VALID ∨ ¬ d.fab.strapSrc then d
  else if d.isSteward then
    match d.grantId (d.f FAB_ID.LAST) with
    | some i => { d.takeGrant i with fab := { (d.takeGrant i).fab with granted := ins d.fab.granted i } }
    | none => d
  else d.send (.fabric (d.f FAB_ID.STEWARD) idAsk [Config.serial.toNat, d.f FAB_ID.LAST] [])

/-- The fabric as `ENABLE` and the straps stand: none with it clear; a strapped ID is valid at once (R268, R269). -/
def Dev.settleFabric (d : Dev) : Dev :=
  if ¬ d.on FAB_CFG.ENABLE then
    let d := (List.range 16).foldl (fun d n => if d.f (FAB_LINK_STAT.STATE n) = 0 then d else d.fabDown n) d
    (((d.fset FAB_ID.VALID 0).fset FAB_ID.ID 0).fset FAB_ID.SRC 0)
  else if d.on FAB_ID.VALID then d
  else if ¬ d.fab.strapSrc then d.takeId d.fab.strapId 1
  else (d.ownLsa).askId

/-- The device gives its ID up to a lower serial number (R271). -/
def Dev.loseId (d : Dev) : Dev :=
  let d := (d.raise (source 13 1) 6 0 d.selfId 0).fset FAB_ID.VALID 0
  let d := (List.range 16).foldl (fun d n => if d.fabUp n then d.fset (FAB_LINK_STAT.STATE n) linkHelloOnly else d) d
  d.askId

/-! ### Routes (R272) -/

/-- Serial numbers next to a device, with the link that leads there; both records must name the pair. -/
def neighbours (db : List Lsa) (s : BitVec 64) : List (Nat × BitVec 64) :=
  match db.find? (fun l => l.serial == s) with
  | none => []
  | some l => l.peers.filter (fun p => db.any (fun q => q.serial == p.2 && q.peers.any (fun b => b.2 == s)))

/-- Breadth-first levels from `front`, over at most `fuel` levels. -/
def levelsFrom (db : List Lsa) (front : List (BitVec 64)) (seen : List (BitVec 64 × Nat)) (k : Nat) :
    Nat → List (BitVec 64 × Nat)
  | 0 => seen
  | fuel + 1 =>
    let next := ((front.flatMap (fun s => (neighbours db s).map (·.2))).filter (fun s => !seen.any (fun x => x.1 == s))).eraseDups
    if next.isEmpty then seen else levelsFrom db next (seen ++ next.map (fun s => (s, k + 1))) (k + 1) fuel

/-- Level of a device in the tree rooted at the steward. -/
def levelOf (tree : List (BitVec 64 × Nat)) (s : BitVec 64) : Nat := ((tree.find? (fun x => x.1 == s)).map (·.2)).getD 4096

/-- A hop from `a` to `b` goes up the tree: to a lower level, or at one level to the lower serial number. -/
def goesUp (tree : List (BitVec 64 × Nat)) (a b : BitVec 64) : Bool :=
  decide (levelOf tree b < levelOf tree a) || (levelOf tree b == levelOf tree a && decide (b.toNat < a.toNat))

/-- Devices reached in up*/down* order, each with whether it was reached going down and in how many hops: first reached
first, over at most 15 hops (R274). -/
def spread (db : List Lsa) (tree : List (BitVec 64 × Nat)) (front : List (BitVec 64 × Bool))
    (seen : List (BitVec 64 × Bool × Nat)) (k : Nat) : Nat → List (BitVec 64 × Bool × Nat)
  | 0 => seen
  | fuel + 1 =>
    let hops := front.flatMap (fun x => (neighbours db x.1).filterMap (fun p =>
      let up := goesUp tree x.1 p.2
      if x.2 && up then none else some (p.2, !up)))
    let next := (hops.filter (fun x => !seen.any (fun y => y.1 == x.1 && y.2.1 == x.2))).eraseDups
    if next.isEmpty then seen
    else spread db tree next (seen ++ next.map (fun x => (x.1, x.2, k + 1))) (k + 1) fuel

/-- Hops of the shortest legal path that begins on a link to `b`, to device `dst`. -/
def hopsVia (db : List Lsa) (tree : List (BitVec 64 × Nat)) (a b dst : BitVec 64) : Option Nat :=
  let start := (b, !goesUp tree a b)
  let l := spread db tree [start] [(start.1, start.2, 1)] 1 14
  (l.find? (fun x => x.1 == dst)).map (·.2.2)

/-- The paths kept to a device: the shortest legal ones and those at most one hop longer, up to `PATHS` + 1 (R272). -/
def Dev.routeTo (d : Dev) (tree : List (BitVec 64 × Nat)) (dst : BitVec 64) : Route :=
  let via := (d.ownPeers.filterMap (fun p => (hopsVia d.fab.db tree Config.serial p.2 dst).map (fun h => (h, p.1))))
  match (via.map (·.1)).min? with
  | none => { hops := 0, links := [] }
  | some m =>
    let short := (via.filter (fun x => x.1 == m)).map (·.2)
    let long := (via.filter (fun x => x.1 == m + 1)).map (·.2)
    { hops := m, links := (short ++ long).take (d.f FAB_CFG.PATHS + 1) }

/-- The routing table computed from the database. -/
def Dev.computeRoutes (d : Dev) : Dev :=
  let root := ((d.stewardRec).map (·.serial)).getD Config.serial
  let tree := levelsFrom d.fab.db [root] [(root, 0)] 0 d.fab.db.length
  let entry (l : Lsa) : Option (Nat × Route) := match l.id with
    | some i => if l.serial = Config.serial then none else some (i, d.routeTo tree l.serial)
    | none => none
  let table := ((d.fab.db.filterMap entry).filter (fun (x : Nat × Route) => !x.2.links.isEmpty)).foldl
    (fun (t : List (Nat × Route)) x => put t x.1 x.2) []
  { d with fab := { d.fab with routes := table, recompute := false } }

/-- Frames for other devices that waited leave where a path stands (R274). -/
def Dev.forwardTransit (d : Dev) (x : Transit) : Dev :=
  match look d.fab.routes x.dst with
  | some r =>
    if r.links.isEmpty then { d with fab := { d.fab with transit := d.fab.transit ++ [x] } }
    else
      let n := d.pathFor r x.frame.vc
      ({ d with fab := { d.fab with rr := d.fab.rr + 1 } }).fabFrame n { x.frame with dst := x.dst, hops := x.hops }
  | none => { d with fab := { d.fab with transit := d.fab.transit ++ [x] } }

/-- Waiting frames are tried again. -/
def Dev.drainTransit (d : Dev) : Dev :=
  d.fab.transit.foldl Dev.forwardTransit { d with fab := { d.fab with transit := [] } }

/-! ### The member set (R292) -/

/-- A device with an ID that the steward knows and the set does not hold is added: MEMBER goes to it and to every member. -/
def Dev.enlist (d : Dev) (i : Nat) : Dev :=
  if ¬ d.isSteward ∨ d.fab.members.any (fun m => m.id == i) ∨ d.fab.joinAt.any (fun j => j.1 == i) then d
  else
    let d := { d with fab := { d.fab with joinAt := d.fab.joinAt ++ [(i, true)] } }
    let d := d.toMembers memberMsg [i, 1]
    if i = d.selfId then d else d.fabSend i memberMsg [i, 1]

/-- Membership changes take effect as an epoch opens; removals may let the horizon rise (R292). -/
def Dev.joinMembers (d : Dev) : Dev :=
  let l := d.fab.joinAt
  let step (ms : List Member) (j : Nat × Bool) : List Member :=
    if j.2 then (if ms.any (fun m => m.id == j.1) then ms else ms ++ [{ id := j.1 }]) else ms.filter (fun m => m.id != j.1)
  let d := { d with fab := { d.fab with members := l.foldl step d.fab.members, joinAt := [] } }
  if l.isEmpty then d else d.stewardHorizon

/-- The steward of the database has changed: one that becomes steward waits for a report from every member (R292). -/
def Dev.settleSteward (d : Dev) (was : Bool) : Dev :=
  if d.isSteward ∧ ¬ was then
    { d with fab := { d.fab with members := d.fab.members.map (fun m => { m with epoch := none }) } }
  else d

/-! ### The home of forwarded messages (R281 to R284, R287, R288) -/

/-- The verb of a BTH opcode (Table 4.1), of those that are forwarded. -/
def kindOf (verb : Nat) : OpKind :=
  if verb = 0x0C then .read else if verb = 0x13 then .cmpSwap else if verb = 0x14 then .fetchAdd
  else if verb = 0x1D then .atomicWrite else .write

/-- Key of a stream: origin and QPN (R283). -/
def FwdIn.stream (m : FwdIn) : Nat := m.h.origin * 2 ^ 24 + m.h.qpn

/-- The operation a forwarded message becomes. Its connection number lies above every real one and names its stream. -/
def Dev.fwdOp (d : Dev) (m : FwdIn) : Op :=
  { id := 2 ^ 23 + d.fab.nextFwd, conn := 65536 + m.stream, psn := 0, endPsn := 0, kind := kindOf m.h.verb,
    rkey := BitVec.ofNat 32 (m.h.region * 2 ^ 20), off := m.h.offset, len := m.h.length, data := m.data, cmp := m.cmp,
    swp := m.swp, stamp := m.h.stamp, epoch := max (d.epochOf m.h.stamp) d.dur.openEp, dl := m.h.dl, phase := .waiting,
    whole := true, pri := 0, origin := m.h.origin, fwd := true, fwdTag := m.h.tag, jseq := m.h.jseq, cseq := m.h.cseq,
    fwdSrc := m.src }

/-- A forwarded message in its turn: checks 6 and 7, admission of a write, then an operation of the device (R281). -/
def Dev.startFwd (d : Dev) (m : FwdIn) : Dev :=
  let o := d.fwdOp m
  match look d.rgn m.h.region with
  | none => d.replyFwd o { st := .regionOffline }
  | some r =>
    match d.check7 r o.kind o.stamp with
    | some st => d.replyFwd o { st := st }
    | none =>
      let pages := if o.kind.writes then d.pagesOf (d.homeTouches r o.off (if o.kind = .write then o.data.length else 8)) else 0
      let mir := o.kind.writes && d.mirroring m.h.region r
      match if o.kind.writes then d.admits pages mir else none with
      | some us => d.replyFwd o { st := .retryAfter, us := us }
      | none =>
        let d := if pages = 0 then d else d.takeAdmission pages
        let o := { o with mirrored := mir, msgid := if mir then d.twn.nextMsg else 0, reserved := pages }
        let d := if mir then
            { d with twn := { d.twn with
                nextMsg := (d.twn.nextMsg + 1) % 2 ^ 32, msgs := d.twn.msgs ++ [{ msgid := o.msgid, opId := o.id }] } }
          else d
        { d with fab := { d.fab with nextFwd := d.fab.nextFwd + 1 }, hpt := { d.hpt with ops := d.hpt.ops ++ [o] } }

/-- The CSEQ expected of a stream. A home that has restored its state takes the first it sees of a stream it has no count
for (log entry 30). -/
def Dev.cseqDue (d : Dev) (m : FwdIn) : Nat :=
  match look d.fab.rxCseq m.stream with
  | some n => n
  | none => if d.f DUR_RESTORE_STAT.EPOCH = 0 then 0 else m.h.cseq

/-- A posted write whose JSEQ is settled, under way or beyond the window is answered without being applied (R287). -/
def Dev.settledJseq (d : Dev) (m : FwdIn) : Option (Option (Nat × Nat)) :=
  let a := d.appliedOf m.h.origin
  if ¬ m.post then none
  else match look a.refused m.h.jseq with
  | some st => some (some (st, 0))
  | none =>
    if m.h.jseq < a.low ∨ a.bits.contains m.h.jseq then some (some (0, 0))
    else if d.hpt.ops.any (fun o => o.fwd && o.kind.writes && o.kind != .cmpSwap && o.kind != .fetchAdd && o.origin == m.h.origin &&
      o.jseq == m.h.jseq) then some none
    else if a.low + 4096 ≤ m.h.jseq then some (some (2, 100))
    else none

/-- Messages of a stream whose turn has come are taken, over at most `fuel` of them (R283). -/
def Dev.fwdDrain (d : Dev) : Nat → Dev
  | 0 => d
  | fuel + 1 =>
    match d.fab.early.find? (fun m => decide (m.h.cseq ≤ d.cseqDue m)) with
    | none => d
    | some m =>
      let due := d.cseqDue m
      let d := { d with fab := { d.fab with early := d.fab.early.filter (fun x => x != m) } }
      let d := if m.h.cseq = due then { d with fab := { d.fab with rxCseq := put d.fab.rxCseq m.stream (due + 1) } } else d
      (d.startFwd m).fwdDrain fuel

/-- A complete forwarded message is at its home (R283, R287). -/
def Dev.takeFwd (d : Dev) (m : FwdIn) : Dev :=
  match d.settledJseq m with
  | some (some (st, us)) => d.sendVerdict m.src m.h.jseq m.h.origin st us d.dur.openEp d.twn.peerFab
  | some none => d
  | none =>
    let d := { d with fab := { d.fab with early := d.fab.early ++ [m] } }
    (d.fwdDrain d.fab.early.length).pump

/-- Forwarded requests that meet D less `SLACK_NS` unfinished: REDIRECT for a read of a mirrored region, else RETRY_AFTER
(R284). -/
def Dev.fwdDeadlines (d : Dev) : Dev :=
  let due (o : Op) : Bool := o.fwd && o.dl != 0 && o.phase != .applied && o.phase != .posted &&
    decide (o.dl ≤ d.now + d.f FAB_FWD_CTL.SLACK_NS)
  (d.hpt.ops.filter due).foldl (fun (d : Dev) (o : Op) =>
    let mirrored := (look d.rgn o.rid).any (fun r => r.mirrored)
    if o.kind = .read ∧ mirrored then d.answer o { st := .redirect } else d.answer o { st := .retryAfter }) d

/-! ### The ingress (R282 to R284, R288, R289) -/

/-- An entry becomes Failed: a deferred error, or with its connection closed an event and the deferred log alone, and it is
released (R288, R289). The event carries the home's status. -/
def Dev.fjFail (d : Dev) (f : Fj) (status : Nat) : Dev :=
  let d := { d with fab := { d.fab with fj := d.fab.fj.filter (fun (x : Fj) => !x.same f.origin f.home f.jseq) } }
  let d := (d.finc FAB_FJ_STAT.FAILED 1).raise (source 13 0) 2 status f.region f.psn
  let c := d.conn f.conn
  let job := d.ring.cmds.find? (fun x => jobConn x.id == f.conn && (x.op == ocCopy || x.op == ocFill))
  if f.origin = d.selfId ∧ job.isSome then
    match job with | some x => d.complete x csData status x.progress | none => d
  else if f.origin = d.selfId ∧ c.state.isOpen ∧ d.qpn f.conn = f.qpn then
    d.setConn f.conn (fun c => { c with deferred := c.deferred ++ [{ region := f.region, psn := f.psn }] })
  else
    let k := d.fab.deferLog
    let d := ((((d.fset (FAB_DEFER_LOG.QPN k) f.qpn).fset (FAB_DEFER_LOG.PSN k) f.psn).fset (FAB_DEFER_LOG.REGION k)
      f.region).fset (FAB_DEFER_LOG.HOME k) f.home).fset (FAB_DEFER_LOG.STATUS k) status
    { d with fab := { d.fab with deferLog := (k + 1) % 64 } }

/-- Entries that waited beyond the window leave (R287). -/
def Dev.fjWindow (d : Dev) : Dev :=
  (d.fab.fj.filter (fun f => f.state == .posted && !d.hpt.ops.any (fun o => o.phase == .posted && o.conn == f.conn && o.psn == f.psn)
    && f.origin == d.selfId)).foldl Dev.fjSend d

/-- CUR of the stripe entries that name two members is turned to one of them (R279, R288). -/
def Dev.turnCur (d : Dev) (rid old new : Nat) : Dev :=
  match look d.rgn rid with
  | none => d
  | some r =>
    let turn (s : Stripe) : Stripe :=
      if s.member = old ∧ s.twin = some new then { s with cur := true }
      else if s.member = new ∧ s.twin = some old then { s with cur := false } else s
    d.setRegion rid { r with stripes := r.stripes.map turn }

/-- A REDIRECT verdict: CUR is updated and the entry goes to the new primary under the counts of that home (Table 8.5). -/
def Dev.fjMove (d : Dev) (f : Fj) (other : Nat) : Dev :=
  let d := (d.finc FAB_FJ_STAT.REDIRECTED 1).turnCur f.region f.home other
  let key := if f.origin = d.selfId then other else 4096 * (f.origin + 1) + other
  let j := lookD d.fab.jseqs key 0
  let (cseq, d) := d.takeCseq f.conn other
  let g : Fj := { f with home := other, jseq := j, cseq := cseq, state := .posted }
  let d := { d with fab := { d.fab with
    jseqs := put d.fab.jseqs key (j + 1)
    fj := d.fab.fj.map (fun (x : Fj) => if x.same f.origin f.home f.jseq then g else x) } }
  d.fjSend g

/-- A forwarded request is sent again to another member (R284). -/
def Dev.fwdAgain (d : Dev) (o : Op) (x : FwdOut) (other : Nat) : Dev :=
  let d := { d with fab := { d.fab with fwd := d.fab.fwd.filter (fun y => !(y.opId == x.opId && y.part == x.part)) } }
  let p : Piece := { home := some other, loff := 0, roff := o.off + x.part, len := x.len, pos := x.part }
  d.fwdPost o p other

end Sys2Proof.Machine
end

