-- ==== Sys2Proof/Machine/MdwOps.lean ====
section
/-! DEFINITION. DRAM channels: their states, the plots that depend on them, corrected errors and remapping, freeze and thaw,
evacuation (R299 to R331). -/

namespace Sys2Proof.Machine

/-- Event source of a channel kind: group 4 for channels 0 to 11, group 5 above (Table 17.1). -/
def chanSource (n kind : Nat) : Nat := source (4 + n / 12) kind

/-! ### Plots and the free pool (R304) -/

/-- Base of set `s` in the meadow address space (R301). -/
def Dev.setBase (d : Dev) (s : Nat) : Nat := ((List.range s).map d.portion).foldl (· + ·) 0

/-- Meadow address of a channel address, where it belongs to the channel's set (R301). -/
def Dev.meadowOf (d : Dev) (n addr : Nat) : Option Nat :=
  let s := d.f (MDW_CFG.SET n)
  let c := d.setMembers s
  match c.findIdx? (fun m => m == n) with
  | none => none
  | some i =>
    if 24 ≤ s ∨ d.setBytes n ≤ addr then none
    else
      let g := 256 * 2 ^ d.f (MDW_CFG.GRAIN (c.headD 0))
      some (d.setBase s + (addr / g * c.length + i) * g + addr % g)

/-- Home-table indices whose meadow home has a line on a channel. -/
def Dev.idxsOn (d : Dev) (n : Nat) : List Nat :=
  (d.tier.home.filter (fun e => e.2.tier == .meadow && (d.plotChans e.2.loc).contains n)).map (·.1)

/-- Plots that the free pool may no longer hold leave it and the free-plot queues. -/
def Dev.poolNow (d : Dev) : Dev :=
  { d with tier := { d.tier with
      freePlots := d.tier.freePlots.filter d.plotOnline
      queues := d.tier.queues.map (fun q => (q.1, q.2.filter d.plotOnline)) } }

/-- A meadow plot is in use: a home, a queue, a pool or a migration names it. -/
def Dev.plotUsed (d : Dev) (p : Nat) : Bool :=
  (d.idxOfPlot p).isSome || d.tier.freePlots.contains p || d.tier.queues.any (fun q => q.2.contains p)
    || d.tier.migs.any (fun m => m.dstTier == .meadow && m.dstLoc == p)

/-- Plots of a set that lie on Online channels alone and are not in use return to the free pool (R331). -/
def Dev.returnPlots (d : Dev) (s : Nat) : Dev :=
  let first := d.setBase s / plotBytes
  let ps := ((List.range (d.portion s / plotBytes)).map (fun k => first + k)).filter (fun p => d.plotOnline p && !d.plotUsed p)
  { d with tier := { d.tier with freePlots := d.tier.freePlots ++ ps } }

/-! ### States (R305, R332) -/

/-- The attention lamp of a bay in a channel state (R332). -/
def lampFor (st : Nat) : Lamp :=
  if st = chDraining ∨ st = chEmpty then .flash1 else if st = chFailed then .flash4 else if st = chOff then .steady else .off

/-- A bay's lamp; an absent one is off. -/
def Dev.setLamp (d : Dev) (bay : Nat) (l : Lamp) : Dev :=
  { d with mdw := { d.mdw with lamps := if l = .off then del d.mdw.lamps bay else put d.mdw.lamps bay l } }

/-- A channel enters a state: checker test mode ends, capacities are formed again, the pool and the lamp follow (R304, R332,
R333, R529). -/
def Dev.toChan (d : Dev) (n st : Nat) : Dev :=
  if d.chanState n = st then d
  else
    let d := (d.fset (MDW_STAT.STATE n) st).fset (MDW_CHK.EN n) 0
    ((d.formCaps).poolNow).setLamp n (lampFor st)

/-- A channel enters a state and its change is an event (Table 17.1). -/
def Dev.toChanEvent (d : Dev) (n st : Nat) : Dev :=
  if d.chanState n = st then d else (d.toChan n st).raise (chanSource n 1) 2 0 n 0

/-- A channel meets R299 against the other members of its set that hold modules. -/
def Dev.fitsSet (d : Dev) (n : Nat) (r : TrainResult) : Bool :=
  let live (m : Nat) : Bool := let s := d.chanState m
    m != n && (s == chOnline || s == chFrozen || s == chDraining)
  let same (m : Nat) : Bool := d.f (MDW_STAT.TYPE m) == r.type && d.f (MDW_STAT.CAP_GIB m) == r.capGib
    && d.f (MDW_STAT.DPC m) == r.dpc && (d.chan m).ranks == r.ranks && d.f (MDW_CFG.RATE m) == r.rate
  let s := d.f (MDW_CFG.SET n)
  decide (24 ≤ s) || ((d.setMembers s).filter live).all same

/-! ### The correctable-error log and the remap table (R314 to R317) -/

/-- A corrected line enters the log: a repeat, a new entry at the lowest free place, or a count of what was not logged; the
entry that holds it (R315). -/
def Dev.logCe (d : Dev) (e : LineErr) : Dev × Option Nat :=
  let n := e.ch
  let is (k : Nat) : Bool := d.on (MDW_CELOG.VALID n k) && d.f (MDW_CELOG.LINE n k) == e.line && d.f (MDW_CELOG.SUB n k) == e.sub
  match (List.range 32).find? is with
  | some k =>
    ((d.finc (MDW_CELOG.COUNT n k) 1).fset (MDW_CELOG.DEVMASK n k) (d.f (MDW_CELOG.DEVMASK n k) ||| e.devmask), some k)
  | none =>
    match (List.range 32).find? (fun k => !d.on (MDW_CELOG.VALID n k)) with
    | some k =>
      let d := ((d.fset (MDW_CELOG.VALID n k) 1).fset (MDW_CELOG.HARD n k) 0).fset (MDW_CELOG.COUNT n k) 1
      let d := (d.fset (MDW_CELOG.HOURS n k) (d.f EVR_LIFE.HOURS)).fset (MDW_CELOG.DEVMASK n k) e.devmask
      ((d.fset (MDW_CELOG.SUB n k) e.sub).fset (MDW_CELOG.LINE n k) e.line, some k)
    | none => (d.finc (MDW_CE.LOG_OVF n) 1, none)

/-- A hard line moves to the lowest free spare line; with the table full it stays corrected by ECC, with an event of severity 4
(R316). The table is recorded within 100 ms (R317). -/
def Dev.remap (d : Dev) (n line : Nat) : Dev :=
  if (List.range 16).any (fun k => d.on (MDW_REMAP.VALID n k) && d.f (MDW_REMAP.LINE n k) == line) then d
  else match (List.range 16).find? (fun k => !d.on (MDW_REMAP.VALID n k)) with
  | some k =>
    let d := ((d.fset (MDW_REMAP.VALID n k) 1).fset (MDW_REMAP.LINE n k) line).finc (MDW_CE.REMAP_USED n) 1
    { d with store := { d.store with dirty := true, dirtyAt := if d.store.dirty then d.store.dirtyAt else d.clk } }
  | none => d.raise (chanSource n 2) 4 0 n 0

/-- A corrected error (R314): counted and logged; a line that errs again on its re-read is hard. A host write in the same
cycle wins over the write-back. A frozen channel's log does not change (R323). -/
def Dev.corrected (d : Dev) (e : LineErr) : Dev :=
  if ¬ (d.chanState e.ch = chOnline ∨ d.chanState e.ch = chDraining) then d
  else
    let (d, k) := ((d.finc (MDW_CE.CE_CNT e.ch) 1).count 0x403 e.ch 1).logCe e
    if ¬ e.hard ∨ e.raced then d
    else
      let d := match k with
        | some k => d.fset (MDW_CELOG.HARD e.ch k) 1
        | none => d
      d.remap e.ch e.line

/-- `CE_CNT`, `LOG_OVF` and the log are cleared (R315). -/
def Dev.clearCe (d : Dev) (n : Nat) : Dev :=
  let d := (d.fset (MDW_CE.CE_CNT n) 0).fset (MDW_CE.LOG_OVF n) 0
  (List.range 32).foldl (fun d k => if d.on (MDW_CELOG.VALID n k) then d.fset (MDW_CELOG.VALID n k) 0 else d) d

/-- The remap table as the channel trains: kept with the same modules, else empty (R317). -/
def Dev.loadRemap (d : Dev) (n : Nat) (serials : List Nat) : Dev :=
  let d := if (d.chan n).storedSerials = serials then d
    else
      let d := (List.range 16).foldl (fun d k => if d.on (MDW_REMAP.VALID n k) then d.fset (MDW_REMAP.VALID n k) 0 else d) d
      { d.setChan n (fun c => { c with storedSerials := serials }) with store := { d.store with dirty := true, dirtyAt := d.clk } }
  d.fset (MDW_CE.REMAP_USED n) ((List.range 16).filter (fun k => d.on (MDW_REMAP.VALID n k))).length

/-! ### Poisoned plots (R324, R325) -/

/-- A poisoned plot of a mirrored region is fetched again from the twin: RS_PLOT names it (R325). -/
def Dev.refetch (d : Dev) (idx : Nat) : Dev :=
  match d.regionOf idx with
  | some (rid, r) =>
    if r.mirrored ∧ d.twinGood then
      let d := { d with twn := { d.twn with refetch := ins d.twn.refetch idx } }
      let d := if (d.entry idx).tier = .none then (d.giveHome idx .poisoned).getD d else d
      d.twinSend twRsPlot 0 [rid, idx - r.base, 2]
    else d
  | none => d

/-- A plot is set poisoned (R149). -/
def Dev.poison (d : Dev) (idx : Nat) : Dev := (d.setPlotState idx .poisoned).refetch idx

/-- A lost home-table line: each of its eight entries is rebuilt, and the homes they named are released (R324). -/
def Dev.rebuildLine (d : Dev) (line : Nat) : Dev :=
  (List.range 8).foldl (fun d k =>
    let idx := line * 8 + k
    let d := (d.cancelMig idx).candleDrop (· == idx)
    let e := d.entry idx
    let lost : HomeEntry := { state := .poisoned, gen := e.gen + 1 }
    (((d.releaseHome e.tier e.loc).setEntry idx lost).broadcast idx).refetch idx) d

/-! ### Freeze and thaw (R321 to R324) -/

/-- `MDW_UEn` captured: the fields as issued (R530). -/
def Dev.captureUe (d : Dev) (e : LineErr) : Dev :=
  let n := e.ch
  let a := e.line * 64
  let c := (d.chan n).colBits - 4
  let r := Nat.log2 (max 1 (d.chan n).ranks)
  let row := a / 2 ^ (12 + c + r)
  let bg := bitsOf a 9 7 ^^^ row % 8
  let bank := bitsOf a 11 10 ^^^ row / 8 % 4
  let d := ((d.fset (MDW_UE.HOURS n) (d.f EVR_LIFE.HOURS)).fset (MDW_UE.DEVMASK n) e.devmask).fset (MDW_UE.SUB n) e.sub
  let d := ((d.fset (MDW_UE.RANK n) (a / 2 ^ (12 + c) % 2 ^ r)).fset (MDW_UE.BG n) bg).fset (MDW_UE.BANK n) bank
  ((d.fset (MDW_UE.ROW n) row).fset (MDW_UE.COL n) (a / 4096 % 2 ^ c)).fset (MDW_UE.LINE n) e.line

/-- Migrations against a freeze: those whose destination lies on the channel are cancelled, a demand migration or evacuation
being raised again; copies that read from it pause (Table 5.6). -/
def Dev.freezeMig (d : Dev) (n : Nat) (m : Migration) : Dev :=
  if m.dstTier = .meadow ∧ (d.plotChans m.dstLoc).contains n then
    let d := d.cancelMig m.idx
    if m.kind = .demand ∨ m.kind = .evacuation then d.queueMig m.idx m.kind m.dstTier else d
  else if m.srcTier = .meadow ∧ (d.plotChans m.srcLoc).contains n then d.setMig m.idx (fun m => { m with frozen := true })
  else d

/-- A write that is not durable touches the channel. -/
def Dev.opOn (d : Dev) (n : Nat) (o : Op) : Bool := o.lines.any (fun l => (d.locate (l * 64)).any (fun c => c.1 == n))

/-- Writes not yet durable that touch the channel are answered, their blocks keeping their previous contents (R139); one answered
in doubt already is left to the peer (R134). -/
def Dev.freezeOps (d : Dev) (n : Nat) : Dev :=
  (d.hpt.ops.filter (fun o => d.opOn n o && !o.inDoubt)).foldl (fun d o =>
    let mirrored := (look d.rgn o.rid).any (fun r => r.mirrored)
    let us := ((look d.rgn o.rid).map (·.dlUs)).getD 6
    d.refuse o (if mirrored ∧ d.twinGood then d.redirect o.rid us else { st := .channelFrozen })) d

/-- Freeze of an Online channel (R322): the ranks sleep and an event of severity 5 is raised. -/
def Dev.freeze (d : Dev) (n cause : Nat) : Dev :=
  let d := (d.fset (MDW_FRZ.CAUSE n) cause).toChan n chFrozen
  let d := (d.fset (MDW_STAT.SR n) 1).raise (chanSource n 0) 5 0 n 0
  let d := d.tier.migs.foldl (fun d m => d.freezeMig n m) d
  (d.freezeOps n).pump

/-- A refresh floor that a plan set while the channel was frozen applies (R309). -/
def Dev.thawFloor (d : Dev) (n : Nat) : Dev :=
  match look d.age.heldFloors n with
  | none => d
  | some v => { d with age := { d.age with floors := put d.age.floors n v, heldFloors := del d.age.heldFloors n } }

/-- Work that a freeze held goes on: copies, refills, verbs, a plan's floor (R324). -/
def Dev.endFreeze (d : Dev) (n : Nat) : Dev :=
  let still (m : Migration) : Bool :=
    m.srcTier == .meadow && (d.plotChans m.srcLoc).any (fun c => c != n && d.chanState c == chFrozen)
  let go (m : Migration) : Migration := { m with frozen := m.frozen && still m }
  let d := { d with tier := { d.tier with migs := d.tier.migs.map go } }
  ((d.thawFloor n).returnPlots (d.f (MDW_CFG.SET n))).pump

/-! ### Evacuation (R327 to R331) -/

/-- Region plots whose evacuation a channel's drain needs. -/
def Dev.plotsToMove (d : Dev) (n : Nat) : List Nat := d.idxsOn n

/-- EVACUATE of a channel is refused (R327). -/
def Dev.evacRefused (d : Dev) (n : Nat) : Bool :=
  let st := d.chanState n
  let after := d.fset (MDW_STAT.STATE n) chDraining
  decide (24 ≤ n) || !(st == chOnline || st == chFrozen || st == chDraining)
    || (st == chOnline && !(List.range 24).any (fun m => m != n && d.chanState m == chOnline))
    || decide (after.meadowPlots < d.pinSum)
    || decide (after.meadowPlots + d.heathPlots < d.regionSum (fun _ => true))

/-- An accepted evacuation: the channel drains and every plot with a line on it moves (R328, R329). -/
def Dev.evacChannel (d : Dev) (n : Nat) : Dev :=
  if d.chanState n = chDraining then d
  else
    let wasFrozen := d.chanState n == chFrozen
    let d := d.setChan n (fun c => { c with cameFrom := if wasFrozen then .frozen else .online })
    let d := if wasFrozen then (d.fset (MDW_STAT.SR n) 0).fset (MDW_FRZ.THAW_BUSY n) 0 else d
    let go (m : Migration) : Migration := { m with frozen := false }
    let d := if wasFrozen then { d with tier := { d.tier with migs := d.tier.migs.map go } } else d
    let d := d.toChanEvent n chDraining
    ((d.plotsToMove n).foldl Dev.evacuate d).pump

/-- Channels over which the system stripe lies: the Online ones, and those still to be drained (R303, R330). -/
def Dev.stripeNow (d : Dev) : List Nat :=
  (List.range 24).filter (fun n => d.chanState n == chOnline || d.chanState n == chFrozen)

/-- No plot is homed on the channel any more. -/
def Dev.chanDrained (d : Dev) (n : Nat) : Bool :=
  d.chanState n == chDraining && (d.plotsToMove n).isEmpty
    && !d.tier.migs.any (fun m => m.dstTier == .meadow && (d.plotChans m.dstLoc).contains n)

end Sys2Proof.Machine
end

