-- ==== Sys2Proof/Machine/HthOps.lean ====
section
/-! DEFINITION. Flash modules and dies: joining, windows, retirement, evacuation (R334 to R357). -/

namespace Sys2Proof.Machine

/-- Event source of a heath kind on a channel: group 6 for channels 0 to 79, group 7 above (Table 17.1). -/
def heathSource (ch kind : Nat) : Nat := source (6 + ch / 80) kind

/-- Bay of a flash module: bays 24 to 43 (R438). -/
def moduleBay (m : Nat) : Nat := 24 + m

/-- The lamp of a module state (R356). -/
def lampForMod (st : Nat) : Lamp :=
  if st = modDraining ∨ st = modEmpty then .flash1 else if st = modFailed then .flash4 else if st = modOff then .steady else .off

/-- A module is out of save duty at once: B is computed without it (R181, R182). -/
def Dev.dropDuty (d : Dev) (m : Nat) : Dev :=
  if d.f (DUR_MOD.DUTY m) = 0 then d else (d.fset (DUR_MOD.DUTY m) 0).rebudget

/-- A module enters a state: capacities, lamp and event follow; one that fails, is removed or is powered off leaves save duty at once
(R181, R354, R356, R529). -/
def Dev.toMod (d : Dev) (m st : Nat) : Dev :=
  if d.f (HTH_MOD_STAT.STATE m) = st then d
  else
    let d := d.fset (HTH_MOD_STAT.STATE m) st
    let d := if st = modFailed ∨ st = modOff ∨ st = modAbsent then d.dropDuty m else d
    ((d.formCaps).setLamp (moduleBay m) (lampForMod st)).raise (heathSource (8 * m) 3) 2 0 m 0

/-! ### Dies (R341, R342) -/

/-- Dies in service on a module, by key. -/
def Dev.diesOf (d : Dev) (m : Nat) : List Nat :=
  ((List.range 128).map (fun i => (8 * m + i / 16) * 16 + i % 16)).filter (fun k => d.f (HTH_DIE.STATE (k / 16) (k % 16)) == 1)

/-- Save-rate limit of a module in 100 MB/s (R350). -/
def saveCap (rate dies planes : Nat) : Nat := min (256 * rate / 3600) (125 * dies * planes / 100)

/-- `DIES` and `SAVE_CAP` of a module as its dies now stand; its save rate is never above the cap (R181, R350). -/
def Dev.countDies (d : Dev) (m : Nat) : Dev :=
  let n := (d.diesOf m).length
  let planes := if d.on (HTH_MOD_STAT.PLANES m) then 4 else 2
  let cap := saveCap (d.f (HTH_EDGE_CFG.RATE (m / 10))) n planes
  let d := (d.fset (HTH_MOD_STAT.DIES m) n).fset (HTH_MOD_STAT.SAVE_CAP m) cap
  if cap < d.f (DUR_MOD.RATE m) then (d.fset (DUR_MOD.RATE m) cap).rebudget else d

/-- A die leaves service: its free plots go; a module with no die left fails (R342, Table 10.4). -/
def Dev.dropDie (d : Dev) (k : Nat) : Dev :=
  let m := k / 128
  let d := (d.fset (HTH_DIE.STATE (k / 16) (k % 16)) 2).countDies m
  let d := { d with tier := { d.tier with heathFree := d.tier.heathFree.filter (fun x => lookD d.hth.map x.2 0 != k) } }
  let d := d.raise (heathSource (k / 16) 1) 2 0 (k / 16) 0
  if (d.diesOf m).isEmpty then d.toMod m modFailed else d

/-- A die with no spare block left is retired: its plots, and the destinations of migrations on it, move to another die of the
module, which changes the heath map alone (R339, R341, R342). -/
def Dev.retireDie (d : Dev) (k : Nat) : Dev :=
  let homes := (d.tier.home.filter (fun e => e.2.tier == .fast || e.2.tier == .deep)).map (fun e => e.2.loc)
  let dests := (d.tier.migs.filter (fun m => m.dstTier != .meadow)).map (·.dstLoc)
  match (d.diesOf (k / 128)).find? (fun j => j != k) with
  | none => d.dropDie k
  | some j =>
    let d := d.dropDie k
    let move (x : Nat × Nat) : Nat × Nat := if x.2 = k ∧ (homes ++ dests).contains x.1 then (x.1, j) else x
    { d with hth := { d.hth with map := d.hth.map.map move } }

/-- A program that ended with the fail flag costs its die a spare block: few left is an event, none retires the die (R341,
R342). -/
def Dev.failedProgram (d : Dev) (k : Nat) : Dev :=
  let ch := k / 16
  let i := k % 16
  let left := d.f (HTH_DIE.SPARE ch i) - 1
  let d := ((d.finc (HTH_DIE.GROWN_BAD ch i) 1).fset (HTH_DIE.SPARE ch i) left).raise (heathSource ch 0) 2 0 ch 0
  let d := if left < d.f (HTH_SCHED.SPARE_MIN ch) then d.raise (heathSource ch 1) 4 0 ch 0 else d
  if left = 0 then d.retireDie k else d

/-! ### Reads (R345 to R347) -/

/-- Heath plots of a READ with no read copy, in order. -/
def Dev.heathTouches (d : Dev) (ts : List Touch) : List Touch :=
  ts.filter (fun t =>
    let e := d.entry t.idx
    (e.tier == .fast || e.tier == .deep) && (d.candleOf t.idx).isNone)

/-- One read of an operation leaves the queue of a die. -/
def Dev.dropRead (d : Dev) (k id : Nat) : Dev := d.setDie k (fun y => { y with reads := y.reads.erase id })

/-- Codewords a read decoded are counted (`HTH_ECCn`). -/
def Dev.countRead (d : Dev) (ch : Nat) (r : ReadResult) : Dev :=
  let n := lookD d.hth.cwReads ch 0 + r.codewords
  let d := { d with hth := { d.hth with cwReads := put d.hth.cwReads ch (n % 65536) } }
  let d := (d.finc (HTH_ECC.READS ch) (n / 65536)).count 0x500 ch r.codewords
  let d := if r.retries = 0 then d else (d.finc (HTH_ECC.RETRY ch) 1).count 0x504 ch r.retries
  let d := if r.soft then d.finc (HTH_ECC.SOFT ch) 1 else d
  if r.uncorr then d.finc (HTH_ECC.UNCORR ch) 1 else d

/-- A host read met an uncorrectable codeword: its plot is poisoned, an event raised, and the read answered (R347). -/
def Dev.failRead (d : Dev) (o : Op) (idx ch : Nat) : Dev :=
  let rid := o.rid
  let r := (look d.rgn rid).getD {}
  let good := r.mirrored && d.twinGood
  let d := (d.poison idx).raise (heathSource ch 2) 2 0 ch 0
  let forget (k : Nat × Die) : Nat × Die := (k.1, { k.2 with reads := k.2.reads.filter (· != o.id) })
  let d := { d with hth := { d.hth with dies := d.hth.dies.map forget } }
  d.answer o (if good then d.redirect rid r.dlUs else { st := .poisoned })

/-! ### Windows (R352, R353) -/

/-- A byte in two's complement. -/
def signed8 (v : Nat) : Int := if v < 128 then v else (v : Int) - 256

/-- The window of a temperature, given the one it stands in: a window is entered again only 3 °C inside it (R352). -/
def windowOf (lo hi temp : Int) (cur : Nat) : Nat :=
  let within (l h : Int) (was : Bool) : Bool :=
    if was then decide (l ≤ temp) && decide (temp ≤ h) else decide (l + 3 ≤ temp) && decide (temp ≤ h - 3)
  if ¬ within (-5) 85 (decide (cur ≤ 1)) then 2
  else if within lo hi (cur == 0) then 0 else 1

/-- A module stands in a window: outside the normal one its programs pause, outside the save window it leaves save duty at
once (R181, R353, Table 5.6). -/
def Dev.toWindow (d : Dev) (m w : Nat) : Dev :=
  if d.f (HTH_MOD_STAT.WINDOW m) = w then d
  else
    let d := (d.fset (HTH_MOD_STAT.WINDOW m) w).fset (DUR_MOD.WINDOW m) w
    let onMod (x : Migration) : Bool := x.dstTier != .meadow && d.modOfHeath x.dstLoc == m
    let turn (x : Migration) : Migration :=
      if ¬ onMod x then x
      else if w = 0 then { x with paused := none }
      else if x.prog = 0 then { x with paused := some (x.paused.getD d.clk) } else x
    let d := { d with tier := { d.tier with migs := d.tier.migs.map turn } }
    (if w = 2 then d.dropDuty m else d).pumpDies

/-! ### Evacuation of a module (R355, R356) -/

/-- Modules that hold firmware copies (R351). -/
def fwModules : List Nat := [0, 5, 10, 15]

/-- EVACUATE of a module is refused (R355). -/
def Dev.evacModRefused (d : Dev) (m : Nat) : Bool :=
  let homes := d.plotsOnModule m
  let spare := (d.tier.heathFree.filter (fun x => d.modOfHeath x.2 != m && d.heathTakes x.2)).length
  let floor := d.f TIER_MDW_POOL.PROMO_FLOOR * d.f GLB_CAP.MDW_PLOTS / 1000
  let after := d.fset (HTH_MOD_STAT.STATE m) modDraining
  let gone (k : Nat) : Bool :=
    let s := d.f (HTH_MOD_STAT.STATE k)
    k != m && (s == modDraining || s == modEmpty || s == modOff || s == modFailed)
  decide (20 ≤ m) || d.f (HTH_MOD_STAT.STATE m) != modOnline
    || decide (spare + (d.tier.freePlots.length - floor) < homes.length)
    || decide (d.meadowPlots + after.heathPlots < d.regionSum (fun _ => true))
    || (fwModules.contains m && fwModules.any gone)

/-- An accepted evacuation: the module leaves save duty; its plots move once D ≤ B (R181, R356). -/
def Dev.evacModule (d : Dev) (m : Nat) : Dev :=
  let d := d.toMod m modDraining
  let d := if d.f (DUR_MOD.DUTY m) = 1 then (d.fset (DUR_MOD.DUTY m) 2).rebudget else d.leaveDuty m
  (d.settleOver).pump

end Sys2Proof.Machine
end

