-- ==== Sys2Proof/Machine/CmdOps.lean ====
section
/-! DEFINITION. Ring commands (R381 to R402): the fields of their bodies, which may start, how a commit is discarded, what an
abort stops. -/

namespace Sys2Proof.Machine

/-! ### Opcodes (Table 12.6) -/

def ocRegion : Nat := 0x01
def ocDestroy : Nat := 0x02
def ocHint : Nat := 0x05
def ocPin : Nat := 0x06
def ocSealNow : Nat := 0x07
def ocScrub : Nat := 0x08
def ocEvacuate : Nat := 0x09
def ocShort : Nat := 0x0A
def ocExtended : Nat := 0x0B
def ocAbort : Nat := 0x10
def ocCommit : Nat := 0x18
def ocStage : Nat := 0x20
def ocActivate : Nat := 0x21
def ocConfirm : Nat := 0x22
def ocBlob : Nat := 0x28
def ocJob : Nat := 0x29
def ocLogClear : Nat := 0x30
def ocLogFetch : Nat := 0x31
def ocPmc : Nat := 0x38

/-- Opcodes the device knows; any other makes a descriptor malformed (R391). -/
def knownOps : List Nat :=
  [ocRegion, ocDestroy, ocCopy, ocFill, ocHint, ocPin, ocSealNow, ocScrub, ocEvacuate, ocShort, ocExtended, ocAbort, ocFlush,
   ocWait, ocCommit, ocStage, ocActivate, ocConfirm, ocBlob, ocJob, ocLogClear, ocLogFetch, ocPmc]

/-- Privileged commands (R389). -/
def privOps : List Nat := [ocEvacuate, ocCommit, ocStage, ocActivate, ocConfirm, ocBlob, ocLogClear, ocLogFetch]

/-- Commands that can be aborted while they run; `CFG_COMMIT` only before its bank applies, which is as long as it runs. -/
def abortOps : List Nat := [ocCopy, ocFill, ocSealNow, ocScrub, ocShort, ocExtended, ocFlush, ocWait, ocCommit, ocJob]

/-- Region and data commands, which wait until restore phase A is done (R507). -/
def lateOps : List Nat := [ocRegion, ocDestroy, ocCopy, ocFill, ocHint, ocPin, ocScrub]

/-- Commands answered `HELD` in the serving form of Hold, and those so answered besides in its offline form (Table 16.3). -/
def heldOps : List Nat := [ocCommit, ocRegion, ocDestroy, ocPin, ocHint, ocEvacuate, ocBlob, ocStage, ocConfirm]
def heldData : List Nat := [ocCopy, ocFill]

/-! ### Bodies (Table 12.7) -/

/-- Bytes `a` to `b` wholly named. -/
def wholeBytes (a b : Nat) : List (Nat × Nat) := (List.range (b + 1 - a)).map (fun i => (a + i, 255))

/-- A region ID of 12 bits at byte `a`. -/
def idAt (a : Nat) : List (Nat × Nat) := [(a, 255), (a + 1, 15)]

/-- The bytes of a body that a command names, each with the bits of it; the rest is reserved. -/
def bodyBits (op : Nat) : List (Nat × Nat) :=
  if op = ocRegion then
    wholeBytes 16 20 ++ [(21, 15), (22, 7), (23, 255)] ++ wholeBytes 24 28 ++ [(29, 127)] ++ wholeBytes 32 36 ++ [(37, 63)]
      ++ wholeBytes 40 44 ++ [(45, 127), (48, 31), (49, 31), (50, 255), (51, 31)] ++ wholeBytes 56 63
  else if op = ocDestroy then idAt 16
  else if op = ocCopy then idAt 16 ++ idAt 18 ++ wholeBytes 24 47
  else if op = ocFill then idAt 16 ++ wholeBytes 24 31 ++ wholeBytes 40 55
  else if op = ocHint then idAt 16 ++ [(18, 3)] ++ wholeBytes 24 31 ++ wholeBytes 40 47
  else if op = ocPin then idAt 16 ++ [(18, 1)] ++ wholeBytes 24 31 ++ wholeBytes 40 47
  else if op = ocSealNow ∨ op = ocFlush then [(16, 1)]
  else if op = ocScrub then idAt 16 ++ [(18, 1)] ++ wholeBytes 24 31 ++ wholeBytes 40 47
  else if op = ocEvacuate then [(16, 1), (17, 255)]
  else if op = ocAbort then [(16, 63), (18, 255), (19, 255)]
  else if op = ocWait then [(16, 63)] ++ wholeBytes 20 27
  else if op = ocCommit then [(16, 3)] ++ wholeBytes 24 31
  else if op = ocStage then wholeBytes 24 39 ++ [(40, 1)]
  else if op = ocBlob then wholeBytes 24 31
  else if op = ocJob then idAt 16 ++ [(18, 255), (19, 1)] ++ wholeBytes 20 50
  else if op = ocLogFetch then idAt 16 ++ [(18, 255), (19, 31)]
  else if op = ocPmc then [(16, 3), (18, 255), (19, 1), (20, 255), (21, 15), (22, 255), (23, 1)] ++ wholeBytes 24 39
  else []

/-- Bytes of a body that carry a reserved bit set. -/
def Cmd.resvBytes (c : Cmd) : List Nat :=
  ((List.range 48).map (· + 16)).filter (fun i => (BitVec.ofNat 8 (c.byte i) &&& ~~~ BitVec.ofNat 8 (lookD (bodyBits c.op) i 0)) != 0)

/-- FUNC of a region command, of `PMC_CONFIG`, and what splits the other opcodes among their rows. -/
def Cmd.func (c : Cmd) : Nat :=
  if c.op = ocRegion then c.byte 17 / 16
  else if c.op = ocPmc then c.byte 16 % 4
  else if c.op = ocEvacuate then c.byte 16 % 2 else 0

/-- The region a body names first. -/
def Cmd.region (c : Cmd) : Nat := c.u16 16 % 4096

/-- A list of checks: the offsets of the fields that fail. -/
def failing (l : List (Nat × Bool)) : List Nat := (l.filter (·.2)).map (·.1)

/-- A key entry of a region command is named: by KEN in a creation, always in the key function. -/
def Cmd.hasKey (c : Cmd) : Bool := c.byte 48 / 16 % 2 == 1

/-- Fields of a region command out of range (Table 12.7, Table 2.1, R41, R278, R499). -/
def Cmd.regionRange (c : Cmd) : List Nat :=
  let b := c.byte 18
  let create := c.func == fnCreate
  let sized := create || c.func == fnGrow
  let set (bit : Nat) : Bool := create || (c.func == fnModify && c.byte 22 / 2 ^ bit % 2 == 1)
  let keyed := c.hasKey && (create || c.func == fnKey)
  let spanned := create && b / 64 % 2 == 1
  let dl := c.byte 19
  failing
    [(16, decide (4 < c.func)),
     (18, (set 0 && b % 4 == 3) || (set 1 && b / 4 % 4 == 3) || (create && b / 16 % 4 == 3)),
     (19, set 2 && dl != 0 && (decide (dl < 2) || decide (250 < dl))),
     (23, spanned && (decide (c.byte 23 < 2) || decide (10 < c.byte 23))),
     (24, sized && (decide (c.u64 24 = 0) || (!spanned && create && decide (2 ^ 34 < c.u64 24)) || decide (2 ^ 46 < c.u64 24))),
     (40, keyed && (decide (c.u64 40 = 0) || decide (2 ^ 46 < c.u64 40))),
     (49, keyed && c.region == counterRegion && (c.byte 49 &&& 0x0E) != 0),
     (50, spanned && (decide (c.u16 50 = 0) || decide (4096 < c.u16 50)))]

/-- Length rule of a cipher mode (Table 11.1) is not a field range: it ends in `LENGTH` (Table 11.5). -/
def Cmd.jobRange (c : Cmd) : List Nat :=
  let m := c.byte 18
  failing
    [(18, decide (m < 1) || decide (4 < m)),
     (50, (m == 2 || m == 4) && (decide (c.byte 50 < 8) || decide (16 < c.byte 50)))]

/-- Events a counter may count, with the number of their instances (Table 17.3, R496). -/
def eventFits (ctr ev : Nat) : Option Nat :=
  if ev ≤ 0x004 then (if ctr < 256 then some 8 else none)
  else if 0x100 ≤ ev ∧ ev ≤ 0x103 then some 16
  else if 0x200 ≤ ev ∧ ev ≤ 0x20B then (if ctr < 128 ∨ 256 ≤ ctr then some 8 else none)
  else if ctr < 256 then none
  else if 0x300 ≤ ev ∧ ev ≤ 0x307 then some 256
  else if 0x400 ≤ ev ∧ ev ≤ 0x405 then some 24
  else if 0x500 ≤ ev ∧ ev ≤ 0x504 then some 160
  else if (0x600 ≤ ev ∧ ev ≤ 0x604) ∨ (0x700 ≤ ev ∧ ev ≤ 0x703) ∨ (0x800 ≤ ev ∧ ev ≤ 0x801) then some 256
  else none

/-- Fields of `PMC_CONFIG` out of range (R496, R497, R500). -/
def Dev.pmcRange (d : Dev) (c : Cmd) : List Nat :=
  let ctr := c.u16 18 % 512
  let ev := c.u16 20 % 4096
  let inst := c.u16 22
  let n := c.u32 36
  let per := c.u32 32
  let counts := (d.pmc.sels.find? (fun p => p.ctr == ctr)).any (fun p =>
    (decide (1 ≤ p.event) && decide (p.event ≤ 3)) || (decide (0x200 ≤ p.event) && decide (p.event ≤ 0x203)))
  if c.func = 0 then
    match eventFits ctr ev with
    | none => failing [(18, decide (320 ≤ ctr)), (20, true)]
    | some k => failing [(18, decide (320 ≤ ctr)), (22, inst / 256 == 0 && decide (k ≤ inst))]
  else if c.func = 1 then
    failing [(24, per != 0 && c.u64 24 % 4096 != 0),
      (32, per != 0 && (decide (per < 10) || decide (1000000 < per))),
      (36, per != 0 && (decide (n < 2) || decide (65536 < n)))]
  else if c.func = 2 then
    failing [(18, decide (320 ≤ ctr) || (per != 0 && !counts)
        || (per != 0 && decide (16 ≤ (d.pmc.samplers.filter (fun x => x.ctr != ctr)).length))),
      (36, per != 0 && n == 0)]
  else [16]

/-- Two extents of one region share a byte. -/
def overlaps (a b n : Nat) : Bool := decide (a < b + n) && decide (b < a + n)

/-- Fields of a body out of range, beside its reserved bytes. -/
def Dev.rangeBytes (d : Dev) (c : Cmd) : List Nat :=
  let size (rid : Nat) : Nat := match look d.rgn rid with | some r => r.size | none => 2 ^ 47
  let off64 (i : Nat) : Nat × Bool := (i, c.u64 i % 64 != 0)
  let past (i rid : Nat) : Bool := decide (size rid * plotBytes < c.u64 i + c.u64 40)
  let plots := (40, decide (size c.region < c.u64 24 + c.u64 40))
  if c.op = ocRegion then c.regionRange
  else if c.op = ocCopy then
    let rd := c.u16 18 % 4096
    failing [off64 24, (32, c.u64 32 % 64 != 0 || (c.region == rd && overlaps (c.u64 24) (c.u64 32) (c.u64 40))),
      (40, c.u64 40 % 64 != 0 || past 24 c.region || past 32 rd)]
  else if c.op = ocFill then failing [off64 24, (40, c.u64 40 % 64 != 0 || past 24 c.region)]
  else if c.op = ocHint then failing [(18, c.byte 18 == 3), plots]
  else if c.op = ocPin then failing [plots]
  else if c.op = ocScrub then
    if c.byte 18 = 0 then failing [(8, c.result == 0), plots]
    else
      let lines := d.setBytes (c.region % 32) / 64
      failing [(8, c.result == 0), (16, decide (24 ≤ c.u16 16)), (40, decide (lines < c.u64 24 + c.u64 40))]
  else if c.op = ocEvacuate then failing [(17, decide ((if c.func = 0 then 24 else 20) ≤ c.byte 17))]
  else if c.op = ocCommit then failing [(16, c.byte 16 == 3), (24, c.byte 16 == 1 && decide (c.u64 24 < d.now))]
  else if c.op = ocStage then failing [(32, c.u32 32 % 4096 != 0), (36, decide (2 ^ 24 < c.u32 36))]
  else if c.op = ocJob then c.jobRange
  else if c.op = ocLogFetch then failing [(18, decide (c.u16 18 = 0) || decide (4096 < c.u16 18))]
  else if c.op = ocPmc then d.pmcRange c
  else []

/-- Byte offset of the first field out of range or nonzero reserved byte of a descriptor, if there is one (Table 12.5). -/
def Dev.badField (d : Dev) (c : Cmd) : Option Nat :=
  let l := (if c.result % 64 = 0 then [] else [8]) ++ c.resvBytes ++ d.rangeBytes c
  match l with
  | [] => none
  | x :: r => some (r.foldl min x)

/-! ### Starting (R390, R396, R397) -/

/-- Every key slot, for a command that does not say beforehand which one it touches. -/
def anySlot : Nat := 4096

/-- The objects a command acts on: 0 region, 1 channel, 2 module, 3 key slot, 4 shadow bank, 5 firmware slots, with a number. -/
def Cmd.objects (c : Cmd) : List (Nat × Nat) :=
  if c.op = ocRegion then
    (0, c.region) :: (if c.byte 18 / 128 = 1 ∧ c.func = fnCreate then [(3, c.u16 20 % 4096)] else [])
  else if c.op = ocDestroy ∨ c.op = ocFill ∨ c.op = ocHint ∨ c.op = ocPin then [(0, c.region)]
  else if c.op = ocCopy then [(0, c.region), (0, c.u16 18 % 4096)]
  else if c.op = ocScrub then [if c.byte 18 = 0 then (0, c.region) else (1, c.region % 32)]
  else if c.op = ocEvacuate then [(1 + c.func, c.byte 17)]
  else if c.op = ocCommit then [(4, 0)]
  else if c.op = ocStage ∨ c.op = ocActivate ∨ c.op = ocConfirm then [(5, 0)]
  else if c.op = ocBlob then [(3, anySlot)]
  else if c.op = ocJob then [(3, c.region)]
  else []

/-- Two objects are one. -/
def sameObject (a b : Nat × Nat) : Bool := a.1 == b.1 && (a.2 == b.2 || (a.1 == 3 && (a.2 == anySlot || b.2 == anySlot)))

/-- An earlier command keeps a later one from starting: in its ring while it has not started or is a waiting command, or on an
object of both until it has taken effect. A commit that is checking or scheduled does not hold back another (R395, R400). -/
def Cmd.holdsBack (x c : Cmd) : Bool :=
  decide (x.id < c.id) && ((!x.sb && !c.sb && !x.mute && x.ring == c.ring && (!x.running || x.op == ocFlush || x.op == ocWait))
    || (!(x.running && x.op == ocCommit) && x.objects.any (fun a => c.objects.any (sameObject a))))

/-- A command may start now (R390, R401, R507). -/
def Dev.startable (d : Dev) (c : Cmd) : Bool :=
  d.serves && !c.running && !d.ring.cmds.any (fun x => x.holdsBack c)
    && (d.core.phaseADone || !lateOps.contains c.op)
    && (c.op != ocActivate || !d.ring.cmds.any (fun x => decide (x.id < c.id) && !x.sb))

/-- The command is answered `HELD` (Table 16.3). -/
def Dev.heldBack (d : Dev) (c : Cmd) : Bool :=
  let h := d.f FWM_STAT.HOLD
  (h != 0 && heldOps.contains c.op) || (h == 2 && heldData.contains c.op)

/-- Command `id`, of opcode `op` and accepted by `fits`, starts if its turn has come: a bad field or Hold answers it, else it
does `act`. -/
def Dev.startCmd (d : Dev) (id op : Nat) (fits : Cmd → Bool) (act : Dev → Cmd → Dev) : Dev :=
  match d.cmd id with
  | none => d
  | some c =>
    if c.op ≠ op ∨ ¬ fits c ∨ ¬ d.startable c then d
    else match d.badField c with
    | some i => d.complete c csBadField i
    | none =>
      if d.heldBack c then d.complete c csHeld
      else
        let c' := { c with running := true, started := d.clk }
        act (d.setCmd id (fun _ => c')) c'

/-! ### Discarding a commit (R409, R414) -/

/-- The transaction is Closed and its bank gone. -/
def Dev.closeCfx (d : Dev) : Dev :=
  { (d.fset CFX_CTL.STATE 0).fset CFX_CTL.HOLDER 0 with cfx := {} }

/-- The transaction is discarded; a commit of it completes `ABORTED` (R414). -/
def Dev.discardCfx (d : Dev) : Dev :=
  if d.f CFX_CTL.STATE = 0 then d
  else
    let c := d.cfx.cmdId.bind d.cmd
    let d := d.closeCfx.fset CFX_RESULT.OUTCOME 3
    match c with
    | some c => d.complete c csAborted
    | none => d

/-! ### Stopping a command (R398, R402) -/

/-- Five 64-bit counts of a scrub go to its result buffer (Table 12.7). -/
def Dev.scrubCounts (d : Dev) (c : Cmd) (counts : List Nat) : Dev :=
  d.send (.hostWrite c.result (counts.flatMap (leBytes 8)))

/-- A running command stops at its next boundary and completes `ABORTED` with its progress; how far a scrub or a self-test has
come is a free value (log entry 2). -/
def Dev.stopCmd (d : Dev) (c : Cmd) : Dev :=
  if c.op = ocCommit then d.discardCfx
  else if c.op = ocSealNow then
    ({ d with dur := { d.dur with sealNow := d.dur.sealNow.filter (fun x => x.1 != c.id) } }).complete c csAborted 0 0
  else if c.op = ocJob then
    ({ d with cph := { d.cph with jobs := d.cph.jobs.filter (fun j => j.cmdId != c.id) } }).complete c csAborted 0 0
  else if c.op = ocScrub then
    let at_ := d.fresh.toNat % (c.progress + 1)
    let bad := d.used.fresh.toNat
    ((d.used.used).scrubCounts c [at_, bad % (at_ + 1), 0, 0, 0]).complete c csAborted 0 at_
  else if c.op = ocShort ∨ c.op = ocExtended then
    let at_ := d.fresh.toNat % 2 ^ 63
    ({ d.used with age := { d.age with selftest := none, selfPaused := false } }).complete c csAborted 0 at_
  else if c.op = ocCopy ∨ c.op = ocFill then
    let own (o : Op) : Bool := o.cmd == some c.id
    let done (o : Op) : Bool := own o && o.kind.writes && (o.phase == .applied || o.phase == .posted)
    let n := ((d.hpt.ops.filter done).map (·.len)).foldl (· + ·) 0
    ((d.hpt.ops.filter (fun o => own o && !done o)).foldl Dev.abandon d).complete c csAborted 0 (c.progress + n)
  else d.complete c csAborted 0 c.progress

/-! ### The main side (R417, R419, R432) -/

/-- Holders of the transaction (`CFX_CTL`). -/
def holderHost : Nat := 1
def holderSide : Nat := 2

/-- `AUTHORITY` follows from the main side's absence and `GRANT` (R417). -/
def Dev.setAuthority (d : Dev) : Dev :=
  d.fset SBP_STAT.AUTHORITY (if d.on SBP_STAT.MAIN_ABSENT then 1 else if d.on CFX_CTL.GRANT then 2 else 0)

/-- An Open transaction of the side-band manager is discarded (R418, R432). -/
def Dev.dropSideBank (d : Dev) : Dev :=
  if d.f CFX_CTL.STATE = 1 ∧ d.f CFX_CTL.HOLDER = holderSide then d.discardCfx else d

/-- The main side is judged absent (R432). -/
def Dev.mainAbsent (d : Dev) : Dev :=
  if d.on SBP_STAT.MAIN_ABSENT then d
  else (((d.fset SBP_STAT.MAIN_ABSENT 1).setAuthority).raise (source 15 4) 2 0 1 0).inBand

/-- The main side is judged present again (R419, R432). -/
def Dev.mainPresent (d : Dev) : Dev :=
  if ¬ d.on SBP_STAT.MAIN_ABSENT then d
  else ((((d.fset SBP_STAT.MAIN_ABSENT 0).setAuthority).raise (source 15 4) 2 0 1 0).inBand).dropSideBank

end Sys2Proof.Machine
end

