-- ==== Sys2Proof/Machine/CphOps.lean ====
section
/-! DEFINITION. Key slots, blobs, regions that wait for a key, and the alarm (R361 to R378). -/

namespace Sys2Proof.Machine

/-- Result codes (Table 11.5). -/
def crOk : Nat := 0
def crTagFail : Nat := 1
def crKeyEmpty : Nat := 2
def crKeyUsage : Nat := 3
def crLength : Nat := 4
def crSlotBound : Nat := 5
def crAlarmed : Nat := 6

/-- DRBG states of `CPH_RNG_STAT`. -/
def rngReady : Nat := 2
def rngFailed : Nat := 3

/-- The DRBG answers (R377). -/
def Dev.rngUp (d : Dev) : Bool := d.f CPH_RNG_STAT.STATE == rngReady

/-- One DRBG request is counted towards the next seed (R377). -/
def Dev.rngUsed (d : Dev) : Dev := { d.used with cph := { d.cph with sinceSeed := d.cph.sinceSeed + 1 } }

/-- A draw for a starting PSN or a claim back-off (R378): of the DRBG while it is ready, else of the serial-seeded generator. -/
def Dev.drawn (d : Dev) : BitVec 64 :=
  if d.rngUp then d.fresh else Config.xorshift (d.f EVR_LIFE.PCYCLE) d.cph.xors

/-- The device after such a draw. -/
def Dev.drew (d : Dev) : Dev :=
  if d.rngUp then d.rngUsed else { d with cph := { d.cph with xors := d.cph.xors + 1 } }

/-- A whole generation of the settings store is written, one copy on each of its modules (R420, R421). -/
def Dev.writeStore (d : Dev) : Dev :=
  let d := (d.fset CFX_STORE.GENERATION (d.f CFX_STORE.GENERATION + 1)).fset CFX_STORE.COPIES 4
  { d with store := { d.store with valid := true, dirty := false } }

/-- A slot that holds a key is bound: a region or an enabled link names it (R363). -/
def Dev.slotBound (d : Dev) (n : Nat) : Bool :=
  (look d.cph.slots n).isSome && (d.rgn.any (fun r => r.2.ownSlot == some n) || d.linkSlots.contains n)

/-! ### Offline regions -/

/-- A region goes Offline; what it returns to is kept (Table 2.4, R368). -/
def Region.toOffline (r : Region) : Region :=
  if r.state = .offline ∨ r.state = .creating ∨ r.state = .destroying then r
  else { r with state := .offline, prior := some r.state }

/-- An Offline region returns to the state it had. -/
def Region.fromOffline (r : Region) : Region :=
  if r.state = .offline then { r with state := r.prior.getD .online, prior := none } else r

/-- Every region goes Offline (R373, Table 16.3). -/
def Dev.allOffline (d : Dev) : Dev := { d with rgn := d.rgn.map (fun k => (k.1, k.2.toOffline)) }

/-- Regions whose own key slot now holds a key return; no region does while an alarm or an offline Hold stands (R368, R373). -/
def Dev.regionsBack (d : Dev) (n : Nat) : Dev :=
  if d.cph.alarmed ∨ d.f FWM_STAT.HOLD = 2 then d
  else { d with rgn := d.rgn.map (fun k => (k.1, if k.2.ownSlot = some n then k.2.fromOffline else k.2)) }

/-- Regions whose own key slot is empty are Offline (R368). -/
def Dev.keylessOffline (d : Dev) : Dev :=
  let lost (r : Region) : Bool := r.ownSlot.any (fun n => (look d.cph.slots n).isNone)
  { d with rgn := d.rgn.map (fun k => (k.1, if lost k.2 then k.2.toOffline else k.2)) }

/-! ### Loading and erasing -/

/-- The supervisor holds a copy of the side-band key when the slot `AUTH_SLOT` names holds one fit for it (R430). -/
def Dev.copyAuth (d : Dev) : Dev :=
  let ok := (look d.cph.slots (d.f SBP_CFG.AUTH_SLOT)).any (fun s => s.usage == 4 && s.persist)
  { d with sbp := { d.sbp with authKey := ok } }

/-- A key stands in a slot: with PERSIST its blob goes to the settings store; what waited for the key goes on (R364, R368). -/
def Dev.loadSlot (d : Dev) (n : Nat) (k : Slot) : Dev :=
  let had := (look d.cph.blobs n).isSome
  let k := { k with blob := k.persist }
  let cph := { d.cph with
    slots := put d.cph.slots n k
    blobs := if k.persist then put d.cph.blobs n k else del d.cph.blobs n
    blobCtr := if k.persist then d.cph.blobCtr + 1 else d.cph.blobCtr }
  let d := { d with cph := cph }
  let d := if had || k.persist then d.writeStore else d
  let d := (if n = d.f SBP_CFG.AUTH_SLOT then d.copyAuth else d).regionsBack n
  let d := if d.twn.rekeyDue then d.twinRekey else d
  let d := if d.fab.rekeyDue then d.fabRekey else d
  d.pump

/-- Registers of a key cleared by a load (R364). -/
def Dev.clearKeyData (d : Dev) : Dev := (List.range 12).foldl (fun d i => d.fset (CPH_KEY_DATA.KEY i) 0) d

/-- The fields of `CPH_KEY_LOAD` that a write carries. -/
def Dev.keyFields (d : Dev) (v : Nat) : Dev :=
  (((d.fset CPH_KEY_LOAD.OP (bitsOf v 57 56)).fset CPH_KEY_LOAD.FLAGS (bitsOf v 33 32)).fset CPH_KEY_LOAD.USAGE
    (bitsOf v 27 24)).fset CPH_KEY_LOAD.SLOT (bitsOf v 11 0)

/-- GO with OP 00b: the key in `CPH_KEY_DATA` goes into the slot (R361 to R365). -/
def Dev.keyLoad (d : Dev) : Dev :=
  let n := d.f CPH_KEY_LOAD.SLOT
  let u := d.f CPH_KEY_LOAD.USAGE
  let fl := d.f CPH_KEY_LOAD.FLAGS
  if 0xF00 ≤ n ∨ d.slotBound n then d.illegal 8 (CPH_KEY_LOAD.GO.off / 4)
  else
    let words := (List.range (if u = 1 then 8 else 4)).map (fun i => BitVec.ofNat 64 (d.f (CPH_KEY_DATA.KEY i)))
    let d := d.clearKeyData
    if d.cph.alarmed then d.fset CPH_KEY_LOAD.RESULT crAlarmed
    else if u < 1 ∨ 4 < u then d.fset CPH_KEY_LOAD.RESULT crKeyUsage
    else (d.fset CPH_KEY_LOAD.RESULT crOk).loadSlot n { usage := u, persist := fl % 2 == 1, job := fl / 2 == 1, key := words }

/-- GO with OP 01b: the slot is erased, its blob with it (R363, R421). -/
def Dev.keyErase (d : Dev) : Dev :=
  let n := d.f CPH_KEY_LOAD.SLOT
  if 0xF00 ≤ n ∨ d.slotBound n then d.illegal 8 (CPH_KEY_LOAD.GO.off / 4)
  else
    let had := (look d.cph.blobs n).isSome
    let d := (d.fset CPH_KEY_LOAD.RESULT crOk).eraseSlot n
    let d := if had then d.writeStore else d
    if n = d.f SBP_CFG.AUTH_SLOT then d.copyAuth else d

/-- A write to `CPH_KEY_LOAD` (R364, Table 12.10). -/
def Dev.writeKeyLoad (d : Dev) (v : Nat) : Dev :=
  let go := decide (bitsOf v 63 63 = 1)
  if go ∧ d.on CPH_KEY_LOAD.BUSY then d.illegal 7 (CPH_KEY_LOAD.GO.off / 4)
  else
    let d := d.keyFields v
    if ¬ go then d else if bitsOf v 57 56 = 0 then d.keyLoad else if bitsOf v 57 56 = 1 then d.keyErase else d

/-- A blob is unwrapped into its slot; the result (R369). -/
def Dev.unwrap (d : Dev) (b : Blob) : Dev × Nat :=
  if d.cph.alarmed ∨ d.on CPH_ALARM.ACTIVE then (d, crAlarmed)
  else if ¬ b.tagOk ∨ ¬ d.cph.kek then (d.finc CPH_QSTAT.TAG_FAIL 1, crTagFail)
  else if d.slotBound b.slot then (d, crSlotBound)
  else (d.loadSlot b.slot { usage := b.usage, persist := b.flags % 2 == 1, job := b.flags / 2 % 2 == 1, key := b.key }, crOk)

/-! ### The alarm (R372, R373) -/

/-- Causes, by their bit of `CPH_ALARM`. -/
def alarmTamper : Nat := 0
def alarmGlitch : Nat := 1
def alarmTemp : Nat := 2
def alarmTest : Nat := 3

/-- The bit of a cause. -/
def alarmBit (cause : Nat) : Fld :=
  if cause = alarmTamper then CPH_ALARM.TAMPER else if cause = alarmGlitch then CPH_ALARM.GLITCH
  else if cause = alarmTemp then CPH_ALARM.TEMP else CPH_ALARM.SELFTEST

/-- Slots, KEK and DRBG state are erased, the side-band key's copy with them; the blobs stay at rest (R372, R374, R430). -/
def Dev.eraseKeys (d : Dev) : Dev :=
  let d := d.fset CPH_RNG_STAT.STATE 0
  { d with
    cph := { d.cph with slots := [], kek := false, sinceSeed := 0, alarmed := true }
    sbp := { d.sbp with authKey := false } }

/-- Waiting cipher jobs are discarded with `ALARMED` (R373). -/
def Dev.dropJobs (d : Dev) : Dev :=
  let js := d.cph.jobs
  let d := { d with cph := { d.cph with jobs := [] } }
  js.foldl (fun d j => match d.cmd j.cmdId with | some c => d.complete c csCipher crAlarmed | none => d) d

/-- The alarm acts (R372, R373). -/
def Dev.alarm (d : Dev) (cause : Nat) : Dev :=
  let d := (d.fset (alarmBit cause) 1).eraseKeys
  let d := d.raise (source 14 0) 6 0 cause 0
  if ¬ d.coreOn then d
  else
    let d := ((d.dropJobs).setStatus .down).heartbeat
    let d := d.liveLinks.foldl Dev.fabDown (if d.twn.linkUp then d.twinDown else d)
    ((d.fset HPT_CM_CTL.ACCEPT 0).allOffline).pump

/-! ### Cipher jobs (R359, R362, R371) -/

/-- Why a job is refused before any byte is moved (Table 11.5). -/
def Dev.jobBar (d : Dev) (c : Cmd) : Option Nat :=
  let n := c.region
  let m := c.byte 18
  let len := c.u32 20
  if d.cph.alarmed then some crAlarmed
  else if 0xF00 ≤ n then some crKeyUsage
  else match look d.cph.slots n with
  | none => some crKeyEmpty
  | some s =>
    if ¬ s.job ∨ s.usage ≠ m then some crKeyUsage
    else if (m = 1 ∧ (len < 16 ∨ 2 ^ 24 < len)) ∨ (m = 3 ∧ len = 0) ∨ 2 ^ 31 < len then some crLength else none

/-- The job's bytes are moved; a source that could not be read whole ends it in `DMA_FAULT` (R371, R380). -/
def Dev.runJob (d : Dev) (c : Cmd) (src aux : List Byte) : Dev :=
  let m := c.byte 18
  let dec := c.byte 19 == 1
  let len := c.u32 20
  let aad := if m = 2 then c.u16 48 else 0
  let tag := if m = 2 ∨ m = 4 then c.byte 50 else 0
  let key := ((look d.cph.slots c.region).map (·.key)).getD []
  let d := (d.count 0x800 0 1).count 0x801 0 len
  if src.length < len then d.complete c csDmaFault 0 (c.u64 24)
  else if aux.length < (if m = 4 then 0 else 16) + aad + (if dec then tag else 0) then d.complete c csDmaFault 0 (c.u64 40)
  else
    let d := d.finc CPH_QSTAT.JOBS 1
    if dec ∧ tag ≠ 0 ∧ ¬ Config.tagMatches m key (src.take len) aux then (d.finc CPH_QSTAT.TAG_FAIL 1).complete c csCipher crTagFail
    else
      let out := Config.cipher m dec key (src.take len) aux
      let d := if m = 4 then d else d.send (.hostWrite (c.u64 32) (out.take len))
      let d := if tag = 0 ∨ dec then d
        else d.send (.hostWrite (c.u64 40 + 16 + aad) ((if m = 4 then out else out.drop len).take tag))
      d.complete c csDone 0 len

end Sys2Proof.Machine
end

