-- ==== Sys2Proof/Machine/Verbs.lean ====
section
/-! DEFINITION. Commands of the host verbs (spec/04_memory_verbs.md): request packets, deadlines, durability, fences and the
loading of cold connections. -/

namespace Sys2Proof.Machine

/-! ### Ingress (R78 to R83, R93) -/

/-- Priority of a DSCP (R80). -/
def Dev.dscpPri (d : Dev) (dscp : Nat) : Nat := d.f (HPT_DSCP_MAP.PRI (dscp / 16) (dscp % 16)) % 8

/-- A priority is lossless. -/
def Dev.lossless (d : Dev) (pri : Nat) : Bool := d.fbit HPT_PFC_CTL.LOSSLESS pri

/-- Occupancy of a port's share of the ingress buffer: pause is sent at `XOFF_KIB`, and ended below half of it (R81). -/
def Dev.ingress (d : Dev) (port pri occ : Nat) : Dev :=
  let d := d.setPort port (fun p => { p with occKib := occ })
  let x := d.f HPT_PFC_CTL.XOFF_KIB
  let on := (look (d.port port).pausing pri).isSome
  if d.lossless pri ∧ x ≤ occ ∧ ¬ on then
    ((d.send (.pause port pri (d.f HPT_PFC_CTL.QUANTA))).count 0x304 port 1).setPort port (fun p =>
      { p with pausing := put p.pausing pri d.clk })
  else if on ∧ occ * 2 < x then
    ((d.send (.pause port pri 0)).count 0x304 port 1).setPort port (fun p => { p with pausing := del p.pausing pri })
  else d

/-- A packet the device drops and counts in `CONN_STALE` (R93, R209). -/
def Dev.dropStale (d : Dev) : Dev := d.finc HPT_DROP_CNT.CONN_STALE 1

/-- A packet of a lossless priority lost to a full ingress buffer is counted and raises an event (R81). -/
def Dev.lostPacket (d : Dev) (port pri : Nat) : Dev :=
  if d.lossless pri then (d.setPort port (fun p => { p with drops := p.drops + 1 })).raise (source 8 1) 2 0 port 0 else d

/-- The frame is taken: at most one VLAN tag, no longer than 9216 B, RoCEv2's UDP port, a right invariant CRC (R78). -/
def frameTaken (f : Frame) : Bool := decide (f.tags ≤ 1) && decide (f.size ≤ 9216) && f.udp == 4791 && f.icrc

/-- Priority of a CNP: the highest lossless one, or that of the marked packet where none is lossless (R83). -/
def Dev.cnpPri (d : Dev) (pri : Nat) : Nat := (((List.range 8).reverse).find? d.lossless).getD pri

/-- A congestion notification packet for a marked request, at most one in each `CNP_GAP_US` (R83). -/
def Dev.notify (d : Dev) (c pri : Nat) : Dev :=
  let ok := match (d.conn c).lastCnpTx with
    | none => true
    | some t => t + d.f HPT_CC_CTL.CNP_GAP_US * 1000 ≤ d.clk
  if ok then
    let p := d.cnpPri pri
    ((d.egress (d.conn c).port { pri := p, outs := [.cnp c p] }).count 0x306 (d.conn c).port 1).setConn c (fun x =>
      { x with lastCnpTx := some d.clk })
  else d

/-! ### The request's message -/

/-- The request as an operation with no tag: what an answer before admission needs. -/
def Dev.draft (d : Dev) (c stamp : Nat) (q : Req) (a : Ask) : Op :=
  let mtu := max 1 (d.conn c).mtu
  let span := if a.kind = .read then max 1 (ceilDiv q.len mtu) else 1
  let len := match a.kind with
    | .cmpSwap | .fetchAdd | .atomicWrite => 8
    | _ => q.len
  { id := 0, conn := c, psn := q.psn, endPsn := (q.psn + span - 1) % 2 ^ 24, kind := a.kind, rkey := q.rkey, off := q.va,
    len := len, data := a.data, cmp := a.cmp, swp := a.swp, imm := a.imm, stamp := stamp, epoch := d.epochOf stamp,
    dl := deadline stamp (if (d.conn c).dlHdr then q.dl else none) (d.deadlineUs q.rkey a.kind), phase := .ingress,
    whole := a.part == .only, multi := a.part == .first, pri := d.dscpPri q.dscp, dscp := q.dscp, tgt := a.tgt, cnt := a.cnt,
    toAdmit := if a.kind = .write then lineBytes a.data.length else costOf a.kind q.len }

/-- What checks 1 to 7 of Table 2.3 answer a request at its stamp; a zero-length READ or WRITE and the queries that name no region
meet none (R115, R122). -/
def Dev.verdict (d : Dev) (o : Op) : Option Status :=
  if (o.kind = .read ∨ o.kind = .write) ∧ o.len = 0 ∨ o.kind = .sealQuery ∨ o.kind = .fenceCount then none
  else d.checkAccess o.rkey o.kind o.off o.len o.stamp

/-- Responses the request would put in flight exceed the responder resources granted (R103, R122). -/
def Dev.resExceeded (d : Dev) (c : Nat) (k : OpKind) : Bool :=
  k.responder && decide ((d.conn c).resp ≤ (d.hpt.ops.filter (fun o => o.conn == c && o.kind.responder)).length
    + (d.hpt.ingress.filter (fun e => e.o.conn == c && e.o.kind.responder)).length)

/-- The headers are not those R109 gives the request. -/
def Dev.badHeaders (d : Dev) (c : Nat) (q : Req) (a : Ask) : Bool :=
  q.malformed || q.hdrs.any (fun h =>
    h != requestHeaders a.kind (a.part == .first || a.part == .only) a.imm.isSome (d.conn c).dlHdr (!a.data.isEmpty))

/-- The conditions of order 4 of Table 4.5. -/
def Dev.invalid (d : Dev) (c : Nat) (q : Req) (a : Ask) : Bool :=
  d.badHeaders c q a || decide (2 ^ 31 < q.len)
    || ((a.kind == .cmpSwap || a.kind == .fetchAdd || a.kind == .atomicWrite) && decide (q.va % 8 ≠ 0))
    || (a.kind.extension && !(d.conn c).stHdr) || d.resExceeded c a.kind

/-- NAK 61h: the connection enters Error, or stays Draining (R108, R534); a responder-resource violation is an event (R103). -/
def Dev.nakInvalidReq (d : Dev) (o : Op) : Dev :=
  let d := if d.resExceeded o.conn o.kind then d.raise (source 9 1) 2 0 (d.conn o.conn).lantern 0 else d
  d.reply o { st := .protocolNak, nak := nakInvalid }

/-! ### Duplicates (R142) -/

/-- A duplicate: acknowledged again with its original status header, answered from the cache, or executed again. -/
def Dev.duplicate (d : Dev) (o : Op) (a : Ask) : Dev :=
  let c := d.conn o.conn
  let again := c.acked.find? (fun r => r.psn == o.psn)
  match a.kind with
  | .write | .atomicWrite =>
    match again with
    | none => d
    | some r => d.emit r
  | .cmpSwap | .fetchAdd =>
    match look c.atomics o.psn, again with
    | some _, some r => d.emit r
    | _, _ =>
      if d.hpt.ops.any (fun x => x.conn == o.conn && x.psn == o.psn)
        ∨ d.hpt.ingress.any (fun e => e.o.conn == o.conn && e.o.psn == o.psn) then d
      else d.dropStale
  | .read | .flush | .fenceCount | .sealQuery | .regionInfo =>
    let o := { o with dup := true }
    d.pushIngress { o := o, msg := o.psn, verdict := d.verdict o }

/-! ### The order of a connection (Table 4.5) -/

/-- The PSN awaited after this packet (R115, R116). -/
def Dev.advance (d : Dev) (o : Op) : Dev :=
  d.setConn o.conn (fun c => { c with ePsn := (o.endPsn + 1) % 2 ^ 24, nakSent := false, rnrPsn := none })

/-- A PSN beyond the expected one: NAK 60h once, or nothing while a PSN answered by RNR NAK is awaited (R127). -/
def Dev.beyond (d : Dev) (o : Op) : Dev :=
  let c := d.conn o.conn
  if c.nakSent ∨ c.rnrPsn.isSome then d
  else
    (d.setConn o.conn (fun c => { c with nakSent := true })).emit
      { conn := o.conn, psn := c.ePsn, pri := o.pri, dscp := o.dscp, hdr := c.stHdr, status := .protocolNak, aeth := nakSeq }

/-- The first valid request makes an Offered connection Ready (R89). -/
def Dev.madeReady (d : Dev) (c : Nat) : Dev :=
  d.setConn c (fun x =>
    { x with state := if x.state = .offered then .ready else x.state, since := if x.state = .offered then d.clk else x.since })

/-- Bytes of a message do not fit what its RETH announced. -/
def OpenMsg.wrong (m : OpenMsg) (a : Ask) : Bool :=
  let got := m.got + a.data.length
  if a.part = .last then got != m.len else decide (m.len ≤ got)

/-- A further packet of a message as it waits in the ingress buffer: its stamp is the message's where it is the Last (R59, R131). -/
def Dev.further (d : Dev) (o : Op) (m : OpenMsg) (a : Ask) : IngPkt :=
  let dl := if (d.conn o.conn).dlHdr then m.dlHdr else none
  let o := { o with rkey := m.rkey, off := m.va, len := m.len, dl := deadline o.stamp dl (d.deadlineUs m.rkey .write) }
  { o := o, part := a.part, msg := m.psn, verdict := if a.part = .last then d.verdict o else none }

/-- The expected packet, past orders 1 to 3 of Table 4.5: it enters the ingress buffer, where order 5 is met (R105, R115). -/
def Dev.expected (d : Dev) (o : Op) (q : Req) (a : Ask) (v : Option (Option Status)) : Dev :=
  let m := (d.conn o.conn).openMsg
  let inMsg := a.part == .middle || a.part == .last
  if d.invalid o.conn q a || (inMsg != m.isSome) || (inMsg && m.any (fun m => m.wrong a)) then
    (d.advance o).nakInvalidReq o
  else
    let d := (d.madeReady o.conn).advance o
    match m with
    | some m =>
      let m' : OpenMsg := { m with got := m.got + a.data.length }
      (d.pushIngress (d.further o m a)).setConn o.conn (fun c => { c with openMsg := if a.part = .last then none else some m' })
    | none =>
      let d := d.pushIngress { o := o, part := a.part, msg := o.psn, verdict := v.getD (d.verdict o) }
      if a.part = .first then
        let m : OpenMsg := { psn := o.psn, rkey := o.rkey, va := o.off, len := o.len, got := o.data.length, dlHdr := q.dl }
        d.setConn o.conn (fun c => { c with openMsg := some m })
      else d

/-- A request packet with the state of its connection at hand meets orders 2 to 4 of Table 4.5 (R115); an opcode that is not of
Table 4.1 is refused on the expected PSN, and a duplicate of it is of no kind that R142 names (R108). -/
def Dev.packet (d : Dev) (p : ColdPkt) : Dev :=
  let k := (p.q.psn + 2 ^ 24 - (d.conn p.c).ePsn) % 2 ^ 24
  match p.a with
  | some a =>
    let o := d.draft p.c p.stamp p.q a
    if k = 0 then d.expected o p.q a p.verdict else if 2 ^ 23 ≤ k then d.duplicate o a else d.beyond o
  | none =>
    let o := d.draft p.c p.stamp p.q { kind := .write }
    if k = 0 then (d.advance o).nakInvalidReq o else if 2 ^ 23 ≤ k then d else d.beyond o

/-! ### Arrival -/

/-- A request packet names no open connection, or one that takes no requests (R93, Table 3.5). -/
def Dev.closedTo (d : Dev) (qpn : Nat) : Bool :=
  let x := d.conn (qpn % 65536)
  !(x.state == .offered || x.state == .ready) || x.cgen.toNat != qpn / 65536

/-- A request packet arrives (R78 to R83, R93, R96, R115); one whose connection is cold waits for its state. -/
def Dev.arrive (d : Dev) (q : Req) (a : Option Ask) : Dev :=
  let pri := d.dscpPri q.dscp
  if d.dur.saving then d.dropStale
  else if ¬ (d.port q.port).up ∨ ¬ frameTaken q.fr then d
  else if q.lost then d.lostPacket q.port pri
  else
    let d := d.ingress q.port pri q.occ
    let c := q.qpn % 65536
    if d.closedTo q.qpn then (d.dropStale).count 0x20B 0 1
    else
      let d := (if q.ce then d.notify c pri else d).setConn c (fun x => { x with lastAct := d.clk })
      let p : ColdPkt := { c := c, q := q, a := a, stamp := d.now }
      if (d.conn c).hot then (d.packet p).pump
      else
        let v := match a with
          | some x => if x.part = .middle ∨ x.part = .last then none else some (d.verdict (d.draft c d.now q x))
          | none => none
        let d := d.wake (d.conn c).lantern
        { d with hpt := { d.hpt with cold := d.hpt.cold ++ [{ p with verdict := v }] } }

/-- A self-test leaves the resources that work appears on (R399). -/
def Dev.pauseTest (d : Dev) : Dev :=
  if d.age.selftest.isSome then { d with age := { d.age with selfPaused := true } } else d

/-- A request of one of the verbs arrives. -/
def Dev.request (d : Dev) (q : Req) (a : Ask) : Dev := d.pauseTest.arrive q (some a)

/-! ### The commands -/

/-- RDMA_WRITE_FIRST (R117). -/
def execRdmaWriteFirst (t : Nat) (q : Req) (data : List Byte) (s : State) : Host.Outcome State Fault Refusal :=
  s.run t fun d => d.request q { kind := .write, part := .first, data := data }

/-- RDMA_WRITE_MIDDLE (R117). -/
def execRdmaWriteMiddle (t : Nat) (q : Req) (data : List Byte) (s : State) : Host.Outcome State Fault Refusal :=
  s.run t fun d => d.request q { kind := .write, part := .middle, data := data }

/-- RDMA_WRITE_LAST (R117). -/
def execRdmaWriteLast (t : Nat) (q : Req) (data : List Byte) (s : State) : Host.Outcome State Fault Refusal :=
  s.run t fun d => d.request q { kind := .write, part := .last, data := data }

/-- RDMA_WRITE_ONLY (R117). -/
def execRdmaWriteOnly (t : Nat) (q : Req) (data : List Byte) (s : State) : Host.Outcome State Fault Refusal :=
  s.run t fun d => d.request q { kind := .write, part := .only, data := data }

/-- RDMA_WRITE_LAST_WITH_IMMEDIATE (R118). -/
def execRdmaWriteLastWithImmediate (t : Nat) (q : Req) (data : List Byte) (imm : BitVec 32) (s : State) :
    Host.Outcome State Fault Refusal :=
  s.run t fun d => d.request q { kind := .write, part := .last, data := data, imm := some imm }

/-- RDMA_WRITE_ONLY_WITH_IMMEDIATE (R118). -/
def execRdmaWriteOnlyWithImmediate (t : Nat) (q : Req) (data : List Byte) (imm : BitVec 32) (s : State) :
    Host.Outcome State Fault Refusal :=
  s.run t fun d => d.request q { kind := .write, part := .only, data := data, imm := some imm }

/-- COMPARE_SWAP (R119). -/
def execCompareSwap (t : Nat) (q : Req) (cmp swp : BitVec 64) (s : State) : Host.Outcome State Fault Refusal :=
  s.run t fun d => d.request q { kind := .cmpSwap, cmp := cmp, swp := swp }

/-- FETCH_ADD (R119). -/
def execFetchAdd (t : Nat) (q : Req) (add : BitVec 64) (s : State) : Host.Outcome State Fault Refusal :=
  s.run t fun d => d.request q { kind := .fetchAdd, swp := add }

/-- FLUSH_VERB (R121). -/
def execFlushVerb (t : Nat) (q : Req) (s : State) : Host.Outcome State Fault Refusal :=
  s.run t fun d => d.request q { kind := .flush }

/-- ATOMIC_WRITE (R120). -/
def execAtomicWrite (t : Nat) (q : Req) (word : BitVec 64) (s : State) : Host.Outcome State Fault Refusal :=
  s.run t fun d => d.request q { kind := .atomicWrite, swp := word, data := leBytes 8 word.toNat }

/-- FENCE_COUNT (R124). -/
def execFenceCount (t : Nat) (q : Req) (tgt : Nat) (n : BitVec 32) (s : State) : Host.Outcome State Fault Refusal :=
  s.run t fun d => d.request q { kind := .fenceCount, tgt := tgt, cnt := n }

/-- SEAL_QUERY (R125). -/
def execSealQuery (t : Nat) (q : Req) (s : State) : Host.Outcome State Fault Refusal :=
  s.run t fun d => d.request q { kind := .sealQuery }

/-- REGION_INFO (R126). -/
def execRegionInfo (t : Nat) (q : Req) (s : State) : Host.Outcome State Fault Refusal :=
  s.run t fun d => d.request q { kind := .regionInfo }

/-- UNSUPPORTED_OPCODE (R108): order 4 of Table 4.5. -/
def execUnsupportedOpcode (t : Nat) (q : Req) (s : State) : Host.Outcome State Fault Refusal :=
  s.run t fun d => d.arrive q none

/-! ### Deadlines (R131 to R134) -/

/-- Default hint of an operation answered at D (R133). -/
def Dev.defaultHint (d : Dev) (o : Op) : Nat := d.deadlineUs o.rkey o.kind

/-- Die reads of an operation are cancelled with it. -/
def Dev.cancelReads (d : Dev) (id : Nat) : Dev :=
  { d with hth := { d.hth with dies := d.hth.dies.map (fun k => (k.1, { k.2 with reads := k.2.reads.filter (· != id) })) } }

/-- Busy-time figure of an array operation of a die in ns (Table 10.1): pSLC program, native program, erase. -/
def busyFigure (k : Nat) : Nat := if k = 0 then 120000 else if k = 1 then 2500000 else 10000000

/-- Remaining busy time in µs of a die that programs or erases while the operation's read waits on it, at least 1 (R138, R346). -/
def Dev.dieHint (d : Dev) (id : Nat) : Option Nat :=
  ((d.hth.dies.filter (fun k => k.2.reads.contains id)).filterMap (fun k => k.2.busy)).foldl (fun h b =>
    if 3 ≤ b.1 then h else
      let us := max 1 (ceilDiv (b.2 + busyFigure b.1 - d.clk) 1000)
      some (max us (h.getD 0))) none

/-- What an operation whose deadline has come is answered with: REDIRECT for a READ or extension query of a mirrored region while
the link is up, no failure is declared and the peer has reported a service GID; RETRY_AFTER otherwise. The hint is the busy time
of its die, else the estimate `est` of the migration or the governor, else the default (R133, R138, R231). -/
def Dev.lateAnswer (d : Dev) (o : Op) (est : Option Nat) : Answer :=
  let us := (d.dieHint o.id).getD (est.getD (d.defaultHint o))
  if (o.kind = .read ∨ o.kind = .regionInfo) ∧ (look d.rgn o.rid).any (fun r => r.mirrored) ∧ d.on TWN_CFG.ENABLE
      ∧ d.twn.linkUp ∧ ¬ d.twn.declared ∧ (d.redirectGid o.rid).isSome then d.redirect o.rid us
  else { st := .retryAfter, us := us }

/-- An expiry is counted (R133, Table 17.3). -/
def Dev.countExpired (d : Dev) (c : Nat) : Dev := (d.finc HPT_DL_CNT.EXPIRED 1).count 0x205 (d.conn c).lantern 1

/-- An operation meets its deadline before its egress commit (R133, R134, R218, R284). -/
def Dev.expire (d : Dev) (o : Op) (est : Option Nat) : Dev :=
  if d.canDurable o then d.makeDurable o
  else if o.kind = .fenceCount ∧ d.fencePasses o then d.finishFence o
  else if o.phase = .applied ∨ o.phase = .posted then d.setOp o.id (fun x => { x with late := true })
  else if o.phase = .forwarded ∧ (o.kind = .cmpSwap ∨ o.kind = .fetchAdd) then d
  else if ¬ o.hosted then d
  else
    let a := d.lateAnswer o est
    let d := (d.countExpired o.conn).cancelReads o.id
    (if o.kind.writes then d.undo o else d).answer o a

/-- The request at the head of a message in the ingress buffer has no tag; `DEADLINE_EXPIRY` names it by this number, above every
tag: its connection and its PSN (log entry 77). -/
def waitingId (conn psn : Nat) : Nat := 2 ^ 40 + conn * 2 ^ 24 + psn

/-- Deadline of a message whose First packet is admitted or waits: that of its Last packet, once it has come (R131). -/
def Dev.lastDue (d : Dev) (conn psn : Nat) : Option Nat :=
  (d.hpt.ingress.find? (fun e => e.o.conn == conn && e.msg == psn && e.part == .last && !e.o.dup)).map (fun e => e.o.dl)

/-- Deadline of an operation; none while its message is not complete. -/
def Dev.dueAt (d : Dev) (o : Op) : Option Nat := if o.whole then some o.dl else d.lastDue o.conn o.psn

/-- A request that waits in the ingress buffer meets its deadline: it and the rest of its message leave with the answer (R105,
R133). -/
def Dev.expireWaiting (d : Dev) (e : IngPkt) (est : Option Nat) : Dev :=
  let a := d.lateAnswer e.o est
  let d := d.countExpired e.o.conn
  let d := { d with hpt := { d.hpt with ingress := d.hpt.ingress.filter (fun (x : IngPkt) =>
    x != e && !(x.o.conn == e.o.conn && x.msg == e.msg && (x.part == Part.middle || x.part == Part.last))) } }
  d.reply e.o a

/-- DEADLINE_EXPIRY (R133): the timer of an operation that is still in flight, or of a request that waits, reaches D. -/
def execDeadlineExpiry (t op : Nat) (est : Option Nat) (s : State) : Host.Outcome State Fault Refusal :=
  s.run t fun d =>
    match d.op op with
    | some o => if o.cmd.isSome ∨ ¬ (d.dueAt o).any (fun x => x ≤ d.now) then d else (d.expire o est).pump
    | none =>
      match d.hpt.ingress.find? (fun e => (e.part == .only || e.part == .first) && waitingId e.o.conn e.o.psn == op) with
      | none => d
      | some e =>
        let due := if e.part = .first then d.lastDue e.o.conn e.o.psn else some e.o.dl
        if due.any (fun x => x ≤ d.now) then (d.expireWaiting e est).pump else d

/-- An internal completion whose tag generation is stale is dropped and counted (R101, R143). -/
def Dev.staleTag (d : Dev) : Dev := d.finc HPT_DROP_CNT.TAG_STALE 1

/-- WRITE_DURABLE (R128): the write is visible, answered, and what waited for it goes on. -/
def execWriteDurable (t op : Nat) (s : State) : Host.Outcome State Fault Refusal :=
  s.run t fun d =>
    match d.op op with
    | none => d.staleTag
    | some o => if d.canDurable o then (d.makeDurable o).pump else d

/-- FENCE_COUNT_REACHED (R124). -/
def execFenceCountReached (t op : Nat) (s : State) : Host.Outcome State Fault Refusal :=
  s.run t fun d =>
    match d.op op with
    | none => d.staleTag
    | some o => if o.kind = .fenceCount ∧ o.phase = .fenced ∧ d.fencePasses o then (d.finishFence o).pump else d

/-- Hot slots of a transport lantern (R95). -/
def hotSlots : Nat := 2048

/-- Hot connections of a lantern. -/
def Dev.hotOf (d : Dev) (l : Nat) : List (Nat × Conn) := d.hpt.conns.filter (fun c => c.2.hot && c.2.lantern == l)

/-- The hot connection evicted: the least recently active one with no operation in flight or waiting (R96). -/
def Dev.coldVictim (d : Dev) (l : Nat) : Option Nat :=
  let idle (c : Nat) : Bool := !d.hpt.ops.any (fun o => o.conn == c) && !d.hpt.ingress.any (fun e => e.o.conn == c)
  (((d.hotOf l).filter (fun c => idle c.1)).foldl (fun (best : Option (Nat × Conn)) c =>
    match best with
    | none => some c
    | some b => if c.2.lastAct < b.2.lastAct then some c else some b) none).map (·.1)

/-- The packets that waited for a connection's state go on, oldest first; those it no longer takes are dropped (R93, R96). -/
def Dev.thawPackets (d : Dev) (c : Nat) : Dev :=
  let mine := d.hpt.cold.filter (fun p => p.c == c)
  let d := { d with hpt := { d.hpt with cold := d.hpt.cold.filter (fun p => p.c != c) } }
  mine.foldl (fun d p => if d.closedTo p.q.qpn then d.dropStale else d.packet p) d

/-- The state of a connection is loaded for the packets that wait for it. -/
def Dev.loadCold (d : Dev) (c : Nat) : Dev :=
  (((d.setConn c (fun c => { c with hot := true })).count 0x207 (d.conn c).lantern 1).thawPackets c).pump

/-- COLD_STATE_LOAD (R96): a packet waits for the state of a cold connection; it is loaded into a free slot or the victim's, and
the packet goes on; with every slot in use it waits. -/
def execColdStateLoad (t conn : Nat) (s : State) : Host.Outcome State Fault Refusal :=
  s.run t fun d =>
    let c := d.conn conn
    if c.hot ∨ ¬ d.hpt.cold.any (fun p => p.c == conn) ∨ ¬ d.lanternUp c.lantern then d
    else if (d.hotOf c.lantern).length < hotSlots then d.loadCold conn
    else match d.coldVictim c.lantern with
    | none => d
    | some v => (d.setConn v (fun c => { c with hot := false })).loadCold conn

end Sys2Proof.Machine
end

