-- ==== Sys2Proof/Machine/Conn.lean ====
section
/-! DEFINITION. Commands of the connection manager and of the connections' timers (R85 to R100, R534). -/

namespace Sys2Proof.Machine

/-! ### REQ (R86 to R92) -/

/-- Reasons of REJ as the model numbers them: the orders of Table 3.2, and 7 for a timeout (R86, R89, log entry 17). -/
def rejTimeout : Nat := 7

/-- A GID stands in the table of a port (R78, Table 3.2). -/
def Dev.ownGid (d : Dev) (port gid : Nat) : Bool := gid != 0 && (List.range 16).any (fun i => d.f (HPT_GID.GID port i) == gid)

/-- The GID is one adopted from the failed twin (R251). -/
def Dev.adoptedGid (d : Dev) (gid : Nat) : Bool := d.twn.adopted.any (fun a => d.f (TWN_PEER_GID.GID a.1) == gid)

/-- A connection index can be allocated: one never yet used, or one freed (R92, R95). -/
def Dev.freeIndex (d : Dev) : Option Nat :=
  if d.hpt.nextIdx < 65536 then some d.hpt.nextIdx else d.hpt.freed.head?

/-- Connection indices that are free. -/
def Dev.freeCount (d : Dev) : Nat := 65536 - d.hpt.nextIdx + d.hpt.freed.length

/-- The first condition of Table 3.2 that holds, for a REQ with `ahead` others before it in the contest for indices (R90). -/
def Dev.refuseReq (d : Dev) (r : CmReq) (ahead : Nat) : Option Nat :=
  if ¬ d.on HPT_CM_CTL.ACCEPT ∨ ¬ d.tim.valid then some 1
  else if r.service.toNat ≠ d.f HPT_CM_SVC.SERVICE_ID then some 2
  else if ¬ r.rc then some 3
  else if ¬ d.ownGid r.port r.gid then some 4
  else if d.freeCount ≤ ahead then some 5
  else if r.mtu < 1024 then some 6
  else none

/-- The offer and grant block of Table 3.3 as its fields: MAGIC, VERSION, FLAGS, WEIGHT, FABRIC_ID. -/
structure Offer where
  magic : Nat := 0
  version : Nat := 0
  flags : Nat := 0
  weight : Nat := 0
  fabricId : Nat := 0
  deriving DecidableEq, Repr

/-- The block a REQ's private data carries in its first 16 bytes, little-endian; bytes that are not there read 0 (R87). -/
def Offer.ofBytes (b : List Byte) : Offer :=
  let num (at_ n : Nat) : Nat := ofLeBytes ((b.drop at_).take n)
  { magic := num 0 4, version := num 4 1, flags := num 5 1, weight := num 6 1, fabricId := num 8 2 }

/-- The 16 bytes of a block, its reserved bytes 0 (Table 3.3). -/
def Offer.bytes (o : Offer) : List Byte :=
  leBytes 4 o.magic ++ leBytes 1 o.version ++ leBytes 1 o.flags ++ leBytes 1 o.weight ++ leBytes 1 0
    ++ leBytes 2 (o.fabricId % 4096) ++ leBytes 6 0

/-- MAGIC of Table 3.3. -/
def offerMagic : Nat := 0x4C524C47

/-- The offer a REQ makes: MAGIC and a VERSION other than 0 (R88). -/
def offerOf (r : CmReq) : Option Offer :=
  let o := Offer.ofBytes r.priv
  if o.magic = offerMagic ∧ o.version ≠ 0 then some o else none

/-- What the device grants: the offer's headers and its weight, 0 taken as 1 and capped at `WMAX` (R88). -/
def Dev.grant (d : Dev) (o : Offer) : Offer :=
  { magic := offerMagic, version := 1, flags := o.flags % 4, weight := min (max 1 o.weight) (d.f HPT_FAIR_CTL.WMAX),
    fabricId := d.selfId }

/-- Path MTU granted: the lower of the REQ's and 4096 (R89), of the three of R79. -/
def mtuOf (m : Nat) : Nat := if 4096 ≤ m then 4096 else if 2048 ≤ m then 2048 else 1024

/-- The generation of an index at its next allocation: from FFh to 01h (R92). -/
def nextCgen (g : BitVec 8) : BitVec 8 := if g = 255 then 1 else g + 1

/-- Index `i` is taken from the free ones. -/
def Dev.takeIndex (d : Dev) (i : Nat) : Dev :=
  if i = d.hpt.nextIdx then { d with hpt := { d.hpt with nextIdx := d.hpt.nextIdx + 1 } }
  else { d with hpt := { d.hpt with freed := rem d.hpt.freed i } }

/-- A lantern has a hot slot that holds no connection (R89). -/
def Dev.hotRoom (d : Dev) (l : Nat) : Bool := decide ((d.hotOf l).length < hotSlots)

/-- A connection manager message leaves on a port, on the priority of what it answers (R80, R81). -/
def Dev.sendCm (d : Dev) (port pri : Nat) (kind : CmKind) (fields : List Nat) (priv : List Byte := []) : Dev :=
  d.egress port { pri := pri, outs := [.cm port kind fields priv] }

/-- REP: the connection is Offered and the offer granted; without an offer it has no headers and weight 1 (R87 to R92). -/
def Dev.acceptReq (d : Dev) (r : CmReq) (i : Nat) : Dev :=
  let g := nextCgen (lookD d.hpt.cgens i 0)
  let l := r.port / 32
  let grant := (offerOf r).map d.grant
  let dl := grant.any (fun o => o.flags % 2 == 1)
  let st := grant.any (fun o => o.flags / 2 % 2 == 1)
  let w := (grant.map (·.weight)).getD 1
  let pri := d.dscpPri r.dscp
  let c : Conn :=
    { state := .offered, cgen := g, lantern := l, port := r.port, peerQpn := r.peerQpn, mtu := mtuOf r.mtu,
      resp := min r.depth 64, weight := w, credit := w * d.f HPT_FAIR_CTL.QUANTUM * 1024, dlHdr := dl, stHdr := st,
      ePsn := r.psn % 2 ^ 24, hot := d.hotRoom l, lastAct := d.clk, rate := (d.port r.port).lineRate, since := d.clk,
      lastCnpRx := d.clk, adopted := d.adoptedGid r.gid, pri := pri }
  let psn := d.drawn.toNat % 2 ^ 24
  let d := (d.takeIndex i).drew
  let d := { d with hpt := { d.hpt with cgens := put d.hpt.cgens i g, conns := put d.hpt.conns i c } }
  d.sendCm r.port pri .rep [g.toNat * 65536 + i, psn, c.mtu, c.resp] ((grant.map Offer.bytes).getD [])

/-- A REQ is answered with REP or REJ (R86). -/
def Dev.answerReq (d : Dev) (r : CmReq) (ahead : Nat) : Dev :=
  match d.refuseReq r ahead, d.freeIndex with
  | none, some i => d.acceptReq r i
  | some n, _ => d.sendCm r.port (d.dscpPri r.dscp) .rej [n]
  | none, none => d.sendCm r.port (d.dscpPri r.dscp) .rej [5]

/-- An engine of the port group's transport lantern can answer (R21, R89). -/
def Dev.reqServed (d : Dev) (port : Nat) : Bool := d.lanternUp (port / 32) && !d.asleep (port / 32)

/-- REQ `a` comes before `b`: the earlier stamp, then the lower port group (R90). -/
def PendReq.before (a b : PendReq) : Bool :=
  decide (a.arrived < b.arrived) || (a.arrived == b.arrived && decide (a.port / 32 < b.port / 32))

/-- A REQ in its place among others. -/
def insertReq (p : PendReq) : List PendReq → List PendReq
  | [] => [p]
  | x :: r => if x.before p then x :: insertReq p r else p :: x :: r

/-- REQs that wait and come before one in the contest for indices: those not refused for another reason (R90). -/
def Dev.reqsAhead (d : Dev) (p : PendReq) : Nat :=
  (d.hpt.reqs.filter (fun q => q.before p && (d.refuseReq q.r 0).all (fun n => n == 5))).length

/-- A REQ that stood in the list of those that wait is answered. -/
def Dev.serveReq (d : Dev) (p : PendReq) : Dev :=
  let d := { d with hpt := { d.hpt with reqs := d.hpt.reqs.erase p } }
  d.answerReq p.r (d.reqsAhead p)

/-- REQs that waited for their lantern are answered in the order of their stamps, and of their port groups at equal ones (R89,
R90). -/
def Dev.serveReqs (d : Dev) : Dev :=
  ((d.hpt.reqs.filter (fun p => d.reqServed p.port)).foldr insertReq []).foldl Dev.serveReq d

/-- REQ (R86 to R92): answered at once, or it waits for the lantern that answers REQs of its port group. -/
def execReq (t : Nat) (r : CmReq) (s : State) : Host.Outcome State Fault Refusal :=
  s.run t fun d =>
    if d.dur.saving then d.dropStale
    else if ¬ (d.port r.port).up ∨ ¬ frameTaken r.fr then d
    else
      let p : PendReq := { port := r.port, arrived := d.clk, mra := false, r := r }
      if d.reqServed r.port then d.answerReq r (d.reqsAhead p)
      else { d.wake (r.port / 32) with hpt := { (d.wake (r.port / 32)).hpt with reqs := d.hpt.reqs ++ [p] } }

/-- The REQ that arrived on a port at an instant has been sent MRA. -/
def PendReq.marked (port arrived : Nat) (p : PendReq) : PendReq :=
  if p.port = port ∧ p.arrived = arrived then { p with mra := true } else p

/-- MRA_TIMEOUT (R89): a REQ still unanswered 1 ms after it arrived receives MRA. -/
def execMraTimeout (t port arrived : Nat) (s : State) : Host.Outcome State Fault Refusal :=
  s.run t fun d =>
    match d.hpt.reqs.find? (fun p => p.port == port && p.arrived == arrived && !p.mra && decide (arrived + 1000000 ≤ d.clk)) with
    | some p => ({ d with hpt := { d.hpt with reqs := d.hpt.reqs.map (PendReq.marked port arrived) } }).sendCm port
        (d.dscpPri p.r.dscp) .mra []
    | none => d

/-! ### Opening and closing (R89, R97 to R99, R534) -/

/-- The connection a queue pair number names, if it is open under that generation (R93). -/
def Dev.connOf (d : Dev) (qpn : Nat) : Option Nat :=
  let c := qpn % 65536
  if (d.conn c).state.isOpen ∧ (d.conn c).cgen.toNat = qpn / 65536 then some c else none

/-- A connection enters a state. -/
def Dev.setState (d : Dev) (c : Nat) (st : ConnState) : Dev :=
  d.setConn c (fun x => { x with state := st, since := d.clk })

/-- A connection enters Quarantine; it holds no hot slot there, and packets that wait for its state are dropped and counted (R93,
R94, R97). -/
def Dev.quarantine (d : Dev) (c : Nat) : Dev :=
  ((d.setState c .quarantine).setConn c (fun x => { x with hot := false, dreqAt := none })).thawPackets c

/-- RTU (R89). -/
def execRtu (t qpn : Nat) (s : State) : Host.Outcome State Fault Refusal :=
  s.run t fun d =>
    match d.connOf qpn with
    | none => d
    | some c => if (d.conn c).state = .offered then d.setState c .ready else d

/-- DREQ (R99, R534): Offered is answered with DREP at once; Ready drains, and messages not complete are abandoned. -/
def execDreq (t qpn : Nat) (s : State) : Host.Outcome State Fault Refusal :=
  s.run t fun d =>
    match d.connOf qpn with
    | none => d
    | some c =>
      match (d.conn c).state with
      | .offered => ((d.sendCm (d.conn c).port (d.conn c).pri .drep [qpn]).quarantine c).pump
      | .ready => (d.setState c .draining).pump
      | .free | .draining | .error | .quarantine => d

/-- DREP (R97): it ends a connection to which the device has sent DREQ. -/
def execDrep (t qpn : Nat) (s : State) : Host.Outcome State Fault Refusal :=
  s.run t fun d =>
    match d.connOf qpn with
    | none => d
    | some c => if (d.conn c).dreqAt.isSome then (d.quarantine c).pump else d

/-- RTU_TIMEOUT (R89): an Offered connection has heard neither RTU nor a valid request for `RTU_TO_MS`. -/
def execRtuTimeout (t conn : Nat) (s : State) : Host.Outcome State Fault Refusal :=
  s.run t fun d =>
    let c := d.conn conn
    if c.state = .offered ∧ c.since + d.f HPT_CM_CTL.RTU_TO_MS * 1000000 ≤ d.clk then
      ((d.sendCm c.port c.pri .rej [rejTimeout]).quarantine conn).pump
    else d

/-- QUARANTINE_END (R94): after 2 ms the index is free, and its connection is forgotten. -/
def execQuarantineEnd (t conn : Nat) (s : State) : Host.Outcome State Fault Refusal :=
  s.run t fun d =>
    let c := d.conn conn
    if c.state = .quarantine ∧ c.since + 2000000 ≤ d.clk then
      { d with hpt := { d.hpt with conns := del d.hpt.conns conn, freed := d.hpt.freed ++ [conn] } }
    else d

/-- DREP_TIMEOUT (R97): 8 ms have passed since the device sent DREQ. -/
def execDrepTimeout (t conn : Nat) (s : State) : Host.Outcome State Fault Refusal :=
  s.run t fun d =>
    if (d.conn conn).state.isOpen ∧ (d.conn conn).dreqAt.any (fun a => a + 8000000 ≤ d.clk) then (d.quarantine conn).pump
    else d

/-- Every accepted operation of a connection is final (R98). -/
def Dev.drained (d : Dev) (c : Nat) : Bool := !d.hpt.ops.any (fun o => o.conn == c) && !d.hpt.ingress.any (fun e => e.o.conn == c)

/-- CONNECTION_DRAINED (R98): DREP, then Quarantine. -/
def execConnectionDrained (t conn : Nat) (s : State) : Host.Outcome State Fault Refusal :=
  s.run t fun d =>
    if (d.conn conn).state = .draining ∧ d.drained conn then
      ((d.sendCm (d.conn conn).port (d.conn conn).pri .drep [d.qpn conn]).quarantine conn).pump
    else d

/-- The device sends DREQ on a connection (R97, R260, R451). -/
def Dev.sendDreq (d : Dev) (c : Nat) : Dev :=
  (d.sendCm (d.conn c).port (d.conn c).pri .dreq [d.qpn c]).setConn c (fun x => { x with dreqAt := some d.clk })

/-- ERROR_DRAINED (R97): every accepted operation of a connection in Error is final and the device sends DREQ. -/
def execErrorDrained (t conn : Nat) (s : State) : Host.Outcome State Fault Refusal :=
  s.run t fun d =>
    if (d.conn conn).state = .error ∧ d.drained conn ∧ (d.conn conn).dreqAt.isNone then d.sendDreq conn else d

end Sys2Proof.Machine
end

