-- ==== Sys2Proof/Machine/Ports.lean ====
section
/-! DEFINITION. Commands of the host ports (R75 to R84, R100): links, pause, congestion, ARP and neighbour solicitation,
LLDP. -/

namespace Sys2Proof.Machine

/-- Octet mode of the octet a lane lies in (Table 3.1). -/
def Dev.octMode (d : Dev) (lane : Nat) : Nat := d.f (HPT_PG_CFG.OCT_MODE (lane / 32)) / 4 ^ (lane % 32 / 8) % 4

/-- Lanes of a port in an octet mode. -/
def lanesOf (mode : Nat) : Nat := 2 ^ (mode % 4)

/-- A port exists under its octet's mode, all its lanes are enabled and it has a MAC address (R76, R77, `HPT_MACp`). -/
def Dev.portExists (d : Dev) (p : Nat) : Bool :=
  let n := lanesOf (d.octMode p)
  p % n == 0 && decide (p < 256) && d.f (HPT_MAC.MAC p) != 0
    && (List.range n).all (fun k => d.fbit (HPT_PG_CFG.LANE_EN (p / 32)) ((p + k) % 32))

/-- An LLDP frame with the port's DCBX settings: the priorities with flow control, the willing bit clear (R79). -/
def Dev.sendLldp (d : Dev) (port : Nat) : Dev := d.send (.lldp port (d.f HPT_PFC_CTL.LOSSLESS) false)

/-- PORT_UP (R77): the port's lanes have trained. -/
def execPortUp (t port : Nat) (s : State) : Host.Outcome State Fault Refusal :=
  s.run t fun d =>
    if ¬ d.portExists port ∨ (d.port port).up ∨ d.core.stage < 2 ∨ d.dur.saving then d
    else
      (((d.setPort port (fun p => { up := true, drops := p.drops, lineRate := 1000 * lanesOf (d.octMode port) })).raise
        (source 8 0) 2 0 port 0).wake (portUnit port)).sendLldp port

/-- A port goes down: what is queued on it is discarded and its tags freed; its connections keep their state (R100, R101). -/
def Dev.portDown (d : Dev) (port : Nat) : Dev :=
  if ¬ (d.port port).up then d
  else
    let tags := (d.port port).held.filterMap (·.tag)
    ((d.setPort port (fun p => { lineRate := p.lineRate, drops := p.drops })).freeTags tags).raise (source 8 0) 2 0 port 0

/-- PORT_LINK_DOWN (R100). -/
def execPortLinkDown (t port : Nat) (s : State) : Host.Outcome State Fault Refusal := s.run t fun d => d.portDown port

/-- Pause quanta of 512 bit times on a port, in ns (R81). -/
def Dev.pauseNs (d : Dev) (port quanta : Nat) : Nat := quanta * 5120 / max 1 (d.port port).lineRate

/-- PFC_PAUSE (R81): a pause frame stops a lossless priority for its time, zero time lets it go on. A pause that follows
one still running continues it, so the watchdog's time runs on (R82). -/
def execPfcPause (t port pri quanta : Nat) (s : State) : Host.Outcome State Fault Refusal :=
  s.run t fun d =>
    if ¬ (d.port port).up ∨ ¬ d.lossless pri then d
    else
      let d := d.count 0x305 port 1
      if quanta = 0 then (d.setPort port (fun p => { p with pausedAt := del p.pausedAt pri })).letOut port
      else
        let till := d.clk + d.pauseNs port quanta
        let from_ := match look (d.port port).pausedAt pri with
          | some (a, b) => if d.clk ≤ b then a else d.clk
          | none => d.clk
        d.setPort port (fun p => { p with pausedAt := put p.pausedAt pri (from_, till) })

/-- One priority the port holds paused: refreshed at half the pause time, or ended below half of `XOFF_KIB` (R81). -/
def Dev.refreshPri (d : Dev) (port occ pri : Nat) : Dev :=
  match look (d.port port).pausing pri with
  | none => d
  | some at_ =>
    if occ * 2 < d.f HPT_PFC_CTL.XOFF_KIB then
      ((d.send (.pause port pri 0)).count 0x304 port 1).setPort port (fun p => { p with pausing := del p.pausing pri })
    else if at_ + d.pauseNs port (d.f HPT_PFC_CTL.QUANTA) / 2 ≤ d.clk then
      ((d.send (.pause port pri (d.f HPT_PFC_CTL.QUANTA))).count 0x304 port 1).setPort port (fun p =>
        { p with pausing := put p.pausing pri d.clk })
    else d

/-- Priorities that the switch-over gap keeps paused on a port (R250). -/
def Dev.gapPris (d : Dev) (port : Nat) : List Nat :=
  if d.inGap ∧ d.fbit TWN_CFG.GAP_PG (port / 32) then (List.range 8).filter (fun p => d.fbit TWN_CFG.GAP_PRI p) else []

/-- PAUSE_REFRESH (R81, R250). -/
def execPauseRefresh (t port occ : Nat) (s : State) : Host.Outcome State Fault Refusal :=
  s.run t fun d =>
    if ¬ (d.port port).up then d
    else
      let d := d.setPort port (fun p => { p with occKib := occ })
      (List.range 8).foldl (fun d pri =>
        d.refreshPri port (if (d.gapPris port).contains pri then d.f HPT_PFC_CTL.XOFF_KIB else occ) pri) d

/-- PAUSE_WATCHDOG (R82): the priority has been paused for `WD_MS` without a break; pause is ignored for 1 s and the
responses queued on it are discarded; other frames queued on it leave. -/
def execPauseWatchdog (t port pri : Nat) (s : State) : Host.Outcome State Fault Refusal :=
  s.run t fun d =>
    let p := d.port port
    let ms := d.f HPT_PFC_CTL.WD_MS
    let due := (look p.pausedAt pri).any (fun x => ms != 0 && decide (d.clk ≤ x.2) && decide (x.1 + ms * 1000000 ≤ d.clk))
    if due ∧ (look p.ignoreAt pri).isNone then
      let gone (h : Held) : Bool := h.resp && h.pri == pri
      let d := d.setPort port (fun p =>
        { p with ignoreAt := put p.ignoreAt pri d.clk, held := p.held.filter (fun h => !gone h) })
      ((d.freeTags ((p.held.filter gone).filterMap (·.tag))).letOut port).raise (source 8 2) 2 0 port 0
    else d

/-- PAUSE_WATCHDOG_END (R82): the 1 s is over. -/
def execPauseWatchdogEnd (t port pri : Nat) (s : State) : Host.Outcome State Fault Refusal :=
  s.run t fun d =>
    if (look (d.port port).ignoreAt pri).any (fun a => a + 1000000000 ≤ d.clk) then
      d.setPort port (fun p => { p with ignoreAt := del p.ignoreAt pri, pausedAt := del p.pausedAt pri })
    else d

/-- CNP (R84): the response rate falls by rate >> `BETA_SHIFT`, to no less than 100 Mb/s. The rate is kept in whole 100 Mb/s and the
shift drops what is below that, a unit the spec does not state (log entry 80). -/
def execCnp (t qpn : Nat) (s : State) : Host.Outcome State Fault Refusal :=
  s.run t fun d =>
    match d.connOf qpn with
    | none => d.dropStale
    | some c =>
      d.setConn c (fun x =>
        { x with rate := max 1 (x.rate - x.rate / 2 ^ d.f HPT_CC_CTL.BETA_SHIFT), lastCnpRx := d.clk })

/-- RATE_RECOVERY (R84): after `RECOVER_US` without a CNP the rate rises by `AI_STEP`, to no more than the line rate. -/
def execRateRecovery (t conn : Nat) (s : State) : Host.Outcome State Fault Refusal :=
  s.run t fun d =>
    let c := d.conn conn
    if c.state.isOpen ∧ c.lastCnpRx + d.f HPT_CC_CTL.RECOVER_US * 1000 ≤ d.clk then
      d.setConn conn (fun x =>
        { x with rate := min (d.port c.port).lineRate (x.rate + d.f HPT_CC_CTL.AI_STEP), lastCnpRx := d.clk })
    else d

/-- An IPv4-mapped IPv6 address (R78). -/
def ipv4Mapped (gid : Nat) : Bool := gid / 2 ^ 32 == 0xFFFF

/-- ARP_REQUEST (R78): answered for the port's own IPv4 addresses and no other. -/
def execArpRequest (t port gid : Nat) (s : State) : Host.Outcome State Fault Refusal :=
  s.run t fun d =>
    if (d.port port).up ∧ ipv4Mapped gid ∧ d.ownGid port gid then d.send (.arpReply port gid) else d

/-- NEIGHBOUR_SOLICITATION (R78): answered for the port's own IPv6 addresses and no other. -/
def execNeighbourSolicitation (t port gid : Nat) (s : State) : Host.Outcome State Fault Refusal :=
  s.run t fun d =>
    if (d.port port).up ∧ ¬ ipv4Mapped gid ∧ d.ownGid port gid then d.send (.neighbourAdv port gid) else d

/-- LLDP_RECEIVED (R79): DCBX settings that disagree with the device's are recorded; they change nothing. -/
def execLldpReceived (t port pfc : Nat) (s : State) : Host.Outcome State Fault Refusal :=
  s.run t fun d =>
    if (d.port port).up ∧ pfc ≠ d.f HPT_PFC_CTL.LOSSLESS then d.raise (source 8 3) 2 0 port 0 else d

end Sys2Proof.Machine
end

