-- ==== Sys2Proof/Machine/Regions.lean ====
section
/-! DEFINITION. Region and data commands of the rings (R35 to R50, R163, R207, R318, R327, R355, R391 to R394, R529, R535). -/

namespace Sys2Proof.Machine

/-! ### What a region command asks for -/

/-- The policy, class and mirror codes of a body (Table 12.7). -/
def policyOf (n : Nat) : Policy := if n = 1 then .pinMeadow else if n = 2 then .pinHeath else .auto
def classOf (n : Nat) : SvcClass := if n = 1 then .fast else if n = 2 then .deep else .meadow
def mirrorOf (n : Nat) : Mirror := if n = 1 then .east else if n = 2 then .west else .no

/-- Default deadline of a class in µs (Table 2.1). -/
def classUs (c : SvcClass) : Nat := match c with | .meadow => 6 | .fast => 12 | .deep => 100

/-- A tag drawn for a key entry: any value but the previous one (R40). -/
def Dev.drawTag (d : Dev) (prev : Option (BitVec 16)) : BitVec 16 :=
  match prev with
  | none => BitVec.ofNat 16 d.fresh.toNat
  | some p => p + 1 + BitVec.ofNat 16 (d.fresh.toNat % 65535)

/-- Stripe entries as the host's table gives them (Table 12.7). -/
def stripeOf (w : BitVec 32) : Nat × Option Nat :=
  (bitsOf w.toNat 11 0, if bitsOf w.toNat 31 31 = 1 then some (bitsOf w.toNat 27 16) else none)

/-- The command needs a DRBG draw: a key entry is enabled (R40). -/
def Cmd.drawsTag (c : Cmd) : Bool := c.func == fnCreate || (c.func == fnKey && c.hasKey)

/-- The creation a body describes. With KEN = 0 the region has the default key, entry 0 with every permission on the whole region
(Table 2.1). -/
def Dev.createMsg (d : Dev) (c : Cmd) (stripes : List (BitVec 32)) : RegionMsg :=
  let b := c.byte 18
  let cls := classOf (b / 4 % 4)
  let size := c.u64 24
  let own := c.hasKey
  { region := c.region, func := fnCreate, size := size, policy := policyOf (b % 4), cls := cls,
    dlUs := if c.byte 19 = 0 then classUs cls else c.byte 19, mirror := mirrorOf (b / 16 % 4),
    kidx := if own then c.byte 48 % 16 else 0, ken := true, ktag := d.drawTag none,
    perm := if own then BitVec.ofNat 5 (c.byte 49) else 31, winFirst := if own then c.u64 32 else 0,
    winCount := if own then c.u64 40 else size, grain := if b / 64 % 2 = 1 then c.byte 23 else 0,
    stripes := if b / 64 % 2 = 1 then (stripes.take (c.u16 50)).map stripeOf else [],
    ownSlot := if b / 128 = 1 then some (c.u16 20 % 4096) else none, spanned := b / 64 % 2 == 1 }

/-- Another function's change of region `r`: what it does not name stays as it is. -/
def Dev.changeMsg (d : Dev) (c : Cmd) (r : Region) : RegionMsg :=
  let b := c.byte 18
  let mask := c.byte 22
  let sets (i : Nat) : Bool := c.func == fnModify && mask / 2 ^ i % 2 == 1
  let cls := if sets 1 then classOf (b / 4 % 4) else r.cls
  let k := c.byte 48 % 16
  { region := c.region, func := c.func, size := if c.func = fnGrow then c.u64 24 else r.size,
    policy := if sets 0 then policyOf (b % 4) else r.policy, cls := cls,
    dlUs := if sets 2 then (if c.byte 19 = 0 then classUs cls else c.byte 19) else r.dlUs, mirror := r.mirror, kidx := k,
    ken := c.hasKey, ktag := d.drawTag ((look r.keys k).map (·.ktag)), perm := BitVec.ofNat 5 (c.byte 49), winFirst := c.u64 32,
    winCount := c.u64 40, grain := r.grain, stripes := [], ownSlot := r.ownSlot, spanned := r.spanned }

/-! ### Refusals, the lowest reason first (Table 12.8) -/

/-- The slot of an own-key region is a loaded, unbound user slot of usage 1 (R363). -/
def Dev.slotFits (d : Dev) (n : Nat) : Bool :=
  decide (n < 0xF00) && (look d.cph.slots n).any (fun s => s.usage == 1) && !d.slotBound n

/-- Why a creation is refused. -/
def Dev.createBar (d : Dev) (m : RegionMsg) : Option Nat :=
  let base := d.f FAB_CFG.SPAN_BASE
  if m.region = counterRegion then some 3
  else if d.idTaken m.region then some 1
  else if m.mirror ≠ .no ∧ ¬ d.on TWN_CFG.ENABLE then some 3
  else if m.ownSlot.any (fun n => !d.slotFits n) then some 4
  else if m.spanned ≠ decide (base ≤ m.region) then some 5
  else if m.spanned ∧ (¬ d.on FAB_CFG.ENABLE ∨ d.fabricId.isNone ∨ d.fab.noSteward) then some 5
  else none

/-- A creation whose portion here does not fit (R38). -/
def Dev.noRoom (d : Dev) (m : RegionMsg) : Bool :=
  let n := d.localRun m
  !d.roomFor n (pinnedOf m n)

/-- A region command runs: its refusal, or its change (R391, R394, R535). -/
def Dev.runRegion (d : Dev) (c : Cmd) (stripes : List (BitVec 32)) : Dev :=
  if ¬ d.tim.valid then d.complete c csNotReady 2
  else if c.func = fnCreate then
    let m := d.createMsg c stripes
    let d := d.rngUsed
    match d.createBar m with
    | some k => d.complete c csRefused k
    | none =>
      if m.spanned ∧ m.stripes.length < c.u16 50 then d.complete c csDmaFault 0 (c.u64 56)
      else if d.noRoom m then d.complete c csNoSpace
      else (d.submitChange m (some c.id)).pump
  else if c.region = counterRegion ∧ c.func ≠ fnKey then d.complete c csRefused 3
  else match look d.rgn c.region with
  | none => d.complete c csRefused 2
  | some r =>
    let m := d.changeMsg c r
    let d := if c.drawsTag then d.rngUsed else d
    if c.region = counterRegion then d.finishChange m d.now (some c.id)
    else if c.func = fnGrow ∧ (m.size < r.size ∨ (¬ r.spanned ∧ 2 ^ 34 < m.size)) then d.complete c csBadField 24
    else match d.cannotHold m with
    | some 0 => d.complete c csNoSpace
    | some k => d.complete c csRefused k
    | none => (d.submitChange m (some c.id)).pump

/-- A region command of one function starts in its turn; one that enables a key entry waits for the DRBG (R40, R378). -/
def Dev.startRegion (d : Dev) (id func : Nat) (stripes : List (BitVec 32)) : Dev :=
  d.startCmd id ocRegion
    (fun c => (c.func == func || (func == fnCreate && decide (4 < c.func))) && (!c.drawsTag || d.rngUp))
    (fun d c => d.runRegion c stripes)

/-- REGION_CREATE (R35 to R40); `stripes` is the host's stripe table. A FUNC code the table does not name is a bad field. -/
def execRegionCreate (t cmd : Nat) (stripes : List (BitVec 32)) (s : State) : Host.Outcome State Fault Refusal :=
  s.run t fun d => d.startRegion cmd fnCreate stripes

/-- REGION_MODIFY (R37). -/
def execRegionModify (t cmd : Nat) (s : State) : Host.Outcome State Fault Refusal := s.run t fun d => d.startRegion cmd fnModify []

/-- REGION_SEAL (R49). -/
def execRegionSeal (t cmd : Nat) (s : State) : Host.Outcome State Fault Refusal := s.run t fun d => d.startRegion cmd fnSeal []

/-- REGION_KEY (R40). -/
def execRegionKey (t cmd : Nat) (s : State) : Host.Outcome State Fault Refusal := s.run t fun d => d.startRegion cmd fnKey []

/-- REGION_GROW (R38, R44). -/
def execRegionGrow (t cmd : Nat) (s : State) : Host.Outcome State Fault Refusal := s.run t fun d => d.startRegion cmd fnGrow []

/-- REGION_DESTROY (R50). -/
def execRegionDestroy (t cmd : Nat) (s : State) : Host.Outcome State Fault Refusal :=
  s.run t fun d => d.startCmd cmd ocDestroy (fun _ => true) fun d c =>
    if ¬ d.tim.valid then d.complete c csNotReady 2
    else match look d.rgn c.region with
    | none => d.complete c csRefused 2
    | some r =>
      let m : RegionMsg := { region := c.region, func := fnDestroy, size := r.size, mirror := r.mirror, spanned := r.spanned }
      if c.region = counterRegion ∨ stateForbids fnDestroy r then d.complete c csRefused 2
      else (d.submitChange m (some c.id)).pump

/-- HOME_RUN_MOVE_DONE (R44): the region resolves through its new run; the growth's command completes. -/
def execHomeRunMoveDone (t region : Nat) (s : State) : Host.Outcome State Fault Refusal :=
  s.run t fun d =>
    match d.tier.grow.find? (fun g => g.region == region), look d.rgn region with
    | some g, some r =>
      let d := d.endGrow g r
      (match g.cmdId.bind d.cmd with
        | some c => d.complete c csDone 0 d.now
        | none => d).pump
    | _, _ => d

/-! ### Data commands -/

/-- A data command may act on the region (Table 12.8, reason 2). -/
def Dev.dataRegion (d : Dev) (rid : Nat) : Bool :=
  (look d.rgn rid).any (fun r => !(r.remoteHeld || r.keySide || r.state == .creating || r.state == .destroying))

/-- COPY (R393). -/
def execCopy (t cmd : Nat) (s : State) : Host.Outcome State Fault Refusal :=
  s.run t fun d => d.startCmd cmd ocCopy (fun _ => true) fun d c =>
    if ¬ d.dataRegion c.src.1 ∨ ¬ d.dataRegion c.dest.1 ∨ c.dest.1 = counterRegion then d.complete c csRefused 2 else d.pump

/-- FILL (R325, R393). -/
def execFill (t cmd : Nat) (s : State) : Host.Outcome State Fault Refusal :=
  s.run t fun d => d.startCmd cmd ocFill (fun _ => true) fun d c =>
    if ¬ d.dataRegion c.dest.1 ∨ c.dest.1 = counterRegion then d.complete c csRefused 2 else d.pump

/-- Home-table indices of plots `first` to `first + count - 1` of a region that this device homes (R43, R279). -/
def Dev.idxsOf (d : Dev) (r : Region) (first count : Nat) : List Nat :=
  if r.spanned then
    ((List.range count).filter (fun k => d.homesHere (r.resolve ((first + k) * plotBytes)).1)).map (fun k =>
      r.base + (r.resolve ((first + k) * plotBytes)).2 / plotBytes)
  else (List.range count).map (fun k => r.base + first + k)

/-- The plots of those that have a home-table entry. -/
def Dev.writtenIn (d : Dev) (r : Region) (first count : Nat) : List Nat :=
  if r.spanned then (d.idxsOf r first count).filter (fun i => (look d.tier.home i).isSome)
  else (d.tier.home.filter (fun e => decide (r.base + first ≤ e.1) && decide (e.1 < r.base + first + count))).map (·.1)

/-- The kind of move a hint to a tier asks for (R163). -/
def Dev.hintKind (d : Dev) (t : Tier) (i : Nat) : MigKind :=
  if t = .meadow ∨ (t = .fast ∧ (d.entry i).tier = .deep) then .promotion else .demotion

/-- A hint moves the plot: the policy allows the tier, PIN is clear, and the plot has a home, of another tier or about to be left by
a move that the hint outranks; promotions are not stopped, and no sealed plot goes to meadow (R162 to R164, R172). -/
def Dev.hintMoves (d : Dev) (r : Region) (t : Tier) (i : Nat) : Bool :=
  let e := d.entry i
  let k := d.hintKind t i
  e.tier != .none && !e.pin && (e.tier != t || (d.migOf i).any (fun m => decide (k.prio < m.kind.prio)))
    && !d.noRaise i k t && !d.growing i
    && (match r.policy with | .auto => true | .pinMeadow => t == .meadow | .pinHeath => t != .meadow)

/-- MIGRATE_HINT (R163). -/
def execMigrateHint (t cmd : Nat) (s : State) : Host.Outcome State Fault Refusal :=
  s.run t fun d => d.startCmd cmd ocHint (fun _ => true) fun d c =>
    match look d.rgn c.region with
    | none => d.complete c csRefused 2
    | some r =>
      if ¬ d.dataRegion c.region ∨ c.region = counterRegion then d.complete c csRefused 2
      else
        let tier := Tier.ofCode (c.byte 18)
        let l := (d.writtenIn r (c.u64 24) (c.u64 40)).filter (d.hintMoves r tier)
        let d := l.foldl (fun (d : Dev) i => d.startMig i (d.hintKind tier i) tier) d
        d.complete c csDone l.length (c.u64 40 - l.length)

/-- PIN (R149, R163): each change is a state change of its entry. -/
def execPin (t cmd : Nat) (s : State) : Host.Outcome State Fault Refusal :=
  s.run t fun d => d.startCmd cmd ocPin (fun _ => true) fun d c =>
    match look d.rgn c.region with
    | none => d.complete c csRefused 2
    | some r =>
      if ¬ d.dataRegion c.region ∨ c.region = counterRegion then d.complete c csRefused 2
      else
        let set := c.byte 18 % 2 == 1
        let l := ((if set then d.idxsOf r (c.u64 24) (c.u64 40) else d.writtenIn r (c.u64 24) (c.u64 40))).filter
          (fun i => (d.entry i).pin != set)
        (l.foldl (fun d i => d.setPin i set) d).complete c csDone 0 l.length

/-- SEAL_NOW (R207). -/
def execSealNow (t cmd : Nat) (s : State) : Host.Outcome State Fault Refusal :=
  s.run t fun d => d.startCmd cmd ocSealNow (fun _ => true) fun d c =>
    let dur := { d.dur with stop := c.byte 16 % 2 == 1, sealNow := d.dur.sealNow ++ [(c.id, d.now)] }
    (({ d with dur := dur }).settleSealNow).pump

/-! ### Scrub (R318) -/

/-- Lines of a meadow plot on channels that are Online. -/
def Dev.linesOnline (d : Dev) (loc : Nat) : Nat :=
  ((List.range 1024).filter (fun k => (d.locate (loc * plotBytes + 64 * k)).any (fun c => d.chanState c.1 == chOnline))).length

/-- Lines a scrub reads, and all lines of its range. -/
def Dev.scrubLines (d : Dev) (c : Cmd) : Nat × Nat :=
  let n := c.u64 40
  if c.byte 18 = 1 then (if d.chanState (c.region % 32) = chOnline then n else 0, n)
  else match look d.rgn c.region with
  | none => (0, n * 1024)
  | some r =>
    (((d.writtenIn r (c.u64 24) n).filter (fun i => (d.entry i).tier == .meadow)).foldl
      (fun k i => k + d.linesOnline (d.entry i).loc) 0, n * 1024)

/-- Plots that a scrub of a region's range looks up, through lantern region ID mod 8 (R533). -/
def Dev.scrubIdxs (d : Dev) (c : Cmd) : List Nat :=
  if c.byte 18 = 1 then [] else match look d.rgn c.region with | none => [] | some r => d.writtenIn r (c.u64 24) (c.u64 40)

/-- SCRUB_RANGE (R318, R319): the scrub runs until `SCRUB_RANGE_DONE`. -/
def execScrubRange (t cmd : Nat) (s : State) : Host.Outcome State Fault Refusal :=
  s.run t fun d => d.startCmd cmd ocScrub (fun _ => true) fun d c =>
    if c.byte 18 = 0 ∧ ¬ d.dataRegion c.region then d.complete c csRefused 2
    else ((d.scrubIdxs c).foldl (fun (d : Dev) i => d.wickLookup (c.region % 8) i) d).setCmd c.id (fun x =>
      { x with progress := (d.scrubLines c).1 })

/-- SCRUB_RANGE_DONE (R318): the five counts and the completion. -/
def execScrubRangeDone (t cmd corrected uncorr remapped : Nat) (s : State) : Host.Outcome State Fault Refusal :=
  s.run t fun d =>
    match d.cmd cmd with
    | none => d
    | some c =>
      if c.op ≠ ocScrub ∨ ¬ c.running then d
      else
        let (n, all) := d.scrubLines c
        (d.scrubCounts c [n, corrected, uncorr, remapped, all - n]).complete c csDone (min uncorr (2 ^ 32 - 1)) n

/-! ### Evacuation -/

/-- What EVACUATE does: a DRAM channel (R327, R328) or a flash module (R355, R356). -/
def Dev.actEvacuate (d : Dev) (c : Cmd) : Dev :=
  let n := c.byte 17
  if c.func = 0 then
    if d.evacRefused n then d.complete c csRefused 6
    else
      let k := (d.plotsToMove n).length
      (d.evacChannel n).complete c csDone 0 k
  else if d.evacModRefused n then d.complete c csRefused 6
  else
    let k := (d.plotsOnModule n).length
    (d.evacModule n).complete c csDone 0 k

/-- EVACUATE of a DRAM channel. -/
def execEvacuateChannel (t cmd : Nat) (s : State) : Host.Outcome State Fault Refusal :=
  s.run t fun d => d.startCmd cmd ocEvacuate (fun c => c.func == 0) Dev.actEvacuate

/-- EVACUATE of a flash module. -/
def execEvacuateModule (t cmd : Nat) (s : State) : Host.Outcome State Fault Refusal :=
  s.run t fun d => d.startCmd cmd ocEvacuate (fun c => c.func == 1) Dev.actEvacuate

end Sys2Proof.Machine
end

