-- ==== Sys2Proof/Machine/CfxOps.lean ====
section
/-! DEFINITION. Configuration transactions (R407 to R419): the checks of Table 13.3 over the shadow bank, and the bank's
application with the processes it starts. -/

namespace Sys2Proof.Machine

/-! ### Opening (R408) -/

/-- A transaction opens: every applied STG value is in the shadow bank. -/
def Dev.openCfx (d : Dev) (holder : Nat) : Dev :=
  { (d.fset CFX_CTL.STATE 1).fset CFX_CTL.HOLDER holder with cfx := { shadow := d.listed .stg } }

/-- STG fields take their shadow values (R413). -/
def Dev.takeBank (d : Dev) : Dev :=
  let stg := d.listed .stg
  let rest := d.regs.filter (fun kv => (look stg kv.1).isNone)
  { d with regs := d.cfx.shadow.foldl (fun l kv => put l kv.1 kv.2) rest }

/-! ### Check 3: stated ranges -/

/-- A field of the bank and whether its value lies from `lo` to `hi`. -/
def Dev.within (d : Dev) (x : Fld) (lo hi : Nat) : Fld × Bool := (x, decide (lo ≤ d.shadowOf x) && decide (d.shadowOf x ≤ hi))

/-- The same for a field that has one code beside its range. -/
def Dev.withinOr (d : Dev) (x : Fld) (hi other : Nat) : Fld × Bool :=
  (x, decide (d.shadowOf x ≤ hi) || d.shadowOf x == other)

/-- Ranges of the host-port, tiering, durability, twin and fabric fields. -/
def Dev.rangesA (d : Dev) : List (Fld × Bool) :=
  ((List.range 4).flatMap (fun n => (List.range 16).map (fun k => d.within (HPT_DSCP_MAP.PRI n k) 0 7))) ++
  [d.within HPT_CC_CTL.BETA_SHIFT 1 8, d.within HPT_CC_CTL.RECOVER_US 1 255, d.within HPT_FAIR_CTL.QUANTUM 4 64,
   d.within HPT_FAIR_CTL.WMAX 1 16, d.within HPT_VERB_CTL.XDL_US 2 250,
   d.within TIER_HEAT_CTL.INTERVAL 10 65535, d.within TIER_HEAT_CTL.SAMPLE_SHIFT 0 7,
   d.within TIER_PACE.MAX_MIG 1 512, d.within TIER_PACE.MAX_REFUSE 1 15, d.within TIER_PACE.BG_SHARE 0 100,
   d.within TIER_PACE.EVAC_SHARE 1 100,
   d.within DUR_BUDGET_CTL.SAFETY 2 50, d.within DUR_BUDGET_CTL.IMG_SHARE 5 95, d.within DUR_EPOCH_CFG.TIME_SRC 0 2,
   d.within DUR_JRNL.JRNL_MIB 256 65535,
   d.within TWN_CFG.RESYNC_SHARE 10 100, d.within TWN_CFG.DETECT_US 20 1000, d.within TWN_RESYNC_CTL.MAX_PASS 1 255,
   d.within FAB_FWD_CTL.FJ_MIB 64 65535, d.within FAB_FWD_CTL.FJ_LIMIT_MS 1 65535, d.within CPH_CTL.KAT_S 60 65535]

/-- A bay code of R438. -/
def bayCode (v : Nat) : Bool := decide (v < 0x2C) || v == 0x3F

/-- Ranges of a rail's fields, judged where the rail is in use. -/
def Dev.rangesRail (d : Dev) (n : Nat) : List (Fld × Bool) :=
  if d.shadowOf (PWR_RAIL.EN n) = 0 then []
  else
    [(PWR_RAIL.MIN n, decide (d.shadowOf (PWR_RAIL.MIN n) < d.shadowOf (PWR_RAIL.MAX n))),
     d.withinOr (PWR_RAIL.SENSE n) 45 0x3F, (PWR_RAIL.BAY n, bayCode (d.shadowOf (PWR_RAIL.BAY n))),
     d.within (PWR_RAIL.ACTION n) 0 2]

/-- Ranges of the power, thermal, ageing and firmware fields. -/
def Dev.rangesB (d : Dev) : List (Fld × Bool) :=
  let b := d.shadowOf
  [d.within PWR_SEQ_CFG.BUS 0 2, d.within PWR_SEQ_CFG.SETTLE 1 255] ++ (List.range 48).flatMap d.rangesRail ++
  [d.within PWR_IDLE.DIM_US 1 65535, (PWR_IDLE.SHADE_US, b PWR_IDLE.SHADE_US == 0 || decide (1000 ≤ b PWR_IDLE.SHADE_US)),
   d.within THM_THR.SKIP_N 1 8, d.within THM_THR.PACE_PCT 10 90,
   (THM_THR.T1, decide (60 ≤ b THM_THR.T1) && decide (b THM_THR.T1 < b THM_THR.T2)),
   (THM_THR.T2, decide (b THM_THR.T2 < b THM_THR.T3)), (THM_THR.T3, decide (b THM_THR.T3 < b THM_THR.TRIP)),
   (THM_THR.TRIP, decide (b THM_THR.TRIP ≤ 110)), d.within THM_THR.HYST 1 10, d.within THM_DIMM.DIMM_BW_PCT 10 100,
   d.within AGE_CTL.PLAN_H 1 255, d.within AGE_CTL.SWEEP_H 1 255,
   (AGE_CTL.VMIN_MV, decide (b AGE_CTL.VMIN_MV < b AGE_CTL.VMAX_MV)), d.within FWM_CTL.CONFIRM_MIN 1 255]

/-- Ranges of the DRAM and heath channels' fields and of the side-band port. -/
def Dev.rangesC (d : Dev) : List (Fld × Bool) :=
  ((List.range 24).flatMap (fun n =>
    [d.within (MDW_CFG.RATE n) 0 7, d.within (MDW_CFG.GRAIN n) 0 8, d.withinOr (MDW_CFG.SET n) 23 31,
     d.within (MDW_CFG.SCRUB_SHARE n) 0 100, d.within (MDW_REF.MULT n) 0x10 0x20])) ++
  ((List.range 160).map (fun n => d.within (HTH_SCHED.PROG_MAX n) 1 16)) ++
  ((List.range 20).map (fun m => d.withinOr (HTH_MOD_CFG.THERM m) 15 31)) ++
  ((List.range 2).map (fun e => d.within (HTH_EDGE_CFG.RATE e) 800 3600)) ++ [d.within SBP_CFG.AUTH_SLOT 0 0xEFF]

/-- The first field whose condition fails. -/
def firstBad (l : List (Fld × Bool)) : Option Fld := (l.find? (fun x => !x.2)).map (·.1)

/-! ### Checks 4 to 9: ports, priorities, twin -/

/-- Octet mode of a lane in the bank. -/
def Dev.bankMode (d : Dev) (lane : Nat) : Nat := d.shadowOf (HPT_PG_CFG.OCT_MODE (lane / 32)) / 4 ^ (lane % 32 / 8) % 4

/-- A lane is enabled in the bank. -/
def Dev.bankLane (d : Dev) (lane : Nat) : Bool := d.shadowOf (HPT_PG_CFG.LANE_EN (lane / 32)) / 2 ^ (lane % 32) % 2 == 1

/-- Check 4: a port of the bank has some lanes enabled and others disabled. -/
def Dev.check4 (d : Dev) : List (Fld × Bool) :=
  (List.range 256).map (fun p =>
    let n := lanesOf (d.bankMode p)
    (HPT_PG_CFG.LANE_EN (p / 32), p % n != 0 || (List.range n).all (fun k => d.bankLane (p + k) == d.bankLane p)))

/-- Bits set in an 8-bit mask. -/
def popCount8 (v : Nat) : Nat := ((List.range 8).filter (fun i => v / 2 ^ i % 2 == 1)).length

/-- Some GID entry of the bank holds `g`. -/
def Dev.bankHasGid (d : Dev) (g : Nat) : Bool :=
  d.cfx.shadow.any (fun kv => decide ((HPT_GID.GID 0 0).key ≤ kv.1) && decide (kv.1 ≤ (HPT_GID.GID 255 15).key) && kv.2 == g)

/-- Check 7: service GIDs stand in some port's table, and adopted ones have an unused entry (R251). -/
def Dev.check7Gids (d : Dev) : List (Fld × Bool) :=
  ((List.range 16).map (fun i =>
    (TWN_SVC_GID.GID i, d.shadowOf (TWN_SVC_GID.GID i) == 0 || d.bankHasGid (d.shadowOf (TWN_SVC_GID.GID i))))) ++
  ((List.range 16).map (fun i =>
    (TWN_ADOPT.EN i, d.shadowOf (TWN_ADOPT.EN i) == 0
      || d.shadowOf (HPT_GID.GID (d.shadowOf (TWN_ADOPT.PORT i)) (d.shadowOf (TWN_ADOPT.SLOT i))) == 0)))

/-- Check 8: the link slots of the bank's current phases hold GCM keys where the links are enabled (R362). -/
def Dev.check8Keys (d : Dev) : List (Fld × Bool) :=
  let t := d.shadowOf (if d.on TWN_KEY.KEYPH then TWN_KEY.SLOT_ALT else TWN_KEY.SLOT)
  let g := d.shadowOf (if d.on FAB_KEY.KEYPH then FAB_KEY.SLOT_ALT else FAB_KEY.SLOT)
  [(TWN_KEY.SLOT, d.shadowOf TWN_CFG.ENABLE == 0 || d.slotLoaded t 2),
   (FAB_KEY.SLOT, d.shadowOf FAB_CFG.ENABLE == 0 || d.slotLoaded g 2)]

/-- A region fits the description. -/
def Dev.anyRegion (d : Dev) (p : Region → Bool) : Bool := d.rgn.any (fun r => r.1 != counterRegion && p r.2)

/-- Check 9: links are not switched off under regions that need them (R221, R269). -/
def Dev.check9Links (d : Dev) : List (Fld × Bool) :=
  [(TWN_CFG.ENABLE, !(d.on TWN_CFG.ENABLE && d.shadowOf TWN_CFG.ENABLE == 0 && d.anyRegion Region.mirrored)),
   (FAB_CFG.ENABLE, !(d.on FAB_CFG.ENABLE && d.shadowOf FAB_CFG.ENABLE == 0 && d.anyRegion (·.spanned)))]

/-! ### Check 12: the epoch length -/

/-- Lengths an epoch may have (R61). -/
def epochLengths : List Nat := [1, 2, 5, 10, 20, 50, 100]

/-- Check 12 (R61, R206). -/
def Dev.check12 (d : Dev) : List (Fld × Bool) :=
  let new := d.shadowOf DUR_EPOCH_CFG.L_MS
  let old := d.epochLen
  [(DUR_EPOCH_CFG.L_MS, epochLengths.contains new && (new == d.f DUR_EPOCH_CFG.L_MS
    || (d.cfx.when == 1 && d.cfx.time % (old * 1000000) == 0 && d.cfx.time % (new * 1000000) == 0)))]

/-! ### Check 17: DRAM channels (R299, R302) -/

/-- Channel set of a channel in the bank. -/
def Dev.bankSet (d : Dev) (n : Nat) : Nat := d.shadowOf (MDW_CFG.SET n)

/-- The bank changes a channel's set or grain. -/
def Dev.chanMoves (d : Dev) (n : Nat) : Bool :=
  d.bankSet n != d.f (MDW_CFG.SET n) || d.shadowOf (MDW_CFG.GRAIN n) != d.f (MDW_CFG.GRAIN n)

/-- The bank lays the channel sets out again (R303). -/
def Dev.relays (d : Dev) : Bool := (List.range 24).any d.chanMoves

/-- A channel holds a module that its set is judged by (R299, R302). -/
def Dev.judged (d : Dev) (n : Nat) : Bool :=
  [chTraining, chOnline, chFrozen, chDraining].contains (d.chanState n)

/-- A channel has a module (R300). -/
def Dev.populated (d : Dev) (n : Nat) : Bool := d.chanState n != chAbsent

/-- Two channels carry modules of one kind, at one rate (R299). -/
def Dev.sameModules (d : Dev) (m n : Nat) : Bool :=
  d.f (MDW_STAT.TYPE m) == d.f (MDW_STAT.TYPE n) && d.f (MDW_STAT.CAP_GIB m) == d.f (MDW_STAT.CAP_GIB n)
    && d.f (MDW_STAT.DPC m) == d.f (MDW_STAT.DPC n) && (d.chan m).ranks == (d.chan n).ranks
    && d.shadowOf (MDW_CFG.RATE m) == d.shadowOf (MDW_CFG.RATE n)

/-- The sets hold an allocated plot, a home-table line or a candle-store line (R302). -/
def Dev.setsInUse (d : Dev) : Bool := d.anyRegion (fun r => r.run != 0) || !d.tier.candle.isEmpty

/-- The conditions of R302 on one channel. -/
def Dev.chanFits (d : Dev) (n : Nat) : Bool :=
  let s := d.bankSet n
  let peers := (List.range 24).filter (fun m => m != n && d.bankSet m == s)
  let group := (List.range 24).filter (fun m => m / 4 == n / 4)
  let runs (m : Nat) : Bool := d.populated m && d.shadowOf (MDW_CFG.EN m) != 0
  (decide (24 ≤ s)
    || (peers.all (fun m => d.shadowOf (MDW_CFG.GRAIN m) == d.shadowOf (MDW_CFG.GRAIN n))
      && (!d.judged n || (peers.filter d.judged).all (d.sameModules n))
      && (List.range s).all (fun k => (List.range 24).any (fun m => d.bankSet m == k))))
    && (!d.chanMoves n || (d.chanState n == chOnline && !d.setsInUse))
    && (!runs n || (group.filter runs).all (fun m => d.shadowOf (MDW_CFG.RATE m) == d.shadowOf (MDW_CFG.RATE n)))

/-- Check 17. -/
def Dev.check17 (d : Dev) : List (Fld × Bool) := (List.range 24).map (fun n => (MDW_CFG.SET n, d.chanFits n))

/-! ### Check 18: heath modules -/

/-- Check 18 (R335, `HTH_MOD_CFGm`). -/
def Dev.check18 (d : Dev) : List (Fld × Bool) :=
  let there (m : Nat) : Bool := let s := d.f (HTH_MOD_STAT.STATE m)
    s == modInit || s == modOnline || s == modDraining || s == modEmpty
  let slow (e m : Nat) : Bool := m / 10 == e && there m
    && (look d.hth.mods m).any (fun x => decide (x.maxRate < d.shadowOf (HTH_EDGE_CFG.RATE e)))
  ((List.range 2).map (fun e => (HTH_EDGE_CFG.RATE e, !(List.range 20).any (slow e)))) ++
  ((List.range 20).map (fun m =>
    let lo := signed8 (d.shadowOf (HTH_MOD_CFG.WIN_LO m))
    let hi := signed8 (d.shadowOf (HTH_MOD_CFG.WIN_HI m))
    (HTH_MOD_CFG.WIN_LO m, decide (-5 ≤ lo) && decide (lo < hi) && decide (hi ≤ 85))))

/-! ### Laying the sets out (R300, R303, R529) -/

/-- Bytes in a MiB. -/
def mib : Nat := 2 ^ 20

/-- Bytes rounded up to whole MiB. -/
def wholeMib (n : Nat) : Nat := ceilDiv n mib * mib

/-- Bytes of the home table and heath map as last laid out. -/
def Dev.homeBytes (d : Dev) : Nat := d.f GLB_RSV.HOME_MIB * mib

/-- The system size of a bank's areas (R303): home table and heath map, region table, connection state at 512 B for each of
65 536 connections (R95), forwarding journal, candle store. -/
def systemBytes (home fjMib candlePlots : Nat) : Nat :=
  home + Config.regionTable.toNat + 65536 * 512 + fjMib * mib + candlePlots * plotBytes

/-- What each of `n` members reserves for a stripe of `sys` bytes. -/
def reserveFor (n sys : Nat) : Nat := if n ≤ 1 then sys else wholeMib (ceilDiv sys (n - 1))

/-- Channels that are members of a set. -/
def Dev.members (d : Dev) : List Nat := (List.range 24).filter (fun n => decide (d.f (MDW_CFG.SET n) < 24))

/-- The journal slice of a channel. -/
def Dev.sliceFor (d : Dev) (jrnlMib : Nat) : Nat :=
  let k := ((List.range 24).filter d.populated).length
  if k = 0 then 0 else ceilDiv jrnlMib k * mib

/-- The commit lays the sets, the reserves and the slices out again; the home table and the heath map are sized from what is
installed (R303, R529). -/
def Dev.layOut (d : Dev) : Dev :=
  let ms := d.members
  let hp := d.heathPlots
  let installed := (ms.map (fun n => d.f (MDW_STAT.CAP_GIB n) * 16384)).foldl (· + ·) 0
  let home := wholeMib (8 * (installed + hp) + 8 * hp)
  let sys := systemBytes home (d.f FAB_FWD_CTL.FJ_MIB) (d.f TIER_CANDLE_CFG.CANDLE_PLOTS)
  let mdw := { d.mdw with
    stripe := d.stripeNow, reserve := reserveFor ms.length sys, slice := d.sliceFor (d.f DUR_JRNL.JRNL_MIB), heathMap := hp }
  let d := { d with mdw := mdw, tier := { d.tier with freePlots := [], queues := [] } }
  let d := ((d.fset GLB_RSV.HOME_MIB (home / mib)).fset GLB_RSV.CONN_MIB 32).formCaps
  let d := d.fset TIER_HT_SIZE.ENTRIES (d.f GLB_CAP.REGION_PLOTS)
  let d := d.fset TIER_HT_CFG.BASE (((List.range 24).map d.portion).foldl (· + ·) 0 / plotBytes)
  (List.range 24).foldl Dev.returnPlots d

/-- Check 19: journals in use fit, and what the bank needs fits the reserves and slices laid out (R200, R285, R303). -/
def Dev.check19 (d : Dev) : List (Fld × Bool) :=
  let n := d.members.length
  let b := d.shadowOf
  let inUse := ((d.fab.fj.map (fun f => 48 + f.data.length)).foldl (· + ·) 0)
  let sys := systemBytes d.homeBytes (b FAB_FWD_CTL.FJ_MIB) (b TIER_CANDLE_CFG.CANDLE_PLOTS)
  let free := d.relays || n == 0
  [(DUR_JRNL.JRNL_MIB, decide (d.jrnlLines * 64 ≤ b DUR_JRNL.JRNL_MIB * mib)),
   (FAB_FWD_CTL.FJ_MIB, decide (inUse ≤ b FAB_FWD_CTL.FJ_MIB * mib)),
   (DUR_JRNL.JRNL_MIB, free || decide (d.sliceFor (b DUR_JRNL.JRNL_MIB) ≤ d.mdw.slice)),
   (FAB_FWD_CTL.FJ_MIB, free || decide (reserveFor n sys ≤ d.mdw.reserve))]

/-- Check 20: the capacities that follow from the bank cover the regions (R38). -/
def Dev.check20 (d : Dev) : List (Fld × Bool) :=
  let e := if d.relays then d.takeBank.layOut else d
  let mp := e.meadowPlots
  [(DUR_JRNL.JRNL_MIB, decide (d.regionSum (fun _ => true) ≤ mp + d.heathPlots) && decide (d.pinSum ≤ mp))]

/-! ### The checks in order (R410, R412) -/

/-- Each check from 3 on with its fields, in ascending number. -/
def Dev.checks (d : Dev) : List (Nat × List (Fld × Bool)) :=
  let b := d.shadowOf
  [(3, d.rangesA), (3, d.rangesB), (3, d.rangesC), (4, d.check4),
   (5, [(HPT_PFC_CTL.LOSSLESS, decide (popCount8 (b HPT_PFC_CTL.LOSSLESS) ≤ 4))]),
   (6, [(TWN_CFG.GAP_PRI, (BitVec.ofNat 8 (b TWN_CFG.GAP_PRI) &&& ~~~ BitVec.ofNat 8 (b HPT_PFC_CTL.LOSSLESS)) == 0)]),
   (7, d.check7Gids), (8, d.check8Keys), (9, d.check9Links),
   (10, [(FAB_CFG.SPAN_BASE, b FAB_CFG.SPAN_BASE == d.f FAB_CFG.SPAN_BASE || !d.anyRegion (·.spanned))]),
   (11, [(DUR_EPOCH_CFG.TIME_SRC, b DUR_EPOCH_CFG.TIME_SRC != 2 || (b TWN_CFG.ENABLE == 0 && b FAB_CFG.ENABLE == 0))]),
   (12, d.check12),
   (13, [(TIER_THRESH.PROMOTE, decide (b TIER_THRESH.DEMOTE < b TIER_THRESH.PROMOTE)),
         (TIER_THRESH.DEMOTE, decide (b TIER_THRESH.DEEP ≤ b TIER_THRESH.DEMOTE))]),
   (14, [(TIER_MDW_POOL.FORCE, decide (b TIER_MDW_POOL.FORCE ≤ b TIER_MDW_POOL.PROMO_FLOOR))]),
   (15, [(DUR_BUDGET_CTL.MARK1, decide (b DUR_BUDGET_CTL.MARK1 < b DUR_BUDGET_CTL.MARK2)
           && decide (b DUR_BUDGET_CTL.MARK2 < b DUR_BUDGET_CTL.MARK3) && decide (b DUR_BUDGET_CTL.MARK3 ≤ 97)),
         (DUR_BUDGET_CTL.IMG_SHARE, decide (b DUR_BUDGET_CTL.IMG_SHARE ≤ b DUR_BUDGET_CTL.IMG_MAX)
           && decide (b DUR_BUDGET_CTL.IMG_MAX ≤ 95))]),
   (16, [(DUR_HOLDUP.P_SAVE_W, b DUR_HOLDUP.VALID == 0 || (b DUR_HOLDUP.P_SAVE_W != 0
           && decide (40 * b DUR_HOLDUP.P_SAVE_W < 1000 * b DUR_HOLDUP.E_DECL_J)))]),
   (17, d.check17), (18, d.check18), (19, d.check19), (20, d.check20),
   (21, [(HPT_VERB_CTL.IMM_EN, b HPT_VERB_CTL.IMM_EN == 0 || (List.range 64).all (fun n =>
     !(d.on (RING_SQ_CFG.EN n) && d.f (RING_SQ_CFG.CQ n) == b HPT_VERB_CTL.IMM_RING)))])]

/-- The number of the first check of the list that fails, with the first field concerned. -/
def firstCheck : List (Nat × List (Fld × Bool)) → Option (Nat × Fld)
  | [] => none
  | (k, fs) :: r => match firstBad fs with
    | some x => some (k, x)
    | none => firstCheck r

/-- BAR0 offset of a field's 4 bytes, [25:2]. -/
def Fld.place (x : Fld) : Nat := x.off / 4 + x.lo / 32

/-- The refusal of a bank: check number and offset; check 2 concerns no field. -/
def Dev.bankFault (d : Dev) : Option (Nat × Nat) :=
  if d.cfx.when = 1 ∧ d.cfx.time ≤ d.now then some (2, 0)
  else (firstCheck d.checks).map (fun x => (x.1, x.2.place))

/-! ### Application (R413, R416) -/

/-- Ports of an octet whose mode or lanes have changed go down for retraining (R77). -/
def Dev.retrainOctets (d was : Dev) : Dev :=
  let moved (o : Nat) : Bool :=
    d.octMode (8 * o) != was.octMode (8 * o)
      || (List.range 8).any (fun k => d.fbit (HPT_PG_CFG.LANE_EN (o / 4)) ((8 * o + k) % 32)
        != was.fbit (HPT_PG_CFG.LANE_EN (o / 4)) ((8 * o + k) % 32))
  ((List.range 32).filter moved).foldl (fun (d : Dev) o =>
    (List.range 8).foldl (fun (d : Dev) k => d.portDown (8 * o + k)) d) d

/-- A port whose MAC address becomes 0 goes down (`HPT_MACp`). -/
def Dev.macsGone (d : Dev) : Dev :=
  ((d.hpt.ports.map (·.1)).filter (fun p => d.f (HPT_MAC.MAC p) == 0)).foldl Dev.portDown d

/-- Channels and modules follow `EN` (Table 9.2, Table 10.3). -/
def Dev.enablesNow (d : Dev) : Dev :=
  let chan (d : Dev) (n : Nat) : Dev :=
    if ¬ d.on (MDW_CFG.EN n) then d.toChanEvent n chAbsent
    else if d.chanState n = chAbsent ∧ d.coreOn then d.toChanEvent n chTraining else d
  let mod (d : Dev) (m : Nat) : Dev :=
    if ¬ d.on (HTH_MOD_CFG.EN m) then (if d.f (HTH_MOD_STAT.STATE m) = modAbsent then d else d.toMod m modAbsent)
    else d
  (List.range 20).foldl mod ((List.range 24).foldl chan d)

/-- Modules just enabled are initialised. -/
def Dev.modulesOn (d was : Dev) : Dev :=
  let now (m : Nat) : Bool := d.on (HTH_MOD_CFG.EN m) && !was.on (HTH_MOD_CFG.EN m) && d.f (HTH_MOD_STAT.STATE m) == modAbsent
  ((List.range 20).filter now).foldl (fun (d : Dev) m => d.toMod m modInit) d

/-- The open epoch is numbered under the new length (R61, R206). -/
def Dev.renumber (d was : Dev) : Dev :=
  if d.epochLen = was.epochLen ∨ ¬ d.dur.isOpen ∨ d.dur.openEp * 1000000 ≤ d.now then d
  else { d with dur := { d.dur with openEp := d.epochOf d.now } }

/-- A change of the time source (R203): into free-run with valid time, or out of it to Unlocked. -/
def Dev.sourceNow (d was : Dev) : Dev :=
  let a := was.f DUR_EPOCH_CFG.TIME_SRC
  let b := d.f DUR_EPOCH_CFG.TIME_SRC
  if a ≠ 2 ∧ b = 2 ∧ d.tim.valid then
    { d.fset DUR_TIME_STAT.STATE timeFreeRun with tim := { d.tim with leaving := false, lockCnt := 0, off := d.tim.off + d.slewed, slew := 0, slewFrom := d.clk } }
  else if a = 2 ∧ b ≠ 2 ∧ d.f DUR_TIME_STAT.STATE = timeFreeRun then
    { d.fset DUR_TIME_STAT.STATE timeUnlocked with tim := { d.tim with leaving := true, lockCnt := 0 } }
  else d

/-- The candle store keeps no more copies than its plots (R173). -/
def Dev.candleNow (d : Dev) : Dev :=
  let n := d.f TIER_CANDLE_CFG.CANDLE_PLOTS
  { d with tier := { d.tier with candle := d.tier.candle.drop (d.tier.candle.length - n) } }

/-- The reserved areas of `GLB_RSV` that the bank names, and the capacities (R529). -/
def Dev.reservesNow (d : Dev) : Dev :=
  (((d.fset GLB_RSV.FJ_MIB (d.f FAB_FWD_CTL.FJ_MIB)).fset GLB_RSV.JRNL_MIB (d.f DUR_JRNL.JRNL_MIB)).fset GLB_RSV.CANDLE_MIB
    (d.f TIER_CANDLE_CFG.CANDLE_PLOTS / 16)).formCaps

/-- The twin and the fabric follow their enables (R221, R269, R270). -/
def Dev.linksNow (d was : Dev) : Dev :=
  let d := if d.on TWN_CFG.ENABLE then d else d.twinDown
  let d := (List.range 16).foldl (fun (d : Dev) n =>
    if d.fbit FAB_CFG.LINK_EN n ∨ d.f (FAB_LINK_STAT.STATE n) = 0 then d else d.fabDown n) d.settleFabric
  if d.on FAB_CFG.ENABLE ∧ (d.on FAB_CFG.STEWARD_EN ≠ was.on FAB_CFG.STEWARD_EN ∨ d.f FAB_CFG.LINK_EN ≠ was.f FAB_CFG.LINK_EN)
  then d.ownLsa else d

/-- Fields of the rail table and of `PWR_SEQ_CFG`, which the sequence EEPROM holds (R437). -/
def inEeprom (k : Nat) : Bool :=
  let o := k / 128
  o == 0xC00008 || (decide (0xC00100 ≤ o) && decide (o < 0xC00400))

/-- The EEPROM takes the registers it holds (R437). -/
def Dev.writeEeprom (d : Dev) : Dev := { d with pwr := { d.pwr with eeprom := d.regs.filter (fun kv => inEeprom kv.1) } }

/-- The hold-up self-test runs within 16 rounds after `VALID` is applied as 1 (R475). -/
def Dev.testHoldup (d was : Dev) : Dev :=
  if d.on DUR_HOLDUP.VALID ∧ ¬ was.on DUR_HOLDUP.VALID then { d with pwr := { d.pwr with holdTest := 16, holdBad := false } } else d

/-- Sweeps are due at the multiples of a new `INTERVAL` from now on (R159). -/
def Dev.sweepsNow (d was : Dev) : Dev :=
  if d.f TIER_HEAT_CTL.INTERVAL = was.f TIER_HEAT_CTL.INTERVAL then d
  else { d with tier := { d.tier with sweepNo := d.heatInterval } }

/-- What follows from STG fields having new values. -/
def Dev.bankActs (d was : Dev) (relay : Bool) : Dev :=
  let d := d.testHoldup was
  let d := if relay then d.layOut else d
  let d := ((d.retrainOctets was).macsGone.enablesNow).modulesOn was
  let d := ((d.renumber was).sourceNow was).candleNow.reservesNow.rebudget
  (((d.linksNow was).sweepsNow was).copyAuth).writeEeprom

/-- The bank applies and is recorded as the standing bank; its commit completes with the device time (R413, R416). -/
def Dev.applyCfx (d : Dev) : Dev :=
  let c := d.cfx.cmdId.bind d.cmd
  let relay := d.relays
  let d := ((d.takeBank).bankActs d relay).closeCfx
  let d := ((d.fset CFX_RESULT.OUTCOME 1).fset CFX_RESULT.CHECK 0).fset CFX_RESULT.AT_NS d.now
  let d := ({ d with store := { d.store with bank := d.listed .stg } }).writeStore
  let d := match c with
    | some c => d.complete c csDone 0 d.now
    | none => d
  d.pump

/-- A commit that waits for its instant applies once it has come (R411). -/
def Dev.applyDue (d : Dev) : Dev := if d.f CFX_CTL.STATE = 3 ∧ d.cfx.applyAt ≤ d.now then d.applyCfx else d

/-- A commit is accepted: Checking (Table 13.2). -/
def Dev.acceptCommit (d : Dev) (cmdId : Option Nat) (when time : Nat) : Dev :=
  { d.fset CFX_CTL.STATE 2 with cfx := { d.cfx with cmdId := cmdId, when := when, time := time, applyAt := 0 } }

/-- A refusal is recorded; the bank stays Open (R409, R410). -/
def Dev.refuseCommit (d : Dev) (check place : Nat) : Dev :=
  let c := d.cfx.cmdId.bind d.cmd
  let d := { d.fset CFX_CTL.STATE 1 with cfx := { d.cfx with cmdId := none } }
  let d := ((d.fset CFX_RESULT.OUTCOME 2).fset CFX_RESULT.CHECK check).fset CFX_RESULT.OFFSET place
  match c with
  | some c => d.complete c csRefused check
  | none => d

/-- A Checking or Scheduled commit is discarded because device time becomes invalid (R414). -/
def Dev.timeGone (d : Dev) : Dev := if d.f CFX_CTL.STATE = 2 ∨ d.f CFX_CTL.STATE = 3 then d.discardCfx else d

end Sys2Proof.Machine
end

