-- ==== Sys2Proof/Machine/AgeOps.lean ====
section
/-! DEFINITION. Engines and their spares (R12, R469 to R472), Hold (R482), the margin plan (R463 to R466), lane degradation
(R473, R474), and the rolling restart of an activation (R476 to R481). -/

namespace Sys2Proof.Machine

/-! ### Hold (R482, Table 16.3) -/

/-- Forms of Hold. -/
def holdServing : Nat := 1
def holdOffline : Nat := 2

/-- The device enters Hold: the down status goes out on both heartbeat paths (R243); the offline form takes every region
Offline. -/
def Dev.enterHold (d : Dev) (form : Nat) : Dev :=
  if form ≤ d.f FWM_STAT.HOLD then d
  else
    let d := ((d.fset FWM_STAT.HOLD form).raise (source 0 2) 2 0 form 0).setStatus .down
    let d := if d.on TWN_CFG.ENABLE then d.heartbeat else d
    if form = holdOffline then d.allOffline else d

/-- The device leaves Hold (R480). -/
def Dev.leaveHold (d : Dev) : Dev :=
  if d.f FWM_STAT.HOLD = 0 then d
  else
    let form := d.f FWM_STAT.HOLD
    ((d.fset FWM_STAT.HOLD 0).raise (source 0 2) 2 0 form 0).setStatus .healthy

/-! ### Engines -/

/-- No spare. -/
def noSpare : Nat := 15

/-- Slots of a lantern's roles, by logical position (R13). -/
def Dev.rolesOf (d : Dev) (l : Nat) : List Nat := lookD d.age.roles l (List.range 8)

/-- The device with a lantern's spare changed. -/
def Dev.setSpare (d : Dev) (l s : Nat) : Dev := { d with age := { d.age with spares := put d.age.spares l s } }

/-- The device with a lantern's roles changed. -/
def Dev.setRoles (d : Dev) (l : Nat) (r : List Nat) : Dev := { d with age := { d.age with roles := put d.age.roles l r } }

/-- A lantern with fewer than four working engines is failed: Hold in its offline form (R472). -/
def Dev.judgeLantern (d : Dev) (l : Nat) : Dev :=
  if (d.workingSlots l).length < 4 then d.enterHold holdOffline else d

/-- Physical engine `p` leaves service, for good where `retire` is set; its lantern's spare starts to take its number, or
without one its role runs on the engines that remain (R469 to R472). -/
def Dev.removeEngine (d : Dev) (p : Nat) (retire : Bool) : Dev :=
  let l := p / 9
  let s := p % 9
  if 144 ≤ p ∨ ¬ (d.workingSlots l).contains s then d
  else
    let d := { d with age := { d.age with out := ins d.age.out p } }
    let d := if retire then
        { d.setFbit (AGE_ENG.RETIRED l) s true with store := { d.store with dirty := true, dirtyAt := d.clk } } else d
    let spare := d.spareOf l
    let d := if spare = s then d.setSpare l noSpare
      else if (d.rolesOf l).contains s then
        if spare = noSpare then (d.setRoles l ((d.rolesOf l).filter (· != s))).raise (source 15 2) 5 0 l p
        else { d with age := { d.age with subst := d.age.subst ++ [(l, s)] } }.setSpare l noSpare
      else d
    d.judgeLantern l

/-- The slot a lantern's substitution uses: a working one that has no role (R469). -/
def Dev.freeSlotOf (d : Dev) (l : Nat) : Option Nat := (d.workingSlots l).find? (fun s => !(d.rolesOf l).contains s)

/-- The spare has the removed engine's logical number and goes on with its work (R469, R470). -/
def Dev.endSubstitution (d : Dev) (l : Nat) : Dev :=
  match d.age.subst.find? (fun x => x.1 == l) with
  | none => d
  | some (_, s) =>
    let d := { d with age := { d.age with subst := d.age.subst.filter (fun x => !(x.1 == l && x.2 == s)) } }
    match d.freeSlotOf l with
    | none => (d.setRoles l ((d.rolesOf l).filter (· != s))).raise (source 15 2) 5 0 l (9 * l + s)
    | some n =>
      (d.setRoles l ((d.rolesOf l).map (fun x => if x = s then n else x))).raise (source 15 2) 4 0 l
        (9 * l + s + 256 * (9 * l + n))

/-- An engine removed for a watchdog that passes its memory check is its lantern's spare again (R471). -/
def Dev.returnEngine (d : Dev) (p : Nat) : Dev :=
  let l := p / 9
  let d := { d with age := { d.age with wdOut := rem d.age.wdOut p, out := rem d.age.out p } }
  if d.spareOf l = noSpare then d.setSpare l (p % 9) else d

/-! ### The margin plan (R463 to R466) -/

/-- A plan is formed (R463, R465): margins that cannot be met lower the clocks, and a clock below 800 MHz drops the plan. -/
def Dev.formPlan (d : Dev) (p : Plan) : Dev :=
  let d := { d with age := { d.age with plan := some p, lastPlan := d.clk, voltReq := false, voltOk := false } }
  if p.unmet then
    (({ d with age := { d.age with plan := none } }).fset AGE_PLAN_STAT.OUTCOME 3).raise (source 3 0) 5 0 0xFFFF 0
  else if p.lowered then d.raise (source 3 0) 4 0 0xFFFF 0 else d

/-- A plan is held back (R466): activation's barrier, a save, Hold, its lantern restarting (Table 18.2), or the housekeeping
converter absent (Table 1.8). -/
def Dev.planHeld (d : Dev) : Bool :=
  d.pwr.hkGone || d.ring.barrier.isSome || d.dur.saving || d.f FWM_STAT.HOLD != 0 || !d.lanternUp 14

/-- A refresh floor reaches its channel, or waits for its thaw (R309). -/
def Dev.setFloor (d : Dev) (x : Nat × Nat) : Dev :=
  if d.chanState x.1 = chFrozen then { d with age := { d.age with heldFloors := put d.age.heldFloors x.1 x.2 } }
  else { d with age := { d.age with floors := put d.age.floors x.1 x.2 } }

/-- What a plan sets besides the voltage: clocks, refresh floors, and a new save-rate calibration where it changes a module's
read thresholds; until that ends the module keeps the rate it has (R181, R348, log entry 90). -/
def Dev.planActs (d : Dev) (p : Plan) : Dev :=
  let d := { d with age := { d.age with clock := p.clocks.foldl (fun l x => put l x.1 x.2) d.age.clock } }
  let d := p.refresh.foldl Dev.setFloor d
  let again (x : Nat × Module) : Nat × Module := if p.thresholds.contains x.1 then (x.1, { x.2 with calDue := true }) else x
  { d with hth := { d.hth with mods := d.hth.mods.map again } }

/-- A formed plan at the closing instant of epoch `k` (R464, R466). -/
def Dev.applyPlan (d : Dev) (k : Nat) : Dev :=
  match d.age.plan with
  | none => d
  | some p =>
    let v := d.f AGE_PLAN_STAT.VCORE_MV
    if d.planHeld then d.fset AGE_PLAN_STAT.OUTCOME 4
    else if v < p.voltMv ∧ ¬ d.age.voltOk then d
    else
      let d := d.planActs p
      let d := if p.voltMv < v then { d.send (.avs p.voltMv) with age := { d.age with voltAfter := some p.voltMv } } else d
      let d := ((d.fset AGE_PLAN_STAT.OUTCOME (if p.lowered then 2 else 1)).finc AGE_PLAN_STAT.PLANS 1).fset
        AGE_PLAN_STAT.EPOCH k
      let d := { d with
        age := { d.age with plan := none, voltReq := false, voltOk := false }
        store := { d.store with plan := some p } }
      (d.writeStore).raise (source 3 0) 2 0 0xFFFF 0

/-! ### Lanes (R473, R474) -/

/-- Kinds of lane: host, twin, fabric, PCIe. -/
def laneHost : Nat := 0
def laneTwin : Nat := 1
def laneFabric : Nat := 2

/-- A twin lane group is taken out of service; the link narrows, and frames are sent again on what is left. -/
def Dev.removeGroup (d : Dev) (g : Nat) : Dev :=
  if 4 ≤ g ∨ d.age.removed.contains g then d
  else
    let d := { d with age := { d.age with removed := ins d.age.removed g } }
    if ¬ d.twn.linkUp then d
    else
      let d := (d.fset TWN_STAT.WIDTH (d.f TWN_STAT.WIDTH - 8)).raise (source 12 3) 2 0 0xFFFF (d.f TWN_STAT.WIDTH - 8)
      if d.f TWN_STAT.WIDTH = 0 then d.twinDown
      else match d.twn.unacked.head? with
      | some f => d.twinResend f.seq
      | none => d

/-- A lane fails its criteria: its twin group goes, its fabric link or its port goes down; PCIe narrows by itself. -/
def Dev.laneFails (d : Dev) (kind lane : Nat) : Dev :=
  if kind = laneTwin then d.removeGroup (lane / 8)
  else if kind = laneFabric then
    (if d.f (FAB_LINK_STAT.STATE lane) = linkDownState then d else (d.fabDown lane).ownLsa)
  else if kind = laneHost then d.portDown (lane / lanesOf (d.octMode lane) * lanesOf (d.octMode lane))
  else d

/-! ### Rolling restarts (R477 to R481) -/

/-- Order in which an activation restarts the lanterns. -/
def rotationOrder : List Nat := [0, 1, 2, 3, 4, 5, 6, 7, 8, 9, 10, 11, 13, 12, 14, 15]

/-- The rolling restart may take its next step: an activation that has begun, or a rollback whose barrier has passed. -/
def Dev.mayRotate (d : Dev) : Bool :=
  d.fwm.rotating || (d.fwm.rollback && !d.ring.cmds.any (fun c => !c.sb && d.ring.barrier.any (fun b => decide (c.id < b))))

/-- A role moves to the engine that holds the new image, or restarts in place where the lantern has no spare (R477). -/
def Dev.moveRole (d : Dev) (l k : Nat) : Dev :=
  let r := d.rolesOf l
  match r[k]? with
  | none => d
  | some s => if d.spareOf l = noSpare then d else (d.setRoles l (r.set k (d.spareOf l))).setSpare l s

/-- Slot of the firmware that runs, and the other one. -/
def Dev.fwActive (d : Dev) : Nat := d.f FWM_STAT.ACTIVE
def Dev.fwOther (d : Dev) : Nat := 1 - d.f FWM_STAT.ACTIVE

/-- States of a firmware slot. -/
def fwEmpty : Nat := 0
def fwStaged : Nat := 1
def fwUnconfirmed : Nat := 2
def fwConfirmed : Nat := 3
def fwPrevious : Nat := 4
def fwRejected : Nat := 5

/-- The barrier ends and fetching resumes (R401). -/
def Dev.endBarrier (d : Dev) : Dev :=
  { d with ring := { d.ring with barrier := none }, fwm := { d.fwm with rotating := false, rollback := false, cmdId := none } }

/-- Every lantern runs the staged image (R479): it reads the settings store and the window opens, or Hold begins. -/
def Dev.activated (d : Dev) (reads : Bool) : Dev :=
  let c := d.fwm.cmdId.bind d.cmd
  let new := d.fwOther
  let d := ((d.fset (FWM_SLOT.STATE d.fwActive) fwPrevious).fset (FWM_SLOT.STATE new) fwUnconfirmed).fset FWM_STAT.ACTIVE new
  let d := ((d.fset FWM_STAT.CONFIRMED 0).endBarrier).raise (source 15 5) 2 0 0 0
  let d := { d with store := { d.store with older := true } }
  let d := if reads then
      { d with fwm := { d.fwm with window := some (d.clk + d.f FWM_CTL.CONFIRM_MIN * 60000000000), starts := 0 } }
    else d.enterHold holdServing
  match c with
  | none => d
  | some c => if reads then d.complete c csDone (d.f (FWM_SLOT.VERSION new)) else d.complete c csHeld

/-- Every lantern runs the Previous image again (R480): the other slot is Rejected and Hold is left. -/
def Dev.rolledBack (d : Dev) : Dev :=
  let old := d.fwActive
  let new := d.fwOther
  let d := ((d.fset (FWM_SLOT.STATE old) fwRejected).fset (FWM_SLOT.STATE new) fwConfirmed).fset FWM_STAT.ACTIVE new
  let d := ((d.fset FWM_STAT.CONFIRMED 1).endBarrier).raise (source 15 5) 5 0 0 0
  let d := { d with store := { d.store with older := false }, fwm := { d.fwm with starts := 0 } }
  if d.f FWM_STAT.HOLD = holdServing then d.leaveHold else d

/-- One step of the rolling restart: a role moves; after a lantern's last role the lantern runs the image, and after lantern
15 the restart is over. `rotStep` counts sixteen to a lantern. -/
def Dev.rotate (d : Dev) (reads : Bool) : Dev :=
  let l := rotationOrder.getD (d.fwm.rotStep / 16) 15
  let k := d.fwm.rotStep % 16
  let d := d.moveRole l k
  if k + 1 < (d.rolesOf l).length then { d with fwm := { d.fwm with rotStep := d.fwm.rotStep + 1 } }
  else
    let d := d.setFbit FWM_STAT.LANTERNS l true
    if l ≠ 15 then { d with fwm := { d.fwm with rotStep := (d.fwm.rotStep / 16 + 1) * 16 } }
    else if d.fwm.rollback then d.rolledBack else d.activated reads

/-- The active slot is unconfirmed and can be rolled back (`FWM_CTL`). -/
def Dev.canRollBack (d : Dev) : Bool := d.f (FWM_SLOT.STATE d.fwActive) == fwUnconfirmed

/-- A rollback begins: the window is over, and the barrier stands until the Previous image runs (R480). -/
def Dev.startRollback (d : Dev) : Dev :=
  if d.fwm.rotating ∨ d.fwm.rollback ∨ ¬ d.canRollBack then d
  else
    let d := d.fset FWM_STAT.LANTERNS 0
    { d with
      ring := { d.ring with barrier := some d.ring.nextCmd }
      fwm := { d.fwm with window := none, rollback := true, rotStep := 0, cmdId := none } }

/-- The confirmation of the active image (R480). -/
def Dev.confirmImage (d : Dev) : Dev :=
  let d := (d.fset (FWM_SLOT.STATE d.fwActive) fwConfirmed).fset FWM_STAT.CONFIRMED 1
  let d := { d with fwm := { d.fwm with window := none, starts := 0 }, store := { d.store with older := false } }
  (d.writeStore).raise (source 15 5) 2 0 0 0

end Sys2Proof.Machine
end

