-- ==== Sys2Proof/Machine/Age.lean ====
section
/-! DEFINITION. Ageing (R461 to R474), engines (R469 to R472) and self-tests (R399). -/

namespace Sys2Proof.Machine

/-- A self-test starts (R399). -/
def Dev.startTest (d : Dev) (c : Cmd) : Dev :=
  if d.age.selftest.isSome then d.complete c csRefused 7
  else { d with age := { d.age with selftest := some c.id, selfPaused := false } }

/-- SELFTEST_SHORT (R399). -/
def execSelftestShort (t cmd : Nat) (s : State) : Host.Outcome State Fault Refusal :=
  s.run t fun d => d.startCmd cmd ocShort (fun _ => true) Dev.startTest

/-- SELFTEST_EXTENDED (R399). -/
def execSelftestExtended (t cmd : Nat) (s : State) : Host.Outcome State Fault Refusal :=
  s.run t fun d => d.startCmd cmd ocExtended (fun _ => true) Dev.startTest

/-- SELFTEST_RESUME (R399). -/
def execSelftestResume (t : Nat) (s : State) : Host.Outcome State Fault Refusal :=
  s.run t fun d => { d with age := { d.age with selfPaused := false } }

/-- What a failing item of a self-test does beyond its report: a failed engine is retired (R469, R471). A failed known-answer
test raises the alarm (R376). -/
def Dev.failedItem (d : Dev) (item : Nat) : Dev :=
  if item / 65536 = 2 then
    let l := item % 65536
    let d := (d.age.wdOut.filter (fun p => p / 9 == l)).foldl (fun (d : Dev) p => d.setFbit (AGE_ENG.RETIRED l) (p % 9) true) d
    let d := { d with age := { d.age with wdOut := d.age.wdOut.filter (fun p => p / 9 != l) } }
    if d.spareOf l = noSpare then d else d.removeEngine (9 * l + d.spareOf l) true
  else if item / 65536 = 1 then d.alarm alarmTest
  else d

/-- SELFTEST_DONE (R399, R471): the test's report; a short test lets engines removed for a watchdog return as spares. -/
def execSelftestDone (t item active paused : Nat) (s : State) : Host.Outcome State Fault Refusal :=
  s.run t fun d =>
    match d.age.selftest.bind d.cmd with
    | none => d
    | some c =>
      let d := { d with age := { d.age with selftest := none, selfPaused := false } }
      let bad (p : Nat) : Bool := item == 131072 + p / 9
      let d := if c.op = ocShort then (d.age.wdOut.filter (fun p => !bad p)).foldl Dev.returnEngine d else d
      let d := ((if item = 0 then d else d.failedItem item).raise (source 0 3) 2 0 0xFFFF item)
      d.complete c csDone item (active * 2 ^ 32 + paused)

/-- A lane measured below a quarter of its planned margin, counted (R473). -/
def Dev.countEye (d : Dev) (key margin : Nat) : Dev :=
  let n := if margin < 25 then lookD d.age.lowEyes key 0 + 1 else 0
  { d with age := { d.age with eyes := put d.age.eyes key margin, lowEyes := if n = 0 then del d.age.lowEyes key else put d.age.lowEyes key n } }

/-- EYE_MONITOR (R461, R473): three measurements below 25 % take the lane's group, link or port out. -/
def execEyeMonitor (t kind lane margin fec : Nat) (s : State) : Host.Outcome State Fault Refusal :=
  s.run t fun d =>
    if ¬ d.lanternUp 14 then d
    else
      let key := kind * 65536 + lane
      let d := d.countEye key margin
      let d := { d with age := { d.age with fecs := put d.age.fecs key fec } }
      if lookD d.age.lowEyes key 0 < 3 then d
      else ({ d with age := { d.age with lowEyes := del d.age.lowEyes key } }).laneFails kind lane

/-- FEC_RATE_EXCEEDED (R473). -/
def execFecRateExceeded (t kind lane : Nat) (s : State) : Host.Outcome State Fault Refusal :=
  s.run t fun d => d.laneFails kind lane

/-- LANE_RETRAIN_TIMER (R473): a removed group retrains. -/
def execLaneRetrainTimer (t group : Nat) (s : State) : Host.Outcome State Fault Refusal :=
  s.run t fun d =>
    if d.age.removed.contains group then { d with age := { d.age with retrain := put d.age.retrain group d.clk } } else d

/-- LANE_GROUP_REJOIN (R473): after 1 s of PRBS31 without error. -/
def execLaneGroupRejoin (t group : Nat) (s : State) : Host.Outcome State Fault Refusal :=
  s.run t fun d =>
    if d.age.removed.contains group ∧ (look d.age.retrain group).any (fun a => a + 1000000000 ≤ d.clk) then
      let d := { d with age := { d.age with removed := rem d.age.removed group, retrain := del d.age.retrain group } }
      if d.twn.linkUp then
        (d.fset TWN_STAT.WIDTH (d.f TWN_STAT.WIDTH + 8)).raise (source 12 3) 2 0 0xFFFF (d.f TWN_STAT.WIDTH + 8)
      else d
    else d

/-- DRAM_SWEEP (R461, R462): of an Online channel, on the unused part of the remap reserve; no line with data is written. -/
def execDramSweep (t ch : Nat) (s : State) : Host.Outcome State Fault Refusal :=
  s.run t fun d =>
    if d.chanState ch = chOnline ∧ d.lanternUp 14 ∧ lookD d.age.sweptAt ch 0 + d.f AGE_CTL.SWEEP_H * 3600000000000 ≤ d.clk
    then { d with age := { d.age with sweptAt := put d.age.sweptAt ch d.clk } }
    else d

/-- PLAN_TIMER (R463): every `PLAN_H` hours or on a drift. -/
def execPlanTimer (t : Nat) (p : Plan) (s : State) : Host.Outcome State Fault Refusal :=
  s.run t fun d => if d.lanternUp 14 ∧ ¬ d.dur.saving then d.formPlan p else d

/-- PLAN_VOLTAGE_REQUEST (R464): 1 ms before the closing instant a rise is requested. -/
def execPlanVoltageRequest (t : Nat) (s : State) : Host.Outcome State Fault Refusal :=
  s.run t fun d =>
    match d.age.plan with
    | none => d
    | some p =>
      if d.f AGE_PLAN_STAT.VCORE_MV < p.voltMv ∧ ¬ d.age.voltReq ∧ d.dur.openEp * 1000000 ≤ d.now + 1000000 then
        { d.send (.avs p.voltMv) with age := { d.age with voltReq := true, voltOk := false } }
      else d

/-- ENGINE_MEMORY_ERROR (R14, R469): a corrected error is counted for its lantern; after one that is not corrected the engine leaves
service for good. -/
def execEngineMemoryError (t : Nat) (err : EngineErr) (s : State) : Host.Outcome State Fault Refusal :=
  s.run t fun d =>
    if ¬ d.coreOn then d
    else if err.corrected then
      ({ d with age := { d.age with memCe := change d.age.memCe (err.engine / 9) 0 (· + 1) } }).count 0x101 (err.engine / 9) 1
    else d.removeEngine err.engine true

/-- ENGINE_WATCHDOG_EXPIRY (R469, R506): the failure counts towards a restart of its lantern. -/
def execEngineWatchdogExpiry (t engine : Nat) (s : State) : Host.Outcome State Fault Refusal :=
  s.run t fun d =>
    if ¬ d.coreOn ∨ ¬ (d.workingSlots (engine / 9)).contains (engine % 9) then d
    else
      let recent := d.age.wdFails.filter (fun x => d.clk ≤ x.2 + 1000000)
      let d := { d with age := { d.age with wdFails := recent ++ [(engine, d.clk)], wdOut := ins d.age.wdOut engine } }
      d.removeEngine engine false

/-- SPARE_SUBSTITUTION_DONE (R469, R470): verbs that waited for the engine go on. -/
def execSpareSubstitutionDone (t lantern : Nat) (s : State) : Host.Outcome State Fault Refusal :=
  s.run t fun d => (d.endSubstitution lantern).pump

end Sys2Proof.Machine
end

