-- ==== Sys2Proof/Machine/Cfx.lean ====
section
/-! DEFINITION. Commands of the configuration transaction (R395, R407 to R419) and of the settings store (R421). -/

namespace Sys2Proof.Machine

/-- `OPEN` is written by the control host (R408). -/
def Dev.hostOpen (d : Dev) : Dev :=
  if d.f CFX_CTL.STATE ≠ 0 then d.illegal 7 CFX_CTL.OPEN.place else d.openCfx holderHost

/-- CFG_OPEN. -/
def execCfgOpen (t : Nat) (s : State) : Host.Outcome State Fault Refusal :=
  s.run t fun d => if d.serves then d.hostOpen else d

/-- CFG_DISCARD (R409): the control host throws its Open bank away. -/
def Dev.hostDiscard (d : Dev) : Dev :=
  if d.f CFX_CTL.STATE = 1 ∧ d.f CFX_CTL.HOLDER = holderHost then d.discardCfx else d

/-- CFG_DISCARD. -/
def execCfgDiscard (t : Nat) (s : State) : Host.Outcome State Fault Refusal :=
  s.run t fun d => if d.serves then d.hostDiscard else d

/-- `GRANT` is written (R417, R418). -/
def Dev.writeGrant (d : Dev) (on : Bool) : Dev :=
  let had := d.on CFX_CTL.GRANT
  let d := (d.fset CFX_CTL.GRANT (bit on)).setAuthority
  if had ∧ ¬ on then d.dropSideBank else d

/-- CFG_GRANT (R418). -/
def execCfgGrant (t : Nat) (on : Bool) (s : State) : Host.Outcome State Fault Refusal :=
  s.run t fun d => if d.serves then d.writeGrant on else d

/-- CFG_COMMIT (R395, R409, R411, R418): the command's turn. -/
def Dev.startCommit (d : Dev) (c : Cmd) : Dev :=
  let st := d.f CFX_CTL.STATE
  let when := c.byte 16
  if st ≠ 0 ∧ d.f CFX_CTL.HOLDER = holderSide then d.complete c csSideband
  else if st = 2 then ((d.illegal 5 c.ring).dropCmd c.id).settleWaits d.ring.cmds.length
  else if st = 3 then d.complete c csRefused 9
  else if st = 0 then (((d.fset CFX_RESULT.OUTCOME 2).fset CFX_RESULT.CHECK 1).fset CFX_RESULT.OFFSET 0).complete c csRefused 1
  else if when ≠ 0 ∧ ¬ d.tim.valid then d.complete c csNotReady 2
  else d.acceptCommit (some c.id) when (c.u64 24)

/-- CFG_COMMIT. -/
def execCfgCommit (t cmd : Nat) (s : State) : Host.Outcome State Fault Refusal :=
  s.run t fun d => d.startCmd cmd ocCommit (fun _ => true) Dev.startCommit

/-- CFG_CHECK_DONE (R410 to R412): the checking ends. -/
def execCfgCheckDone (t : Nat) (s : State) : Host.Outcome State Fault Refusal :=
  s.run t fun d =>
    if d.f CFX_CTL.STATE ≠ 2 then d
    else match d.bankFault with
    | some (k, o) => d.refuseCommit k o
    | none =>
      if d.cfx.when = 0 then d.applyCfx
      else
        let at_ := if d.cfx.when = 1 then d.cfx.time else d.epochOf d.now * 1000000
        { d.fset CFX_CTL.STATE 3 with cfx := { d.cfx with applyAt := at_ } }

/-- CFG_SCHEDULED_APPLY (R411, R413). -/
def execCfgScheduledApply (t : Nat) (s : State) : Host.Outcome State Fault Refusal := s.run t fun d => d.applyDue

/-- SETTINGS_STORE_WRITE (R421): a change of an RWP field or of a remap table is written, within 100 ms of it. -/
def execSettingsStoreWrite (t : Nat) (s : State) : Host.Outcome State Fault Refusal :=
  s.run t fun d => if d.store.dirty then d.writeStore else d

end Sys2Proof.Machine
end

