-- ==== Sys2Proof/Machine/SaveOps.lean ====
section
/-! DEFINITION. The save (R63, R208 to R212): what its start stops, and what it leaves. -/

namespace Sys2Proof.Machine

/-! ### Answers to power operations (R453) -/

/-- Results of power operations (`PWR_CTL`). -/
def pwrDone : Nat := 0
def pwrState : Nat := 1
def pwrBay : Nat := 2
def pwrFault : Nat := 3
def pwrSave : Nat := 4

/-- The vendor command POWER (Table 14.3). -/
def vcPower : Nat := 5

/-- A power operation has ended: `PWR_CTL` shows its result, or POWER is answered (R429, R453). -/
def Dev.answerPwr (d : Dev) (r : PwrReq) (result : Nat) : Dev :=
  if r.who = 1 then (d.fset PWR_CTL.BUSY 0).fset PWR_CTL.RESULT result
  else if r.who = 2 then d.send (.vendor vcPower 0 [r.inst, if result = pwrDone then 0 else 2, result])
  else d

/-! ### The start of a save -/

/-- A migration is cancelled with its entry left in its moving state, for restore (Table 5.6). -/
def Dev.leaveMig (d : Dev) (m : Migration) : Dev :=
  let d := d.dropMig m.idx
  let d := { d with dur := { d.dur with reserved := d.dur.reserved - m.res } }
  (d.releaseHome m.dstTier m.dstLoc).finc (TIER_MIG_STAT.CANCELLED (m.lantern - 8)) 1

/-- No migration is left, and none waits (Table 5.6). -/
def Dev.stopMigs (d : Dev) : Dev :=
  let d := d.tier.migs.foldl Dev.leaveMig d
  { d with tier := { d.tier with waitDst := [], sweepOn := false, sweepDue := false } }

/-- What a save gives at once to accepted writes that wait: awake units and free plots for first writes. -/
def Dev.applyRest (d : Dev) : Dev := ((List.range 8).foldl (fun d l => d.refill l 4) d.allAwake).pump

/-- Open messages are abandoned, replica messages that are not whole are rolled back, and accepted writes are applied; those
durable are acknowledged. A write for a plot in heath cannot be applied, because no migration commits after a save has begun
(Table 5.6, log entry 85). Every other operation ends unanswered (R63, R199, Table 6.4). -/
def Dev.settleOps (d : Dev) : Dev :=
  let d := { d with hpt := { d.hpt with ingress := [], cold := [] } }
  let d := (d.hpt.ops.filter (fun o => !o.whole)).foldl Dev.abandon d
  let d := (d.twn.reps.filter (fun r => !r.whole)).reverse.foldl Dev.undoRep d
  let d := ({ d with twn := { d.twn with legWait := [] } }).applyRest
  let d := (d.hpt.ops.filter d.canDurable).foldl Dev.makeDurable d
  (d.hpt.ops.filter (fun o => o.phase != .applied && o.phase != .posted)).foldl Dev.abandon d

/-- `SEAL_NOW` completes with the early-closed epoch; side-band requests are answered 82h and counted; any other command is
lost (Table 6.5, R433, Table 18.4). -/
def Dev.endCmds (d : Dev) : Dev :=
  let fin := d.dur.sealNow
  let d := { d with dur := { d.dur with sealNow := [] } }
  let d := fin.foldl (fun (d : Dev) x => match d.cmd x.1 with
    | some c => d.complete c csDone 0 d.dur.openEp
    | none => d) d
  let sb := d.ring.cmds.filter (·.sb)
  let d := { d with
    ring := { d.ring with cmds := [], barrier := none, stopFetch := true, fetching := false, toFetch := [], pcieUp := false }
    cph := { d.cph with jobs := [] }
    age := { d.age with selftest := none, selfPaused := false, plan := none, voltReq := false, voltOk := false, voltAfter := none }
    fwm := { d.fwm with rotating := false, rollback := false, rotStep := 0, cmdId := none } }
  sb.foldl Dev.answerDark d

/-- Host, fabric and PCIe links power down (Table 6.4). -/
def Dev.linksOff (d : Dev) : Dev :=
  let d := (d.hpt.ports.map (·.1)).foldl Dev.portDown d
  (d.liveLinks.foldl Dev.fabDown d).mainAbsent

/-- An entry to Banked in progress is superseded (R451). -/
def Dev.endBankEntry (d : Dev) : Dev :=
  if d.pwr.bankStep = 0 then d
  else
    let rs := d.pwr.bankReqs
    let d := { d.fset PWR_STATE.DEVICE 0 with pwr := { d.pwr with bankStep := 0, bankReqs := [] } }
    rs.foldl (fun d r => d.answerPwr r pwrSave) d

/-- A save begins, at instant E (R208, R209, Table 6.4): `why` is 0 power loss, 1 RESET_N, 2 trip, 3 recovery cut. Its images
begin the save set that restore phase A reads (R213). A board power-off that was waiting for D = 0 now waits for the save
(R453). -/
def Dev.beginSave (d : Dev) (why : Nat) : Dev :=
  if ¬ d.coreOn ∨ d.dur.saving ∨ d.dur.held then d
  else
    let d := d.endBankEntry.raise (source 1 4) 2 0 0xFFFF why
    let ws := (d.pwr.draining.map (·.1)).foldl ins d.pwr.waking
    let d := { d with
      dur := { d.dur with
        saving := true, saveE := d.now, saveWhy := why, setSeq := d.dur.imgSeq, afterSave := if d.pwr.waitOff.isEmpty then 0 else 1 }
      pwr := { d.pwr with waking := ws } }
    let d := (d.setStatus .saving).heartbeat
    let d := d.settleOps.stopMigs.discardCfx.endCmds.linksOff
    let d := if d.dur.isOpen then d.shutEpoch else d
    { d with dur := { d.dur with saveD := d.dur.dirty.length } }

/-! ### The end of a save -/

/-- Lines of frozen channels that fail as the save reads them: the plot each is part of, and the epoch of the version its image
belongs to (R212, Table 6.5). -/
def Dev.poisonAtSave (d : Dev) (bad : List (Nat × Nat)) : List (Nat × Nat) :=
  let held := (List.range 24).filterMap (fun n =>
    if d.f (MDW_FRZ.CAUSE n) ≠ 4 ∧ (d.chan n).ueHome.isNone then some (n, (d.chan n).ueLine) else none)
  ((held ++ bad).filter (fun x => d.chanBarred x.1)).filterMap (fun x =>
    match d.meadowOf x.1 (x.2 * 64) with
    | none => none
    | some a => match d.idxOfPlot (a / plotBytes), d.dur.dirty.find? (fun v => v.page == a / 4096) with
      | some i, some v => some (i, v.epoch)
      | _, _ => none)

/-- A plot reads poisoned in what the save area holds of an epoch and of later ones. -/
def Dev.poisonSnaps (d : Dev) (x : Nat × Nat) : Dev :=
  let mark (s : EpochSnap) : EpochSnap :=
    if x.2 ≤ s.epoch then { s with home := change s.home x.1 {} (fun e => { e with state := .poisoned }) } else s
  { d with dur := { d.dur with snaps := d.dur.snaps.map mark } }

/-- Every version that waits is imaged, in the image writer's order, on the modules in save duty in turn; the images of a module
outside its normal window are flagged (R191, R196, R212). -/
def Dev.imageAll (d : Dev) : Dev :=
  let mods := d.imageMods
  ((d.imageOrder d.dur.dirty).zipIdx).foldl (fun d x =>
    let m := mods.getD (x.2 % max 1 mods.length) 0
    d.imaged (d.modWindow m != 0) m (2 ^ 32 + d.dur.setSeq) x.1) d

/-- Closed epochs are sealed in order; a save awaits no marker from the twin (R63, R194). -/
def Dev.sealAll (d : Dev) : Dev := d.dur.closed.foldl Dev.sealEpoch d

/-- `DUR_SAVE_LOG` of a save that ends. -/
def Dev.logSave (d : Dev) (result pages : Nat) : Dev :=
  let d := (d.fset DUR_SAVE_LOG.RESULT result).fset DUR_SAVE_LOG.PAGES pages
  (d.fset DUR_SAVE_LOG.TIME_MS ((d.now - d.dur.saveE) / 1000000)).fset DUR_SAVE_LOG.EPOCH d.dur.openEp

/-- A save that is complete: every version imaged, lines that failed on frozen channels poisoned, the epochs sealed, the recorder in
its mirror, the settings store written where a change waited, and the save-complete record (R210 to R212, R421, R492). -/
def Dev.saveDone (d : Dev) (badLines : List (Nat × Nat)) : Dev :=
  let bad := d.poisonAtSave badLines
  let d := (bad.foldl Dev.poisonSnaps d.imageAll.countImages).sealAll
  let d := d.writeMirror
  let d := if d.store.dirty then d.writeStore else d
  d.logSave (if bad.isEmpty then 1 else 3) d.dur.saveD

/-- A save that ends incomplete: what was not imaged is lost (R211, R212). -/
def Dev.saveCut (d : Dev) : Dev := d.logSave 2 (d.dur.saveD - d.dur.dirty.length)

end Sys2Proof.Machine
end

