-- ==== Sys2Proof/Machine/StartOps.lean ====
section
/-! DEFINITION. Going dark and starting again (R503, R504, R507, R513): what each loses and keeps, the start of the firmware,
and restore (R175, R213 to R216). -/

namespace Sys2Proof.Machine

/-! ### Going dark (Table 18.4) -/

/-- Roles of a lantern's engines at a start: its first eight engines that are not retired, the ninth its spare (R12, R469). -/
def Dev.bootRoles (d : Dev) (l : Nat) : List Nat := (List.range 9).filter (fun s => !d.fbit (AGE_ENG.RETIRED l) s)

/-- What the ageing state keeps: measured heat, and engines retired for good (R467, R469). -/
def Dev.agedState (d : Dev) : AgeSt :=
  let worn := (List.range 16).filter (fun l => (d.bootRoles l).length < 9)
  { bins := d.age.bins, eqFrac := d.age.eqFrac, eqDays := d.age.eqDays,
    roles := worn.map (fun l => (l, (d.bootRoles l).take 8)), spares := worn.map (fun l => (l, (d.bootRoles l).getD 8 noSpare)) }

/-- Every heath plot of the device: the free ones, the homes and the destinations of migrations. -/
def Dev.allHeath (d : Dev) : List (Nat × Nat) :=
  let isHeath (t : Tier) : Bool := t == .fast || t == .deep
  let homes := (d.tier.home.filter (fun x => isHeath x.2.tier)).map (fun x => (x.2.tier.code, x.2.loc))
  let dests := (d.tier.migs.filter (fun m => isHeath m.dstTier)).map (fun m => (m.dstTier.code, m.dstLoc))
  d.tier.heathFree ++ homes ++ dests

/-- What a DRAM channel keeps: its modules and their stored results; a channel that was Frozen trains in full (R307, R326). -/
def Dev.restChan (d : Dev) (x : Nat × Chan) : Nat × Chan :=
  (x.1, { ranks := x.2.ranks, colBits := x.2.colBits, serials := x.2.serials, storedSerials := x.2.storedSerials,
          trained := x.2.trained && d.chanState x.1 != chFrozen })

/-- What a die keeps: what the last two programmed groups of its open native block hold (R344). -/
def restDie (x : Nat × Die) : Nat × Die := (x.1, { lastTwo := x.2.lastTwo })

/-- The core goes dark, and all that lives in the meadow, the lanterns and the SRAMs is lost. What stays is in the heath, in the
settings store, and with the supervisor (Table 18.4). The NCTR of each link goes on at the next block (R226, R265). -/
def Dev.darken (d : Dev) : Dev :=
  let next (n : Nat) : Nat := (n / 2 ^ 32 + 1) * 2 ^ 32
  { d.fset DUR_TIME_STAT.STATE timeInvalid with
    latchRd := none
    latchWr := []
    core := { straps := d.core.straps, owed := d.core.owed, resetN := d.core.resetN, powerGood := d.core.powerGood }
    hpt := {}
    rgn := [(counterRegion, { state := .sealed, size := 1 })]
    tier := { heathFree := d.allHeath }
    mem := { heath := d.mem.heath }
    dur := {
      sealed := d.dur.sealed, seals := d.dur.seals, imgSeq := d.dur.imgSeq, setSeq := d.dur.setSeq, sums := d.dur.sums,
      images := d.dur.images, snaps := d.dur.snaps, destroyed := d.dur.destroyed, cut := d.dur.cut, lastEp := d.dur.lastEp,
      lastMir := d.dur.lastMir, held := d.dur.held }
    tim := { pend := d.tim.pend }
    twn := {
      side := d.twn.side, roles := d.twn.roles, snufOut := d.twn.snufOut, snufOutAt := d.twn.snufOutAt,
      snufInAt := d.twn.snufInAt, snufOffAt := d.twn.snufOffAt, holdFrom := d.twn.holdFrom,
      nctr := d.store.nonceBlk * 2 ^ 32 - 1 }
    fab := {
      strapSrc := d.fab.strapSrc, strapId := d.fab.strapId, jseqs := d.fab.jseqs,
      links := d.fab.links.map (fun x => (x.1, { nctr := next x.2.nctr })) }
    mdw := {
      chans := d.mdw.chans.map d.restChan, stripe := d.mdw.stripe, reserve := d.mdw.reserve, slice := d.mdw.slice,
      heathMap := d.mdw.heathMap, buttons := d.mdw.buttons, armed := d.mdw.armed, stuck := d.mdw.stuck, lamps := d.mdw.lamps }
    hth := { dies := (d.hth.dies.filter (fun y => !y.2.lastTwo.isEmpty)).map restDie, mods := d.hth.mods, map := d.hth.map, native := d.hth.native }
    cph := { blobs := d.cph.blobs, blobCtr := d.cph.blobCtr }
    ring := {}
    cfx := {}
    sbp := { d.sbp with arm := none, update := false, updOk := false }
    pwr := { d.pwr with draining := [], waking := [], bankStep := 0 }
    age := d.agedState
    fwm := { starts := d.fwm.starts }
    evt := {
      mirror := d.evt.mirror, mirLost := d.evt.mirLost, dark := d.evt.dark, darkLost := d.evt.darkLost, ibiLost := d.evt.ibiLost }
    pmc := {} }

/-! ### Out of reset (R503, R507 stages 1 and 2) -/

/-- Registers that a start leaves as they are beside those of its classes: how the areas were last laid out, the store's own
numbers, and what lives on the always-on island (R244, R303, R421, R439). -/
def keptAtStart : List Nat :=
  [GLB_RSV.HOME_MIB.key, GLB_RSV.CONN_MIB.key, GLB_RSV.FJ_MIB.key, GLB_RSV.JRNL_MIB.key, GLB_RSV.CANDLE_MIB.key,
   TIER_HT_SIZE.ENTRIES.key, TIER_HT_CFG.BASE.key, CFX_STORE.FORMAT.key, CFX_STORE.COPIES.key, CFX_STORE.GENERATION.key,
   TWN_STAT.ROLE_VER.key, TWN_STAT.CLAIM.key, TWN_STAT.SNUF_IN.key, TWN_STAT.SNUF_RB.key, TWN_STAT.FENCE_WR.key,
   TWN_STAT.FENCE_RD.key, PWR_CTL.BUSY.key, PWR_RAIL_STAT.ON.key] ++ (List.range 24).map (fun n => (MDW_STAT.CAP_GIB n).key)

/-- Registers of the classes return to their reset values, but for those kept. -/
def Dev.resetFor (d : Dev) (cls : List ResetClass) : Dev :=
  let kept := d.regs.filter (fun kv => keptAtStart.contains kv.1)
  let e := d.resetRegs cls
  { e with regs := kept.foldl (fun l kv => put l kv.1 kv.2) e.regs }

/-- Straps are sampled (R220, R268). -/
def Dev.takeStraps (d : Dev) (s : Straps) : Dev :=
  { (d.fset TWN_STAT.SIDE (bit s.west)).fset FAB_ID.VALID 0 with
    core := { d.core with straps := s }
    twn := { d.twn with side := s.west }
    fab := { d.fab with strapSrc := s.fabSrc, strapId := s.fabId } }

/-- A claim of its own that outlived the reset makes the device the survivor; of any other claim state nothing is left
(R244, R509). -/
def Dev.ownClaim (d : Dev) : Dev :=
  if d.f TWN_STAT.CLAIM = claimHeld ∧ d.twn.snufOut then
    { d.fset TWN_STAT.PEER peerDeclared with
      core := { d.core with rolesSettled := true }
      twn := { d.twn with declared := true, soleMeadow := true } }
  else if d.f TWN_STAT.CLAIM = claimAsserting ∧ d.twn.snufOut then { d with twn := { d.twn with holdFrom := d.clk } }
  else d.fset TWN_STAT.CLAIM claimNone

/-- The device leaves reset: registers, straps, the KEK (R367), the DRBG's start-up tests, the hold-up self-test (R475), and no
main side seen yet. -/
def Dev.restart (d : Dev) (s : Straps) (cold : Bool) : Dev :=
  let d := (d.resetFor (if cold then [.full, .soft, .cold] else [.full, .soft])).takeStraps s
  let d := { d with
    core := { d.core with killed := false, rolesSettled := false }
    dur := { d.dur with held := false }
    cph := { d.cph with kek := true, alarmed := false }
    pwr := { d.pwr with holdTest := 16, holdBad := false, needUp := false } }
  d.ownClaim

/-! ### Commissioning (R361, R368) -/

/-- The other slots of the device keys (R361). -/
def slotDevice : Nat := 0xFFE
def slotLog : Nat := 0xFFD

/-- The words of a new key, drawn from the DRBG. -/
def Dev.drawKey (d : Dev) : Nat → List (BitVec 64) × Dev
  | 0 => ([], d)
  | n + 1 =>
    let w := d.fresh
    let (ws, d) := d.rngUsed.drawKey n
    (w :: ws, d)

/-- A device key is generated into its slot, with its blob. -/
def Dev.makeKey (d : Dev) (slot usage words : Nat) : Dev :=
  let (ws, d) := d.drawKey words
  d.loadSlot slot { usage := usage, persist := true, key := ws }

/-- The three device keys are generated at the first start, once the DRBG is ready and where the save area is empty as well
(R361, R422). -/
def Dev.commission (d : Dev) : Dev :=
  if d.store.valid ∨ ¬ d.dur.sealed.isEmpty ∨ ¬ d.rngUp ∨ ¬ d.coreOn ∨ d.cph.alarmed then d
  else ((d.makeKey slotSave 5 12).makeKey slotDevice 1 8).makeKey slotLog 1 8

/-! ### The firmware's start (R507 stages 3 to 5) -/

/-- A start-up stage is reached: the event of group 0, kind 0 (R507). -/
def Dev.stageAt (d : Dev) (k : Nat) : Dev :=
  ({ d with core := { d.core with stage := max k d.core.stage } }).raise (source 0 0) 2 k 0xFFFF 0

/-- A record joins the recorder under the next SEQ. -/
def EvtSt.join (e : EvtSt) (r : Record) : EvtSt := e.place { r with seq := e.nextSeq }

/-- Lantern 15 loads the recorder from its mirror, adds the last-gasp record and the records the supervisor held (R446, R492,
R493). -/
def Dev.loadRecorder (d : Dev) : Dev :=
  let next := ((d.evt.mirror.getLast?).map (fun r => r.seq + 1)).getD 0
  let e : EvtSt := { d.evt with recs := d.evt.mirror, nextSeq := next, lost := satAdd 32 d.evt.mirLost d.evt.darkLost,
                                dark := [], darkLost := 0, dirtyAt := some d.clk }
  let held := d.pwr.lastGasp.toList ++ d.evt.dark
  { d with evt := held.foldl EvtSt.join e, pwr := { d.pwr with lastGasp := none } }

/-- The reset whose event waited for the recorder, and a last-gasp record found (R503, `EVR` group 1). -/
def Dev.owedEvents (d : Dev) (gasp : Bool) : Dev :=
  let d := match d.core.owed with
    | some k => ({ d with core := { d.core with owed := none } }).raise (source 0 1) 2 0 k 0
    | none => d
  if gasp then d.raise (source 1 2) 2 0 0xFFFF 0 else d

/-- Slot whose image a start takes for active: the one that is unconfirmed or confirmed; slot A of a device that has never
staged one. -/
def Dev.bootSlot (d : Dev) : Nat :=
  let runs (n : Nat) : Bool := d.f (FWM_SLOT.STATE n) == fwUnconfirmed || d.f (FWM_SLOT.STATE n) == fwConfirmed
  if runs 0 then 0 else if runs 1 then 1 else 0

/-- The slots a start tries, in order: a second start without confirmation takes the Previous image first (R481, R507). -/
def Dev.bootOrder (d : Dev) : List Nat :=
  let a := d.bootSlot
  let prev := d.f (FWM_SLOT.STATE (1 - a)) == fwPrevious
  if ¬ prev then [a] else if d.f (FWM_SLOT.STATE a) = fwUnconfirmed ∧ d.fwm.starts ≠ 0 then [1 - a, a] else [a, 1 - a]

/-- The image of slot `n` runs in place of what slot `a` held (R481, R507): an unconfirmed one opens a new window. -/
def Dev.bootFrom (d : Dev) (a n : Nat) : Dev :=
  let d := if n = a then d
    else (d.fset (FWM_SLOT.STATE a) fwRejected).fset (FWM_SLOT.STATE n) fwConfirmed
  let d := if d.f (FWM_SLOT.STATE n) = fwEmpty then d.fset (FWM_SLOT.STATE n) fwConfirmed else d
  let trial := d.f (FWM_SLOT.STATE n) == fwUnconfirmed
  let d := (d.fset FWM_STAT.ACTIVE n).fset FWM_STAT.CONFIRMED (bit (!trial))
  { d with fwm := { d.fwm with starts := if trial then d.fwm.starts + 1 else 0 } }

/-- The confirmation window of an unconfirmed image opens, its length the standing bank's (R481). -/
def Dev.openWindow (d : Dev) : Dev :=
  if d.on FWM_STAT.CONFIRMED then d
  else { d with fwm := { d.fwm with window := some (d.clk + d.f FWM_CTL.CONFIRM_MIN * 60000000000) } }

/-- The standing bank is the first commit (R416). -/
def Dev.standingBank (d : Dev) : Dev :=
  if d.store.bank.isEmpty then d.linksNow d
  else
    let was := d
    let d := ({ d with cfx := { d.cfx with shadow := d.store.bank } }).takeBank
    (((({ d with cfx := {} }).linksNow was).candleNow.reservesNow.rebudget).copyAuth).writeEeprom

/-- The last recorded plan is applied, its voltage with it (R464). -/
def Dev.standingPlan (d : Dev) : Dev :=
  let d := d.fset AGE_PLAN_STAT.VCORE_MV 800
  match d.store.plan with
  | none => d
  | some p =>
    let d := if p.voltMv = 800 then d else d.send (.avs p.voltMv)
    (d.planActs p).fset AGE_PLAN_STAT.VCORE_MV p.voltMv

/-- Every blob of the settings store is unwrapped into its slot (R369); while an alarm source is active none is. -/
def Dev.unwrapAll (d : Dev) : Dev :=
  if d.cph.alarmed ∨ d.on CPH_ALARM.ACTIVE ∨ ¬ d.cph.kek then d
  else
    let d := { d with cph := { d.cph with slots := d.cph.blobs.foldl (fun l (b : Nat × Slot) => put l b.1 b.2) d.cph.slots } }
    d.copyAuth

/-- Enabled channels train, enabled modules are initialised (R507 stage 5). -/
def Dev.startUnits (d : Dev) : Dev :=
  let d := ((List.range 24).filter (fun n => d.on (MDW_CFG.EN n))).foldl (fun (d : Dev) n => d.toChanEvent n chTraining) d
  ((List.range 20).filter (fun m => d.on (HTH_MOD_CFG.EN m))).foldl (fun (d : Dev) m => d.toMod m modInit) d

/-- Free-run time starts 1 s after the closing instant of the newest seal record (R203). -/
def Dev.startTime (d : Dev) : Dev :=
  if d.f DUR_EPOCH_CFG.TIME_SRC ≠ timeFreeRunSrc then { d with tim := { d.tim with waitFrom := max 1 d.clk } }
  else
    let off : Int := (d.tim.pend + 1000000000 : Nat) - (d.clk : Int)
    { d.fset DUR_TIME_STAT.STATE timeFreeRun with tim := { d.tim with off := off, valid := true } }
where
  timeFreeRunSrc : Nat := 2

/-- The settings store is read: the standing bank, or Hold where the save area is not empty, or the first commissioning
(R416, R422). -/
def Dev.readStore (d : Dev) : Dev :=
  if d.store.valid then d.standingBank
  else if ¬ d.dur.sealed.isEmpty then (d.linksNow d).enterHold holdOffline
  else (d.linksNow d).commission

/-- Known-answer tests have run, the blobs are unwrapped, and a device without a twin has no roles to settle. -/
def Dev.openStore (d : Dev) : Dev :=
  let d := d.unwrapAll
  let alone := d.core.rolesSettled || !d.on TWN_CFG.ENABLE
  { d with cph := { d.cph with lastKat := d.clk }, core := { d.core with rolesSettled := alone } }

/-- Lantern 12 starts with the status the device has (R240, R243). -/
def Dev.showStatus (d : Dev) : Dev := if d.f FWM_STAT.HOLD = 0 then d.setStatus .healthy else d

/-- Lantern 15 runs the image of slot `n`, and start-up goes on to the training of the channels. -/
def Dev.bootCore (d : Dev) (a n : Nat) : Dev :=
  let gasp := d.pwr.lastGasp.isSome
  let d := (({ d with core := { d.core with stage := 1 } }).loadRecorder.bootFrom a n).owedEvents gasp
  let d := (d.stageAt 1).readStore.standingPlan.openWindow
  let d := (d.stageAt 2).openStore.startUnits.stageAt 3
  ((d.fset DUR_RESTORE_STAT.PHASE 1).startTime).showStatus

/-- No copy of either slot verifies: the core stays dark, and the supervisor records it (R507). -/
def Dev.kill (d : Dev) : Dev :=
  let r := d.mkRecord (source 0 0) 6 0 0xFFFF 0 []
  ({ d with core := { d.core with killed := true }, evt := d.evt.recordDark r }).signalIbi (source 0 0) r

/-! ### Restore phase A (R175, R213 to R216) -/

/-- The newest epoch whose seal record verifies, or the cut of a recovery where one stands below it. -/
def Dev.restoreEpoch (d : Dev) (badSeal : Option Nat) : Nat :=
  let ok (e : Nat) : Bool := badSeal.all (fun b => decide (e < b)) && d.dur.cut.all (fun c => decide (e ≤ c))
  (d.dur.sealed.filter ok).foldl max 0

/-- A home-table entry as restore leaves it: no migration goes on (R175). -/
def HomeEntry.settled (e : HomeEntry) : HomeEntry :=
  match e.state with
  | .migratingOut | .migratingIn | .evacuating => { e with state := .resident }
  | _ => e

/-- The state the save area holds for an epoch: the newest at or below it. -/
def Dev.snapFor (d : Dev) (e : Nat) : EpochSnap := ((d.dur.snaps.filter (fun s => decide (s.epoch ≤ e))).getLast?).getD {}

/-- A region as its restore leaves it: complete, so Online, or in the state it had before it went Offline (Table 2.4); what a growth
had reserved is given up. -/
def Region.restored (r : Region) : Region :=
  let r := { r with reserve := 0 }
  if r.state = .creating then { r with state := .online } else r.fromOffline

/-- Home table, region table, contents, journal and record of applied entries as of the epoch. -/
def Dev.takeSnap (d : Dev) (s : EpochSnap) : Dev :=
  let home := s.home.map (fun x => (x.1, x.2.settled))
  let isHome (p : Nat × Nat) : Bool := home.any (fun x => x.2.tier.code == p.1 && x.2.loc == p.2)
  let table := s.rgn.map (fun (r : Nat × Region) => (r.1, r.2.restored))
  let d := { d with
    rgn := table
    tier := { d.tier with home := home, heathFree := d.tier.heathFree.filter (fun p => !isHome p) }
    mem := { d.mem with meadow := s.meadow, heath := s.heath }
    fab := { d.fab with fj := s.fj, applied := s.applied } }
  { d with tier := { d.tier with marked := ((home.map (fun (x : Nat × HomeEntry) => x.1 / 8)).eraseDups).filter d.keepsMark } }

/-- A page whose image fails its check leaves its plot poisoned; a plot counts once in `POISONED`, and each failure is an event
(R215). -/
def Dev.badPage (d : Dev) (page : Nat) : Dev :=
  match d.idxOfPlot (page / 16) with
  | none => d
  | some i =>
    let d := d.raise (source 11 2) 5 0 0xFFFF page
    if (d.entry i).state = .poisoned then d else (d.setPlotState i .poisoned).finc DUR_RESTORE_STAT.POISONED 1

/-- The image of a page that restore reads: its newest at or below the restore epoch. -/
def Dev.restoreImage (d : Dev) (page e : Nat) : Option ImageRec :=
  (d.dur.images.filter (fun x => x.page == page && decide (x.epoch ≤ e))).foldl (fun b x => match b with
    | none => some x
    | some y => if y.epoch < x.epoch ∨ (y.epoch = x.epoch ∧ y.seq < x.seq) then some x else some y) none

/-- Meadow plots with a page that lies outside the save set, the images written since the last save began: they are read in phase B
(R213, log entry 87). -/
def Dev.laterPlots (d : Dev) (e : Nat) : List Nat :=
  let old (page : Nat) : Bool := (d.restoreImage page e).any (fun x => decide (x.seq < d.dur.setSeq))
  ((d.tier.home.filter (fun x => x.2.tier == .meadow && (List.range 16).any (fun k => old (x.2.loc * 16 + k)))).map
    (fun x => x.2.loc))

/-- What the save area holds above the restore epoch is discarded (R216). -/
def Dev.dropAbove (d : Dev) (e : Nat) : Dev :=
  { d with dur := { d.dur with
      sealed := d.dur.sealed.filter (fun x => decide (x ≤ e))
      seals := d.dur.seals.filter (fun x => decide (x.epoch ≤ e))
      images := d.dur.images.filter (fun x => decide (x.epoch ≤ e))
      snaps := d.dur.snaps.filter (fun s => decide (s.epoch ≤ e))
      destroyed := d.dur.destroyed.filter (fun x => decide (x.2 ≤ e)) } }

/-- The areas are laid out at the first start; later the free pool is every plot of the sets that no home names (R303, R304). -/
def Dev.poolAgain (d : Dev) : Dev :=
  if d.mdw.stripe.isEmpty then d.layOut
  else
    let d := { d with tier := { d.tier with freePlots := [], queues := [] } }
    (List.range 24).foldl Dev.returnPlots d.formCaps

/-- A plot with a line on a channel that is not Online is restored to free meadow, or to fast heath where there is none
(R507 stage 6). -/
def Dev.moveOff (d : Dev) (idx : Nat) : Dev :=
  let e := d.entry idx
  let bytes := memRead d.mem.meadow (e.loc * plotBytes) plotBytes
  match d.tier.freePlots with
  | p :: r =>
    let d := { d with tier := { d.tier with freePlots := r }, mem := { d.mem with
      unrestored := if d.mem.unrestored.contains e.loc then ins (rem d.mem.unrestored e.loc) p else d.mem.unrestored } }
    (d.homeChange idx .meadow p e.state).writeMeadow (p * plotBytes) bytes (d.f DUR_EPOCH_STAT.LOCAL)
  | [] => match d.takeDest .fast with
    | none => d
    | some (l, d) =>
      let d := { d with mem := { d.mem with
        unrestored := rem d.mem.unrestored e.loc, heath := memWrite d.mem.heath (l * plotBytes) bytes } }
      d.homeChange idx .fast l e.state

/-- Every such plot moves. -/
def Dev.moveAllOff (d : Dev) : Dev :=
  ((d.tier.home.filter (fun x => x.2.tier == .meadow && !d.plotOnline x.2.loc)).map (·.1)).foldl Dev.moveOff d

/-- The last two programmed groups of every open native block are read: codewords that fail are discarded, and no plot is poisoned for
them (R344). -/
def Dev.readOpenBlocks (d : Dev) (bad : List Nat) : Dev :=
  let homed (loc : Nat) : Bool := d.tier.home.any (fun e => (e.2.tier == .fast || e.2.tier == .deep) && e.2.loc == loc)
  let lost := (d.hth.dies.filter (fun y => bad.contains y.1)).flatMap (fun y => y.2.lastTwo.filter (fun l => !homed l))
  { d with
    mem := { d.mem with heath := lost.foldl (fun m l => memClear m (l * plotBytes) plotBytes) d.mem.heath }
    hth := { d.hth with dies := d.hth.dies.map (fun y => (y.1, { y.2 with lastTwo := [] })) } }

/-- The save area is 1.5 times the installed meadow, in pages; the heath capacity falls with what it takes (R529, R531). -/
def Dev.sizeSaveArea (d : Dev) : Dev :=
  let gib := ((List.range 24).map (fun n => d.f (MDW_STAT.CAP_GIB n))).foldl (· + ·) 0
  ((d.fset DUR_SAVE_AREA.SIZE (gib * 262144 * 3 / 2)).formCaps).countImages

/-- No twin can complete the mirrored regions: there is none, or it has been declared failed (R72). -/
def Dev.noTwin (d : Dev) : Bool := !d.on TWN_CFG.ENABLE || d.twn.declared

/-- The restore is short: an acknowledged write that no twin completes lies above its epoch, and no cut asked for it (R72). -/
def Dev.judgeShort (d : Dev) (e : Nat) : Dev :=
  let short := (decide (e < d.dur.lastEp) || (d.noTwin && decide (e < d.dur.lastMir))) && d.dur.cut.isNone
  { d with dur := { d.dur with short := short, lastEp := min d.dur.lastEp e } }

/-- After a recovery the horizon equals the cut (R64). -/
def Dev.horizonToCut (d : Dev) (c : Nat) : Dev :=
  if c < d.f DUR_HORIZON.HORIZON then (d.fset DUR_HORIZON.HORIZON c).countImages else d.raiseHorizon c

/-- Restore returns the device to epoch `e`. -/
def Dev.restoreTo (d : Dev) (e : Nat) (r : RestoreIn) : Dev :=
  let d := if d.dur.sealed.isEmpty then d else d.takeSnap (d.snapFor e)
  let d := ((d.judgeShort e).dropAbove e).readOpenBlocks r.badOpen
  let d := { d with dur := { d.dur with openEp := e } }
  let d := (d.fset DUR_EPOCH_STAT.LOCAL e).fset DUR_RESTORE_STAT.EPOCH e
  let d := match d.dur.cut with
    | some c => { d with dur := { d.dur with cut := none } }.horizonToCut c
    | none => d
  let d := { d with mem := { d.mem with unrestored := d.laterPlots e } }
  let bad := r.badPages.filter (fun p => !d.mem.unrestored.contains (p / 16))
  let d := bad.foldl Dev.badPage (if r.badIndex then d.raise (source 11 2) 2 0 0xFFFF 0 else d)
  (d.poolAgain.moveAllOff).sizeSaveArea

/-- The device opens its first epoch once time is valid and the restore stands (R204). -/
def Dev.mayOpen (d : Dev) : Dev :=
  if d.tim.valid ∧ d.core.phaseADone ∧ ¬ d.dur.isOpen ∧ ¬ d.dur.saving then d.openEpoch else d

/-- Phase A has ended: the restore epoch is reported (R293). -/
def Dev.phaseAEnd (d : Dev) : Dev :=
  let d := (d.keylessOffline).fset DUR_RESTORE_STAT.PHASE (if d.mem.unrestored.isEmpty then 3 else 2)
  let d := ({ d with core := { d.core with phaseADone := true } }).stageAt 4
  ((d.mayOpen).reportRestore).settleHorizon

end Sys2Proof.Machine
end

