-- ==== Sys2Proof/Machine/Cph.lean ====
section
/-! DEFINITION. Commands of the cipher engine: keys, alarms, the DRBG, cipher jobs (R361 to R378). -/

namespace Sys2Proof.Machine

/-- KEY_LOAD (R364): `CPH_KEY_LOAD` written with GO and OP 00b. -/
def execKeyLoad (t value : Nat) (s : State) : Host.Outcome State Fault Refusal :=
  s.run t fun d => if d.coreOn ∧ bitsOf value 63 63 = 1 ∧ bitsOf value 57 56 = 0 then d.writeKeyLoad value else d

/-- KEY_ERASE (R363): `CPH_KEY_LOAD` written with GO and OP 01b. -/
def execKeyErase (t value : Nat) (s : State) : Host.Outcome State Fault Refusal :=
  s.run t fun d => if d.coreOn ∧ bitsOf value 63 63 = 1 ∧ bitsOf value 57 56 = 1 then d.writeKeyLoad value else d

/-- TAMPER (R372): TAMPER_N low for 100 ns, where `TAMPER_EN` lets it act. -/
def execTamper (t : Nat) (s : State) : Host.Outcome State Fault Refusal :=
  s.run t fun d => if d.on CPH_CTL.TAMPER_EN then d.alarm alarmTamper else d

/-- GLITCH (R372). -/
def execGlitch (t : Nat) (s : State) : Host.Outcome State Fault Refusal := s.run t fun d => d.alarm alarmGlitch

/-- KAT_TIMER (R376): the periodic known-answer tests, every `KAT_S` seconds. -/
def execKatTimer (t : Nat) (pass : Bool) (s : State) : Host.Outcome State Fault Refusal :=
  s.run t fun d =>
    if ¬ d.coreOn ∨ d.clk < d.cph.lastKat + d.f CPH_CTL.KAT_S * 1000000000 then d
    else
      let d := { d with cph := { d.cph with lastKat := d.clk } }
      if pass then d else d.alarm alarmTest

/-- DRBG_READY (R377): start-up tests passed, the DRBG seeded. Commands and answers that waited for it go on, commissioning
among them (R361). -/
def execDrbgReady (t : Nat) (s : State) : Host.Outcome State Fault Refusal :=
  s.run t fun d =>
    if d.rngUp ∨ (d.cph.alarmed ∧ ¬ d.cph.kek) then d
    else ({ d.fset CPH_RNG_STAT.STATE rngReady with cph := { d.cph with sinceSeed := 0 } }).commission

/-- DRBG_HEALTH_FAILURE (R378): not ready again; three failures within 1 s are an event. -/
def execDrbgHealthFailure (t : Nat) (s : State) : Host.Outcome State Fault Refusal :=
  s.run t fun d =>
    let l := d.clk :: d.cph.failAt.filter (fun x => decide (d.clk ≤ x + 1000000000))
    let d := (d.fset CPH_RNG_STAT.STATE rngFailed).finc CPH_RNG_STAT.FAIL_CNT 1
    let d := { d with cph := { d.cph with failAt := l } }
    if 3 ≤ l.length then d.raise (source 14 2) 5 0 0 0 else d

/-- DRBG_RESEED (R377): after 2^20 requests. -/
def execDrbgReseed (t : Nat) (s : State) : Host.Outcome State Fault Refusal :=
  s.run t fun d => if d.cph.sinceSeed < 2 ^ 20 then d else { d with cph := { d.cph with sinceSeed := 0 } }

/-- CIPHER_JOB (R371, R378): it waits while the DRBG is not ready; `src` and `aux` are what the host buffers hold. -/
def execCipherJob (t cmd : Nat) (src aux : List Byte) (s : State) : Host.Outcome State Fault Refusal :=
  s.run t fun d =>
    let run (d : Dev) (c : Cmd) : Dev :=
      match d.jobBar c with
      | some code => d.complete c csCipher code
      | none => d.runJob c src aux
    if d.cph.jobs.any (fun j => j.cmdId == cmd) then
      match d.cmd cmd with
      | none => d
      | some c =>
        if ¬ d.rngUp then d
        else run { d with cph := { d.cph with jobs := d.cph.jobs.filter (fun j => j.cmdId != cmd) } } c
    else d.startCmd cmd ocJob (fun _ => true) fun d c =>
      if d.rngUp ∨ (d.jobBar c).isSome then run d c
      else { d with cph := { d.cph with jobs := d.cph.jobs ++ [{ cmdId := cmd, since := d.clk }] } }

/-- CIPHER_JOB_TIMEOUT (R378): a job that has waited 100 ms for entropy. -/
def execCipherJobTimeout (t cmd : Nat) (s : State) : Host.Outcome State Fault Refusal :=
  s.run t fun d =>
    match d.cph.jobs.find? (fun j => j.cmdId == cmd), d.cmd cmd with
    | some j, some c =>
      if d.clk < j.since + 100000000 then d
      else ({ d with cph := { d.cph with jobs := d.cph.jobs.filter (fun j => j.cmdId != cmd) } }).complete c csNotReady 1
    | _, _ => d

/-- What KEY_LOAD_BLOB does (R369). -/
def Dev.actBlob (b : Blob) (d : Dev) (c : Cmd) : Dev :=
  let (d, code) := d.unwrap b
  if code = crOk then d.complete c csDone else d.complete c csCipher code

/-- KEY_LOAD_BLOB. -/
def execKeyLoadBlob (t cmd : Nat) (b : Blob) (s : State) : Host.Outcome State Fault Refusal :=
  s.run t fun d => d.startCmd cmd ocBlob (fun _ => true) (Dev.actBlob b)

end Sys2Proof.Machine
end

