-- ==== Sys2Proof/Machine/PwrOps.lean ====
section
/-! DEFINITION. Rails and their sequences (R435 to R445), power operations (R440, R451 to R453), and what follows them. -/

namespace Sys2Proof.Machine

/-- The board's scope (R438). -/
def boardBay : Nat := 0x3F

/-- Values of `DEVICE` in `PWR_STATE`. -/
def devLit : Nat := 0
def devEntering : Nat := 1
def devLeaving : Nat := 2
def devBanked : Nat := 3

/-- The device's power state changes (Table 17.1, group 1 kind 4). -/
def Dev.setDevice (d : Dev) (v : Nat) : Dev :=
  if d.f PWR_STATE.DEVICE = v then d else (d.fset PWR_STATE.DEVICE v).raise (source 1 4) 2 0 0xFFFF (256 + v)

/-- The board's sequence runs or waits. -/
def Dev.boardMoves (d : Dev) : Bool := d.pwr.seq.any (fun q => q.bay == boardBay) || d.pwr.queue.any (fun q => q.bay == boardBay)

/-- A start runs the board's on sequence (R440, R507). -/
def Dev.needsBoard (d : Dev) : Bool := d.on PWR_SEQ_CFG.AUTO_ON && (!d.pwr.boardOn || d.boardMoves) && d.pwr.eepromOk

/-! ### Sequences (R436, R439, R444, R445) -/

/-- Rails of a sequence's scope. -/
def Dev.railsOf (d : Dev) (q : Seq) : List Nat :=
  (List.range 48).filter (fun n => d.on (PWR_RAIL.EN n) && (q.bay == boardBay || d.f (PWR_RAIL.BAY n) == q.bay)
    && !(q.keep && !q.on && d.on (PWR_RAIL.KEEP n)))

/-- A rail's slot in the sequence. -/
def Dev.slotOf (d : Dev) (q : Seq) (n : Nat) : Nat := d.f (if q.on then PWR_RAIL.ON_SLOT n else PWR_RAIL.OFF_SLOT n)

/-- Slaves of a sequence, each once. -/
def Dev.slavesOf (d : Dev) (q : Seq) : List Nat := ((d.railsOf q).map (fun n => d.f (PWR_RAIL.SLAVE n))).eraseDups

/-- Boundary at which the halt pulse ends the sequence: `SETTLE` slots after the highest slot used. -/
def Dev.haltSlot (d : Dev) (q : Seq) : Nat := ((d.railsOf q).map (d.slotOf q)).foldl max 0 + d.f PWR_SEQ_CFG.SETTLE

/-- One rail is switched. -/
def Dev.switchRail (d : Dev) (on : Bool) (n : Nat) : Dev :=
  let d := d.setFbit PWR_RAIL_STAT.ON n on
  { d with pwr := { d.pwr with onAt := if on then put d.pwr.onAt n d.clk else del d.pwr.onAt n } }

/-- Rails whose slot begins are switched; in an off sequence one that is not on is skipped. -/
def Dev.beginSlot (d : Dev) (q : Seq) (s : Nat) : Dev :=
  ((d.railsOf q).filter (fun n => d.slotOf q n == s && (q.on || d.fbit PWR_RAIL_STAT.ON n))).foldl (fun (d : Dev) n =>
    d.switchRail q.on n) d

/-- The slaves are loaded and armed, and the start pulse makes the common start (R439). -/
def Dev.startSeq (d : Dev) (q : Seq) : Dev :=
  let load (d : Dev) (n : Nat) : Dev :=
    d.send (.slave (d.f (PWR_RAIL.SLAVE n)) 0xD0 (leBytes 1 (d.f (PWR_RAIL.PAGE n)) ++ leBytes 2 (d.f (PWR_RAIL.ON_SLOT n))
      ++ leBytes 2 (d.f (PWR_RAIL.OFF_SLOT n))))
  let d := (d.railsOf q).foldl load d
  let d := (d.slavesOf q).foldl (fun (d : Dev) a => d.send (.slave a 0xD1 (leBytes 1 1))) d
  let d := d.send (.seqSync (if q.on then 3 else 5))
  let d := { d with pwr := { d.pwr with seq := some { q with slot := 1, turn := none }, slotAt := d.clk } }
  d.beginSlot q 0

/-- The next sequence that waits begins, once its earliest start has come; one runs at a time. -/
def Dev.nextSeq (d : Dev) : Dev :=
  if d.pwr.seq.isSome then d
  else match d.pwr.queue with
  | [] => d
  | q :: r => if d.clk < q.from_ then d else ({ d with pwr := { d.pwr with queue := r } }).startSeq q

/-- A bay's lamp while its rails are switched (R332). -/
def Dev.bayLamp (d : Dev) (q : Seq) : Dev := if q.bay < 44 then d.setLamp q.bay .flash1 else d

/-- A request joins the sequence of its scope and direction that runs or waits, or asks for one (R439, R445). -/
def Dev.askSeq (d : Dev) (q : Seq) : Dev :=
  let same (x : Seq) : Bool := x.bay == q.bay && x.on == q.on && x.turn.isNone
  if d.pwr.seq.any same then
    { d with pwr := { d.pwr with seq := d.pwr.seq.map (fun x => { x with reqs := x.reqs ++ q.reqs }) } }
  else if d.pwr.queue.any same then
    { d with pwr := { d.pwr with queue := d.pwr.queue.map (fun x => if same x then { x with reqs := x.reqs ++ q.reqs } else x) } }
  else ({ d.bayLamp q with pwr := { (d.bayLamp q).pwr with queue := d.pwr.queue ++ [q] } }).nextSeq

/-- The boundary at which a running on sequence turns: the end of the slot in progress, or the next where that is less than
6 µs away (R444). -/
def Dev.turnSlot (d : Dev) (q : Seq) : Nat := if d.pwr.slotAt + q.slot * 50000 < d.clk + 6000 then q.slot + 1 else q.slot

/-- An off sequence of a scope: the on sequence of the same scope that runs turns, its requests answered with `result`; one
that waits is dropped. -/
def Dev.askOff (d : Dev) (q : Seq) (result : Nat) : Dev :=
  let turns (x : Seq) : Bool := x.bay == q.bay && x.on && x.turn.isNone
  let drop := d.pwr.queue.filter turns
  let d := { d with pwr := { d.pwr with queue := d.pwr.queue.filter (fun x => !turns x) } }
  let d := (drop.flatMap (·.reqs)).foldl (fun d r => d.answerPwr r result) d
  match d.pwr.seq with
  | some x =>
    if turns x then
      let d := x.reqs.foldl (fun d r => d.answerPwr r result) d
      let x' : Seq := { x with turn := some (d.turnSlot x), reqs := [], after := q.reqs, keep := q.keep }
      { d with pwr := { d.pwr with seq := some x' } }
    else if x.bay = q.bay ∧ x.on then
      { d with pwr := { d.pwr with seq := some { x with after := x.after ++ q.reqs } } }
    else d.askSeq q
  | none => d.askSeq q

/-! ### What a sequence leaves -/

/-- A bay has power: its channel trains, or its module is initialised, and the channel reset is an event (R332, R354, Table
18.1); the slave is identified (Table 15.1). -/
def Dev.bayUp (d : Dev) (q : Seq) : Dev :=
  let d := (d.slavesOf q).foldl (fun (d : Dev) a => d.send (.slave a 0x99 [])) d
  let d := if d.mdw.armed.contains q.bay then { d with mdw := { d.mdw with armed := rem d.mdw.armed q.bay } } else d
  if ¬ d.coreOn then d
  else
    let d := d.raise (source 0 1) 2 0 4 q.bay
    if q.bay < 24 then (if d.on (MDW_CFG.EN q.bay) then d.toChanEvent q.bay chTraining else d)
    else if d.on (HTH_MOD_CFG.EN (q.bay - 24)) then d.toMod (q.bay - 24) modInit else d

/-- A bay is Off; its lamp is steady (R332). -/
def Dev.bayDown (d : Dev) (bay : Nat) : Dev :=
  let d := if ¬ d.coreOn then d
    else if bay < 24 then d.toChanEvent bay chOff else d.toMod (bay - 24) modOff
  d.setLamp bay .steady

/-- What the end of a sequence leaves. -/
def Dev.seqEffect (d : Dev) (q : Seq) (agree : Bool) : Dev :=
  if q.bay = boardBay then
    if q.on then { d with pwr := { d.pwr with boardOn := agree } }
    else
      let d := { d with pwr := { d.pwr with boardOn := false } }
      if q.keep then d.setDevice devBanked else d
  else if q.on then (if agree then d.bayUp q else d.bayDown q.bay)
  else d.bayDown q.bay

/-- A sequence ends: halt pulse, disarming, SEQ_STATE of each slave compared with the table, its requests answered; an on
sequence that waited for it starts no sooner than one slot later (R439, R445). -/
def Dev.endSeq (d : Dev) (q : Seq) (agree : Bool) : Dev :=
  let d := d.send (.seqSync 7)
  let d := (d.slavesOf q).foldl (fun (d : Dev) a => d.send (.slave a 0xD2 [])) d
  let wait (x : Seq) : Seq := if x.bay = q.bay ∧ x.on then { x with from_ := d.clk + 50000 } else x
  let d := { d with pwr := { d.pwr with seq := none, queue := if q.on then d.pwr.queue else d.pwr.queue.map wait } }
  let d := d.seqEffect q agree
  let d := q.reqs.foldl (fun d r => d.answerPwr r (if agree then pwrDone else pwrFault)) d
  d.nextSeq

/-- A running on sequence has come to its turn: the off sequence begins, and the rails due at this boundary stay off (R444). -/
def Dev.turnSeq (d : Dev) (q : Seq) : Dev :=
  ({ d with pwr := { d.pwr with seq := none } }).startSeq { bay := q.bay, on := false, keep := q.keep, reqs := q.after }

/-! ### Board off (R453) -/

/-- The open epoch and every closed one are sealed: D is 0 and nothing is in flight. -/
def Dev.sealNowAll (d : Dev) : Dev :=
  let d := if d.dur.isOpen then d.shutEpoch else d
  d.dur.closed.foldl Dev.sealEpoch d

/-- The board's off sequence begins; the core loses its power. -/
def Dev.boardDown (d : Dev) (reqs : List PwrReq) : Dev :=
  let d := if d.coreOn then d.darken else d
  ({ d with pwr := { d.pwr with waitOff := [] } }).askOff { bay := boardBay, on := false, reqs := reqs } pwrState

/-- A board power-off that waits proceeds once D is 0 and no operation is in flight; the recorder goes to its mirror. -/
def Dev.settleOff (d : Dev) : Dev :=
  if d.pwr.waitOff.isEmpty ∨ ¬ d.coreOn ∨ d.dur.saving ∨ d.dirtyPages ≠ 0 ∨ ¬ d.hpt.ops.isEmpty then d
  else
    let d := d.linksOff.sealNowAll
    let d := d.writeMirror
    let d := if d.store.dirty then d.writeStore else d
    d.boardDown d.pwr.waitOff

/-- A board power-off is asked for (R453). -/
def Dev.askBoardOff (d : Dev) (r : PwrReq) : Dev :=
  if d.dur.saving then
    { d with pwr := { d.pwr with waitOff := d.pwr.waitOff ++ [r] }, dur := { d.dur with afterSave := 1 } }
  else if d.coreOn then
    let d := { d with pwr := { d.pwr with waitOff := d.pwr.waitOff ++ [r] }, dur := { d.dur with stop := true } }
    d.settleOff
  else
    let d := if d.f PWR_STATE.DEVICE = devLit then d else (d.darken).setDevice devLit
    d.boardDown [r]

/-! ### Banked (R451, R514) -/

/-- A connection is Ready and has no operation that is not final. -/
def Dev.quietConns (d : Dev) : List Nat :=
  (d.hpt.conns.filter (fun c => c.2.state == .ready && c.2.dreqAt.isNone && d.drained c.1)).map (·.1)

/-- RW fields of reset classes full and soft as they stand (R514). -/
def Dev.rwFields (d : Dev) : List (Nat × Nat) :=
  (d.listed .rw).filter (fun kv => match findReg regMap (kv.1 / 128) with
    | some (r, _, _) => r.cls == .full || r.cls == .soft
    | none => false)

/-- Step 2: fetching stops, `ACCEPT` is cleared, the RW fields are recorded, Ready connections receive DREQ, and imaging goes
on to D = 0 (R451, R514). -/
def Dev.bankStep2 (d : Dev) : Dev :=
  let d := d.fset HPT_CM_CTL.ACCEPT 0
  let d := { d with
    ring := { d.ring with stopFetch := true }
    store := { d.store with rwBanked := d.rwFields, dirty := true, dirtyAt := d.clk }
    dur := { d.dur with stop := true }
    pwr := { d.pwr with bankStep := 2 } }
  d.quietConns.foldl Dev.sendDreq d

/-- Entry to Banked begins: a twinned device sends the down status first, for 20 µs (R243, R451). -/
def Dev.enterBank (d : Dev) (reqs : List PwrReq) : Dev :=
  let d := d.setDevice devEntering
  let d := { d with pwr := { d.pwr with bankStep := 1, downFrom := d.clk, bankReqs := reqs } }
  if d.on TWN_CFG.ENABLE then (d.setStatus .down).heartbeat else d.bankStep2

/-- The 20 µs of the down status have passed. -/
def Dev.bankGoesOn (d : Dev) : Dev :=
  if d.pwr.bankStep = 1 ∧ d.pwr.downFrom + 20000 ≤ d.clk then d.bankStep2 else d

/-- The meadow stands in self-refresh and the rest of the core loses its power (R27, R451, R513): links and connections are
gone, the transaction is discarded, the recorder is in its mirror, keys and DRBG state are lost. -/
def Dev.bankDown (d : Dev) : Dev :=
  let d := (d.linksOff.discardCfx).sealNowAll
  let d := d.writeMirror
  let d := d.writeStore
  let d := (d.fset DUR_TIME_STAT.STATE timeInvalid).fset CPH_RNG_STAT.STATE 0
  let d := d.allAwake
  let reqs := d.pwr.bankReqs
  let d := { d with
    core := { d.core with stage := 0, transport := false }
    hpt := { ports := [] }
    tier := { d.tier with wick := [], plru := [], walks := [], sample := [] }
    dur := { d.dur with stop := false }
    tim := { pend := d.tim.pend }
    cph := { blobs := d.cph.blobs, blobCtr := d.cph.blobCtr }
    ring := { rings := d.ring.rings, nextCmd := d.ring.nextCmd, doneTags := d.ring.doneTags }
    sbp := { d.sbp with arm := none }
    pwr := { d.pwr with draining := [], waking := [], bankStep := 3, bankReqs := [] }
    evt := {
      mirror := d.evt.mirror, mirLost := d.evt.mirLost, dark := d.evt.dark, darkLost := d.evt.darkLost, ibiLost := d.evt.ibiLost }
    pmc := {} }
  d.askOff { bay := boardBay, on := false, keep := true, reqs := reqs } pwrState

/-- A bay's channel or module is in a state that permits power-down (R332, R354, R440). -/
def Dev.bayMayOff (d : Dev) (bay : Nat) : Bool :=
  if bay < 24 then [chEmpty, chAbsent, chFailed].contains (d.chanState bay)
  else decide (bay < 44) && [modEmpty, modFailed].contains (d.f (HTH_MOD_STAT.STATE (bay - 24)))

/-! ### Power operations (R453) -/

/-- A board power-up: where the core is dark it starts again, and a trip's wait is over (R440, R458, R507). -/
def Dev.boardUp (d : Dev) (r : PwrReq) : Dev :=
  if ¬ d.pwr.eepromOk ∨ d.f PWR_STATE.DEVICE ≠ devLit ∨ (d.pwr.boardOn ∧ d.pwr.seq.isNone ∧ ¬ d.pwr.needUp) then
    d.answerPwr r pwrState
  else
    let ready := !d.coreOn && !d.dur.saving && d.core.powerGood && !d.core.resetN
    let d := if ready then d.restart d.core.straps false else { d with pwr := { d.pwr with needUp := false } }
    d.askSeq { bay := boardBay, on := true, reqs := [r] }

/-- Operation `op` of `PWR_CTL`, POWER or the device itself. -/
def Dev.powerReq (d : Dev) (r : PwrReq) : Dev :=
  if r.op = 1 then d.boardUp r
  else if r.op = 2 then d.askBoardOff r
  else if r.op = 3 then
    (if d.coreOn ∧ d.f PWR_STATE.DEVICE = devLit ∧ ¬ d.dur.saving ∧ d.pwr.waitOff.isEmpty then d.enterBank [r]
     else d.answerPwr r (if d.dur.saving then pwrSave else pwrState))
  else if r.op = 4 then
    (if d.f PWR_STATE.DEVICE ≠ devBanked then d.answerPwr r pwrState
     else
       let d := { d.setDevice devLeaving with pwr := { (d.setDevice devLeaving).pwr with bankStep := 4, bankReqs := [r] } }
       d.askSeq { bay := boardBay, on := true })
  else if r.op = 5 then
    (if r.bay < 24 ∧ (d.chanState r.bay = chOff ∨ d.chanState r.bay = chAbsent) ∨
        24 ≤ r.bay ∧ r.bay < 44 ∧ (d.f (HTH_MOD_STAT.STATE (r.bay - 24)) = modOff ∨ d.f (HTH_MOD_STAT.STATE (r.bay - 24)) = modAbsent)
     then d.askSeq { bay := r.bay, on := true, reqs := [r] } else d.answerPwr r pwrBay)
  else if r.op = 6 then
    (if d.bayMayOff r.bay then d.askOff { bay := r.bay, on := false, reqs := [r] } pwrState else d.answerPwr r pwrBay)
  else d.answerPwr r pwrState

/-- The device starts after a reset, with the board's on sequence where `AUTO_ON` asks for it (R507 stages 1 and 2). -/
def Dev.startUp (d : Dev) (s : Straps) (cold : Bool) : Dev :=
  let d := d.restart s cold
  if d.needsBoard then d.askSeq { bay := boardBay, on := true, reqs := [{ op := 1 }] } else d

/-- The device leaves reset once RESET_N is high, power is good and no board-up request is awaited (R210, R458, R504). -/
def Dev.leaveReset (d : Dev) : Dev :=
  if d.dur.held ∧ ¬ d.dur.saving ∧ d.core.powerGood ∧ ¬ d.core.resetN ∧ ¬ d.pwr.needUp then d.startUp d.core.straps false
  else d

/-! ### The end of a save, and stops without one (R210, R373, R453, R458) -/

/-- The core stops: dark, and held in reset but after a board power-off; the rails go off where power has failed, after a trip,
or where a board power-off waits. -/
def Dev.stopped (d : Dev) (why : Nat) : Dev :=
  let reqs := d.pwr.waitOff
  let off := !d.core.powerGood || why == 2 || d.dur.afterSave == 1
  let held := d.dur.afterSave != 1
  let d := d.darken
  let d := { d with dur := { d.dur with held := held } }
  if off then (d.boardDown reqs).leaveReset else d.leaveReset

/-- A save begins; after an alarm there is none to make, and the device stops as it is (R373, R504). -/
def Dev.saveOrStop (d : Dev) (why : Nat) : Dev :=
  if ¬ d.cph.alarmed then d.beginSave why
  else if d.coreOn ∧ ¬ d.dur.saving then d.linksOff.stopped why else d

/-! ### A rail fault (R443) -/

/-- An on sequence of a rail's scope runs; a fault turns it into the off sequence (R443). -/
def Dev.faultTurns (d : Dev) (n : Nat) : Dev :=
  match d.pwr.seq with
  | some q => if q.on ∧ (d.railsOf q).contains n then d.askOff { bay := q.bay, on := false } pwrFault else d
  | none => d

/-- Rail `n` faults: `FAULT` is set, and at its onset it acts by `ACTION`. -/
def Dev.railFault (d : Dev) (n : Nat) : Dev :=
  if d.fbit PWR_RAIL_STAT.FAULT n then d
  else
    let a := d.f (PWR_RAIL.ACTION n)
    let bay := d.f (PWR_RAIL.BAY n)
    let d := (d.setFbit PWR_RAIL_STAT.FAULT n true).raise (source 1 0) (if a = 0 then 3 else 5) 0 n bay
    let d := if a = 1 ∧ d.bayMayOff bay then d.askOff { bay := bay, on := false } pwrFault else d
    (if a = 2 then d.saveOrStop 0 else d).faultTurns n

end Sys2Proof.Machine
end

