-- ==== Sys2Proof/Machine/Dur.lean ====
section
/-! DEFINITION. Commands of the dirty budget, the governor and the image writer (R181 to R194, R219). -/

namespace Sys2Proof.Machine

/-- The governor's stage as its evaluation leaves it; the token store is full when stage 2 is entered (R185, R186). -/
def Dev.govern (d : Dev) : Dev :=
  let was := d.f DUR_BUDGET_STAT.STAGE
  let st := d.stageNow
  let d := d.fset DUR_BUDGET_STAT.STAGE st
  if st = 2 ∧ was ≠ 2 then { d with dur := { d.dur with tokens := d.dur.imgRate * 100000, tokAt := d.clk } } else d

/-- The image rate of the last 100 µs is taken; tokens accrued so far are kept (R186). -/
def Dev.takeRate (d : Dev) (rate : Nat) : Dev :=
  { d with dur := { d.dur with tokens := d.tokensNow, tokAt := d.clk, imgRate := rate } }

/-- GOVERNOR_EVALUATION (R185): the stage is compared with U = D ÷ B; `rate` is the image rate measured, in pages a ms. -/
def execGovernorEvaluation (t rate : Nat) (s : State) : Host.Outcome State Fault Refusal :=
  s.run t fun d => ((((d.takeRate rate).settleOver).govern).count 0x604 0 d.dirtyPages).pump

/-- BUDGET_RISE_EFFECT (R182): a rise of B takes effect 1 ms after it was computed. -/
def execBudgetRiseEffect (t : Nat) (s : State) : Host.Outcome State Fault Refusal :=
  s.run t fun d =>
    match (d.dur.rise.filter (fun r => decide (r.2 ≤ d.clk))).getLast? with
    | none => d
    | some (b, _) =>
      ({ d with dur := { d.dur with budget := b, rise := d.dur.rise.filter (fun r => decide (d.clk < r.2)) } }).settleOver

/-- SAVE_RATE_CALIBRATION (R181, R350): a module that is Online, powered and inside the save window enters save duty at the
rate measured, or at its limit where that is lower. -/
def execSaveRateCalibration (t mod rate : Nat) (s : State) : Host.Outcome State Fault Refusal :=
  s.run t fun d =>
    if d.f (HTH_MOD_STAT.STATE mod) = modOnline ∧ d.modWindow mod ≤ 1 ∧ mod < 20 then
      let done (x : Nat × Module) : Nat × Module := if x.1 = mod then (x.1, { x.2 with calDue := false }) else x
      let d := { d with hth := { d.hth with mods := d.hth.mods.map done } }
      ((d.fset (DUR_MOD.RATE mod) (min rate (d.f (HTH_MOD_STAT.SAVE_CAP mod)))).fset (DUR_MOD.DUTY mod) 1).rebudget
    else d

/-- IMAGE_GROUP_CLOSED (R192, R193): a wordline group of `n` images, on the module and in the block of the save area that `place` names, is closed
with its summary: the next versions in the image writer's order become imaged, and current images of other blocks are written
again where fewer versions wait (R195). -/
def execImageGroupClosed (t n : Nat) (place : ImgPlace) (s : State) : Host.Outcome State Fault Refusal :=
  s.run t fun d =>
    if ¬ d.writesImages place.mod ∨ 20 ≤ place.mod then d
    else ((((((d.closeGroup n place.mod place.blk).count 0x602 0 n).countImages).settleOver).settleSealNow).pump).settleOff

/-- SEAL_RECORD_CLOSED (R194): both copies of the seal record of the oldest closed epoch are closed, on two modules. -/
def execSealRecordClosed (t : Nat) (copies : SealCopies) (s : State) : Host.Outcome State Fault Refusal :=
  s.run t fun d =>
    if d.dur.closed.head? = some copies.epoch ∧ ¬ d.epochHeld copies.epoch ∧ ¬ d.awaitsEoe copies.epoch ∧ copies.m1 ≠ copies.m2
        ∧ d.writesImages copies.m1 ∧ d.writesImages copies.m2 then
      ((d.writeSeal copies.epoch [copies.m1, copies.m2]).completeEpoch copies.epoch).pump
    else d

/-- WRITE_THROUGH_DRAINED (R219): D first reaches 0 after write-through began. -/
def execWriteThroughDrained (t : Nat) (s : State) : Host.Outcome State Fault Refusal :=
  s.run t fun d =>
    if d.on DUR_BUDGET_STAT.WT ∧ ¬ d.dur.wtDrained ∧ d.dirtyPages = 0 then
      let d := { d with dur := { d.dur with wtDrained := true, exposure := false } }
      ((d.fset DUR_BUDGET_STAT.OVER 0).fset DUR_BUDGET_STAT.STAGE 0).pump
    else d

end Sys2Proof.Machine
end

