-- ==== Sys2Proof/Machine/Evt.lean ====
section
/-! DEFINITION. Events, the recorder and performance counters (R485 to R502), and operating hours with the life estimates
(R467, R488). -/

namespace Sys2Proof.Machine

/-! ### The recorder -/

/-- The recorder, the mirror and the lost count are emptied, and the clearing record is written (R494). -/
def Dev.clearLog (d : Dev) (inst : Nat) : Dev :=
  let n := d.evt.recs.length
  let lost := d.evt.lost
  let d := { d with evt := { d.evt with recs := [], mirror := [], lost := 0, mirLost := 0 } }
  let s := source 15 6
  let r := { d.mkRecord s 2 0 inst n [BitVec.ofNat 32 lost] with clr := true }
  let d := { d with evt := { d.evt with recs := [r], nextSeq := d.evt.nextSeq + 1, dirtyAt := some d.clk } }
  (d.signalMsix s).signalIbi s r

/-- LOG_CLEAR (R494). -/
def execLogClear (t cmd : Nat) (s : State) : Host.Outcome State Fault Refusal :=
  s.run t fun d => d.startCmd cmd ocLogClear (fun _ => true) fun d c =>
    let n := d.evt.recs.length
    (d.clearLog 0).complete c csDone n

/-- Records from position `first` on, at most `n` (R494). -/
def Dev.recordsFrom (d : Dev) (first n : Nat) : List Record := (d.evt.recs.drop first).take n

/-- LOG_FETCH (R494): the records go to RESULT_ADDR. -/
def execLogFetch (t cmd : Nat) (s : State) : Host.Outcome State Fault Refusal :=
  s.run t fun d => d.startCmd cmd ocLogFetch (fun _ => true) fun d c =>
    let rs := d.recordsFrom (c.u16 16 % 4096) (c.u16 18 % 8192)
    let d := if rs.isEmpty then d else d.send (.hostWrite c.result (rs.flatMap Record.bytes))
    d.complete c csDone rs.length

/-- PENDING_CLEAR (R485). -/
def Dev.clearPending (d : Dev) (group mask : Nat) : Dev :=
  { d with evt := { d.evt with pend := d.evt.pend.filter (fun s => !(s / 32 == group && mask / 2 ^ (s % 32) % 2 == 1)) } }

/-- PENDING_CLEAR. -/
def execPendingClear (t group mask : Nat) (s : State) : Host.Outcome State Fault Refusal :=
  s.run t fun d => d.clearPending group mask

/-- MSIX_UNMASK (R485): a held message leaves, even where its source's pending bit has been cleared. -/
def execMsixUnmask (t vector : Nat) (s : State) : Host.Outcome State Fault Refusal :=
  s.run t fun d =>
    let held := d.evt.pba.contains vector
    let d := { d with evt := { d.evt with unmasked := ins d.evt.unmasked vector, pba := rem d.evt.pba vector } }
    if held then d.send (.msix vector) else d

/-- RECORDER_MIRROR_WRITE. -/
def execRecorderMirrorWrite (t : Nat) (s : State) : Host.Outcome State Fault Refusal :=
  s.run t fun d => if d.evt.dirtyAt.isSome ∧ d.coreOn then d.writeMirror else d

/-- EVENT_WINDOW_READ (R495). -/
def execEventWindowRead (t : Nat) (s : State) : Host.Outcome State Fault Refusal :=
  s.run t fun d =>
    match d.windowRecord with
    | none => d
    | some r => if d.on EVR_WIN_CTL.AUTO then d.fset EVR_CURSOR.SEQ (r.seq + 1) else d

/-- Bytes of an EVENT_NOTIFY message: vendor header, then the record (R429, R486). -/
def notifyBytes (record : List Byte) : List Byte :=
  [BitVec.ofNat 8 (Config.vendor.toNat / 256), BitVec.ofNat 8 Config.vendor.toNat, 0x40, 0, 0] ++ record

/-- I3C_PRIVATE_READ (R424, R486): the controller reads the oldest queued packet. -/
def execI3cPrivateRead (t : Nat) (s : State) : Host.Outcome State Fault Refusal :=
  s.run t fun d =>
    match d.sbp.notify with
    | [] => d
    | m :: r => { d with sbp := { d.sbp with notify := r } }.send (.mctp 0x7E (notifyBytes m))

/-! ### Performance counters -/

/-- PMC_SELECT (R496): a sampler stays where the new event may be sampled. -/
def execPmcSelect (t cmd : Nat) (s : State) : Host.Outcome State Fault Refusal :=
  s.run t fun d => d.startCmd cmd ocPmc (fun c => c.func == 0 || c.func == 3) fun d c =>
    let k := c.u16 18 % 512
    let ev := c.u16 20 % 4096
    let sel : PmcSel := { ctr := k, event := ev, inst := c.byte 22, all := c.byte 23 % 2 == 1 }
    let fits := (decide (1 ≤ ev) && decide (ev ≤ 3)) || (decide (0x200 ≤ ev) && decide (ev ≤ 0x203))
    let pmc := { d.pmc with
      sels := d.pmc.sels.filter (fun x => x.ctr != k) ++ [sel], cnts := del d.pmc.cnts k
      samplers := d.pmc.samplers.filter (fun x => x.ctr != k || fits) }
    { d with pmc := pmc }.complete c csDone

/-- PMC_DUMP_CONFIG (R497): dump numbers start again with a ring that is set; an interval of 0 stops. -/
def execPmcDumpConfig (t cmd : Nat) (s : State) : Host.Outcome State Fault Refusal :=
  s.run t fun d => d.startCmd cmd ocPmc (fun c => c.func == 1) fun d c =>
    let us := c.u32 32
    let d := d.fset PMC_DUMP_STAT.INTERVAL_US us
    let d := if us = 0 then d
      else { d with pmc := { d.pmc with addr := c.u64 24, entries := c.u32 36, pos := 0, seq := 0 } }
    d.complete c csDone

/-- PMC_SAMPLING_CONFIG (R500): a period of 0 stops. -/
def execPmcSamplingConfig (t cmd : Nat) (s : State) : Host.Outcome State Fault Refusal :=
  s.run t fun d => d.startCmd cmd ocPmc (fun c => c.func == 2) fun d c =>
    let k := c.u16 18 % 512
    let p := c.u32 32
    let others := d.pmc.samplers.filter (fun x => x.ctr != k)
    let own : List Sampler := if p = 0 then [] else
      [{ ctr := k, addr := c.u64 24, entries := c.u32 36, period := p, next := 0, left := p, lastUs := 0 }]
    { d with pmc := { d.pmc with samplers := others ++ own } }.complete c csDone

/-- Events whose counts follow from the commands; any other is measured by hardware that no command tells of. -/
def countedEvents : List Nat :=
  [0x101] ++ (List.range 12).map (· + 0x200) ++ [0x304, 0x305, 0x306, 0x403, 0x404, 0x500, 0x501, 0x502, 0x504]
    ++ (List.range 5).map (· + 0x600) ++ (List.range 4).map (· + 0x700) ++ [0x800, 0x801]

/-- `n` more engine events on a counter that samples: the record names the physical engine, and which of all it was, its program
counter, address and latency are free values (R13, R500, log entry 2). -/
def Dev.sampleEngine (d : Dev) (p : PmcSel) (n : Nat) : Dev :=
  let l := p.ctr / 16
  let roles := d.rolesOf l
  let k := if p.all then d.fresh.toNat % max 1 roles.length else p.inst
  let d := d.used
  let x : SampleOf := { engine := some (9 * l + roles.getD k 0), qpn := d.fresh.toNat, off := d.used.fresh.toNat, ns := d.used.used.fresh.toNat }
  let d := d.used.used.used
  match d.pmc.samplers.find? (fun s => s.ctr == p.ctr) with
  | none => d
  | some s =>
    let (s', o, k) := s.advance n d.now x
    ({ d with pmc := { d.pmc with
      samplers := d.pmc.samplers.map (fun (y : Sampler) => if y.ctr = p.ctr then s' else y), sampSkip := satAdd 32 d.pmc.sampSkip k } }).sendAll
        o.toList

/-- A counter latches: what it has counted, or a free value (log entry 2). -/
def Dev.latchCounter (d : Dev) (p : PmcSel) : Dev :=
  if countedEvents.contains p.event then d
  else
    let was := lookD d.pmc.cnts p.ctr 0
    let now := d.fresh.toNat
    let d := { d.used with pmc := { d.pmc with cnts := put d.pmc.cnts p.ctr now } }
    if 1 ≤ p.event ∧ p.event ≤ 3 then d.sampleEngine p ((now + 2 ^ 64 - was) % 2 ^ 64) else d

/-- Every counter latches for the snapshot of instant `at_` (R498, R499). -/
def Dev.latchAll (d : Dev) (at_ : Nat) : Dev :=
  let d := d.pmc.sels.foldl Dev.latchCounter d
  let bw := (List.range 256).map (fun p =>
    (p, BitVec.ofNat 32 (d.f (PMC_BW.RX p) + 65536 * d.f (PMC_BW.TX p))))
  let snap : Snap :=
    { seq := d.pmc.seq, takenAt := at_, bwAt := d.pmc.bwAt
      counts := d.pmc.cnts.map (fun c => (c.1, BitVec.ofNat 64 c.2)), bw := bw.filter (fun x => x.2 != 0) }
  { d with pmc := { d.pmc with snap := snap } }

/-- COUNTER_DUMP (R497, R498): at a multiple of the interval every counter latches and an entry is written. -/
def execCounterDump (t : Nat) (s : State) : Host.Outcome State Fault Refusal :=
  s.run t fun d =>
    let us := d.f PMC_DUMP_STAT.INTERVAL_US
    let at_ := d.now / (us * 1000) * (us * 1000)
    if us = 0 ∨ ¬ d.coreOn ∨ at_ ≤ d.pmc.snap.takenAt then d
    else
      let d := d.latchAll at_
      let e := d.pmc.snap.bytes us
      let d := d.send (.hostWrite (d.pmc.addr + 4096 * (d.pmc.pos % d.pmc.entries)) (e ++ List.replicate (4096 - e.length) 0))
      let d := d.fset PMC_DUMP_STAT.SEQ d.pmc.seq
      { d with pmc := { d.pmc with seq := d.pmc.seq + 1, pos := (d.pmc.pos + 1) % d.pmc.entries } }

/-- COUNTER_REGION_REFRESH (R499): every 1 ms while dumps are stopped. -/
def execCounterRegionRefresh (t : Nat) (s : State) : Host.Outcome State Fault Refusal :=
  s.run t fun d =>
    let at_ := d.now / 1000000 * 1000000
    if d.on PMC_DUMP_STAT.INTERVAL_US ∨ ¬ d.coreOn ∨ at_ ≤ d.pmc.snap.takenAt then d else d.latchAll at_

/-- A port's average rates over the window: free values where it is up, 0 where it is down (R501). -/
def Dev.measurePort (d : Dev) (p : Nat) : Dev :=
  if (d.port p).up then ((d.fset (PMC_BW.RX p) d.fresh.toNat).fset (PMC_BW.TX p) d.used.fresh.toNat).used.used
  else (d.fset (PMC_BW.RX p) 0).fset (PMC_BW.TX p) 0

/-- BANDWIDTH_WINDOW (R501): consecutive windows of `WIN_US`. -/
def execBandwidthWindow (t : Nat) (s : State) : Host.Outcome State Fault Refusal :=
  s.run t fun d =>
    if ¬ d.coreOn ∨ d.now < d.pmc.bwAt + d.f PMC_BW_CTL.WIN_US * 1000 then d
    else
      let d := (List.range 256).foldl Dev.measurePort d
      { d with pmc := { d.pmc with bwAt := d.now } }

/-! ### Operating hours and remaining life (R461, R467, R488) -/

/-- Equivalent hours at 85 °C, in millionths, that an hour at −5, 0, …, 110 °C adds (R467's formula, to the nearest one). -/
def arrhenius : List Nat :=
  [494, 860, 1468, 2459, 4046, 6544, 10415, 16324, 25215, 38412, 57746, 85723, 125732, 182306, 261448, 371027, 521266, 725325,
   1000000, 1366554, 1851695, 2488721, 3318848, 4392743]

/-- The 5 °C bin of a temperature, from −5 °C to 110 °C. -/
def tempBin (c : Int) : Nat := min 23 ((c + 7) / 5).toNat

/-- Months of 730.5 hours, as a 16-bit field holds them. -/
def monthsOf (hours : Nat) : Nat := min 65535 (hours * 2 / 1461)

/-- The thermal estimate in hours (R467): the budget left at the mean rate of the last 90 days; before a first day has been
counted, at the rate of all operating hours. -/
def Dev.thermalLeft (d : Dev) : Nat :=
  let eq := d.f AGE_LIFE.EQ_HOURS
  let left := 350640 - eq
  let days := d.age.eqDays
  let (gain, span) := match days.getLast? with
    | some e => (eq - e, 24 * days.length)
    | none => (eq, d.f EVR_LIFE.HOURS / 16)
  if gain = 0 then 65535 * 731 else left * span / gain

/-- The drift estimate in hours (R467): the slowest monitor's drift reaches 60 000 ppm along a power law of exponent 0.2. -/
def driftLeft (hours ppm : Nat) : Nat := if ppm = 0 then 65535 * 731 else hours * 60000 ^ 5 / ppm ^ 5 - hours

/-- The slowest wear monitor's drift in this round. -/
def Dev.worstDrift (d : Dev) : Nat :=
  ((List.range 48).map (fun k => (Config.drift k d.pwr.round.toNat).toNat)).foldl max 0

/-- The life estimates formed again; falling below `LIFE_WARN_MO` raises an event (R467). -/
def Dev.lifeNow (d : Dev) : Dev :=
  let was := d.f AGE_LIFE.LIFE_MO
  let th := monthsOf d.thermalLeft
  let dr := monthsOf (driftLeft (d.f EVR_LIFE.HOURS / 16) d.worstDrift)
  let life := min th dr
  let warn := d.f AGE_CTL.LIFE_WARN_MO
  let d := ((d.fset AGE_LIFE.THERMAL_MO th).fset AGE_LIFE.DRIFT_MO dr).fset AGE_LIFE.LIFE_MO life
  if life < warn ∧ (was = 0 ∨ warn ≤ was) then d.raise (source 3 1) 4 0 0xFFFF life else d

/-- A sixteenth of an hour at the present temperature is counted (R461, R467). -/
def Dev.countHeat (d : Dev) : Dev :=
  let b := tempBin (signed8 (d.f THM_MAX.TMAX))
  let sum := d.age.eqFrac + arrhenius.getD b 0
  let d := { d with age := { d.age with
    bins := change d.age.bins b 0 (· + 1), eqFrac := sum % 16000000 } }
  let d := d.fset AGE_LIFE.EQ_HOURS (d.f AGE_LIFE.EQ_HOURS + sum / 16000000)
  if d.f EVR_LIFE.HOURS % 384 = 0 then
    { d with age := { d.age with eqDays := (d.f AGE_LIFE.EQ_HOURS :: d.age.eqDays).take 90 } }
  else d

/-- HOURS_TICK (R488): a sixteenth of an hour with a board rail on has passed; the count is stored. -/
def execHoursTick (t : Nat) (s : State) : Host.Outcome State Fault Refusal :=
  s.run t fun d =>
    if ¬ d.pwr.boardOn then d
    else
      let h := d.f EVR_LIFE.HOURS + 1
      let d := { d.fset EVR_LIFE.HOURS h with store := { d.store with hours := h } }
      if d.coreOn then d.countHeat.lifeNow else d

end Sys2Proof.Machine
end

