-- ==== Sys2Proof/Machine/Fab.lean ====
section
/-! DEFINITION. Frames, messages and timers of the fabric (R263 to R294). -/

namespace Sys2Proof.Machine

/-! ### Links -/

/-- A fabric link may come up: enabled, with lantern 13 running and its key loaded (R264, R368). -/
def Dev.fabCanUp (d : Dev) (n : Nat) : Bool :=
  decide (n < 16) && d.on FAB_CFG.ENABLE && d.fbit FAB_CFG.LINK_EN n && d.f (FAB_LINK_STAT.STATE n) == linkDownState
    && d.lanternUp 13 && !d.dur.saving && !d.cph.alarmed
    && d.slotLoaded (if d.on FAB_KEY.KEYPH then d.f FAB_KEY.SLOT_ALT else d.f FAB_KEY.SLOT) 2

/-- HELLO: serial, fabric ID and its source, `STEWARD_EN`, version of the link-state record (R266). -/
def Dev.helloWords (d : Dev) : List Nat :=
  [Config.serial.toNat, match d.fabricId with | some i => i + 1 | none => 0, d.f FAB_ID.SRC, d.f FAB_CFG.STEWARD_EN, d.fab.lsaVer]

/-- FAB_LINK_UP (R263, R266): the pools of the virtual channels begin full (R267, log entry 74). -/
def execFabLinkUp (t link : Nat) (s : State) : Host.Outcome State Fault Refusal :=
  s.run t fun d =>
    if ¬ d.fabCanUp link then d
    else
      let d := (d.fset (FAB_LINK_STAT.STATE link) linkHelloOnly).fset (FAB_LINK_STAT.LGEN link)
        ((d.f (FAB_LINK_STAT.LGEN link) + 1) % 256)
      let pools := (List.range 4).map (fun v => (v, (Config.vcPool v).toNat))
      let d := d.setFlink link (fun l => { l with
        txSeq := 0, rxSeq := 0, unacked := [], txWait := [], peerSerial := 0, credit := pools })
      d.fabNow link frHello d.helloWords

/-- FAB_LINK_DOWN (R263, R270): the link change is flooded. -/
def execFabLinkDown (t link : Nat) (s : State) : Host.Outcome State Fault Refusal :=
  s.run t fun d => if d.f (FAB_LINK_STAT.STATE link) = linkDownState then d else (d.fabDown link).ownLsa

/-- FAB_HELLO (R263, R266, R268): a link to this device itself is refused; with both IDs valid the link is up. -/
def execFabHello (t : Nat) (h : FabHdr) (serial : BitVec 64) (id : Option Nat) (steward : Bool) (ver : Nat) (s : State) :
    Host.Outcome State Fault Refusal :=
  s.run t fun d => d.fabRx h false true (fun d =>
    if serial = Config.serial then d.fset (FAB_LINK_STAT.STATE h.link) linkRefused
    else
      let d := (d.setFlink h.link (fun l => { l with peerSerial := serial })).fset (FAB_LINK_STAT.PEER h.link) (id.getD 0)
      let d := d.fset (FAB_LINK_STAT.STATE h.link) (if id.isSome ∧ d.on FAB_ID.VALID then linkUpState else linkHelloOnly)
      let known := d.fab.db.any (fun l => l.serial == serial && decide (ver ≤ l.ver))
      let d := if known then d
        else { d with fab := { d.fab with db := putLsa d.fab.db { serial := serial, id := id, steward := steward, ver := 0, peers := [] } } }
      (d.ownLsa).askId)

/-- LSA (R270, R271): a newer record enters the database and is flooded on; the steward and the IDs are judged again. -/
def execLsa (t : Nat) (h : FabHdr) (serial : BitVec 64) (id : Option Nat) (steward : Bool) (ver : Nat)
    (peers : List (Nat × BitVec 64)) (s : State) : Host.Outcome State Fault Refusal :=
  s.run t fun d => d.fabRx h false true (fun d =>
    let l : Lsa := { serial := serial, id := id, steward := steward, ver := ver, peers := peers }
    if serial = Config.serial ∨ d.fab.db.any (fun x => x.serial == serial && decide (ver ≤ x.ver)) then d
    else
      let was := d.isSteward
      let d := { d with fab := { d.fab with db := putLsa d.fab.db l, recompute := true } }
      let d := ((d.floodLsa l (some h.link)).nameSteward).settleSteward was
      let clash := d.on FAB_ID.VALID && id == some (d.f FAB_ID.ID) && decide (serial.toNat < Config.serial.toNat)
      let d := if clash then d.loseId else d.askId
      match id with
      | some i => d.enlist i
      | none => d)

/-- LSA_FLOOD_TIMER (R270). -/
def execLsaFloodTimer (t : Nat) (s : State) : Host.Outcome State Fault Refusal :=
  s.run t fun d => if d.on FAB_CFG.ENABLE ∧ d.fab.lsaAt + 10000000 ≤ d.clk then d.ownLsa else d

/-- ROUTE_RECOMPUTE_DONE (R272). -/
def execRouteRecomputeDone (t : Nat) (s : State) : Host.Outcome State Fault Refusal :=
  s.run t fun d => if d.fab.recompute then ((d.computeRoutes).drainTransit).pump else d

/-- FAB_KEYPH (R226, R265): the frames that follow name the other phase, whose nonces are kept apart (R227). -/
def execFabKeyph (t : Nat) (h : FabHdr) (s : State) : Host.Outcome State Fault Refusal :=
  s.run t fun d => d.fabRx h false true (fun d => d)

/-- FAB_RETX (R228, R264). -/
def execFabRetx (t : Nat) (h : FabHdr) (first : Nat) (s : State) : Host.Outcome State Fault Refusal :=
  s.run t fun d => d.fabRx h true true (fun d => d.fabResend h.link first)

/-- FAB_RETRANSMIT_TIMER (R264): no ACK covers the oldest frame 8 µs after it was sent. -/
def execFabRetransmitTimer (t link : Nat) (s : State) : Host.Outcome State Fault Refusal :=
  s.run t fun d =>
    match (d.flink link).unacked with
    | f :: _ => if d.fabLive link ∧ f.sentAt + 8000 ≤ d.clk then d.fabResend link f.seq else d
    | [] => d

/-- FABRIC_REKEY (R265). -/
def execFabricRekey (t : Nat) (s : State) : Host.Outcome State Fault Refusal := s.run t fun d => d.fabRekey

/-- PTP_MESSAGE (R294): on the link of `PTP_LINK` the device takes time; on its other links it answers a delay request, whose
message type is 1 (log entry 10). -/
def execPtpMessage (t : Nat) (h : FabHdr) (event : Bool) (body : List Byte) (s : State) : Host.Outcome State Fault Refusal :=
  s.run t fun d => d.fabRx h false false (fun d =>
    if d.f DUR_EPOCH_CFG.TIME_SRC = 1 ∧ h.link = d.f FAB_CFG.PTP_LINK then { d with tim := { d.tim with ptp := true } }
    else if event ∧ (body.headD 0).toNat % 16 = 1 then
      d.fabNow h.link frPtp ((Config.standardReply 3 body).map (fun (b : Byte) => b.toNat))
    else d)

/-! ### Segments (R274 to R277) -/

/-- Index of a message identifier. -/
def midxOf (msgid : Nat) : Nat := msgid % 2 ^ 24

/-- A context leaves with a tombstone (R277). -/
def Dev.endCtx (d : Dev) (src msgid : Nat) : Dev :=
  { d with fab := { d.fab with
      ctxs := d.fab.ctxs.filter (fun c => !(c.src == src && c.msgid == msgid))
      tombs := d.fab.tombs ++ [{ src := src, msgid := msgid, setAt := d.clk }] } }

/-- A segment's bytes enter its context, which completes when every byte is covered (R275). -/
def Dev.fillCtx (d : Dev) (c : Ctx) (off : Nat) (data : List Byte) : Dev :=
  let new := (List.range data.length).filter (fun i => !c.got.contains (off + i))
  let c' : Ctx := { c with
    got := new.foldl (fun l i => ins l (off + i)) c.got
    bytes := new.foldl (fun m i => put m (off + i) (data.getD i 0)) c.bytes
    lastAt := if new.isEmpty then c.lastAt else d.clk
    asked := if new.isEmpty then c.asked else 0 }
  let others := d.fab.ctxs.filter (fun x => !(x.src == c.src && x.msgid == c.msgid))
  let d := { d with fab := { d.fab with ctxs := others ++ [c'] } }
  if c'.got.length < c'.len then d else d.endCtx c.src c.msgid

/-- A segment for this device (R275, R277). -/
def Dev.takeSeg (d : Dev) (h : FabHdr) (mtype msglen off : Nat) (data : List Byte) : Dev :=
  let open_ := d.fab.ctxs.find? (fun c => c.src == h.src && midxOf c.msgid == midxOf h.msgid)
  if d.fab.tombs.any (fun x => x.src == h.src && x.msgid == h.msgid) then d.finc FAB_CNT.STALE 1
  else if open_.any (fun c => c.msgid != h.msgid) then d.finc FAB_CNT.STALE 1
  else if open_.any (fun c => c.len != msglen) || decide (msglen < off + data.length) then d.finc FAB_CNT.HOP_DROP 1
  else
    let fresh : Ctx := { src := h.src, msgid := h.msgid, mtype := mtype, len := msglen, got := [], bytes := [], lastAt := d.clk,
                         asked := 0, stamp := h.stamp }
    d.fillCtx (open_.getD fresh) off data

/-- SEG (R274, R275): a segment for another device goes on with one hop less, or is dropped and counted. -/
def execSeg (t : Nat) (h : FabHdr) (mtype msglen offset : Nat) (data : List Byte) (s : State) :
    Host.Outcome State Fault Refusal :=
  s.run t fun d => d.fabRx h false false (fun d =>
    if h.dst = d.selfId then d.takeSeg h mtype msglen offset data
    else if h.hops = 0 then d.finc FAB_CNT.HOP_DROP 1
    else d.forwardTransit
      { link := h.link, since := d.clk, dst := h.dst, hops := h.hops - 1,
        frame := { ftype := frSeg, mtype := mtype, msgid := h.msgid, stamp := h.stamp, src := h.src, vc := h.vc, msglen := msglen,
                   off := offset, data := data } })

/-- TRANSIT_TIMEOUT (R274). -/
def execTransitTimeout (t link : Nat) (s : State) : Host.Outcome State Fault Refusal :=
  s.run t fun d =>
    let late (x : Transit) : Bool := x.link == link && decide (x.since + 64000 ≤ d.clk)
    let n := (d.fab.transit.filter late).length
    if n = 0 then d
    else ({ d with fab := { d.fab with transit := d.fab.transit.filter (fun x => !late x) } }).finc FAB_CNT.HOP_DROP n

/-- The missing ranges of a context as offset and length, from byte `at_` on, over at most `fuel` bytes. -/
def missing (got : List Nat) (at_ : Nat) : Nat → List (Nat × Nat)
  | 0 => []
  | fuel + 1 =>
    if got.contains at_ then missing got (at_ + 1) fuel
    else match missing got (at_ + 1) fuel with
    | (o, n) :: r => if o = at_ + 1 then (at_, n + 1) :: r else (at_, 1) :: (o, n) :: r
    | [] => [(at_, 1)]

/-- REASSEMBLY_TIMER (R276): SEG_REQ for the first eight missing ranges, or after eight requests the context is dropped. -/
def execReassemblyTimer (t src msgid : Nat) (s : State) : Host.Outcome State Fault Refusal :=
  s.run t fun d =>
    match d.fab.ctxs.find? (fun c => c.src == src && c.msgid == msgid) with
    | none => d
    | some c =>
      if d.clk < c.lastAt + 50000 * (c.asked + 1) then d
      else if 8 ≤ c.asked then (d.endCtx src msgid).finc FAB_CNT.HOP_DROP 1
      else
        let rs := (missing c.got 0 c.len).take 8
        let again (x : Ctx) : Ctx := if x.src = src ∧ x.msgid = msgid then { x with asked := x.asked + 1 } else x
        let d := { d with fab := { d.fab with ctxs := d.fab.ctxs.map again } }
        (d.finc FAB_CNT.SEG_REQ 1).fabSend src segReq (msgid :: rs.flatMap (fun r => [r.1, r.2]))

/-- A range of a kept message leaves again in segments of at most 8192 B, over at most `fuel` of them. -/
def Dev.sendRange (d : Dev) (r : Route) (x : Sent) (off n : Nat) : Nat → Dev
  | 0 => d
  | fuel + 1 =>
    if n = 0 then d
    else
      let k := min n 8192
      let p := d.pathFor r (vcOf x.mtype)
      let d := { d with fab := { d.fab with rr := d.fab.rr + 1 } }
      let f : TxFrame :=
        { ftype := frSeg, msgid := x.msgid, stamp := x.stamp, hops := 15, dst := x.dst, src := d.f FAB_ID.ID, mtype := x.mtype,
          vc := vcOf x.mtype, msglen := x.data.length, off := off, args := x.args, data := (x.data.drop off).take k }
      (d.fabFrame p f).sendRange r x (off + k) (n - k) fuel

/-- SEG_REQ (R276). -/
def execSegReq (t src msgid : Nat) (ranges : List (Nat × Nat)) (s : State) : Host.Outcome State Fault Refusal :=
  s.run t fun d =>
    match d.fab.sent.find? (fun x => x.dst == src && x.msgid == msgid), look d.fab.routes src with
    | some x, some r => if r.links.isEmpty then d
        else ranges.foldl (fun d q => d.sendRange r x q.1 q.2 (q.2 / 8192 + 1)) d
    | _, _ => d

/-- TOMBSTONE_EXPIRY (R277). -/
def execTombstoneExpiry (t src msgid : Nat) (s : State) : Host.Outcome State Fault Refusal :=
  s.run t fun d =>
    let gone (x : Tomb) : Bool := x.src == src && x.msgid == msgid && decide (x.setAt + 1500000 < d.clk)
    { d with fab := { d.fab with tombs := d.fab.tombs.filter (fun x => !gone x) } }

/-- MIDX_QUARANTINE_END (R277). -/
def execMidxQuarantineEnd (t midx : Nat) (s : State) : Host.Outcome State Fault Refusal :=
  s.run t fun d =>
    if d.fab.quarMidx.any (fun q => q.1 == midx && decide (q.2 + 2000000 ≤ d.clk)) then
      { d with fab := { d.fab with
          quarMidx := d.fab.quarMidx.filter (fun q => q.1 != midx), freeMidx := d.fab.freeMidx ++ [midx] } }
    else d

/-- The message awaits an answer still: a forwarded request or an entry that stands. -/
def Dev.awaited (d : Dev) (x : Sent) : Bool :=
  (x.mtype == fwdReq && d.fab.fwd.any (fun f => f.home == x.dst && x.args.getD 6 0 == f.opId)) ||
  (x.mtype == fwdWrite && d.fab.fj.any (fun f => f.home == x.dst && x.args.getD 4 0 == f.jseq && x.args.getD 5 0 == f.origin
    && f.state == .sent))

/-- MESSAGE_RETENTION_EXPIRY (R276). -/
def execMessageRetentionExpiry (t midx : Nat) (s : State) : Host.Outcome State Fault Refusal :=
  s.run t fun d => d.freeMsg (fun x => x.midx == midx && decide (x.sentAt + 1000000 ≤ d.clk) && !d.awaited x)

/-! ### Forwarded verbs (R281 to R290) -/

/-- FWD_REQ (R281, R283, R284). -/
def execFwdReq (t src _msgid : Nat) (f : FwdHdr) (cmp swp : BitVec 64) (s : State) : Host.Outcome State Fault Refusal :=
  s.run t fun d =>
    if ¬ d.on FAB_ID.VALID ∨ d.dur.saving then d
    else (d.takeFwd { src := src, post := false, h := f, cmp := cmp, swp := swp, data := [] }).fwdDeadlines

/-- FWD_WRITE (R281, R283, R287). -/
def execFwdWrite (t src _msgid : Nat) (f : FwdHdr) (data : List Byte) (s : State) : Host.Outcome State Fault Refusal :=
  s.run t fun d =>
    if ¬ d.on FAB_ID.VALID ∨ d.dur.saving then d
    else
      let swp : BitVec 64 := BitVec.ofNat 64 (ofLeBytes (data.take 8))
      d.takeFwd { src := src, post := true, h := f, cmp := 0, swp := swp, data := data }

/-- The home's answer to a part of a READ (R284). -/
def Dev.takePart (d : Dev) (o : Op) (x : FwdOut) (a : FwdAnswer) : Dev :=
  let hint := if a.arg = 0 then d.deadlineUs o.rkey o.kind else a.arg
  match a.status with
  | .ok =>
    let here (y : FwdOut) : FwdOut := if y.opId = x.opId ∧ y.part = x.part then { y with got := some a.data } else y
    let d := { d with fab := { d.fab with fwd := d.fab.fwd.map here } }
    if d.partsIn o then d.setOp o.id (fun o => { o with phase := .waiting }) else d
  | .redirect =>
    if d.now + d.f FAB_FWD_CTL.SLACK_NS ≤ o.dl ∧ d.hasRoute a.other then d.fwdAgain o x a.other
    else d.answer o { st := .retryAfter, us := hint }
  | .retryAfter => d.answer o { st := .retryAfter, us := hint }
  | st => d.answer o { st := st }

/-- The home's answer to a forwarded atomic: it is passed on, but for a REDIRECT (R284). -/
def Dev.takeAtomic (d : Dev) (o : Op) (x : FwdOut) (a : FwdAnswer) : Dev :=
  let hint := if a.arg = 0 then d.deadlineUs o.rkey o.kind else a.arg
  match a.status with
  | .ok => (d.countDone o).answer o { orig := some a.orig, epoch := some a.epoch }
  | .redirect =>
    if a.inDoubt then d.answer o { st := .retryAfter, us := hint, inDoubt := true }
    else if d.now + d.f FAB_FWD_CTL.SLACK_NS ≤ o.dl ∧ d.hasRoute a.other then d.fwdAgain o x a.other
    else d.answer o { st := .retryAfter, us := hint }
  | .retryAfter => d.answer o { st := .retryAfter, us := hint, inDoubt := a.inDoubt }
  | st => d.answer o { st := st }

/-- FWD_RESP (R284): an answer whose tag is stale is dropped (R143). -/
def execFwdResp (t src _msgid : Nat) (r : FwdAnswer) (s : State) : Host.Outcome State Fault Refusal :=
  s.run t fun d =>
    match d.fab.fwd.find? (fun x => x.opId == r.tag && x.part == r.part && x.home == src), d.op r.tag with
    | some x, some o =>
      let d := d.freeMsg (fun m => m.mtype == fwdReq && m.dst == src && m.args.getD 6 0 == r.tag)
      (if o.kind = .read then d.takePart o x r else d.takeAtomic o x r).pump
    | _, _ => d.finc HPT_DROP_CNT.TAG_STALE 1

/-- FORWARD_ATOMIC_TIMEOUT (R284). -/
def execForwardAtomicTimeout (t op : Nat) (s : State) : Host.Outcome State Fault Refusal :=
  s.run t fun d =>
    match d.op op with
    | none => d.finc HPT_DROP_CNT.TAG_STALE 1
    | some o =>
      if (o.kind = .cmpSwap ∨ o.kind = .fetchAdd) ∧ o.phase = .forwarded ∧
          d.fab.fwd.any (fun x => x.opId == op && decide (x.sentAt + 1000000 ≤ d.clk)) then
        (d.answer o { st := .retryAfter, us := d.deadlineUs o.rkey o.kind, inDoubt := true }).pump
      else d

/-- The home's verdict on an entry (Table 8.5). -/
def Dev.takeVerdict (d : Dev) (f : Fj) (a : FwdVerdict) : Dev :=
  let set (g : Fj → Fj) : Dev :=
    { d with fab := { d.fab with fj := d.fab.fj.map (fun (x : Fj) => if x.same f.origin f.home f.jseq then g x else x) } }
  match a.status with
  | .ok =>
    if a.homeEpoch ≤ d.f DUR_HORIZON.HORIZON then
      { d with fab := { d.fab with fj := d.fab.fj.filter (fun (x : Fj) => !x.same f.origin f.home f.jseq) } }
    else set (fun x => { x with state := .applied, homeEpoch := a.homeEpoch })
  | .redirect => d.fjMove f a.other
  | .retryAfter => set (fun x => { x with hint := a.arg, sentAt := d.clk })
  | st => d.fjFail f st.code

/-- FWD_ACK (R287, R288). -/
def execFwdAck (t src _msgid : Nat) (a : FwdVerdict) (s : State) : Host.Outcome State Fault Refusal :=
  s.run t fun d =>
    match d.fab.fj.find? (fun f => f.same a.origin src a.jseq && (f.state == .sent || f.state == .applied)) with
    | none => d
    | some f =>
      let d := d.freeMsg (fun m => m.mtype == fwdWrite && m.dst == src && m.args.getD 4 0 == a.jseq && m.args.getD 5 0 == a.origin)
      ((if f.state = .sent then d.takeVerdict f a else d).fjWindow).pump

/-- FJ_RESEND_TIMER (R288). -/
def execFjResendTimer (t origin home jseq : Nat) (s : State) : Host.Outcome State Fault Refusal :=
  s.run t fun d =>
    match d.fab.fj.find? (fun f => f.same origin home jseq && f.state == .sent) with
    | none => d
    | some f => if f.sentAt + f.hint * 1000 ≤ d.clk then d.fjSend f else d

/-- FJ_LIMIT_EXPIRY (R288): status 03h in the deferred log. -/
def execFjLimitExpiry (t origin home jseq : Nat) (s : State) : Host.Outcome State Fault Refusal :=
  s.run t fun d =>
    match d.fab.fj.find? (fun f => f.same origin home jseq && (f.state == .posted || f.state == .sent)) with
    | none => d
    | some f =>
      if f.stamp + d.f FAB_FWD_CTL.FJ_LIMIT_MS * 1000000 ≤ d.now then ((d.fjFail f 3).fjWindow).pump else d

/-! ### The set, identity and spanned regions -/

/-- HORIZON (R215, R291): the higher of both is taken. -/
def execHorizon (t src epoch : Nat) (s : State) : Host.Outcome State Fault Refusal :=
  s.run t fun d =>
    if src ≠ d.f FAB_ID.STEWARD ∨ ¬ d.on FAB_ID.VALID then d
    else (({ d with fab := { d.fab with horizonSeen := true } }).judgeHorizon epoch).raiseHorizon epoch

/-- A member leaves the set; a steward tells the others and may raise the horizon (R292). -/
def Dev.removeMember (d : Dev) (id : Nat) : Dev :=
  if d.isSteward then
    let d := d.toMembers memberMsg [id, 0]
    ({ d with fab := { d.fab with members := d.fab.members.filter (fun m => m.id != id) } }).stewardHorizon
  else { d with fab := { d.fab with joinAt := d.fab.joinAt ++ [(id, false)] } }

/-- MEMBER (R292). -/
def execMember (t id : Nat) (add : Bool) (s : State) : Host.Outcome State Fault Refusal :=
  s.run t fun d =>
    if ¬ d.on FAB_ID.VALID then d
    else if ¬ add then d.removeMember id
    else if d.isSteward then d.enlist id
    else { d with fab := { d.fab with joinAt := d.fab.joinAt ++ [(id, true)] } }

/-- `EXPEL` is written (R292): the removal goes to the steward. -/
def Dev.expel (d : Dev) (id : Nat) : Dev :=
  let d := d.fset FAB_MEMBER.EXPEL_ID id
  if ¬ d.on FAB_ID.VALID then d
  else if d.isSteward then d.removeMember (id % 4096)
  else d.fabSend (d.f FAB_ID.STEWARD) memberMsg [id % 4096, 0]

/-- EXPEL. -/
def execExpel (t id : Nat) (s : State) : Host.Outcome State Fault Refusal := s.run t fun d => d.expel id

/-- ID_ASK (R268): the steward grants `LAST` where it is free, else the lowest ID that no member holds or straps. -/
def execIdAsk (t : Nat) (serial : BitVec 64) (last : Nat) (s : State) : Host.Outcome State Fault Refusal :=
  s.run t fun d =>
    if ¬ d.on FAB_CFG.ENABLE ∨ ¬ d.isSteward then d
    else match d.grantId last with
    | none => d
    | some i => ({ d with fab := { d.fab with granted := ins d.fab.granted i } }).send (.fabric i idGrant [serial.toNat, i] [])

/-- ID_GRANT (R268). -/
def execIdGrant (t id : Nat) (s : State) : Host.Outcome State Fault Refusal :=
  s.run t fun d =>
    if ¬ d.on FAB_CFG.ENABLE ∨ ¬ d.fab.strapSrc ∨ d.on FAB_ID.VALID then d else d.takeGrant (id % 4096)

/-- SPAN_TXN (R280): at the steward the transaction begins; a member reserves what it needs and votes. -/
def execSpanTxn (t src : Nat) (m : RegionMsg) (s : State) : Host.Outcome State Fault Refusal :=
  s.run t fun d =>
    if ¬ d.on FAB_ID.VALID then d
    else if d.isSteward then d.startSpan m src
    else
      let ok := (d.cannotHold m).isNone
      let d := if ok then { d.holdChange m with fab := { (d.holdChange m).fab with spanHeld := d.fab.spanHeld ++ [m] } } else d
      d.fabSend src spanVote [m.region, bit ok]

/-- SPAN_VOTE (R280): the steward counts it; from the steward it is the outcome. -/
def execSpanVote (t src region : Nat) (ok : Bool) (s : State) : Host.Outcome State Fault Refusal :=
  s.run t fun d =>
    match d.fab.spans.find? (fun x => x.region == region) with
    | some x =>
      let y : SpanTxn := { x with voters := x.voters.filter (fun v => v != src), ok := x.ok && ok }
      if y.voters.isEmpty ∨ ¬ y.ok then (d.endSpan y).pump
      else { d with fab := { d.fab with spans := d.fab.spans.map (fun z => if z.region = region then y else z) } }
    | none =>
      let held := d.fab.spanHeld.find? (fun m => m.region == region)
      let asked := (d.fab.spanPend.find? (fun p => p.region == region)).map (·.m)
      match held.or asked with
      | some m => (d.settleSpan m ok).pump
      | none => d

end Sys2Proof.Machine
end

