-- ==== Sys2Proof/Machine/Fwm.lean ====
section
/-! DEFINITION. Firmware commands (R401, R476 to R481). -/

namespace Sys2Proof.Machine

/-- FW_STAGE's chunk cannot be taken: the inactive slot keeps the last confirmed image (R476). -/
def Dev.stageBarred (d : Dev) : Bool := d.f (FWM_SLOT.STATE d.fwOther) == fwPrevious && !d.on FWM_STAT.CONFIRMED

/-- A chunk is written into the inactive slot, which holds no image until its last chunk has been verified (R476). -/
def Dev.stageChunk (d : Dev) (i : Image) (final : Bool) : Dev :=
  let n := d.fwOther
  if ¬ final then d.fset (FWM_SLOT.STATE n) fwEmpty
  else if ¬ i.verified then d.fset (FWM_SLOT.STATE n) fwEmpty
  else (((d.fset (FWM_SLOT.STATE n) fwStaged).fset (FWM_SLOT.VERSION n) i.version.toNat).fset (FWM_SLOT.FMT_LO n) i.fmtLo).fset
    (FWM_SLOT.FMT_HI n) i.fmtHi

/-- FW_STAGE (R428, R476). -/
def execFwStage (t cmd : Nat) (i : Image) (s : State) : Host.Outcome State Fault Refusal :=
  s.run t fun d => d.startCmd cmd ocStage (fun _ => true) fun d c =>
    let final := c.byte 40 % 2 == 1
    if d.sbp.update then d.complete c csBusy
    else if d.stageBarred then d.complete c csRefused 10
    else
      let d := d.stageChunk i final
      if final ∧ ¬ i.verified then d.complete c csRefused 10 else d.complete c csDone

/-- FW_ACTIVATE cannot go on (R476). -/
def Dev.activateBarred (d : Dev) : Bool :=
  let n := d.fwOther
  let fmt := d.f CFX_STORE.FORMAT
  d.f (FWM_SLOT.STATE n) != fwStaged || decide (fmt < d.f (FWM_SLOT.FMT_LO n)) || decide (d.f (FWM_SLOT.FMT_HI n) < fmt)

/-- What FW_ACTIVATE does once every earlier command is complete: the rolling restart begins (R401, R476, R477). -/
def Dev.actActivate (d : Dev) (c : Cmd) : Dev :=
  if d.activateBarred then
    { d.complete c csRefused 10 with ring := { (d.complete c csRefused 10).ring with barrier := none } }
  else
    let d := d.fset FWM_STAT.LANTERNS 0
    { d with fwm := { d.fwm with rotating := true, rollback := false, rotStep := 0, cmdId := some c.id } }

/-- FW_ACTIVATE. -/
def execFwActivate (t cmd : Nat) (s : State) : Host.Outcome State Fault Refusal :=
  s.run t fun d => d.startCmd cmd ocActivate (fun _ => true) Dev.actActivate

/-- ACTIVATION_BARRIER_TIMEOUT (R401): 10 s after its fetch earlier commands are not all complete. -/
def execActivationBarrierTimeout (t : Nat) (s : State) : Host.Outcome State Fault Refusal :=
  s.run t fun d =>
    match d.ring.barrier.bind d.cmd with
    | none => d
    | some c =>
      if c.running ∨ d.clk < c.started + 10000000000 then d
      else
        let d := d.complete c csRefused 8
        { d with ring := { d.ring with barrier := none } }

/-- LANTERN_ROTATION_STEP (R477 to R480). -/
def execLanternRotationStep (t : Nat) (reads : Bool) (s : State) : Host.Outcome State Fault Refusal :=
  s.run t fun d => if d.mayRotate then d.rotate reads else d

/-- What FW_CONFIRM does (R480): it acts in the window. -/
def Dev.actConfirm (d : Dev) (c : Cmd) : Dev :=
  if d.fwm.window.isNone then d.complete c csRefused 10 else d.confirmImage.complete c csDone

/-- FW_CONFIRM. -/
def execFwConfirm (t cmd : Nat) (s : State) : Host.Outcome State Fault Refusal :=
  s.run t fun d => d.startCmd cmd ocConfirm (fun _ => true) Dev.actConfirm

/-- CONFIRM_WINDOW_EXPIRY (R480). -/
def execConfirmWindowExpiry (t : Nat) (s : State) : Host.Outcome State Fault Refusal :=
  s.run t fun d => if d.fwm.window.any (fun w => w ≤ d.clk) then d.startRollback else d

/-- `ROLLBACK` is written (R480): an illegal sequence unless the active slot is unconfirmed. -/
def Dev.writeRollback (d : Dev) : Dev :=
  if d.canRollBack then d.startRollback else d.illegal 8 FWM_CTL.ROLLBACK.place

/-- ROLLBACK (R480). -/
def execRollback (t : Nat) (s : State) : Host.Outcome State Fault Refusal := s.run t fun d => d.writeRollback

end Sys2Proof.Machine
end

