-- ==== Sys2Proof/Machine/Hth.lean ====
section
/-! DEFINITION. Happenings of the heath: programs, erases, reads, dies and modules (R334 to R358). -/

namespace Sys2Proof.Machine

/-- A program passed: a pSLC group is closed; a native group waits for the next group of its block, or for filler (R343). A refresh
is done with it. -/
def Dev.programPassed (d : Dev) (k : Nat) (native : Bool) : Dev :=
  let y := d.die k
  let loc := if y.why = whyMig then ((d.migOf y.ref).map (·.dstLoc)).toList else if y.why = whyRefresh then [y.ref] else []
  let d := if y.why = whyMig then d.setMig y.ref (fun m => { m with prog := 2 }) else d
  let d := if y.why = whyRefresh then { d with hth := { d.hth with refresh := rem d.hth.refresh y.ref } } else d
  d.setDie k (fun y => { y with
    busy := none
    padFrom := if native ∧ y.why ≠ whyFill then some d.clk else if y.why = whyFill then none else y.padFrom
    openIdx := if y.why = whyFill then [] else if native then (if y.why = whyMig then [y.ref] else []) else y.openIdx
    lastTwo := if y.why = whyFill then [] else if native then (y.lastTwo ++ loc).drop (y.lastTwo.length + loc.length - 2) else y.lastTwo })

/-- PROGRAM_COMPLETE (R341, R343, R353). A failed program is made again, on the same die or, once it is retired, on another; outside
the normal window none begins, and it waits. -/
def execProgramComplete (t ch die : Nat) (fail native : Bool) (s : State) : Host.Outcome State Fault Refusal :=
  s.run t fun d =>
    let k := ch * 16 + die
    let y := d.die k
    if ¬ y.busy.any (fun b => b.1 == opPslc || b.1 == opNative) then d
    else if ¬ fail then ((d.programPassed k native).pumpDies).pump
    else
      let d := d.failedProgram k
      let waits := d.f (HTH_DIE.STATE ch die) != 1 || (d.modWindow (moduleOf ch) != 0 && y.why != whySave)
      let d := d.setDie k (fun y => { y with busy := if waits then none else y.busy.map (fun b => (b.1, d.clk)) })
      let held (m : Migration) : Migration :=
        { m with prog := 0, paused := if d.modWindow (moduleOf ch) = 0 then m.paused else some (m.paused.getD d.clk) }
      let d := if waits ∧ y.why = whyMig then d.setMig y.ref held else d
      (d.pumpDies).pump

/-- ERASE_COMPLETE (R350): the block is erased and the die is free. -/
def execEraseComplete (t ch die : Nat) (s : State) : Host.Outcome State Fault Refusal :=
  s.run t fun d =>
    let k := ch * 16 + die
    if (d.die k).busy.any (fun b => b.1 != opErase) ∨ d.f (HTH_DIE.STATE ch die) ≠ 1 then d
    else (((d.count 0x502 ch 1).setDie k (fun y => { y with busy := none })).pumpDies).pump

/-- FLASH_READ_COMPLETE (R345 to R347, R349): the next heath plot of the READ is decoded; a die that programs or erases holds its
reads back. After the last plot the READ meets the checks again that may have changed since it was issued, and is answered (R128,
R139). -/
def execFlashReadComplete (t op : Nat) (r : ReadResult) (s : State) : Host.Outcome State Fault Refusal :=
  s.run t fun d =>
    match d.op op with
    | none => d.finc HPT_DROP_CNT.TAG_STALE 1
    | some o =>
      if o.phase ≠ .issued then d
      else match look d.rgn o.rid with
      | none => (d.answer o { st := .accessDenied }).pump
      | some g =>
        let ts := d.opTouches o g o.off o.len
        let hs := d.heathTouches ts
        let done (d : Dev) : Dev := d.setOp o.id (fun y => { y with phase := .waiting, dieRead := true, appl := 0 })
        match hs[o.appl]? with
        | none => (done d).pump
        | some x =>
          let loc := (d.entry x.idx).loc
          let k := lookD d.hth.map loc 0
          if (d.die k).busy.any (fun b => b.1 != opRead) then d
          else
            let d := ((d.dropRead k o.id).countRead (k / 16) r).wantRefresh loc r.bits
            if r.uncorr then ((d.failRead o x.idx (k / 16)).pumpDies).pump
            else if o.appl + 1 < hs.length then (d.setOp o.id (fun y => { y with appl := y.appl + 1 })).pumpDies
            else ((done d).pumpDies).pump

/-- PAD_TIMER (R343): an open native block with nothing queued is finished with filler. -/
def execPadTimer (t ch die : Nat) (s : State) : Host.Outcome State Fault Refusal :=
  s.run t fun d =>
    let k := ch * 16 + die
    let queued := d.tier.migs.any (fun m => m.dstTier == .deep && m.prog == 0 && m.step == .making && lookD d.hth.map m.dstLoc 0 == k)
    if (d.die k).padFrom.any (fun p => p + d.f (HTH_SCHED.PAD_US ch) * 1000 ≤ d.clk) ∧ ¬ queued ∧ d.canProgram k then
      (d.setDie k (fun y => { y with busy := some (opNative, d.clk), why := whyFill, padFrom := none })).count 0x501 ch 1
    else d

/-- Operations whose reads a lost die held are answered as R347 answers an unreadable plot. -/
def Dev.failDieReads (d : Dev) (k : Nat) : Dev :=
  ((d.die k).reads.eraseDups).foldl (fun d id =>
    match d.op id with
    | none => d
    | some o =>
      match look d.rgn o.rid with
      | none => d
      | some g =>
        match (d.heathTouches (d.opTouches o g o.off o.len)).find? (fun x => lookD d.hth.map (d.entry x.idx).loc 0 == k) with
        | some x => d.failRead o x.idx (k / 16)
        | none => d) d

/-- DIE_UNRESPONSIVE (R168, R342): retired at once, its plots poisoned; migrations to it are cancelled, and an evacuation among them
is asked for again at once. -/
def execDieUnresponsive (t ch die : Nat) (s : State) : Host.Outcome State Fault Refusal :=
  s.run t fun d =>
    let k := ch * 16 + die
    if d.f (HTH_DIE.STATE ch die) ≠ 1 then d
    else
      let lost := (d.tier.home.filter (fun e => (e.2.tier == .fast || e.2.tier == .deep) && lookD d.hth.map e.2.loc 0 == k)).map (·.1)
      let d := d.failDieReads k
      let d := lost.foldl Dev.poison d
      let onDie := d.tier.migs.filter (fun m => m.dstTier != .meadow && lookD d.hth.map m.dstLoc 0 == k)
      let d := onDie.foldl (fun d m => d.cancelMig m.idx) d
      let d := (d.dropDie k).setDie k (fun y => { y with busy := none, reads := [], padFrom := none, openIdx := [], lastTwo := [] })
      let d := (onDie.filter (fun m => m.kind == .evacuation)).foldl (fun d m => d.evacuate m.idx) d
      (d.pumpDies).pump

/-! ### Modules -/

/-- A module meets the limits of Table 10.1, of one geometry, at the edge die's rate (R335 to R337, R357). -/
def Dev.modFits (d : Dev) (m : Nat) (r : ModuleResult) : Bool :=
  r.pass && decide (1 ≤ r.dies) && decide (r.dies ≤ 16) && (r.cell == 1 || r.cell == 2)
    && decide (d.f (HTH_EDGE_CFG.RATE (m / 10)) ≤ r.maxRate)

/-- The heath plots a module offers: logical index, tier, and the die each lies on where the heath map names none yet (R147,
R339). Plots beyond what the heath map covers are not used (R529). -/
def Dev.layModule (d : Dev) (m : Nat) (r : ModuleResult) : Dev :=
  let loc (j : Nat) : Nat := m / 5 * 2 ^ 34 + m * 2 ^ 29 + j
  let key (j : Nat) : Nat := (8 * m + j % 8) * 16 + j / 8 % max 1 r.dies
  let others := (d.hth.native.filter (fun x => x.1 != m)).map (·.2)
  let room := if d.mdw.stripe.isEmpty then r.fastPlots + r.deepPlots else d.mdw.heathMap - others.foldl (· + ·) 0
  let n := min (r.fastPlots + r.deepPlots) room
  let homes := (d.tier.home.filter (fun e => e.2.tier == .fast || e.2.tier == .deep)).map (fun e => e.2.loc)
  let map := (List.range n).foldl (fun mp j => if (look mp (loc j)).isSome then mp else put mp (loc j) (key j)) d.hth.map
  let free := ((List.range n).filter (fun j => !homes.contains (loc j) && !d.tier.heathFree.any (fun x => x.2 == loc j))).map
    (fun j => (if j < r.fastPlots then Tier.code .fast else Tier.code .deep, loc j))
  { d with
    hth := { d.hth with map := map, native := put d.hth.native m r.nativePlots }
    tier := { d.tier with heathFree := d.tier.heathFree ++ free } }

/-- The registers of a module that joined: channels, dies, geometry, capacity (R336, R337). -/
def Dev.noteModule (d : Dev) (m : Nat) (r : ModuleResult) : Dev :=
  let d := (List.range 8).foldl (fun d i =>
    let ch := 8 * m + i
    let d := (d.fset (HTH_STAT.DIES ch) r.dies).fset (HTH_STAT.STATE ch) 2
    (List.range r.dies).foldl (fun d k =>
      ((d.fset (HTH_DIE.STATE ch k) 1).fset (HTH_DIE.CELL ch k) r.cell).fset (HTH_DIE.SPARE ch k) r.spare) d) d
  let d := ((d.fset (HTH_MOD_STAT.CAP_GIB m) r.capGib).fset (HTH_MOD_STAT.PLANES m) (bit r.planes4)).fset (HTH_MOD_STAT.PROTO m)
    (bit r.toggle)
  let x : Module :=
    { fwCopies := fwModules.contains m, evacImg := false, noDieTemp := !r.dieTemp, ptype := bit r.toggle,
      maxRate := r.maxRate }
  { d with hth := { d.hth with mods := put d.hth.mods m x } }

/-- MODULE_INIT_DONE (R336, R337, R351, R357). -/
def execModuleInitDone (t mod : Nat) (r : ModuleResult) (s : State) : Host.Outcome State Fault Refusal :=
  s.run t fun d =>
    if d.f (HTH_MOD_STAT.STATE mod) ≠ modInit ∨ 20 ≤ mod then d
    else if ¬ r.found then d.toMod mod modAbsent
    else if ¬ d.modFits mod r then
      ((List.range 8).foldl (fun d i => d.fset (HTH_STAT.STATE (8 * mod + i)) 3) d).toMod mod modFailed
    else ((((d.noteModule mod r).countDies mod).layModule mod r).toMod mod modOnline).pumpDies

/-- The temperature a module is judged by: its dies', or that of the thermistor `THERM` names (R352). -/
def Dev.modTemp (d : Dev) (m : Nat) (dies : Option Int) : Option Int :=
  match dies with
  | some x => some x
  | none =>
    let k := d.f (HTH_MOD_CFG.THERM m)
    if k < 16 ∧ ¬ d.on (THM_THERM.OOR k) then some (signed8 (d.f (THM_THERM.TEMP k))) else none

/-- MODULE_TEMP_POLL (R352, R353). -/
def execModuleTempPoll (t mod : Nat) (temp : Option Int) (s : State) : Host.Outcome State Fault Refusal :=
  s.run t fun d =>
    let st := d.f (HTH_MOD_STAT.STATE mod)
    if 20 ≤ mod ∨ ¬ (st = modOnline ∨ st = modDraining ∨ st = modEmpty) then d
    else match d.modTemp mod temp with
    | none => d
    | some x =>
      let d := d.fset (HTH_MOD_STAT.TEMP mod) ((x % 256).toNat)
      let lo := signed8 (d.f (HTH_MOD_CFG.WIN_LO mod))
      let hi := signed8 (d.f (HTH_MOD_CFG.WIN_HI mod))
      (d.toWindow mod (windowOf lo hi x (d.modWindow mod))).pump

/-- MODULE_EVACUATION_DONE (R356): no plot is homed on the module and none moves there, its images have been written again on other
modules, and so are its seal records. -/
def execModuleEvacuationDone (t mod : Nat) (s : State) : Host.Outcome State Fault Refusal :=
  s.run t fun d =>
    if d.f (HTH_MOD_STAT.STATE mod) = modDraining ∧ d.f (DUR_MOD.DUTY mod) = 0 ∧ (d.plotsOnModule mod).isEmpty ∧
        ¬ d.tier.migs.any (fun m => m.dstTier != .meadow && d.modOfHeath m.dstLoc == mod) ∧
        ¬ d.dur.images.any (fun x => x.mod == mod) then
      let moved (x : SealRec) : SealRec :=
        let other := (d.imageMods.find? (fun m => m != mod && !x.mods.contains m)).getD mod
        { x with mods := x.mods.map (fun m => if m = mod then other else m) }
      let d := { d with
        hth := { d.hth with mods := change d.hth.mods mod {} (fun x => { x with evacImg := true }) }
        dur := { d.dur with seals := d.dur.seals.map moved }
        tier := { d.tier with heathFree := d.tier.heathFree.filter (fun x => d.modOfHeath x.2 != mod) } }
      d.toMod mod modEmpty
    else d

end Sys2Proof.Machine
end

