-- ==== Sys2Proof/Machine/Mdw.lean ====
section
/-! DEFINITION. DRAM channels: training, calibration, refresh, errors, freeze, thaw, patterns, checker tests, evacuation
(R296 to R333), and the READ request, which may meet a corrected error. -/

namespace Sys2Proof.Machine

/-- RDMA_READ_REQUEST (R116): a line it reads may have been corrected (R314). -/
def execRdmaReadRequest (t : Nat) (q : Req) (ce : Option LineErr) (s : State) : Host.Outcome State Fault Refusal :=
  s.run t fun d =>
    let d := match ce with
      | some e => d.corrected e
      | none => d
    d.request q { kind := .read }

/-- What a channel's training found, in its registers (R296, R298). -/
def Dev.noteTraining (d : Dev) (ch : Nat) (r : TrainResult) : Dev :=
  let d := ((d.fset (MDW_STAT.CAP_GIB ch) r.capGib).fset (MDW_STAT.DPC ch) r.dpc).fset (MDW_STAT.TYPE ch) r.type
  let d := (d.fset (MDW_CFG.RATE ch) r.rate).fset (MDW_STAT.SR ch) 0
  d.setChan ch (fun c => { c with ranks := r.ranks, colBits := r.colBits, serials := r.serials, trained := true })

/-- CHANNEL_TRAINING_DONE (R296, R299, R305 to R307, R331): Online, Failed, or Absent where no module was found. A channel
that comes back returns its set's plots and has the system stripe laid over it. -/
def execChannelTrainingDone (t ch : Nat) (r : TrainResult) (s : State) : Host.Outcome State Fault Refusal :=
  s.run t fun d =>
    if d.chanState ch ≠ chTraining ∨ 24 ≤ ch then d
    else if ¬ r.found then (d.fset (MDW_STAT.TRAIN ch) 0).toChanEvent ch chAbsent
    else
      let d := d.noteTraining ch r
      if r.type = 3 ∨ ¬ r.pass ∨ ¬ d.fitsSet ch r then (d.fset (MDW_STAT.TRAIN ch) 4).toChanEvent ch chFailed
      else
        let d := (d.loadRemap ch r.serials).fset (MDW_STAT.TRAIN ch) (if r.stored then 3 else 2)
        let d := (d.toChanEvent ch chOnline).returnPlots (d.f (MDW_CFG.SET ch))
        let late := d.core.transport && !d.mdw.stripe.contains ch && d.mdw.relay.isNone
        (if late then { d with mdw := { d.mdw with relay := some ch } } else d).pump

/-- ZQ_CALIBRATION_TIMER (R308). -/
def execZqCalibrationTimer (t ch : Nat) (s : State) : Host.Outcome State Fault Refusal :=
  s.run t fun d =>
    if d.chanState ch = chOnline ∧ (d.chan ch).zqAt + 128000000 ≤ d.clk then d.setChan ch (fun c => { c with zqAt := d.clk })
    else d

/-- DQS_TRACKING_TIMER (R308). -/
def execDqsTrackingTimer (t ch : Nat) (s : State) : Host.Outcome State Fault Refusal :=
  s.run t fun d =>
    if d.chanState ch = chOnline ∧ (d.chan ch).dqsAt + 16000000 ≤ d.clk then d.setChan ch (fun c => { c with dqsAt := d.clk })
    else d

/-- DIMM_TEMP_POLL (R310, R459). -/
def execDimmTempPoll (t ch temp : Nat) (s : State) : Host.Outcome State Fault Refusal :=
  s.run t fun d =>
    if d.chanState ch = chAbsent ∨ d.chanState ch = chOff then d
    else
      (d.fset (MDW_STAT.DIMM_TEMP ch) temp).setChan ch (fun c =>
        { c with trefi := if temp ≤ 85 then 3900 else 1950, limited := decide (d.f THM_DIMM.DIMM_THR ≤ temp) })

/-- REFRESH_DUE (R312): issued ahead of requests; self-refresh covers one that falls due during a freeze. -/
def execRefreshDue (t ch : Nat) (s : State) : Host.Outcome State Fault Refusal :=
  s.run t fun d =>
    if d.chanState ch = chOnline ∨ d.chanState ch = chDraining ∨ d.chanState ch = chEmpty then
      (d.count 0x404 ch 1).setChan ch (fun c => { c with refs := c.refs + 1 })
    else d

/-- RFM_COUNT (R311): one more refresh management command; none are added with `RFM_TH` = 0. -/
def execRfmCount (t ch _bank : Nat) (s : State) : Host.Outcome State Fault Refusal :=
  s.run t fun d =>
    if d.f (MDW_REF.RFM_TH ch) ≠ 0 ∧ (d.chanState ch = chOnline ∨ d.chanState ch = chDraining) then
      d.setChan ch (fun c => { c with rfms := c.rfms + 1 })
    else d

/-- CHANNEL_FREEZE (R320 to R322, R329): `home` is the home-table line that failed. A channel that drains does not freeze
again: its plot becomes poisoned. -/
def execChannelFreeze (t : Nat) (e : LineErr) (scrub : Bool) (home : Option Nat) (s : State) :
    Host.Outcome State Fault Refusal :=
  s.run t fun d =>
    if d.chanState e.ch = chOnline then
      let d := (d.captureUe e).setChan e.ch (fun c => { c with ueLine := e.line, ueHome := home })
      d.freeze e.ch (if home.isSome then 3 else if scrub then 2 else 1)
    else if d.chanState e.ch = chDraining then
      match home with
      | some l => (d.rebuildLine l).pump
      | none =>
        match (d.meadowOf e.ch (e.line * 64)).bind (fun a => d.idxOfPlot (a / plotBytes)) with
        | some i => (d.poison i).pump
        | none => d
    else d

/-- `FREEZE` of a channel is written (R321): an illegal sequence unless the channel is Online. -/
def Dev.writeFreeze (d : Dev) (ch : Nat) : Dev :=
  if d.chanState ch ≠ chOnline then d.illegal 8 ((MDW_FRZ.FREEZE ch).off / 4)
  else (d.setChan ch (fun c => { c with ueHome := none })).freeze ch 4

/-- FREEZE. -/
def execFreeze (t ch : Nat) (s : State) : Host.Outcome State Fault Refusal := s.run t fun d => d.writeFreeze ch

/-- A channel is thawed (R324): an illegal sequence unless it is Frozen, and while a thaw runs; the illegal kind, if so. -/
def Dev.thaw (d : Dev) (ch : Nat) : Dev × Nat :=
  if d.chanState ch ≠ chFrozen then (d, 8)
  else if d.on (MDW_FRZ.THAW_BUSY ch) then (d, 7)
  else ((d.fset (MDW_FRZ.THAW_BUSY ch) 1).fset (MDW_STAT.SR ch) 0, 0)

/-- `THAW` of a channel is written. -/
def Dev.writeThaw (d : Dev) (ch : Nat) (inst : Nat := 0) : Dev :=
  if (d.thaw ch).2 = 0 then (d.thaw ch).1 else d.illegal (d.thaw ch).2 ((MDW_FRZ.THAW ch).off / 4) inst

/-- THAW (R324). -/
def execThaw (t ch : Nat) (s : State) : Host.Outcome State Fault Refusal := s.run t fun d => d.writeThaw ch

/-- The plot of a line that fails every re-read is set poisoned, or the home-table line is rebuilt (R324). -/
def Dev.thawLost (d : Dev) (ch : Nat) : Dev :=
  if d.f (MDW_FRZ.CAUSE ch) = 4 then d
  else match (d.chan ch).ueHome with
  | some l => d.rebuildLine l
  | none =>
    match (d.meadowOf ch ((d.chan ch).ueLine * 64)).bind (fun a => d.idxOfPlot (a / plotBytes)) with
    | some i => d.poison i
    | none => d

/-- THAW_COMPLETE (R324). -/
def execThawComplete (t ch : Nat) (pass : Bool) (s : State) : Host.Outcome State Fault Refusal :=
  s.run t fun d =>
    if d.chanState ch ≠ chFrozen ∨ ¬ d.on (MDW_FRZ.THAW_BUSY ch) then d
    else
      let d := if pass then d else d.thawLost ch
      let d := ((d.toChan ch chOnline).fset (MDW_FRZ.THAW_BUSY ch) 0).raise (chanSource ch 3) 2 0 ch 0
      d.endFreeze ch

/-- `CLEAR` of a channel's error counts is written (R315, R323): an illegal sequence while the channel is Frozen. -/
def Dev.writeCeClear (d : Dev) (ch : Nat) : Dev :=
  if d.chanState ch = chFrozen then d.illegal 8 ((MDW_CE.CLEAR ch).off / 4) else d.clearCe ch

/-- CE_CLEAR. -/
def execCeClear (t ch : Nat) (s : State) : Host.Outcome State Fault Refusal := s.run t fun d => d.writeCeClear ch

/-- A log entry's `VALID` is written with 1 (R315, R323). -/
def Dev.writeCeLog (d : Dev) (ch k : Nat) : Dev :=
  if d.chanState ch = chFrozen then d.illegal 8 ((MDW_CELOG.VALID ch k).off / 4) else d.fset (MDW_CELOG.VALID ch k) 0

/-- CE_LOG_ENTRY_CLEAR. -/
def execCeLogEntryClear (t ch k : Nat) (s : State) : Host.Outcome State Fault Refusal := s.run t fun d => d.writeCeLog ch k

/-- `GO` of the pattern generator is written (R306): an illegal sequence unless the channel trains or is Empty, and while the
generator runs; the illegal kind, if so. -/
def Dev.patternBar (d : Dev) (ch : Nat) : Nat :=
  if ¬ (d.chanState ch = chTraining ∨ d.chanState ch = chEmpty) then 8
  else if d.on (MDW_PAT.BUSY ch) then 7 else 0

/-- PATTERN_GO. -/
def execPatternGo (t ch : Nat) (s : State) : Host.Outcome State Fault Refusal :=
  s.run t fun d =>
    if d.patternBar ch = 0 then d.fset (MDW_PAT.BUSY ch) 1 else d.illegal (d.patternBar ch) ((MDW_PAT.GO ch).off / 4)

/-- PATTERN_DONE (R306): a comparison leaves what miscompared. -/
def execPatternDone (t ch lines dq : Nat) (s : State) : Host.Outcome State Fault Refusal :=
  s.run t fun d =>
    if ¬ d.on (MDW_PAT.BUSY ch) then d
    else
      let d := d.fset (MDW_PAT.BUSY ch) 0
      if d.f (MDW_PAT.OP ch) = 0 then d
      else (d.fset (MDW_CMP.FAIL_LINES ch) (min lines (2 ^ 24 - 1))).fset (MDW_CMP.DQ_FAIL ch) dq

/-- The raw line in the checker's registers: eight data words and the check bits above them. -/
def Dev.rawLine (d : Dev) (ch : Nat) : Nat :=
  ((List.range 8).map (fun i => d.f (MDW_CHK_DATA.DATA ch i) * 2 ^ (64 * i))).foldl (· + ·) 0
    + d.f (MDW_CHK_ECC.ECC ch) * 2 ^ 512

/-- A raw access of checker test mode (R333): a raw write stores the line unchanged; a raw read returns it, with the decoder's verdict. A line no raw
write has stored holds free values. -/
def Dev.checkerGo (d : Dev) (ch verdict devmask : Nat) : Dev :=
  if ¬ d.on (MDW_CHK.EN ch) ∨ d.chanState ch ≠ chEmpty then d
  else
    let line := d.f (MDW_CHK.LINE ch)
    if d.f (MDW_CHK.OP ch) = 0 then
      d.setChan ch (fun c => { c with raw := put c.raw line (BitVec.ofNat 640 (d.rawLine ch)) })
    else
      let known := look (d.chan ch).raw line
      let v := match known with
        | some x => x.toNat
        | none => ((List.range 10).map (fun i => (Config.freeValue (d.free + i)).toNat * 2 ^ (64 * i))).foldl (· + ·) 0
      let d := if known.isSome then d else { d with free := d.free + 10 }
      let d := (List.range 8).foldl (fun d i => d.fset (MDW_CHK_DATA.DATA ch i) (v / 2 ^ (64 * i) % 2 ^ 64)) d
      ((d.fset (MDW_CHK_ECC.ECC ch) (v / 2 ^ 512)).fset (MDW_CHK_RES.RESULT ch) verdict).fset (MDW_CHK_RES.DEVMASK ch) devmask

/-- CHECKER_GO. -/
def execCheckerGo (t ch verdict devmask : Nat) (s : State) : Host.Outcome State Fault Refusal :=
  s.run t fun d => d.checkerGo ch verdict devmask

/-- CHANNEL_EVACUATION_DONE (R330): the stripe re-lay begins. -/
def execChannelEvacuationDone (t ch : Nat) (s : State) : Host.Outcome State Fault Refusal :=
  s.run t fun d =>
    if d.chanDrained ch ∧ d.mdw.relay.isNone then { d with mdw := { d.mdw with relay := some ch } } else d

/-- STRIPE_RELAY_DONE (R330, R331): the stripe lies over the Online channels, and a drained channel enters Empty. -/
def execStripeRelayDone (t : Nat) (s : State) : Host.Outcome State Fault Refusal :=
  s.run t fun d =>
    match d.mdw.relay with
    | none => d
    | some ch =>
      let d := { d with mdw := { d.mdw with relay := none, stripe := d.stripeNow } }
      if d.chanState ch = chDraining then d.toChanEvent ch chEmpty else d

end Sys2Proof.Machine
end

