-- ==== Sys2Proof/Machine/PwrHk.lean ====
section
/-! DEFINITION. The housekeeping round (R208, R217, R441 to R443, R454 to R458, R475): thermistors, hold-up voltage, main input,
rails, on-die sensors, thermal stages. -/

namespace Sys2Proof.Machine

/-- A temperature as a two's-complement byte. -/
def tempByte (c : Int) : Nat := (c % 256).toNat

/-! ### Thermistors (R456) -/

/-- For each °C from -71 to 127, the highest code whose temperature rounds to at least it, by the β model: 10 kΩ at 25 °C,
β = 3435 K, under 10 kΩ from full scale. -/
def thermCodes : List Nat :=
  [4079, 4078, 4076, 4074, 4073, 4071, 4069, 4066, 4064, 4062, 4059, 4056, 4053, 4050, 4046, 4042, 4039, 4034, 4030, 4025] ++
  [4020, 4015, 4009, 4003, 3997, 3990, 3983, 3976, 3968, 3960, 3951, 3942, 3932, 3922, 3911, 3900, 3888, 3876, 3863, 3850] ++
  [3836, 3821, 3806, 3790, 3774, 3757, 3739, 3720, 3701, 3681, 3660, 3639, 3616, 3593, 3570, 3545, 3520, 3494, 3467, 3440] ++
  [3412, 3383, 3353, 3323, 3291, 3260, 3227, 3194, 3160, 3126, 3091, 3055, 3019, 2982, 2945, 2908, 2870, 2831, 2792, 2753] ++
  [2714, 2674, 2634, 2594, 2553, 2513, 2472, 2431, 2390, 2350, 2309, 2268, 2228, 2187, 2147, 2107, 2067, 2028, 1988, 1949] ++
  [1911, 1873, 1835, 1797, 1760, 1723, 1687, 1651, 1616, 1581, 1547, 1513, 1480, 1447, 1415, 1383, 1352, 1321, 1291, 1262] ++
  [1233, 1205, 1177, 1150, 1123, 1097, 1071, 1046, 1022, 998, 974, 951, 929, 907, 886, 865, 844, 824, 805, 786] ++
  [767, 749, 731, 714, 697, 681, 665, 649, 634, 619, 604, 590, 577, 563, 550, 537, 525, 513, 501, 489] ++
  [478, 467, 456, 446, 436, 426, 416, 407, 398, 389, 380, 372, 363, 355, 347, 340, 332, 325, 318, 311] ++
  [304, 298, 291, 285, 279, 273, 267, 262, 256, 251, 246, 240, 235, 231, 226, 221, 217, 212, 208]

/-- Temperature of a thermistor code in °C, saturating at 127. -/
def thermTemp (code : Nat) : Int := ((thermCodes.filter (fun c => decide (code ≤ c))).length : Int) - 72

/-- A code is out of range. -/
def outOfRange (code : Nat) : Bool := decide (code ≤ 0x00F) || decide (0xFF0 ≤ code)

/-- A thermistor input that reads: out of range at once, and back after three rounds in range; its temperature; `HI` crossed. -/
def Dev.readTherm (d : Dev) (x : Nat × Nat) : Dev :=
  let k := x.1
  let was := d.on (THM_THERM.OOR k)
  if outOfRange x.2 then
    let d := { d with pwr := { d.pwr with oorCnt := put d.pwr.oorCnt k 0 } }
    if was then d else ((d.fset (THM_THERM.OOR k) 1).fset (PWR_HK.OOR k) 1).raise (source 2 3) 2 0 k x.2
  else
    let n := lookD d.pwr.oorCnt k 0 + 1
    let d := if ¬ was then d
      else if n < 3 then { d with pwr := { d.pwr with oorCnt := put d.pwr.oorCnt k n } }
      else
        let d := (d.fset (THM_THERM.OOR k) 0).fset (PWR_HK.OOR k) 0
        { d with pwr := { d.pwr with oorCnt := del d.pwr.oorCnt k } }
    if d.on (THM_THERM.CURVE k) then d.fset (THM_THERM.TEMP k) 0
    else
      let hi := signed8 (d.f (THM_THERM.HI k))
      let now := thermTemp x.2
      let old := signed8 (d.f (THM_THERM.TEMP k))
      let d := d.fset (THM_THERM.TEMP k) (tempByte now)
      if hi < now ∧ old ≤ hi ∧ ¬ d.on (THM_THERM.OOR k) then d.raise (source 2 4) 2 0 k (tempByte now) else d

/-- Codes of the round in their registers (R441). -/
def Dev.noteCode (d : Dev) (x : Nat × Nat) : Dev :=
  (d.fset (PWR_HK.CODE x.1) x.2).fset (PWR_HK.ROUND x.1) d.pwr.round.toNat

/-! ### Hold-up voltage and main input (R208, R217, R475) -/

/-- The hold-up voltage: two rounds below `VMIN` make the device work in write-through, and fail the self-test if it runs. -/
def Dev.readHoldup (d : Dev) (code : Nat) : Dev :=
  let low := if code < d.f AGE_HOLDUP.VMIN then min 2 (d.pwr.holdLow + 1) else 0
  let onset := low == 2 && d.pwr.holdLow != 2
  let test := decide (0 < d.pwr.holdTest)
  let bad := d.pwr.holdBad || (test && low == 2)
  let fail := if test && (bad || d.pwr.holdTest == 1) then bad else d.dur.holdFail
  let d := { d with
    pwr := { d.pwr with holdLow := low, holdTest := d.pwr.holdTest - 1, holdBad := bad }, dur := { d.dur with holdFail := fail } }
  (if onset then d.raise (source 1 3) 2 0 0xFFFF code else d).rebudget

/-- The main input rail, judged below its minimum: as ACTION 10b (R208, R443). -/
def Dev.readMain (d : Dev) (code : Nat) : Dev :=
  if Config.mainMin.toNat ≤ code ∨ ¬ d.core.powerGood then d
  else
    let d := ({ d with core := { d.core with powerGood := false } }).raise (source 1 0) 5 0 0xFFFF code
    d.saveOrStop 0

/-- Rails with a sense input that are on and past their settling (R442). -/
def Dev.readRail (d : Dev) (codes : List Nat) (n : Nat) : Dev :=
  let s := d.f (PWR_RAIL.SENSE n)
  let v := codes.getD (18 + s) 0
  let settled := (look d.pwr.onAt n).any (fun x => decide (x + d.f PWR_SEQ_CFG.SETTLE * 50000 ≤ d.clk))
  if d.on (PWR_RAIL.EN n) ∧ s < 46 ∧ settled ∧ (v < d.f (PWR_RAIL.MIN n) ∨ d.f (PWR_RAIL.MAX n) < v) then d.railFault n else d

/-! ### On-die sensors (R454, R455) -/

/-- A sensor's neighbours: the nearest not suspect in each direction of the ring. -/
def Dev.neighboursOf (d : Dev) (i : Nat) : List Nat :=
  let free (j : Nat) : Bool := !d.on (THM_SENS.SUSPECT j)
  let up := (((List.range 31).map (fun k => (i + 1 + k) % 32)).find? free).toList
  let down := (((List.range 31).map (fun k => (i + 31 - k) % 32)).find? free).toList
  up ++ down

/-- Whether a sensor's mark changes in this round. -/
def Dev.markChanges (d : Dev) (temps : List Int) (i : Nat) : Dev × Bool :=
  let v := temps.getD i 0
  let near (j : Nat) : Bool := decide ((v - temps.getD j 0).natAbs ≤ 12)
  let ns := d.neighboursOf i
  if d.on (THM_SENS.SUSPECT i) then
    let n := if ns.any near then lookD d.pwr.clrCnt i 0 + 1 else 0
    ({ d with pwr := { d.pwr with clrCnt := put d.pwr.clrCnt i n } }, decide (3 ≤ n))
  else
    let n := if !ns.isEmpty && !ns.any near then lookD d.pwr.suspCnt i 0 + 1 else 0
    ({ d with pwr := { d.pwr with suspCnt := put d.pwr.suspCnt i n } }, decide (3 ≤ n))

/-- One mark set or cleared. -/
def Dev.flipMark (d : Dev) (i : Nat) : Dev :=
  let on := !d.on (THM_SENS.SUSPECT i)
  let d := (d.fset (THM_SENS.SUSPECT i) (bit on)).raise (source 2 1) 2 0 i (bit on)
  { d with pwr := { d.pwr with suspCnt := put d.pwr.suspCnt i 0, clrCnt := put d.pwr.clrCnt i 0 } }

/-- The marks of the round, judged by those of the round before; and an event where more than 16 stand. -/
def Dev.judgeSensors (d : Dev) (temps : List Int) : Dev :=
  let was := d.f THM_MAX.SUSPECTS
  let (d, flips) := (List.range 32).foldl (fun (x : Dev × List Nat) i =>
    let (e, c) := x.1.markChanges temps i
    (e, if c then x.2 ++ [i] else x.2)) (d, [])
  let d := flips.foldl Dev.flipMark d
  let n := ((List.range 32).filter (fun i => d.on (THM_SENS.SUSPECT i))).length
  let d := d.fset THM_MAX.SUSPECTS n
  if 16 < n ∧ was ≤ 16 then d.raise (source 2 2) 5 0 0xFFFF n else d

/-- Sensors that count: those not suspect, or all where more than 16 are. -/
def Dev.soundSensors (d : Dev) : List Nat :=
  if 16 < d.f THM_MAX.SUSPECTS then List.range 32 else (List.range 32).filter (fun i => !d.on (THM_SENS.SUSPECT i))

/-! ### Thermal stages (R457, R458) -/

/-- Threshold of a stage. -/
def Dev.stageThr (d : Dev) (k : Nat) : Int :=
  signed8 (d.f (if k = 1 then THM_THR.T1 else if k = 2 then THM_THR.T2 else if k = 3 then THM_THR.T3 else THM_THR.TRIP))

/-- The stage as `TMAX` now gives it: entered at its threshold, left `HYST` below it; Trip after two rounds. -/
def Dev.thermStage (d : Dev) (tmax : Int) : Nat :=
  let cur := d.f THM_MAX.STAGE
  let holds (k : Nat) : Bool := decide (d.stageThr k ≤ tmax) || (decide (k ≤ cur) && decide (d.stageThr k - (d.f THM_THR.HYST : Int) < tmax))
  let top := ([1, 2, 3].filter holds).foldl max 0
  if 2 ≤ d.pwr.tripCnt ∨ (cur = 4 ∧ holds 4) then 4 else top

/-- A trip: a save, and the board's off sequence after it (R458). -/
def Dev.trip (d : Dev) : Dev :=
  let d := { d with pwr := { d.pwr with needUp := true } }
  if d.coreOn then d.saveOrStop 2
  else if d.pwr.boardOn then d.boardDown [] else d

/-- Temperatures of the round: `TMAX`, the alarm, the stage. An alarm of the same round as a trip wins (Table 15.9). -/
def Dev.judgeHeat (d : Dev) (temps : List Int) : Dev :=
  let sound := d.soundSensors
  let tmax := (sound.map (fun i => temps.getD i 0)).foldl max (-128)
  let idx := (sound.find? (fun i => temps.getD i 0 == tmax)).getD 0
  let d := (d.fset THM_MAX.TMAX (tempByte tmax)).fset THM_MAX.INDEX idx
  let hot := sound.any (fun i => decide (115 < temps.getD i 0) || decide (temps.getD i 0 < -25))
  let d := if hot ∧ ¬ d.cph.alarmed then d.alarm alarmTemp else d
  let d := { d with pwr := { d.pwr with tripCnt := if d.stageThr 4 ≤ tmax then d.pwr.tripCnt + 1 else 0 } }
  let was := d.f THM_MAX.STAGE
  let st := d.thermStage tmax
  let d := if st = was then d else (d.fset THM_MAX.STAGE st).raise (source 2 0) 2 0 idx st
  if st = 4 ∧ was ≠ 4 then d.trip else d

/-- A round that brings no codes: the converter is absent. The margin plan stays as it was last applied, and an event tells so at the
onset (R32, Table 1.8, log entry 89). -/
def Dev.hkAbsent (d : Dev) : Dev :=
  if d.pwr.hkGone then d else ({ d with pwr := { d.pwr with hkGone := true } }).raise (source 3 0) 4 1 0xFFFF 0

/-- One round. -/
def Dev.hkRound (d : Dev) (codes : List Nat) (temps : List Int) : Dev :=
  let d := { d with pwr := { d.pwr with hkGone := false, round := d.pwr.round + 1, temps := (List.range 32).map (fun i => (i, temps.getD i 0)) } }
  let at_ (k : Nat) : Nat × Nat := (k, codes.getD k 0 % 4096)
  let d := ((List.range 64).map at_).foldl Dev.noteCode d
  let d := ((List.range 16).map at_).foldl Dev.readTherm d
  let d := (List.range 32).foldl (fun (d : Dev) i => d.fset (THM_SENS.TEMP i) (tempByte (temps.getD i 0))) d
  let d := ((d.judgeSensors temps).judgeHeat temps).readHoldup (codes.getD 16 0 % 4096)
  let d := d.readMain (codes.getD 17 0 % 4096)
  ((List.range 48).foldl (fun (d : Dev) n => d.readRail (codes.map (· % 4096)) n) d).bankGoesOn

end Sys2Proof.Machine
end

