-- ==== Sys2Proof/Machine/Pwr.lean ====
section
/-! DEFINITION. Commands of power, rails, thermal control and attention buttons (spec/15_power_thermal.md, R332, R511, R512). -/

namespace Sys2Proof.Machine

/-! ### Power operations -/

/-- An operation asked for through `PWR_CTL`, or of the supervisor itself while the core does not serve (R453): illegal while
one runs. -/
def Dev.ctlPower (d : Dev) (op bay : Nat) : Dev :=
  if ¬ d.serves then d.powerReq { op := op, bay := bay, who := 0 }
  else if d.on PWR_CTL.BUSY then d.illegal 7 (PWR_CTL.GO.off / 4)
  else
    let d := ((d.fset PWR_CTL.OP op).fset PWR_CTL.BAY bay).fset PWR_CTL.BUSY 1
    d.powerReq { op := op, bay := bay, who := 1 }

/-- BOARD_ON (R439, R440, R445). -/
def execBoardOn (t : Nat) (s : State) : Host.Outcome State Fault Refusal := s.run t fun d => d.ctlPower 1 boardBay

/-- BOARD_OFF (R444, R453). -/
def execBoardOff (t : Nat) (s : State) : Host.Outcome State Fault Refusal := s.run t fun d => d.ctlPower 2 boardBay

/-- ENTER_BANKED (R451). -/
def execEnterBanked (t : Nat) (s : State) : Host.Outcome State Fault Refusal := s.run t fun d => d.ctlPower 3 boardBay

/-- LEAVE_BANKED (R452). -/
def execLeaveBanked (t : Nat) (s : State) : Host.Outcome State Fault Refusal := s.run t fun d => d.ctlPower 4 boardBay

/-- BAY_ON (R439, R440). -/
def execBayOn (t bay : Nat) (s : State) : Host.Outcome State Fault Refusal := s.run t fun d => d.ctlPower 5 bay

/-- BAY_OFF (R332, R354, R440). -/
def execBayOff (t bay : Nat) (s : State) : Host.Outcome State Fault Refusal := s.run t fun d => d.ctlPower 6 bay

/-! ### The sequencer bus -/

/-- A slot boundary of the sequence that runs: it turns, it ends, or the next slot begins (R436, R439, R444). -/
def Dev.slotEdge (d : Dev) (agree : Bool) : Dev :=
  match d.pwr.seq with
  | none => d.nextSeq
  | some q =>
    if d.clk < d.pwr.slotAt + q.slot * 50000 then d
    else if q.turn.any (fun b => decide (b ≤ q.slot)) then d.turnSeq q
    else if d.haltSlot q ≤ q.slot ∧ q.turn.isNone then d.endSeq q agree
    else
      let d := (d.send (.seqSync 1)).beginSlot q q.slot
      { d with pwr := { d.pwr with seq := some { q with slot := q.slot + 1 } } }

/-- SEQUENCE_SLOT (R436, R439, R444, R445): `agree` is the comparison with SEQ_STATE at a sequence's end. -/
def execSequenceSlot (t : Nat) (agree : Bool) (s : State) : Host.Outcome State Fault Refusal := s.run t fun d => d.slotEdge agree

/-- Bits of a PMBus STATUS_WORD that name a fault: all but OFF, BUSY and POWER_GOOD# (PRESUMED: PMBus). -/
def statusFaults : BitVec 16 := 0xF73F

/-- SEQ_ALERT (R435, R442): STATUS_WORD is read; a fault bit of an output that is on, of a rail judged by its slave, is a
fault of that rail. -/
def execSeqAlert (t slave page status : Nat) (s : State) : Host.Outcome State Fault Refusal :=
  s.run t fun d =>
    let d := (d.send (.slave slave 0x00 (leBytes 1 page))).send (.slave slave 0x79 [])
    if BitVec.ofNat 16 status &&& statusFaults = 0 then d
    else
      let d := d.send (.slave slave 0x03 [])
      let is (n : Nat) : Bool := d.on (PWR_RAIL.EN n) && d.f (PWR_RAIL.SLAVE n) == slave && d.f (PWR_RAIL.PAGE n) == page
        && d.f (PWR_RAIL.SENSE n) == 0x3F && d.fbit PWR_RAIL_STAT.ON n
      ((List.range 48).filter is).foldl Dev.railFault d

/-- HOUSEKEEPING_ROUND (R208, R217, R441, R442, R454 to R458, R475). -/
def execHousekeepingRound (t : Nat) (codes : List Nat) (temps : List Int) (s : State) : Host.Outcome State Fault Refusal :=
  s.run t fun d => if codes.length < 64 then d.hkAbsent else d.hkRound codes temps

/-! ### Throttling and idling -/

/-- Quanta of 512 bit times in `us` µs at a line rate in 100 Mb/s. -/
def quantaOf (us rate : Nat) : Nat := min (us * rate * 100 / 512) 0xFFFF

/-- PACE_TIMER (R457): in stage 3 each port that is up pauses the lossless priorities for `PACE_PCT` of 100 µs. -/
def execPaceTimer (t : Nat) (s : State) : Host.Outcome State Fault Refusal :=
  s.run t fun d =>
    if d.f THM_MAX.STAGE < 3 ∨ ¬ d.coreOn ∨ d.dur.saving then d
    else
      let pris := (List.range 8).filter (d.fbit HPT_PFC_CTL.LOSSLESS)
      (d.hpt.ports.filter (fun p => p.2.up)).foldl (fun (d : Dev) p =>
        pris.foldl (fun (d : Dev) k =>
          (d.send (.pause p.1 k (quantaOf (d.f THM_THR.PACE_PCT) p.2.lineRate))).count 0x304 p.1 1) d) d

/-- The lantern stays Lit while its link is enabled (R448). -/
def Dev.staysLit (d : Dev) (u : Nat) : Bool := (u == 12 && d.on TWN_CFG.ENABLE) || (u == 13 && d.on FAB_CFG.ENABLE)

/-- A connection is open on a port group. -/
def Dev.openOn (d : Dev) (g : Nat) : Bool := d.hpt.conns.any (fun c => c.2.state.isOpen && c.2.lantern == g)

/-- Channels of a DRAM group. -/
def groupChans (u : Nat) : List Nat := (List.range 4).map (fun k => 4 * (u - 24) + k)

/-- Nothing is queued for the unit (R448). -/
def Dev.unitIdle (d : Dev) (u : Nat) : Bool :=
  if u < 8 then !d.hpt.ops.any (fun o => d.laneOf o == u)
  else if u < 12 then !d.tier.migs.any (fun m => m.lantern == u)
  else if u < 15 then true
  else if u = 15 then d.ring.cmds.isEmpty
  else if u < 24 then !d.hpt.reqs.any (fun r => r.port / 32 == u - 16) && !d.hpt.ports.any (fun p => p.1 / 32 == u - 16 && !p.2.held.isEmpty)
  else if u < 30 then d.hpt.ops.isEmpty && d.tier.migs.isEmpty
  else !d.hth.dies.any (fun k => k.1 / 1280 == u - 30 && (k.2.busy.isSome || !k.2.reads.isEmpty))

/-- DIM_TIMER (R447 to R449): the unit has been idle for `DIM_US`; a wake of the same moment wins. -/
def execDimTimer (t unit : Nat) (s : State) : Host.Outcome State Fault Refusal :=
  s.run t fun d =>
    if ¬ d.coreOn ∨ d.dur.saving ∨ d.asleep unit ∨ d.drainingUnit unit ∨ d.pwr.waking.contains unit ∨ d.staysLit unit
      ∨ ¬ d.unitIdle unit then d
    else match dimField unit with
    | some (x, i) => d.setFbit x i true
    | none => d

/-- The unit may be Shaded (Table 15.5, R448). -/
def Dev.mayShade (d : Dev) (u : Nat) : Bool :=
  if u < 8 then !d.openOn u
  else if u < 14 then !d.staysLit u
  else if u < 16 then false
  else if u < 24 then !d.hpt.ports.any (fun p => p.1 / 32 == u - 16 && p.2.up)
  else decide (u < 32)

/-- SHADE_TIMER (R447, R448, R450): the unit stops accepting work and drains; off while `SHADE_US` is 0. -/
def execShadeTimer (t unit : Nat) (s : State) : Host.Outcome State Fault Refusal :=
  s.run t fun d =>
    if ¬ d.coreOn ∨ d.dur.saving ∨ d.f PWR_IDLE.SHADE_US = 0 ∨ d.shaded unit ∨ d.drainingUnit unit ∨ d.pwr.waking.contains unit
      ∨ ¬ d.mayShade unit ∨ ¬ d.unitIdle unit then d
    else { d with pwr := { d.pwr with draining := put d.pwr.draining unit d.clk } }

/-- Self-refresh of a DRAM group's DIMMs (Table 15.5). -/
def Dev.selfRefresh (d : Dev) (u : Nat) (on : Bool) : Dev :=
  if u < 24 ∨ 30 ≤ u then d
  else ((groupChans u).filter (fun n => d.chanState n != chAbsent && d.chanState n != chOff)).foldl (fun (d : Dev) n =>
    d.fset (MDW_STAT.SR n) (bit on)) d

/-- A transport lantern that is powered down loses its wick cache and its memory (Table 18.4). -/
def Dev.clearLantern (d : Dev) (u : Nat) : Dev :=
  { d with tier := { d.tier with
      wick := d.tier.wick.filter (fun w => w.1 / 64 != u), plru := del d.tier.plru u, walks := d.tier.walks.filter (fun w => w.lantern != u) } }

/-- POWER_DOWN_COMPLETE (R450): the unit has drained and powers off. -/
def execPowerDownComplete (t unit : Nat) (s : State) : Host.Outcome State Fault Refusal :=
  s.run t fun d =>
    if ¬ d.drainingUnit unit ∨ ¬ d.unitIdle unit then d
    else
      let d := { d with pwr := { d.pwr with draining := del d.pwr.draining unit } }
      let d := match dimField unit with | some (x, i) => d.setFbit x i false | none => d
      let d := d.setFbit (shadeField unit).1 (shadeField unit).2 true
      (if unit < 8 then d.clearLantern unit else d).selfRefresh unit true

/-- WAKE_COMPLETE (R449): the exit latency has passed, and the work that waited goes on. -/
def execWakeComplete (t unit : Nat) (s : State) : Host.Outcome State Fault Refusal :=
  s.run t fun d =>
    if ¬ d.pwr.waking.contains unit ∨ d.drainingUnit unit then d
    else
      let d := { d with pwr := { d.pwr with waking := rem d.pwr.waking unit } }
      let d := match dimField unit with | some (x, i) => d.setFbit x i false | none => d
      let d := (d.setFbit (shadeField unit).1 (shadeField unit).2 false).selfRefresh unit false
      if d.coreOn ∧ ¬ d.dur.saving then (d.pumpDies.serveReqs).pump else d

/-! ### Banked -/

/-- BANK_TIMER (R447, R451): the whole device has been idle for `BANK_S`. -/
def execBankTimer (t : Nat) (s : State) : Host.Outcome State Fault Refusal :=
  s.run t fun d =>
    if ¬ d.coreOn ∨ d.dur.saving ∨ d.f PWR_IDLE.BANK_S = 0 ∨ d.f PWR_STATE.DEVICE ≠ devLit ∨ ¬ d.hpt.ops.isEmpty
      ∨ ¬ d.ring.cmds.isEmpty ∨ ¬ d.tier.migs.isEmpty ∨ ¬ d.pwr.waitOff.isEmpty ∨ ¬ d.pwr.waking.isEmpty then d
    else d.enterBank []

/-- BANKED_IMAGE_DRAINED (R451): D is 0 and nothing is in flight; the meadow enters self-refresh. -/
def execBankedImageDrained (t : Nat) (s : State) : Host.Outcome State Fault Refusal :=
  s.run t fun d =>
    let d := d.bankGoesOn
    if d.pwr.bankStep ≠ 2 ∨ d.dirtyPages ≠ 0 ∨ ¬ d.hpt.ops.isEmpty ∨ ¬ d.ring.cmds.isEmpty ∨ d.dur.saving then d
    else (d.quietConns.foldl Dev.sendDreq d).bankDown

/-- Registers of what the hardware keeps or finds again at an exit from Banked: areas, epochs and budget, claims, channels,
modules, store, power, ageing and firmware, and the positions of the rings (R513, R514). -/
def keptInBanked (o : Nat) : Bool :=
  decide (o < 0x40) || (decide (0x700000 ≤ o) && decide (o < 0x700010)) || (decide (0x800000 ≤ o) && decide (o < 0x800500))
    || o == 0x900008 || (decide (0x1000000 ≤ o) && decide (o < 0x2A00000)) || (decide (0xC00000 ≤ o) && decide (o < 0xF01000))
    || o == 0x100030 || (decide (0x201000 ≤ o) && decide (o < 0x201400))

/-- Registers at the exit: reset values, what is kept, the standing bank, then the RW fields recorded at entry. -/
def Dev.bankedRegs (d : Dev) : Dev :=
  let kept := d.regs.filter (fun kv => keptInBanked (kv.1 / 128))
  let back (l : List (Nat × Nat)) (x : List (Nat × Nat)) : List (Nat × Nat) := x.foldl (fun l kv => put l kv.1 kv.2) l
  let e := d.resetFor [.full, .soft]
  let d := { e with regs := back e.regs kept }
  let d := ({ d with cfx := { d.cfx with shadow := d.store.bank } }).takeBank
  { d with regs := back d.regs d.store.rwBanked, cfx := {}, store := { d.store with rwBanked := [] } }

/-- BANKED_EXIT_COMPLETE (R27, R452, R514): the lanterns run, without restore; device time is invalid, and a twinned device
returns as a replica. -/
def execBankedExitComplete (t : Nat) (s : State) : Host.Outcome State Fault Refusal :=
  s.run t fun d =>
    if d.pwr.bankStep ≠ 4 ∨ ¬ d.pwr.boardOn ∨ d.pwr.seq.isSome then d
    else
      let held := d.f TWN_STAT.CLAIM == claimHeld && d.twn.snufOut
      let reqs := d.pwr.bankReqs
      let d := (d.bankedRegs).fset FAB_ID.VALID 0
      let alone := !d.on TWN_CFG.ENABLE || held
      let d := { d with
        core := { d.core with stage := 6, transport := false, phaseADone := true, rolesSettled := alone }
        cph := { d.cph with kek := true, alarmed := false, lastKat := d.clk }
        tim := { d.tim with waitFrom := max 1 d.clk }
        pwr := { d.pwr with bankStep := 0, bankReqs := [], holdTest := 16, holdBad := false } }
      let d := ((d.loadRecorder.unwrapAll).keylessOffline).standingPlan
      let d := (((d.linksNow d).rebudget).setStatus .healthy).setDevice devLit
      reqs.foldl (fun d r => d.answerPwr r pwrDone) d

/-! ### The core regulator, the last gasp -/

/-- AVS_SETPOINT_REACHED (R464, R520): the regulator reports its setpoint reached. -/
def execAvsSetpointReached (t mv : Nat) (s : State) : Host.Outcome State Fault Refusal :=
  s.run t fun d =>
    let ok := d.age.voltReq && d.age.plan.any (fun p => decide (p.voltMv ≤ mv))
    { d.fset AGE_PLAN_STAT.VCORE_MV mv with age := { d.age with
      voltOk := d.age.voltOk || ok, voltAfter := if d.age.voltAfter = some mv then none else d.age.voltAfter } }

/-- The last-gasp record: the cause, `PWR_RAIL_STAT`, D, the save's progress (R446). -/
def Dev.gaspRecord (d : Dev) (cause : Nat) : Record :=
  let on := d.f PWR_RAIL_STAT.ON
  let fl := d.f PWR_RAIL_STAT.FAULT
  let left := d.dur.dirty.length
  let r := d.mkRecord (source 1 2) 2 cause 0xFFFF 0 ([on, on / 2 ^ 32, fl, fl / 2 ^ 32, d.dirtyPages, d.dur.saveD - left,
    d.dur.saveD, bit d.dur.saving].map (BitVec.ofNat 32))
  { r with lg := true, snap := false }

/-- LAST_GASP (R29, R446): one record in the last-gasp page of the sequence EEPROM. -/
def execLastGasp (t cause : Nat) (s : State) : Host.Outcome State Fault Refusal :=
  s.run t fun d => { d with pwr := { d.pwr with lastGasp := some (d.gaspRecord cause) } }

/-! ### Attention buttons (R332, R511, R512) -/

/-- The state of a bay's channel or module is Off. -/
def Dev.bayOff (d : Dev) (bay : Nat) : Bool :=
  if bay < 24 then d.chanState bay == chOff else d.f (HTH_MOD_STAT.STATE (bay - 24)) == modOff

/-- ATTENTION_BUTTON_PRESS (R332, R511): counts only after the button was seen released; it powers a bay that is Off up, and
is an event otherwise. -/
def execAttentionButtonPress (t bay : Nat) (s : State) : Host.Outcome State Fault Refusal :=
  s.run t fun d =>
    if 44 ≤ bay ∨ ¬ d.mdw.armed.contains bay then d
    else
      let d := { d with mdw := { d.mdw with armed := rem d.mdw.armed bay, buttons := put d.mdw.buttons bay d.clk } }
      if d.bayOff bay ∧ d.coreOn then d.powerReq { op := 5, bay := bay, who := 6 }
      else d.raise (source 1 4) 2 0 bay 0

/-- BUTTON_STUCK (R512): pressed for 10 s. -/
def execButtonStuck (t bay : Nat) (s : State) : Host.Outcome State Fault Refusal :=
  s.run t fun d =>
    match look d.mdw.buttons bay with
    | none => d
    | some since =>
      if d.clk < since + 10000000000 ∨ d.mdw.stuck.contains bay then d
      else ({ d with mdw := { d.mdw with stuck := ins d.mdw.stuck bay } }).raise (source 1 4) 3 0 bay 0

/-- BUTTON_RELEASED (R511, R512): seen released for 50 ms without a break. -/
def execButtonReleased (t bay : Nat) (s : State) : Host.Outcome State Fault Refusal :=
  s.run t fun d =>
    if 44 ≤ bay then d
    else
      let stuck := d.mdw.stuck.contains bay
      let d := { d with mdw := { d.mdw with
        armed := ins d.mdw.armed bay, buttons := del d.mdw.buttons bay, stuck := rem d.mdw.stuck bay } }
      if stuck then d.raise (source 1 4) 3 0 bay 0 else d

end Sys2Proof.Machine
end

