-- ==== Sys2Proof/Machine/Rings.lean ====
section
/-! DEFINITION. The doorbell page, descriptors, and the commands that order commands: ABORT, FLUSH, WAIT_COUNT (R380 to R398). -/

namespace Sys2Proof.Machine

/-- A read of the doorbell page is issued (R382). -/
def Dev.readDoorbell (d : Dev) : Dev :=
  { d with ring := { d.ring with fetching := true } }.send (.doorbellRead (d.f RING_DB_CFG.ADDR * 4096))

/-- DOORBELL_FETCH (R383): one that falls due while another is outstanding is skipped. -/
def execDoorbellFetch (t : Nat) (s : State) : Host.Outcome State Fault Refusal :=
  s.run t fun d => if ¬ d.serves ∨ ¬ d.on RING_DB_CFG.EN ∨ d.ring.fetching then d else d.readDoorbell

/-- A kick wakes lantern 15 and starts a fetch (R384). -/
def Dev.kick (d : Dev) : Dev :=
  let d := if d.asleep 15 then d.wake 15 else d
  if d.on RING_DB_CFG.EN then d.readDoorbell else d

/-- RING_KICK (R384). -/
def execRingKick (t : Nat) (s : State) : Host.Outcome State Fault Refusal := s.run t fun d => if d.serves then d.kick else d

/-- The tail of one submission ring as the page gives it (R382, Table 12.10). -/
def Dev.takeTail (d : Dev) (n tail : Nat) : Dev :=
  if ¬ d.on (RING_SQ_CFG.EN n) then d
  else if 2 ^ d.f (RING_SQ_CFG.SIZE_LOG2 n) ≤ tail then d.illegal 1 n n
  else d.setRing n (fun r => { r with tail := tail })

/-- An index lies among the entries written and not yet read: from CQ_HEAD to CQ_TAIL round the ring. -/
def amongWritten (head tail size x : Nat) : Bool :=
  decide (x < size) && decide ((x + size - head) % size ≤ (tail + size - head) % size)

/-- The head of one completion ring as the page gives it; completions that waited are written (R386, Table 12.10). -/
def Dev.takeHead (d : Dev) (n head : Nat) : Dev :=
  if ¬ d.on (RING_CQ_CFG.EN n) then d
  else if ¬ amongWritten (d.ringAt n).cqHead (d.f (RING_STAT.CQ_TAIL n)) (d.cqSize n) head then d.illegal 2 n n
  else
    let d := d.setRing n (fun r => { r with cqHead := head })
    d.releaseHeld n ((d.ringAt n).held.length + 1)

/-- Entries of a submission ring between its head and its tail. -/
def Dev.posted (d : Dev) (n : Nat) : Nat :=
  let size := 2 ^ d.f (RING_SQ_CFG.SIZE_LOG2 n)
  ((d.ringAt n).tail + size - d.f (RING_STAT.SQ_HEAD n)) % size

/-- Fetched or requested commands that are not complete (R385). -/
def Dev.inFlight (d : Dev) : Nat :=
  (d.ring.cmds.filter (fun c => !c.sb && !c.mute)).length + (d.ring.toFetch.map (·.2)).foldl (· + ·) 0

/-- Descriptors of one ring are requested: up to 8, while fewer than 256 commands are held (R380, R385, R386, R401). -/
def Dev.fetchRing (d : Dev) (n : Nat) : Dev :=
  let k := min (min 8 (d.posted n)) (256 - d.inFlight)
  if k = 0 ∨ ¬ d.on (RING_SQ_CFG.EN n) ∨ (d.ringAt n).stopped ∨ d.cqFull (d.f (RING_SQ_CFG.CQ n)) ∨ d.ring.barrier.isSome
      ∨ d.ring.stopFetch ∨ d.ring.toFetch.any (fun x => x.1 == n) then d
  else ({ d with ring := { d.ring with toFetch := d.ring.toFetch ++ [(n, k)] } }).send
    (.descriptorRead n (d.f (RING_STAT.SQ_HEAD n)) k)

/-- The heartbeat of the page; a changed one makes the main side present (R383, R419). -/
def Dev.takeHeartbeat (d : Dev) (hb : BitVec 64) : Dev :=
  if hb = d.ring.hb then d
  else ({ d with ring := { d.ring with hb := hb, hbAt := d.clk } }).mainPresent

/-- DOORBELL_READ_COMPLETE (R380, R382 to R386). -/
def execDoorbellReadComplete (t : Nat) (ok : Bool) (tails heads : List (Nat × Nat)) (hb : BitVec 64) (s : State) :
    Host.Outcome State Fault Refusal :=
  s.run t fun d =>
    if ¬ d.ring.fetching ∨ ¬ d.coreOn then d
    else
      let d := { d with ring := { d.ring with fetching := false } }
      if ¬ ok then d.raise (source 15 1) 2 0 0 0
      else
        let d := { d with ring := { d.ring with pcieUp := true } }
        let d := tails.foldl (fun d x => if x.1 < 64 then d.takeTail x.1 (x.2 % 65536) else d) d
        let d := heads.foldl (fun d x => if x.1 < 64 then d.takeHead x.1 (x.2 % 65536) else d) d
        let d := d.takeHeartbeat hb
        ((List.range 64).foldl Dev.fetchRing d).settleWaits d.ring.cmds.length

/-- A descriptor's header is malformed: an unknown opcode or a reserved bit set (R391, Table 12.10). -/
def malformed (w : List (BitVec 64)) : Bool :=
  let h := (w.getD 0 0).toNat
  !knownOps.contains (h % 256) || decide (h / 512 % 128 ≠ 0) || decide (h / 2 ^ 32 ≠ 0)

/-- The command of a descriptor (Table 12.3). -/
def Dev.cmdOf (d : Dev) (ring : Nat) (w : List (BitVec 64)) : Cmd :=
  let h := (w.getD 0 0).toNat
  { id := d.ring.nextCmd, ring := ring, tag := h / 65536 % 65536, op := h % 256, irq := h / 256 % 2 == 1,
    result := (w.getD 1 0).toNat, body := w.drop 2, started := d.clk }

/-- Descriptors of a ring are taken in order: each is consumed; one that stands becomes a command. `FW_ACTIVATE` is a barrier
from its fetch, and nothing after it is taken (R387 to R391, R401). -/
def Dev.takeDescs (d : Dev) (n : Nat) : List (List (BitVec 64)) → Dev
  | [] => d
  | w :: rest =>
    if d.ring.barrier.isSome then d
    else
      let d := d.fset (RING_STAT.SQ_HEAD n) ((d.f (RING_STAT.SQ_HEAD n) + 1) % 2 ^ d.f (RING_SQ_CFG.SIZE_LOG2 n))
      if malformed w then (d.illegal 3 n n).takeDescs n rest
      else
        let c := d.cmdOf n w
        let d := { d with ring := { d.ring with nextCmd := d.ring.nextCmd + 1 } }
        if privOps.contains c.op ∧ ¬ d.on (RING_SQ_CFG.PRIV n) then (d.complete c csNotAuthorised).takeDescs n rest
        else
          ({ d with ring := { d.ring with
              cmds := d.ring.cmds ++ [c], barrier := if c.op = ocActivate then some c.id else none } }).takeDescs n rest

/-- DESCRIPTOR_FETCH_COMPLETE (R380, R385 to R391). -/
def execDescriptorFetchComplete (t ring : Nat) (ok : Bool) (descs : List (List (BitVec 64))) (s : State) :
    Host.Outcome State Fault Refusal :=
  s.run t fun d =>
    match look d.ring.toFetch ring with
    | none => d
    | some k =>
      let d := { d with ring := { d.ring with toFetch := del d.ring.toFetch ring } }
      if ¬ ok then (d.setRing ring (fun r => { r with stopped := true })).fset RING_GSTAT.FETCH_ERR 1
      else if d.ring.stopFetch ∨ ¬ d.on (RING_SQ_CFG.EN ring) then d
      else d.takeDescs ring (descs.take k)

/-- PCIE_LINK_DOWN (R417, R432): the main side is absent. -/
def execPcieLinkDown (t : Nat) (s : State) : Host.Outcome State Fault Refusal :=
  s.run t fun d => ({ d with ring := { d.ring with pcieUp := false, fetching := false, toFetch := [] } }).mainAbsent

/-- MAIN_SIDE_ABSENT (R432): `HB_AGE` has reached 1000 ms. -/
def execMainSideAbsent (t : Nat) (s : State) : Host.Outcome State Fault Refusal :=
  s.run t fun d => if d.clk < d.ring.hbAt + 1000000000 then d else d.mainAbsent

/-! ### Commands on commands -/

/-- The command an ABORT names: the oldest incomplete one of that ring and tag, other than itself (R398). -/
def Dev.abortTarget (d : Dev) (c : Cmd) : Option Cmd :=
  d.ring.cmds.find? (fun x => !x.sb && !x.mute && x.id != c.id && x.ring == c.byte 16 % 64 && x.tag == c.u16 18)

/-- ABORT (R398, Table 12.9): 0 caught, 1 too late, 2 not found. -/
def execAbort (t cmd : Nat) (s : State) : Host.Outcome State Fault Refusal :=
  s.run t fun d => d.startCmd cmd ocAbort (fun _ => true) fun d c =>
    match d.abortTarget c with
    | none => d.complete c csDone (if d.ring.doneTags.contains (c.byte 16 % 64 * 65536 + c.u16 18) then 1 else 2)
    | some x =>
      if ¬ x.running then
        let d := if d.ring.barrier = some x.id then { d with ring := { d.ring with barrier := none } } else d
        (d.complete x csAborted).complete c csDone 0
      else if abortOps.contains x.op then ((d.stopCmd x).complete c csDone 0).pump
      else d.complete c csDone 1

/-- A waiting command that has started completes as soon as its condition holds (R396, R397). -/
def Dev.beginWait (d : Dev) : Dev := d.settleWaits d.ring.cmds.length

/-- FLUSH on a ring (R396). -/
def execFlushCmd (t cmd : Nat) (s : State) : Host.Outcome State Fault Refusal :=
  s.run t fun d => d.startCmd cmd ocFlush (fun _ => true) fun d _ => d.beginWait

/-- WAIT_COUNT (R397). -/
def execWaitCount (t cmd : Nat) (s : State) : Host.Outcome State Fault Refusal :=
  s.run t fun d => d.startCmd cmd ocWait (fun _ => true) fun d _ => d.beginWait

/-- WAIT_COUNT_TIMEOUT (R397). -/
def execWaitCountTimeout (t cmd : Nat) (s : State) : Host.Outcome State Fault Refusal :=
  s.run t fun d =>
    match d.cmd cmd with
    | none => d
    | some c =>
      let us := c.u32 24
      if c.op ≠ ocWait ∨ ¬ c.running ∨ us = 0 ∨ d.clk < c.started + us * 1000 then d else d.complete c csRefused 11

end Sys2Proof.Machine
end

