-- ==== Sys2Proof/Machine/Tier.lean ====
section
/-! DEFINITION. Commands of the tiers (spec/05_tiering.md): heat, the free pool, the wick caches and migration. -/

namespace Sys2Proof.Machine

/-! ### Heat and placement (R158 to R163) -/

/-- HEAT of one entry halved by its update unit; no broadcast (R148, R149). -/
def Dev.halve (d : Dev) (idx : Nat) : Dev :=
  let e := d.entry idx
  if e.heat = 0 then d else d.setEntry idx { e with heat := e.heat / 2 }

/-- One marked line: each entry halved and then decided on. -/
def Dev.sweepLine (d : Dev) (line : Nat) : Dev :=
  let d := (List.range 8).foldl (fun d k => (d.halve (8 * line + k)).placePlot (8 * line + k)) d
  { d with tier := { d.tier with marked := if d.keepsMark line then d.tier.marked else rem d.tier.marked line } }

/-- The sweep records in each entry of a Sealed region that its plot is sealed; one that migrates takes the state at its commit or
cancellation (R172). -/
def Dev.sweepSeals (d : Dev) : Dev :=
  let due (h : Nat × HomeEntry) : Bool := h.2.state == .resident
    && (d.regionOf h.1).any (fun r => r.2.state == .sealed && d.lanternUp (placementLantern r.1))
  ((d.tier.home.filter due).map (·.1)).foldl (fun d i => d.setPlotState i .sealed) d

/-- No request moves the plot or waits for it, and one may be raised (R44, R164, R168). -/
def Dev.atRest (d : Dev) (idx : Nat) : Bool :=
  (d.migOf idx).isNone && (d.waiting idx).isEmpty && !d.growing idx && !d.tier.barred.contains idx

/-- Meadow plots a forced demotion may take: none of a pin-meadow region, and none whose placement lantern restarts (R17, R162). -/
def Dev.forceable (d : Dev) : List (Nat × HomeEntry) :=
  d.tier.home.filter (fun h => h.2.tier == .meadow && d.atRest h.1
    && (d.regionOf h.1).any (fun r => r.2.policy != .pinMeadow && d.lanternUp (placementLantern r.1)))

/-- The coldest of the candidates, those without PIN first (R162). -/
def coldest (l : List (Nat × HomeEntry)) : Option (Nat × HomeEntry) :=
  l.foldl (fun best h => match best with
    | none => some h
    | some b => if bit h.2.pin < bit b.2.pin ∨ (bit h.2.pin = bit b.2.pin ∧ h.2.heat < b.2.heat) then some h
      else some b) none

/-- Demotions that will give a meadow plot back. -/
def Dev.outgoing (d : Dev) : Nat :=
  (d.tier.migs.filter (fun m => m.srcTier == .meadow && m.dstTier != .meadow)).length
    + (d.tier.waitDst.filter (fun w => w.2.1 == .demotion && (d.entry w.1).tier == .meadow)).length

/-- Forced demotion, coldest first, until the free pool will be back above `FORCE` (R162). -/
def Dev.forceDown (d : Dev) : Nat → Dev
  | 0 => d
  | fuel + 1 =>
    if (d.tier.freePlots.length + d.outgoing) * 1000 < d.f TIER_MDW_POOL.FORCE * d.f GLB_CAP.MDW_PLOTS then
      match coldest d.forceable with
      | none => d
      | some (i, _) =>
        let t : Tier := if (d.regionOf i).any (fun r => r.2.cls == .deep && r.2.policy == .pinHeath) then .deep else .fast
        (d.startMig i .demotion t).forceDown fuel
    else d

/-- Native plots that the demotions to deep heath in flight or waiting will free (R529). -/
def Dev.relief (d : Dev) : Nat :=
  let moves (h : Nat × HomeEntry) : Bool := h.2.tier == .fast
    && ((d.migOf h.1).any (fun m => m.dstTier == .deep) || (d.waiting h.1).any (fun w => w.2 == .deep))
  ((d.tier.home.filter moves).map (fun h => d.nativeCost h.2 - 1)).foldl (· + ·) 0

/-- Demotion of fast-heath plots to deep heath until heath pressure will end, coldest first, whatever class and PIN (R529). -/
def Dev.relieveHeath (d : Dev) : Nat → Dev
  | 0 => d
  | fuel + 1 =>
    if ¬ d.pressureBut d.relief then d
    else
      let c := d.tier.home.filter (fun h => h.2.tier == .fast && d.atRest h.1)
      match coldest (c.map (fun h => (h.1, { h.2 with pin := false }))) with
      | none => d
      | some (i, _) => (d.startMig i .demotion .deep).relieveHeath fuel

/-- A halving sweep (R159, R160): barred plots may be raised again, plots of Sealed regions are recorded so, every marked line is
halved and decided on, and pressure on either tier is met. -/
def Dev.sweep (d : Dev) : Dev :=
  let d := { d with tier := { d.tier with barred := [], sweepOn := true } }
  let d := d.tier.marked.foldl Dev.sweepLine d.sweepSeals
  (d.forceDown d.tier.home.length).relieveHeath d.tier.home.length

/-- HEAT_HALVING_SWEEP (R159): a multiple of `INTERVAL` has come; a sweep still running makes the next one overdue. -/
def execHeatHalvingSweep (t : Nat) (s : State) : Host.Outcome State Fault Refusal :=
  s.run t fun d =>
    if d.heatInterval ≤ d.tier.sweepNo ∨ d.dur.saving then d
    else
      let d := { d with tier := { d.tier with sweepNo := d.heatInterval } }
      if d.tier.sweepOn then { d with tier := { d.tier with sweepDue := true } } else d.sweep

/-- HALVING_SWEEP_DONE (R159): an overdue sweep starts at once, and an event in group 10 is raised. -/
def execHalvingSweepDone (t : Nat) (s : State) : Host.Outcome State Fault Refusal :=
  s.run t fun d =>
    if ¬ d.tier.sweepOn then d
    else
      let due := d.tier.sweepDue
      let d := { d with tier := { d.tier with sweepOn := false, sweepDue := false } }
      if due then (d.raise (source 10 0) 2 0 8 0).sweep else d

/-! ### The free pool (R150, R151) -/

/-- FREE_PLOT_REFILL (R150): below 192 plots the queue of a walker is filled to 256; first writes that waited go on. -/
def execFreePlotRefill (t lantern : Nat) (s : State) : Host.Outcome State Fault Refusal :=
  s.run t fun d =>
    if lantern < 8 ∧ (lookD d.tier.queues lantern []).length < 192 then (d.refill lantern 4).pump else d

/-! ### The wick caches (R152 to R157) -/

/-- A fill of lantern `l`'s cache with an entry (R152). -/
def Dev.wickFill (d : Dev) (l idx : Nat) : Dev :=
  let e := (d.wickFind l idx).getD (d.wickSlot l)
  ({ d with tier := { d.tier with wick := put d.tier.wick (l * 64 + e) { idx := idx, entry := d.entry idx } } }).wickTouch l e

/-- TABLE_WALK_COMPLETE (R156): the line returns and fills the cache; after a broadcast for the index the walk is repeated,
and a line on a frozen channel gives nothing (Table 1.8). -/
def execTableWalkComplete (t lantern idx : Nat) (s : State) : Host.Outcome State Fault Refusal :=
  s.run t fun d =>
    match d.tier.walks.find? (fun w => w.lantern == lantern && w.idx == idx) with
    | none => d
    | some w =>
      let others := d.tier.walks.filter (fun w => !(w.lantern == lantern && w.idx == idx))
      if w.dirty then { d with tier := { d.tier with walks := others ++ [{ w with dirty := false }] } }
      else
        let d := { d with tier := { d.tier with walks := others } }
        if d.tableFrozen lantern [{ idx := idx, off := 0, n := 0, pos := 0 }] then d else d.wickFill lantern idx

/-- `GO` of a range invalidation is written (R157): while `BUSY` it is an illegal sequence of kind 7. -/
def Dev.wickRange (d : Dev) (first count lmask : Nat) : Dev :=
  if d.on TIER_WICK_INV.BUSY then d.illegal 7 (TIER_WICK_INV.GO.off / 4)
  else
    let d := ((d.fset TIER_WICK_INV.FIRST first).fset TIER_WICK_INV.COUNT count).fset TIER_WICK_INV.LMASK lmask
    let hit (k : Nat) (w : WickEntry) : Bool :=
      lmask / 2 ^ (k / 64) % 2 == 1 && decide (first ≤ w.idx) && decide (w.idx < first + count)
    { d.fset TIER_WICK_INV.BUSY 1 with
      tier := { d.tier with wick := d.tier.wick.filter (fun w => !hit w.1 w.2) } }

/-- WICK_RANGE_INVALIDATE. -/
def execWickRangeInvalidate (t first count lmask : Nat) (s : State) : Host.Outcome State Fault Refusal :=
  s.run t fun d => d.wickRange first count lmask

/-- WICK_INVALIDATION_DONE (R157). -/
def execWickInvalidationDone (t : Nat) (s : State) : Host.Outcome State Fault Refusal :=
  s.run t fun d => d.fset TIER_WICK_INV.BUSY 0

/-! ### Migration (R164 to R175) -/

/-- MIGRATION_START (R166, R176, M1): a waiting migration of this kind is issued, after those of higher priority that wait at the same
lantern. -/
def execMigrationStart (t idx : Nat) (kind : MigKind) (s : State) : Host.Outcome State Fault Refusal :=
  s.run t fun d =>
    if ¬ (d.waiting idx).any (fun w => w.1 == kind) then d
    else
      let l := d.srcLantern idx
      let of (k : MigKind) : List Nat :=
        if k.prio < kind.prio then (d.tier.waitDst.filter (fun w => w.2.1 == k && d.srcLantern w.1 == l)).map (·.1) else []
      ((of .demand ++ of .evacuation ++ of .promotion).foldl Dev.issueMig d).issueMig idx

/-- A heath read failure at M2: the migration is cancelled and an event raised; the plot stays at its old home (R171). -/
def Dev.copyFailed (d : Dev) (m : Migration) : Dev :=
  if m.srcTier = .meadow then
    ((d.setPlotState m.idx .poisoned).copyPlot m).setMig m.idx (fun m => { m with step := .making, prog := 0 })
  else (d.cancelMig m.idx).raise (source 10 1) 2 0 m.lantern 0

/-- The copy is in its destination (M2); a reservation for pages of meadow is spent by the pages now dirty (R184). -/
def Dev.copied (d : Dev) (m : Migration) : Dev :=
  let d := (d.copyPlot m).unreserve m.res
  ((d.setMig m.idx (fun m => { m with step := .making, res := 0, prog := 0, bitmap := [] })).pumpDies)

/-- MIGRATION_COPY_DONE (R166, R171, R329): an uncorrectable line of a draining channel poisons its plot, which moves on. -/
def execMigrationCopyDone (t idx : Nat) (uncorr : Bool) (s : State) : Host.Outcome State Fault Refusal :=
  s.run t fun d =>
    match d.migOf idx with
    | none => d
    | some m =>
      if m.step ≠ .copying ∨ m.frozen then d
      else if uncorr ∧ (d.entry idx).state ≠ .poisoned then d.copyFailed m
      else d.copied m

/-- The quiesce of the commit handshake is sent: wick copies go, lookups are held (R167). -/
def Dev.quiesce (d : Dev) (idx : Nat) : Dev :=
  (d.broadcast idx).setMig idx (fun m => { m with step := .quiescing, wt := false, quiAt := d.clk })

/-- MIGRATION_DESTINATION_DURABLE (R166, M3): an evacuation whose lines changed copies them again and stays in M3. -/
def execMigrationDestinationDurable (t idx : Nat) (s : State) : Host.Outcome State Fault Refusal :=
  s.run t fun d =>
    match d.migOf idx with
    | none => d
    | some m =>
      if m.step ≠ .making ∨ (m.dstTier ≠ .meadow ∧ ¬ d.heathClosed m ∧ (d.entry idx).state ≠ .poisoned) then d
      else if ¬ m.bitmap.isEmpty ∧ m.frozen then d
      else if ¬ m.bitmap.isEmpty then
        ((d.copyPlot m).setMig idx (fun m => { m with bitmap := [], prog := 0 })).pumpDies
      else if d.dur.saving then d
      else d.quiesce idx

/-- A line of the plot at its old home belongs to a write applied and not durable: no pipeline answers ready (R170). -/
def Dev.plotOpen (d : Dev) (m : Migration) : Bool :=
  m.srcTier == .meadow && (List.range 1024).any (fun k => d.lineOpen (m.srcLoc * 1024 + k))

/-- QUIESCE_READY (R167): the home change, unless a witness matched since M3 ended. -/
def execQuiesceReady (t idx : Nat) (s : State) : Host.Outcome State Fault Refusal :=
  s.run t fun d =>
    match d.migOf idx with
    | none => d
    | some m =>
      if m.step ≠ .quiescing ∨ d.plotOpen m ∨ d.dur.saving then d
      else if m.wt then (d.refuseMig idx).pump
      else (d.commitMig idx).pump

/-- QUIESCE_TIMEOUT (R167): after 4 µs the quiesce is abandoned as a refusal. -/
def execQuiesceTimeout (t idx : Nat) (s : State) : Host.Outcome State Fault Refusal :=
  s.run t fun d =>
    if (d.migOf idx).any (fun m => m.step == .quiescing && decide (m.quiAt + 4000 ≤ d.clk)) then (d.refuseMig idx).pump
    else d

/-- PIN_QUIET_EXPIRY (R161): a quiet meadow plot of a pin-heath region is demoted. -/
def execPinQuietExpiry (t idx : Nat) (s : State) : Host.Outcome State Fault Refusal :=
  s.run t fun d =>
    match d.regionOf idx with
    | none => d
    | some (_, r) =>
      let e := d.entry idx
      let quiet := lookD d.tier.lastWr idx 0 + d.f TIER_THRESH.PIN_QUIET * 1000000 ≤ d.clk
      if r.policy = .pinHeath ∧ e.tier = .meadow ∧ ¬ e.pin ∧ quiet then
        d.startMig idx .demotion (if r.cls = .deep then .deep else .fast)
      else d

/-- WIN_ABANDON_EXPIRY (R174): migrations to a module whose window has been closed for `WIN_ABANDON` ms are cancelled. -/
def execWinAbandonExpiry (t mod : Nat) (s : State) : Host.Outcome State Fault Refusal :=
  s.run t fun d =>
    let late := d.tier.migs.filter (fun m => m.dstTier != .meadow && d.modOfHeath m.dstLoc == mod &&
      m.paused.any (fun p => p + d.f TIER_WIN_CTL.WIN_ABANDON * 1000000 ≤ d.clk))
    late.foldl (fun d m => d.cancelMig m.idx) d

/-- DESTINATION_RETRY_TIMER (R345): waiting migrations are tried again every 100 ms, the higher priority first. -/
def execDestinationRetryTimer (t : Nat) (s : State) : Host.Outcome State Fault Refusal :=
  s.run t fun d =>
    if d.clk < d.tier.retryAt + 100000000 then d
    else
      let of (k : MigKind) : List Nat := (d.tier.waitDst.filter (fun w => w.2.1 == k)).map (·.1)
      let d := (of .demand ++ of .evacuation ++ of .promotion ++ of .demotion).foldl Dev.issueMig d
      { d with tier := { d.tier with retryAt := d.clk } }

end Sys2Proof.Machine
end

