-- ==== Sys2Proof/Machine/TwinClaim.lean ====
section
/-! DEFINITION. The judgement of the peer, the snuffer interlock, planned swaps and the survivor's side of resynchronisation
(R239 to R260). -/

namespace Sys2Proof.Machine

/-- LAMP_WATCHDOG_EXPIRY (R239): lantern 12 did not serve the lamp, which goes dark. -/
def execLampWatchdogExpiry (t : Nat) (s : State) : Host.Outcome State Fault Refusal := s.run t fun d => d.setStatus .silent

/-- LINK_PATH_SILENT (R240): no valid frame for 3 µs; a fault that stands on the lamp path is judged with it (R241). -/
def execLinkPathSilent (t : Nat) (s : State) : Host.Outcome State Fault Refusal :=
  s.run t fun d =>
    if d.clk < d.twn.linkSeen + 3000 then d
    else ({ d.fset TWN_STAT.LINK_PATH pathSilent with
      twn := { (d.fset TWN_STAT.LINK_PATH pathSilent).twn with linkFaultAt := none } }).judgeFaults

/-! ### The lamp decoder (R239) -/

/-- Status of one lamp period by its high time in ns (Table 7.3). -/
def lampBand (high : Nat) : PathStatus :=
  if 450 ≤ high ∧ high ≤ 550 then .healthy
  else if 200 ≤ high ∧ high ≤ 300 then .saving
  else if 700 ≤ high ∧ high ≤ 800 then .down
  else .silent

/-- A lamp period is one between 0.9 µs and 1.1 µs; periods are given as high time and length in ns (R239). -/
def lampPeriod (p : Nat × Nat) : Bool := decide (900 ≤ p.2) && decide (p.2 ≤ 1100)

/-- What the decoder makes of the latest periods, oldest first: 8 in a row that agree on a row of Table 7.3; nothing else changes its
judgement (R239, log entry 86). -/
def lampStatus (periods : List (Nat × Nat)) : Option PathStatus :=
  let l := periods.drop (periods.length - 8)
  match l with
  | [] => none
  | p :: _ => if l.length = 8 ∧ l.all (fun x => lampPeriod x && lampBand x.1 == lampBand p.1) then some (lampBand p.1) else none

/-- Time for which the latest periods have all shown one status, in ns. -/
def lampSpan (p : PathStatus) (periods : List (Nat × Nat)) : Nat :=
  ((periods.reverse.takeWhile (fun x => lampPeriod x && lampBand x.1 == p)).map (·.2)).foldl (· + ·) 0

/-- The lamp is decoded: it is enabled on a twinned device. -/
def Dev.lampOn (d : Dev) : Bool := d.on TWN_CFG.ENABLE && d.on TWN_CFG.LAMP_EN

/-- LAMP_PATH_SILENT (R239, Table 7.4): `rx` holds the periods of the last 3 µs, or of the decoder's 8; with a healthy link it is an event
alone, with a link that shows a fault the peer is judged. -/
def execLampPathSilent (rx : LampRx) (s : State) : Host.Outcome State Fault Refusal :=
  s.run rx.t fun d =>
    if ¬ d.lampOn ∨ d.f TWN_STAT.LAMP_PATH = pathSilent ∨ (rx.periods.any lampPeriod ∧ lampStatus rx.periods ≠ some .silent) then d
    else
      let d := { d.fset TWN_STAT.LAMP_PATH pathSilent with
        twn := { (d.fset TWN_STAT.LAMP_PATH pathSilent).twn with lampSeen := d.clk - 3000, lampFaultAt := none } }
      if d.f TWN_STAT.LINK_PATH = pathHealthy then d.raise (source 12 0) 2 0 0xFFFF 0 else d.judgeFaults

/-- LAMP_PATH_HEALTHY (R239): the decoder reads healthy. -/
def execLampPathHealthy (rx : LampRx) (s : State) : Host.Outcome State Fault Refusal :=
  s.run rx.t fun d =>
    if ¬ d.lampOn ∨ lampStatus rx.periods ≠ some .healthy then d
    else { d.fset TWN_STAT.LAMP_PATH pathHealthy with
      twn := { (d.fset TWN_STAT.LAMP_PATH pathHealthy).twn with lampSeen := d.clk, lampFaultAt := none } }

/-- A fault is seen on the lamp: what the decoder reads, and since when. -/
def Dev.lampFault (d : Dev) (status : PathStatus) (periods : List (Nat × Nat)) : Dev :=
  let from_ := d.clk - lampSpan status periods
  { d.fset TWN_STAT.LAMP_PATH pathFault with
    twn := { (d.fset TWN_STAT.LAMP_PATH pathFault).twn with
      lampSeen := d.clk, lampFaultAt := some (min from_ (d.twn.lampFaultAt.getD from_)) } }

/-- PEER_FAULT_SEEN (R241, Table 7.4): a fault seen for 8 µs, on the lamp path with the periods it was decoded from or on the link
path, declares the peer failed unless the other path is healthy. -/
def execPeerFaultSeen (t : Nat) (lamp : Option (List (Nat × Nat))) (status : PathStatus) (s : State) :
    Host.Outcome State Fault Refusal :=
  s.run t fun d =>
    if status = .healthy ∨ status = .silent ∨ ¬ d.on TWN_CFG.ENABLE then d
    else
      match lamp with
      | some periods =>
        if ¬ d.lampOn ∨ lampStatus periods ≠ some status then d
        else
          let d := d.lampFault status periods
          if d.f TWN_STAT.LINK_PATH = pathHealthy then d.raise (source 12 0) 2 0 0xFFFF 0 else d.judgeFaults
      | none =>
        if d.twn.linkFaultAt = none then d
        else
          let d := d.fset TWN_STAT.LINK_PATH pathFault
          if d.lampPath = pathHealthy then d.raise (source 12 0) 2 0 0xFFFF 0 else d.judgeFaults

/-- DETECT_EXPIRY (R241): silence over `DETECT_US` on both paths declares the peer failed, on the link alone it isolates. -/
def execDetectExpiry (t : Nat) (s : State) : Host.Outcome State Fault Refusal :=
  s.run t fun d =>
    let span := d.f TWN_CFG.DETECT_US * 1000
    if d.f TWN_STAT.LINK_PATH ≠ pathSilent ∨ d.clk < d.twn.linkSeen + span then d.judgeFaults
    else if d.lampPath = pathHealthy then d.isolate
    else if d.lampPath = pathSilent ∧ (¬ d.on TWN_CFG.LAMP_EN ∨ d.twn.lampSeen + span ≤ d.clk) then d.declare
    else d.judgeFaults

/-- DECLARE (R243). -/
def execDeclare (t : Nat) (s : State) : Host.Outcome State Fault Refusal := s.run t fun d => d.declare

/-- CLAIM_READBACK_TIMEOUT (R247): the claim fails. -/
def execClaimReadbackTimeout (t : Nat) (s : State) : Host.Outcome State Fault Refusal :=
  s.run t fun d =>
    if d.f TWN_STAT.CLAIM = claimAsserting ∧ d.twn.snufOutAt + 1000 ≤ d.clk then
      (((d.snuf false).fset TWN_STAT.CLAIM claimFailed)).raise (source 12 2) 6 0 0xFFFF 0
    else d

/-- CLAIM_RETRY (R247). -/
def execClaimRetry (t : Nat) (s : State) : Host.Outcome State Fault Refusal :=
  s.run t fun d =>
    if d.f TWN_STAT.CLAIM = claimFailed ∧ d.twn.snufOutAt + 100000 ≤ d.clk then d.startClaim else d

/-- CLAIM_HELD (R244, R248): ten microseconds with the input deasserted; a save that has begun promotes nothing (R261). -/
def execClaimHeld (t : Nat) (s : State) : Host.Outcome State Fault Refusal :=
  s.run t fun d =>
    if d.f TWN_STAT.CLAIM = claimAsserting ∧ d.twn.holdFrom + 10000 ≤ d.clk ∧ ¬ d.on TWN_STAT.SNUF_IN ∧ ¬ d.dur.saving then
      d.promote
    else d

/-- ADOPTION_ANNOUNCE (R251): the second and third announcement, 1 ms apart. -/
def execAdoptionAnnounce (t i : Nat) (s : State) : Host.Outcome State Fault Refusal :=
  s.run t fun d =>
    match look d.twn.adopted i with
    | none => d
    | some n =>
      if 3 ≤ n ∨ d.clk < d.twn.promotedAt + n * 1000000 then d
      else
        { d.send (.announce (d.f (TWN_ADOPT.PORT i)) (d.f (TWN_PEER_GID.GID i))) with
          twn := { d.twn with adopted := put d.twn.adopted i (n + 1) } }

/-- A random time of 20 µs to 100 µs (R246). -/
def Dev.backoffNs (d : Dev) : Nat := 20000 + d.drawn.toNat % 80001

/-- Applied mirrored writes that await the twin are answered in doubt when the fence acts (R134, R140). -/
def Dev.fenceOps (d : Dev) : Dev :=
  let open_ (o : Op) : Bool := o.mirrored && (o.phase == .applied || o.phase == .posted) && !o.conf && !o.inDoubt
  (d.hpt.ops.filter open_).foldl (fun (d : Dev) o =>
    let us := ((look d.rgn o.rid).map (·.dlUs)).getD 6
    ((d.countLate o).setOp o.id (fun x => { x with inDoubt := true })).reply o (d.redirect o.rid us true)) d

/-- SNUF_IN_ASSERT (R245, R246): west gives way while its claim is not held; the write fence acts, masked on east while its
own output is asserted. -/
def execSnufInAssert (t : Nat) (s : State) : Host.Outcome State Fault Refusal :=
  s.run t fun d =>
    let d := { d.fset TWN_STAT.SNUF_IN 1 with
      twn := { (d.fset TWN_STAT.SNUF_IN 1).twn with snufInAt := d.clk, snufOffAt := none } }
    let yields := d.twn.side && d.f TWN_STAT.CLAIM == claimAsserting
    let d : Dev := if yields then
        let d := ((d.snuf false).fset TWN_STAT.CLAIM claimBackoff)
        { d.drew with twn := { d.drew.twn with backoff := some (d.clk + d.backoffNs) } }
      else d
    if ¬ d.twn.side ∧ d.twn.snufOut then d
    else ((d.fset TWN_STAT.FENCE_WR 1).fenceOps).pump

/-- READ_FENCE (R245): 5 µs of continuous assertion. -/
def execReadFence (t : Nat) (s : State) : Host.Outcome State Fault Refusal :=
  s.run t fun d =>
    if d.on TWN_STAT.SNUF_IN ∧ d.on TWN_STAT.FENCE_WR ∧ d.twn.snufInAt + 5000 ≤ d.clk then (d.fset TWN_STAT.FENCE_RD 1).pump
    else d

/-- SNUF_IN_DEASSERT (R244 to R246): the hold of a claim counts from here, and one that waited for the input is asserted. -/
def execSnufInDeassert (t : Nat) (s : State) : Host.Outcome State Fault Refusal :=
  s.run t fun d =>
    if ¬ d.on TWN_STAT.SNUF_IN then d
    else
      let d := { d.fset TWN_STAT.SNUF_IN 0 with
        twn := { (d.fset TWN_STAT.SNUF_IN 0).twn with snufOffAt := some d.clk, holdFrom := d.clk } }
      d.startClaim

/-- FENCE_LIFT (R245): 1 µs after the input deasserted. -/
def execFenceLift (t : Nat) (s : State) : Host.Outcome State Fault Refusal :=
  s.run t fun d =>
    if ¬ d.on TWN_STAT.SNUF_IN ∧ d.twn.snufOffAt.any (fun a => a + 1000 ≤ d.clk) then
      (({ d with twn := { d.twn with snufOffAt := none } }).fset TWN_STAT.FENCE_WR 0 |>.fset TWN_STAT.FENCE_RD 0).pump
    else d

/-- CLAIM_BACKOFF_EXPIRY (R246). -/
def execClaimBackoffExpiry (t : Nat) (s : State) : Host.Outcome State Fault Refusal :=
  s.run t fun d =>
    if d.f TWN_STAT.CLAIM = claimBackoff ∧ d.twn.backoff.any (fun b => b ≤ d.clk) then
      (({ d with twn := { d.twn with backoff := none } }).fset TWN_STAT.CLAIM claimNone).startClaim
    else d

/-- A role swap is started: the link up, no declaration or isolation, and the region primary here (R253). -/
def Dev.swapGo (d : Dev) (region : Nat) (all : Bool) : Dev :=
  if d.on TWN_CTL.SWAP_BUSY then d.illegal 7 (TWN_CTL.SWAP_GO.off / 4)
  else
    let d := (d.fset TWN_CTL.REGION region).fset TWN_CTL.ALL (bit all)
    let d := { d with twn := { d.twn with swapReg := if all then 4096 else region } }
    let here := d.rgn.any (fun r => r.2.mirrored && d.primaryHere r.1 r.2 && (all || r.1 == region))
    if ¬ d.twn.linkUp ∨ ¬ d.twn.hello ∨ d.twn.declared ∨ d.twn.isolated ∨ d.twn.swapIn.isSome then
      d.fset TWN_CTL.SWAP_RESULT (if d.twn.swapIn.isSome ∧ d.twn.side then 2 else 3)
    else if ¬ here then d.fset TWN_CTL.SWAP_RESULT 4
    else
      let d := (d.fset TWN_CTL.SWAP_BUSY 1).fset TWN_CTL.SWAP_RESULT 0
      (({ d with twn := { d.twn with swapOut := true } }).twinSend twSwapReq 0 [region, bit all]).pump

/-- SWAP_GO (R253). -/
def execSwapGo (t region : Nat) (all : Bool) (s : State) : Host.Outcome State Fault Refusal :=
  s.run t fun d => d.swapGo region all

/-- Adopted GIDs are returned: their entries are cleared and their connections end with DREQ (R260). -/
def Dev.giveBack (d : Dev) : Dev :=
  if d.f TWN_STAT.PEER ≠ peerInSync then d.illegal 8 (TWN_CTL.GIVEBACK.off / 4)
  else
    let d := (d.twn.adopted.map (·.1)).foldl (fun d i => d.fset (HPT_GID.GID (d.f (TWN_ADOPT.PORT i)) (d.f (TWN_ADOPT.SLOT i))) 0) d
    let d := { d with twn := { d.twn with adopted := [] } }
    ((d.hpt.conns.filter (fun c => c.2.adopted && c.2.state.isOpen)).map (·.1)).foldl Dev.sendDreq d

/-- GIVEBACK (R260). -/
def execGiveback (t : Nat) (s : State) : Host.Outcome State Fault Refusal := s.run t fun d => d.giveBack

/-- TWIN_REKEY (R226). -/
def execTwinRekey (t : Nat) (s : State) : Host.Outcome State Fault Refusal := s.run t fun d => d.twinRekey

/-- RESYNC_BULK_DONE (R257): every plot has been sent, catch-up begins. -/
def execResyncBulkDone (t : Nat) (s : State) : Host.Outcome State Fault Refusal :=
  s.run t fun d =>
    if d.twn.rsSource ∧ d.twn.rs = .bulk ∧ d.twn.hello then
      let d := d.sendBulk
      ({ d with twn := { d.twn with rs := .catchUp } }).fset TWN_RESYNC_STAT.PHASE 3
    else d

/-- RESYNC_CATCHUP_PASS_DONE (R257): a pass is sent; below `CUT_PAGES` set bits, or after `MAX_PASS` passes, cut-over comes and
writes are mirrored again. -/
def execResyncCatchupPassDone (t : Nat) (s : State) : Host.Outcome State Fault Refusal :=
  s.run t fun d =>
    if d.twn.rsSource ∧ d.twn.rs = .catchUp ∧ d.twn.hello then
      let few := decide (d.twn.rsBits.length < d.f TWN_RESYNC_CTL.CUT_PAGES)
      let d := d.sendPages
      let d := d.fset TWN_RESYNC_STAT.PASSES (d.f TWN_RESYNC_STAT.PASSES + 1)
      if few ∨ d.f TWN_RESYNC_CTL.MAX_PASS ≤ d.f TWN_RESYNC_STAT.PASSES then
        (({ d with twn := { d.twn with rs := .cutOver, soleMeadow := false } }).fset TWN_RESYNC_STAT.PHASE 4).pump
      else d
    else d

/-- The returned unit joins the member set at the first epoch whose interval begins after RS_DONE (Table 7.6, R292). -/
def Dev.rejoin (d : Dev) : Dev :=
  if d.on FAB_CFG.ENABLE ∧ d.isSteward then
    { d with fab := { d.fab with joinAt := put d.fab.joinAt d.twn.peerFab true } }
  else d

/-- RESYNC_CUTOVER_DONE (R257): the last pages and RS_DONE leave, TWIN_SNUF_OUT is released. -/
def execResyncCutoverDone (t : Nat) (s : State) : Host.Outcome State Fault Refusal :=
  s.run t fun d =>
    if d.twn.rsSource ∧ d.twn.rs = .cutOver ∧ d.twn.hello then
      let d := (d.sendPages).twinSend twRsDone 0
      let d := ((d.snuf false).fset TWN_STAT.CLAIM claimNone).fset TWN_STAT.PEER peerInSync
      let d := { d with twn := { d.twn with rs := .inSync, rsSource := false, declared := false, isolated := false } }
      ((d.fset TWN_RESYNC_STAT.PHASE 5).rejoin).pump
    else d

end Sys2Proof.Machine
end

