-- ==== Sys2Proof/Machine/RegWrite.lean ====
section
/-! DEFINITION. Writes to the set-up space (R8, R10, R404 to R408): what an access carries to each register, when it is an
illegal sequence, and what its fields do. -/

namespace Sys2Proof.Machine

/-! ### What an access carries -/

/-- What an access carries to one register: the base of its array, its own offset, width and fields, its two indices, the first
bit carried, how many, and their value. -/
structure Carried where
  base : Nat
  off : Nat
  width : Nat
  flds : List Fld
  i : Nat
  j : Nat
  lo : Nat
  n : Nat
  v : Nat

/-- The register at an offset, with `n` bits for it. -/
def partAt (o n v : Nat) : Option Carried :=
  match findReg regMap o with
  | none => none
  | some (r, b, fs) =>
    let e := b - r.base
    let i := if r.stride1 = 0 then 0 else e / r.stride1
    let e := if r.stride1 = 0 then e else e % r.stride1
    let j := if r.stride2 = 0 then 0 else e / r.stride2
    some { base := r.base, off := b, width := r.width, flds := fs, i := i, j := j, lo := (o - b) * 8, n := n, v := v }

/-- The registers an access of 4 or 8 bytes reaches; an offset no block defines takes nothing (R404, R405). -/
def partsOf (off size v : Nat) : List Carried :=
  if size = 4 then (partAt off 32 v).toList
  else match partAt off 64 v, partAt (off + 4) 32 (v / 2 ^ 32) with
    | some p, some q => if p.off = q.off then [p] else [{ p with n := 32, v := v % 2 ^ 32 }, q]
    | some p, none => [{ p with n := 32, v := v % 2 ^ 32 }]
    | none, some q => [q]
    | none, none => []

/-- The access carries bits of a field. -/
def Carried.carries (p : Carried) (x : Fld) : Bool := decide (p.lo ≤ x.hi) && decide (x.lo < p.lo + p.n)

/-- A field's value with the bits carried in place of its own. -/
def Carried.put (p : Carried) (x : Fld) (old : Nat) : Nat :=
  let a := max x.lo p.lo
  let w := min (x.hi + 1) (p.lo + p.n) - a
  let s := a - x.lo
  old - old / 2 ^ s % 2 ^ w * 2 ^ s + p.v / 2 ^ (a - p.lo) % 2 ^ w * 2 ^ s

/-- The bits of a field that are written with 1. -/
def Carried.ones (p : Carried) (x : Fld) : Nat := p.put x 0

/-- A start bit is written with 1. -/
def Carried.sets (p : Carried) (x : Fld) : Bool := p.ones x != 0

/-! ### Staged fields (R10, R408) -/

/-- The control host holds the Open transaction. -/
def Dev.hostHolds (d : Dev) : Bool := d.f CFX_CTL.STATE == 1 && d.f CFX_CTL.HOLDER == holderHost

/-- The access carries another value for an STG field than the applied one. -/
def Dev.changesStg (d : Dev) (p : Carried) : Bool := p.flds.any (fun x => x.acc == .stg && p.put x (d.f x) != d.f x)

/-- STG fields carried go to the shadow bank. -/
def Dev.toShadow (d : Dev) (p : Carried) : Dev :=
  let fs := p.flds.filter (fun x => x.acc == .stg && p.carries x)
  { d with cfx := { d.cfx with shadow := fs.foldl (fun l x => put l x.key (p.put x (lookD l x.key x.rst))) d.cfx.shadow } }

/-! ### Illegal sequences (Table 12.10) -/

/-- A submission ring is enabled on the completion ring that carries immediate notifications (R118). -/
def Dev.immBar (d : Dev) (p : Carried) : Bool :=
  p.put (RING_SQ_CFG.EN p.i) (d.f (RING_SQ_CFG.EN p.i)) != 0 && d.on HPT_VERB_CTL.IMM_EN
    && p.put (RING_SQ_CFG.CQ p.i) (d.f (RING_SQ_CFG.CQ p.i)) == d.f HPT_VERB_CTL.IMM_RING

/-- The kind of illegal sequence that a write of start bits is, or 0 (R157, R253, R260, R321, R324, R333, R364, R453). -/
def Dev.startBar (d : Dev) (p : Carried) : Nat :=
  if p.base = 0x700080 then (if p.sets TIER_WICK_INV.GO ∧ d.on TIER_WICK_INV.BUSY then 7 else 0)
  else if p.base = 0x900010 then
    (if p.sets TWN_CTL.SWAP_GO ∧ d.on TWN_CTL.SWAP_BUSY then 7
     else if p.sets TWN_CTL.GIVEBACK ∧ d.f TWN_STAT.PEER ≠ peerInSync then 8 else 0)
  else if p.base = 0x1000018 then
    (if p.sets (MDW_FRZ.FREEZE p.i) ∧ d.chanState p.i ≠ chOnline then 8
     else if p.sets (MDW_FRZ.THAW p.i) then (d.thaw p.i).2 else 0)
  else if p.base = 0x1000030 then (if p.sets (MDW_CE.CLEAR p.i) ∧ d.chanState p.i = chFrozen then 8 else 0)
  else if p.base = 0x1000100 then (if p.sets (MDW_CELOG.VALID p.i p.j) ∧ d.chanState p.i = chFrozen then 8 else 0)
  else if p.base = 0x1000800 then (if p.sets (MDW_PAT.GO p.i) then d.patternBar p.i else 0)
  else if p.base = 0x1000C00 then
    (if p.put (MDW_CHK.EN p.i) (d.f (MDW_CHK.EN p.i)) ≠ d.f (MDW_CHK.EN p.i) ∧ d.chanState p.i ≠ chEmpty then 8 else 0)
  else if p.base = 0x200100 then (if d.immBar p then 8 else 0)
  else if p.base = 0xB00200 then (if p.sets CPH_KEY_LOAD.GO ∧ d.on CPH_KEY_LOAD.BUSY then 7 else 0)
  else if p.base = 0xC00000 then (if p.sets PWR_CTL.GO ∧ d.on PWR_CTL.BUSY then 7 else 0)
  else if p.base = 0xF00000 then (if p.sets FWM_CTL.ROLLBACK ∧ ¬ d.canRollBack then 8 else 0)
  else if p.base = 0x100000 then (if p.sets CFX_CTL.OPEN ∧ d.f CFX_CTL.STATE ≠ 0 then 7 else 0)
  else 0

/-- The ring whose registers are written is enabled (R381). -/
def Dev.ringBar (d : Dev) (p : Carried) : Bool :=
  (p.base == 0x200100 && d.on (RING_SQ_CFG.EN p.i)) || (p.base == 0x200800 && d.on (RING_CQ_CFG.EN p.i))

/-- A field kept in the settings store is written in Hold (Table 16.3). -/
def Dev.holdBar (d : Dev) (p : Carried) : Bool := d.f FWM_STAT.HOLD != 0 && p.flds.any (fun x => x.acc == .rwp && p.carries x)

/-- The kind of illegal sequence that the access is on one register, or 0: an access to a part of a half of a 128-bit register
is of no size that register has (R405, R406). -/
def Dev.writeBar (d : Dev) (p : Carried) : Nat :=
  if p.width = 128 ∧ p.n = 32 then 8
  else if d.ringBar p then 6
  else if ¬ d.hostHolds ∧ d.changesStg p then 4
  else if d.holdBar p then 8
  else d.startBar p

/-! ### Effects -/

/-- The settings store is to be written (R421). -/
def Dev.storeDirty (d : Dev) : Dev :=
  { d with store := { d.store with dirty := true, dirtyAt := if d.store.dirty then d.store.dirtyAt else d.clk } }

/-- What a field carried does by its access code (Table 0.4); `PCYCLE` takes a value only while the store is empty. A W1S bit reads
as what it started stands (`Dev.computed`). -/
def Dev.writeField (p : Carried) (d : Dev) (x : Fld) : Dev :=
  if ¬ p.carries x then d
  else match x.acc with
  | .rw | .wo => d.fset x (p.put x (d.f x))
  | .rwp => if x = EVR_LIFE.PCYCLE ∧ d.store.valid then d else (d.fset x (p.put x (d.f x))).storeDirty
  | .w1c => d.fset x (d.f x - (BitVec.ofNat x.width (d.f x) &&& BitVec.ofNat x.width (p.ones x)).toNat)
  | .ro | .stg | .w1s => d

/-- A ring that is enabled starts anew (`RING_SQ_CFGn`, `RING_CQ_CFGn`). -/
def Dev.ringOn (d was : Dev) (p : Carried) : Dev :=
  if p.base = 0x200100 then
    (if d.on (RING_SQ_CFG.EN p.i) ∧ ¬ was.on (RING_SQ_CFG.EN p.i) then
      ((d.fset (RING_STAT.SQ_HEAD p.i) 0).fset (RING_STAT.DONE_CNT p.i) 0).setRing p.i (fun r => { r with tail := 0, stopped := false })
     else d)
  else if d.on (RING_CQ_CFG.EN p.i) ∧ ¬ was.on (RING_CQ_CFG.EN p.i) then
    ((d.fset (RING_STAT.CQ_TAIL p.i) 0).fset (RING_STAT.CQ_PHASE p.i) 1).setRing p.i (fun r =>
      { r with cqHead := 0, held := [], heldIrq := [] })
  else d

/-- `CFX_CTL`: GRANT, OPEN and DISCARD. -/
def Dev.writeCfxCtl (d : Dev) (p : Carried) : Dev :=
  if ¬ d.serves then d
  else
    let d := if p.carries CFX_CTL.GRANT then d.writeGrant (p.sets CFX_CTL.GRANT) else d
    let d := if p.sets CFX_CTL.DISCARD then d.hostDiscard else d
    if p.sets CFX_CTL.OPEN then d.hostOpen else d

/-- `TWN_CTL`: DECLARE, GIVEBACK and SWAP_GO. -/
def Dev.writeTwnCtl (d : Dev) (p : Carried) : Dev :=
  let d := if p.sets TWN_CTL.GIVEBACK then d.giveBack else d
  let d := if p.sets TWN_CTL.DECLARE then d.declare else d
  if p.sets TWN_CTL.SWAP_GO then d.swapGo (d.f TWN_CTL.REGION) (d.on TWN_CTL.ALL) else d

/-- A raw access of checker test mode; what the decoder finds is a free value here (R333, log entry 2). -/
def Dev.writeChkGo (d : Dev) (ch : Nat) : Dev :=
  if d.f (MDW_CHK.OP ch) = 0 then d.checkerGo ch 0 0
  else d.used.used.checkerGo ch d.fresh.toNat d.used.fresh.toNat

/-- `CPH_KEY_LOAD` as its fields and GO stand. -/
def Dev.loadWord (d : Dev) (go : Bool) : Nat :=
  d.f CPH_KEY_LOAD.OP * 2 ^ 56 + d.f CPH_KEY_LOAD.FLAGS * 2 ^ 32 + d.f CPH_KEY_LOAD.USAGE * 2 ^ 24 + d.f CPH_KEY_LOAD.SLOT
    + bit go * 2 ^ 63

/-- What the start bits of a register do, once its other fields have their values. -/
def Dev.startBits (d : Dev) (p : Carried) : Dev :=
  if p.base = 0x700080 then
    (if p.sets TIER_WICK_INV.GO then
      d.wickRange (d.f TIER_WICK_INV.FIRST) (d.f TIER_WICK_INV.COUNT) (d.f TIER_WICK_INV.LMASK) else d)
  else if p.base = 0x900010 then d.writeTwnCtl p
  else if p.base = 0x900018 then (if p.sets TWN_KEY.REKEY then d.twinRekey else d)
  else if p.base = 0xA00010 then (if p.sets FAB_KEY.REKEY then d.fabRekey else d)
  else if p.base = 0xA00200 then (if p.sets FAB_MEMBER.EXPEL then d.expel (d.f FAB_MEMBER.EXPEL_ID) else d)
  else if p.base = 0x1000018 then
    (if p.sets (MDW_FRZ.FREEZE p.i) then d.writeFreeze p.i else if p.sets (MDW_FRZ.THAW p.i) then d.writeThaw p.i else d)
  else if p.base = 0x1000030 then (if p.sets (MDW_CE.CLEAR p.i) then d.writeCeClear p.i else d)
  else if p.base = 0x1000800 then (if p.sets (MDW_PAT.GO p.i) then d.fset (MDW_PAT.BUSY p.i) 1 else d)
  else if p.base = 0x1000C00 then (if p.sets (MDW_CHK.GO p.i) then d.writeChkGo p.i else d)
  else if p.base = 0xB00200 then (if p.sets CPH_KEY_LOAD.GO then d.writeKeyLoad (d.loadWord true) else d)
  else if p.base = 0xC00000 then (if p.sets PWR_CTL.GO then d.ctlPower (d.f PWR_CTL.OP) (d.f PWR_CTL.BAY) else d)
  else if p.base = 0xF00000 then (if p.sets FWM_CTL.ROLLBACK then d.writeRollback else d)
  else if p.base = 0x301000 then d.clearPending p.i (p.ones (EVT_PEND.PEND p.i))
  else if p.base = 0x200000 then (if p.sets RING_KICK.KICK ∧ d.serves then d.kick else d)
  else d

/-- A legal access acts on one register. -/
def Dev.writePart (d : Dev) (p : Carried) : Dev :=
  if p.base = 0x100000 then d.writeCfxCtl p
  else
    let was := d
    let d := if d.hostHolds then d.toShadow p else d
    let d := (p.flds.foldl (Dev.writeField p) d)
    if p.base = 0x200100 ∨ p.base = 0x200800 then d.ringOn was p else d.startBits p

/-- A 128-bit register takes its low half with the high one; without a low half written before, only the high half is carried
(R406). -/
def Dev.widen (d : Dev) (p : Carried) : Carried :=
  if p.width ≠ 128 ∨ p.lo ≠ 64 then p
  else match look d.latchWr p.off with
    | some low => { p with lo := 0, n := 128, v := low + p.v * 2 ^ 64 }
    | none => p

/-- The low half of a 128-bit register is kept until its high half is written (R406). -/
def Dev.latchLow (d : Dev) (p : Carried) : Dev := { d with latchWr := put d.latchWr p.off p.v }

/-- One register of the access: the low half of a wide one is latched. -/
def Dev.takeCarried (d : Dev) (p : Carried) : Dev := if p.width = 128 ∧ p.lo = 0 then d.latchLow p else d.writePart (d.widen p)

/-- The illegal sequence the access is, if it is one: a ring's registers are judged at either half, any other wide register when
it takes effect. -/
def Dev.accessBar (d : Dev) (p : Carried) : Nat :=
  if p.width = 128 ∧ p.n = 64 ∧ p.lo = 0 then (if d.ringBar p then 6 else 0) else d.writeBar (d.widen p)

/-- A write of BAR0 (R10, R404, R405). -/
def Dev.writeBar0 (d : Dev) (off size v : Nat) : Dev :=
  if ¬ ((size = 4 ∨ size = 8) ∧ off % size = 0) then d.illegal 8 (off / 4 % 2 ^ 24)
  else
    let ps := partsOf off size (v % 2 ^ (8 * size))
    match (ps.map d.accessBar).find? (fun k => k != 0) with
    | some k => d.illegal k (off / 4)
    | none => ps.foldl Dev.takeCarried d

/-- REGISTER_WRITE (R8, R10, R404 to R408): the control host's write, while the core runs. -/
def execRegisterWrite (t off size value : Nat) (s : State) : Host.Outcome State Fault Refusal :=
  s.run t fun d => if d.coreOn ∧ ¬ d.dur.saving ∧ ¬ d.dur.held then d.writeBar0 off size value else d

end Sys2Proof.Machine
end

