-- ==== Sys2Proof/Machine/Start.lean ====
section
/-! DEFINITION. Commands of power loss, resets and start-up (R208 to R215, R446, R503 to R515). -/

namespace Sys2Proof.Machine

/-! ### Power loss and the save -/

/-- MAIN_PFAIL (R208, R209): a save begins; where the core is dark there is nothing to save. -/
def execMainPfail (t : Nat) (s : State) : Host.Outcome State Fault Refusal :=
  s.run t fun d =>
    let d := { d with core := { d.core with powerGood := false } }
    if d.coreOn then d.saveOrStop 0
    else
      let d := d.darken
      { d with dur := { d.dur with held := true } }

/-- SAVE_COMPLETE (R210 to R212, R453, R458): where the energy lasted `bad` names the lines, as channel and line, that failed as
frozen channels were read; where it did not, or an alarm stands, the save is incomplete. -/
def execSaveComplete (t : Nat) (bad : Option (List (Nat × Nat))) (s : State) : Host.Outcome State Fault Refusal :=
  s.run t fun d =>
    if ¬ d.dur.saving then d
    else (match bad, d.cph.alarmed with
      | some lines, false => d.saveDone lines
      | _, _ => d.saveCut).stopped d.dur.saveWhy

/-- POWER_GOOD_RETURN (R210): a device that holds itself in reset starts. -/
def execPowerGoodReturn (t : Nat) (x : Straps) (s : State) : Host.Outcome State Fault Refusal :=
  s.run t fun d => { d with core := { d.core with powerGood := true, straps := x } }.leaveReset

/-! ### Resets -/

/-- The supervisor finds the sequence EEPROM: its registers, or a bad CRC (R437). -/
def Dev.loadEeprom (d : Dev) (e : Eeprom) : Dev :=
  if ¬ e.crcOk then ({ d with pwr := { d.pwr with eepromOk := false } }).raise (source 1 1) 2 0 0xFFFF 0
  else
    let l := e.prog.getD d.pwr.eeprom
    let rest := d.regs.filter (fun kv => !inEeprom kv.1)
    { d with regs := (l.filter (fun kv => inEeprom kv.1)).foldl (fun r kv => put r kv.1 kv.2) rest,
             pwr := { d.pwr with eepromOk := true, eeprom := l } }

/-- What the loss of the always-on supply leaves: nothing of the supervisor's but its EEPROM; the claim is gone (R244, R446). -/
def Dev.coldState (d : Dev) : Dev :=
  let d := if d.twn.snufOut then d.snuf false else d
  let d := d.darken
  let d := (d.fset TWN_STAT.CLAIM claimNone).fset PWR_RAIL_STAT.ON 0
  { d with
    core := { owed := some 0, powerGood := true }
    mdw := { d.mdw with buttons := [], armed := [], stuck := [], lamps := [] }
    sbp := {}
    pwr := { lastGasp := d.pwr.lastGasp, eeprom := d.pwr.eeprom }
    evt := { mirror := d.evt.mirror, mirLost := d.evt.mirLost } }

/-- COLD_START (R503, R507 stages 1 and 2): the always-on rail is good. -/
def execColdStart (t : Nat) (x : Straps) (e : Eeprom) (s : State) : Host.Outcome State Fault Refusal :=
  s.run t fun d =>
    let d := (d.coldState.finc EVR_LIFE.PCYCLE 1).fset PWR_CTL.BUSY 0
    let d := (d.restart x true).loadEeprom e
    if d.needsBoard then d.askSeq { bay := boardBay, on := true, reqs := [{ op := 1 }] } else d

/-- FULL_RESET (R503, R504, R515): RESET_N low for 10 µs. During a save it has no effect until the save ends. -/
def execFullReset (t : Nat) (s : State) : Host.Outcome State Fault Refusal :=
  s.run t fun d =>
    let d := { d with core := { d.core with resetN := true } }
    if d.dur.saving then d
    else if d.coreOn then (d.raise (source 0 1) 2 0 1 0).saveOrStop 1
    else
      let d := d.darken
      { d with core := { d.core with owed := some 1 }, dur := { d.dur with held := true } }

/-- RESET_N_RELEASE (R504): RESET_N is high again. -/
def execResetNRelease (t : Nat) (x : Straps) (s : State) : Host.Outcome State Fault Refusal :=
  s.run t fun d => { d with core := { d.core with resetN := false, straps := x } }.leaveReset

/-! ### Start-up -/

/-- The ROM loader may run: the board has power, and the device is out of reset (R507 stages 2 and 3). -/
def Dev.mayBoot (d : Dev) : Bool :=
  !d.coreOn && d.pwr.boardOn && !d.boardMoves && !d.dur.held && !d.core.killed && d.f PWR_STATE.DEVICE == devLit
    && !d.core.resetN && d.core.powerGood && (d.cph.kek || d.cph.alarmed)

/-- FIRMWARE_LOADED (R481, R507 stages 3 to 5): a copy of the active slot verifies, or one of the other. -/
def execFirmwareLoaded (t : Nat) (activeOk otherOk : Bool) (s : State) : Host.Outcome State Fault Refusal :=
  s.run t fun d =>
    if ¬ d.mayBoot then d
    else
      let a := d.bootSlot
      match d.bootOrder.find? (fun n => if n = a then activeOk else otherOk) with
      | some n => d.bootCore a n
      | none => d.kill

/-- The restore has failed: every region Offline, in Hold (R215, R482). -/
def Dev.restoreFails (d : Dev) : Dev :=
  ((d.fset DUR_RESTORE_STAT.PHASE 4).raise (source 11 2) 5 0 0xFFFF 0).enterHold holdOffline

/-- RESTORE_PHASE_A_DONE (R73, R175, R213 to R216, R293, R507 stage 6). Commissioning that waits for the DRBG comes first (R361). A
chain of seal records that is broken names the epochs lost. -/
def execRestorePhaseADone (t : Nat) (r : RestoreIn) (s : State) : Host.Outcome State Fault Refusal :=
  s.run t fun d =>
    let keyed := (look d.cph.slots slotSave).isSome
    if ¬ d.coreOn ∨ d.dur.saving ∨ d.f DUR_RESTORE_STAT.PHASE ≠ 1 ∨ (¬ keyed ∧ ¬ d.store.valid ∧ d.f FWM_STAT.HOLD = 0) then d
    else if ¬ keyed ∨ ¬ r.keyOk then d.restoreFails
    else
      let e := d.restoreEpoch r.badSeal
      let newest := d.dur.sealed.foldl max 0
      let d := match r.badSeal with
        | some b => if b ≤ newest then d.nameLost (e + 1) newest else d
        | none => d
      (d.restoreTo e r).phaseAEnd

/-- RESTORE_PHASE_B_DONE (R213, R215): every page of the restore epoch is in meadow; `done` names the pages whose image failed its
check. -/
def execRestorePhaseBDone (done : PhaseB) (s : State) : Host.Outcome State Fault Refusal :=
  s.run done.t fun d =>
    if d.f DUR_RESTORE_STAT.PHASE ≠ 2 ∨ ¬ d.coreOn ∨ d.dur.saving then d
    else
      let d := (done.bad.filter (fun p => d.mem.unrestored.contains (p / 16))).foldl Dev.badPage d
      (({ d with mem := { d.mem with unrestored := [] } }).fset DUR_RESTORE_STAT.PHASE 3).pump

/-- HORIZON or RECOVER has arrived where a fabric exists, the twin's report where only a twin does, or this device goes on
alone as the survivor (R293). -/
def Dev.horizonKnown (d : Dev) : Bool :=
  d.alone || (if d.on FAB_CFG.ENABLE then d.fab.horizonSeen || d.isSteward else d.twn.peerRep.isSome)
    || (!d.on FAB_CFG.ENABLE && d.twn.declared && d.f TWN_STAT.CLAIM == claimHeld)

/-- TRANSPORT_START (R33, R290, R507 stage 9): the transport lanterns start, `ACCEPT` is set, and journal entries are sent
again. -/
def execTransportStart (t : Nat) (s : State) : Host.Outcome State Fault Refusal :=
  s.run t fun d =>
    if d.core.transport ∨ ¬ d.coreOn ∨ d.dur.saving ∨ ¬ d.core.phaseADone ∨ ¬ d.tim.valid ∨ ¬ d.core.rolesSettled
      ∨ ¬ d.horizonKnown then d
    else
      let d := { d with core := { d.core with transport := true } }
      let d := d.fset HPT_CM_CTL.ACCEPT 1
      let d := if d.core.stage < 6 then d.stageAt 6 else d
      let again (f : Fj) : Bool := f.origin == d.selfId && f.state != FjState.failed
      ((d.fab.fj.filter again).foldl Dev.fjSend d).pump

end Sys2Proof.Machine
end

