-- ==== Sys2Proof/Machine/Reset.lean ====
section
/-! DEFINITION. Soft reset (R402, R503, R505) and lantern restart (R503, R506). -/

namespace Sys2Proof.Machine

/-! ### Soft reset -/

/-- The core runs and no save has begun, so that a soft reset or a lantern restart can be taken (R515). -/
def Dev.mayReset (d : Dev) : Bool := d.coreOn && !d.dur.saving && !d.dur.held

/-- Registers of class soft return to reset: those of the RING block, or all the others (R402, R505). -/
def Dev.softRegs (d : Dev) (ring : Bool) : Dev :=
  let isRing (k : Nat) : Bool := decide (0x200000 ≤ k / 128) && decide (k / 128 < 0x300000)
  let kept := d.regs.filter (fun kv => isRing kv.1 != ring)
  { d with regs := kept.foldl (fun l kv => put l kv.1 kv.2) (d.resetRegs [.soft]).regs }

/-- What happens to one ring command at the start of the drain: one that can be aborted or has not started completes
`ABORTED`; the others run on, `FW_ACTIVATE` in its barrier among them (R402). -/
def Dev.stopOne (d : Dev) (id : Nat) : Dev :=
  match d.cmd id with
  | none => d
  | some c =>
    if c.running then (if abortOps.contains c.op then d.stopCmd c else d)
    else if c.op = ocActivate then d
    else d.complete c csAborted

/-- Ring commands whose completion is awaited. -/
def Dev.ringCmds (d : Dev) : List Cmd := d.ring.cmds.filter (fun c => !c.sb && !c.mute)

/-- Fetching stops and the drain begins (R402 steps 1 to 3); waiting commands go first, so that none of them is let through by
the others' end. -/
def Dev.stopRing (d : Dev) (pcie : Bool) : Dev :=
  let ring := { d.ring with stopFetch := true, fetching := false, toFetch := [], drainAt := some d.clk, drainPcie := pcie }
  let d := { d with ring := ring }.discardCfx
  let waits (c : Cmd) : Bool := c.op == ocFlush || c.op == ocWait
  let ids := (d.ringCmds.filter waits ++ d.ringCmds.filter (fun c => !waits c)).map (·.id)
  ids.foldl Dev.stopOne d

/-- Every completion is written. -/
def Dev.drainOver (d : Dev) : Bool := d.ringCmds.isEmpty && d.ring.rings.all (fun r => r.2.held.isEmpty)

/-- The drain ends (R402 steps 4 and 5): a command that goes on writes no completion any more; the RING registers return to
reset, and after a soft reset the MSI-X table (R505). -/
def Dev.endDrain (d : Dev) : Dev :=
  let mute (c : Cmd) : Cmd := if c.sb then c else { c with mute := true }
  let ring := { d.ring with
    rings := [], cmds := d.ring.cmds.map mute, fetching := false, toFetch := [], hbAt := d.clk, doneTags := [],
    stopFetch := false, drainAt := none, drainPcie := false }
  let evt := if d.ring.drainPcie then { d.evt with unmasked := [], pba := [] } else d.evt
  { d.softRegs true with ring := ring, evt := evt }

/-- The drain ends once it is over, or 10 ms after it began. -/
def Dev.settleDrain (d : Dev) : Dev :=
  match d.ring.drainAt with
  | none => d
  | some a => if d.drainOver ∨ a + 10000000 ≤ d.clk then d.endDrain else d

/-- What a soft reset and a restart of lantern 15 share: the transaction is discarded, the rings drain, the other registers of
class soft return to reset. -/
def Dev.softParts (d : Dev) (pcie : Bool) : Dev :=
  let d := (d.stopRing pcie).softRegs false
  (({ d with latchRd := none, latchWr := [] }).setAuthority).settleDrain

/-- SOFT_RESET (R402, R503, R505, R513). -/
def execSoftReset (t : Nat) (s : State) : Host.Outcome State Fault Refusal :=
  s.run t fun d => if d.mayReset then ((d.raise (source 0 1) 2 0 2 0).softParts true).pump else d

/-- SOFT_RESET_DRAIN_EXPIRY (R402). -/
def execSoftResetDrainExpiry (t : Nat) (s : State) : Host.Outcome State Fault Refusal := s.run t fun d => d.settleDrain

/-! ### Lantern restart (R506, Table 18.2) -/

/-- Engines of a lantern that failed their watchdog within the last millisecond are in service again, and its roles lie on its
first eight engines: each of them reloads the image (R506 comes before R469). -/
def Dev.reloadEngines (d : Dev) (l : Nat) : Dev :=
  let back := ((d.age.wdFails.filter (fun x => x.1 / 9 == l && decide (d.clk ≤ x.2 + 1000000))).map (·.1))
  let age := { d.age with
    out := d.age.out.filter (fun p => !back.contains p), wdOut := d.age.wdOut.filter (fun p => !back.contains p),
    wdFails := d.age.wdFails.filter (fun x => x.1 / 9 != l), subst := d.age.subst.filter (fun x => x.1 != l),
    memCe := del d.age.memCe l }
  let d := { d with age := age }
  let w := d.workingSlots l
  (d.setRoles l (w.take 8)).setSpare l (w.getD 8 noSpare)

/-- A connection whose hot state is lost enters Error; what it had not accepted is abandoned (R69, Table 3.5). -/
def Dev.loseHot (d : Dev) (c : Nat) : Dev :=
  let mine (o : Op) : Bool := o.hosted && o.conn == c && o.phase != .applied && o.phase != .posted
  let d := d.setConn c (fun x => { x with state := .error, since := d.clk, hot := false, openMsg := none, dreqAt := none })
  (d.hpt.ops.filter mine).foldl (fun (d : Dev) o => (d.cancelReads o.id).abandon o) d

/-- Lanterns 0 to 7: hot connections are lost, the wick cache and the lantern's own counts are cleared. -/
def Dev.restartHost (d : Dev) (l : Nat) : Dev :=
  let lost (c : Nat × Conn) : Bool :=
    c.2.hot && c.2.lantern == l && (c.2.state == .offered || c.2.state == .ready || c.2.state == .draining)
  let d := ((d.hpt.conns.filter lost).map (·.1)).foldl Dev.loseHot d
  let tier := { d.tier with
    wick := d.tier.wick.filter (fun w => w.1 / 64 != l), plru := del d.tier.plru l,
    walks := d.tier.walks.filter (fun w => w.lantern != l) }
  (({ d with tier := tier }).fset (TIER_WICK_STAT.HIT l) 0).fset (TIER_WICK_STAT.MISS l) 0

/-- Lanterns 8 to 11: the tracker's migrations are cancelled, and their sources raise them again (R168). -/
def Dev.restartTier (d : Dev) (l : Nat) : Dev :=
  let ms := d.tier.migs.filter (fun m => m.lantern == l)
  let d := (ms.map (·.idx)).foldl Dev.cancelMig d
  let d := ((d.fset (TIER_MIG_STAT.COMMITTED (l - 8)) 0).fset (TIER_MIG_STAT.CANCELLED (l - 8)) 0).fset (TIER_MIG_STAT.REFUSED (l - 8)) 0
  ms.foldl (fun (d : Dev) m => if m.kind = .evacuation ∨ m.kind = .demand then d.queueMig m.idx m.kind m.dstTier else d) d

/-- Lantern 12: the lamp goes dark and the twin link down. -/
def Dev.restartTwin (d : Dev) : Dev := (d.setStatus .silent).twinDown

/-- Lantern 13: the fabric links go down. -/
def Dev.restartFabric (d : Dev) : Dev :=
  if d.liveLinks.isEmpty then d else (d.liveLinks.foldl Dev.fabDown d).ownLsa

/-- Lantern 15: the rings drain, the transaction is discarded, side-band requests in its order are answered 82h (R433). -/
def Dev.restartControl (d : Dev) : Dev :=
  let sb := d.ring.cmds.filter (fun c => c.sb && !c.running)
  let d := sb.foldl (fun (d : Dev) c => (d.dropCmd c.id).answerDark c) d
  d.softParts false

/-- Table 18.2. Lantern 14's work pauses while it restarts. -/
def Dev.restartRole (d : Dev) (l : Nat) : Dev :=
  if l < 8 then d.restartHost l
  else if l < 12 then d.restartTier l
  else if l = 12 then d.restartTwin
  else if l = 13 then d.restartFabric
  else if l = 15 then d.restartControl
  else d

/-- LANTERN_RESTART (R503, R506, R513, R515): a second one within 1 s is not taken, and all the lantern's engines are removed. -/
def execLanternRestart (t lantern : Nat) (s : State) : Host.Outcome State Fault Refusal :=
  s.run t fun d =>
    if ¬ d.mayReset ∨ 16 ≤ lantern ∨ d.age.restarting.contains lantern then d
    else if (look d.age.lastRestart lantern).any (fun a => d.clk < a + 1000000000) then
      (d.workingSlots lantern).foldl (fun (d : Dev) k => d.removeEngine (9 * lantern + k) false) d
    else
      let d := (d.raise (source 0 1) 2 0 3 0).reloadEngines lantern
      let d := d.restartRole lantern
      { d with age := { d.age with
        restarting := ins d.age.restarting lantern, lastRestart := put d.age.lastRestart lantern d.clk } }.pump

/-- LANTERN_RESTART_DONE (R506): the lantern goes on with what waited for it. -/
def execLanternRestartDone (t lantern : Nat) (s : State) : Host.Outcome State Fault Refusal :=
  s.run t fun d =>
    if ¬ d.age.restarting.contains lantern then d
    else
      let d := { d with age := { d.age with restarting := rem d.age.restarting lantern } }
      let d := if lantern = 12 then d.showStatus else d
      (d.serveReqs.pumpDies).pump

end Sys2Proof.Machine
end

