-- ==== Sys2Proof/Machine/Sbp.lean ====
section
/-! DEFINITION. The side-band management port (R424 to R433): I3C, MCTP and PLDM, the vendor message set, authorisation, and
service while the core is dark. -/

namespace Sys2Proof.Machine

/-! ### The I3C target (R424, R425) -/

/-- The port has a dynamic address. -/
def Dev.addressed (d : Dev) : Bool := d.on SBP_STAT.DYN_ADDR

/-- The port answers a directed common command. -/
def Dev.i3cSay (d : Dev) (bs : List Byte) : Dev := if d.addressed then d.send (.i3c bs) else d

/-- Two bytes, the higher first. -/
def be2 (n : Nat) : List Byte := [BitVec.ofNat 8 (n / 256), BitVec.ofNat 8 n]

/-- ENTDAA: a target without an address takes one. -/
def execEntdaa (t addr : Nat) (s : State) : Host.Outcome State Fault Refusal :=
  s.run t fun d => if d.addressed then d else d.fset SBP_STAT.DYN_ADDR addr

/-- RSTDAA. -/
def execRstdaa (t : Nat) (s : State) : Host.Outcome State Fault Refusal := s.run t fun d => d.fset SBP_STAT.DYN_ADDR 0

/-- ENEC: in-band interrupts are enabled; messages that wait are announced. -/
def execEnec (t : Nat) (s : State) : Host.Outcome State Fault Refusal :=
  s.run t fun d =>
    let d := d.fset SBP_STAT.IBI_EN 1
    if d.sbp.notify.isEmpty then d else d.inBand

/-- DISEC. -/
def execDisec (t : Nat) (s : State) : Host.Outcome State Fault Refusal := s.run t fun d => d.fset SBP_STAT.IBI_EN 0

/-- A length that SETMWL and SETMRL accept (Table 14.1). -/
def lengthFits (n : Nat) : Bool := decide (69 ≤ n) && decide (n ≤ 256)

/-- SETMWL. -/
def execSetmwl (t len : Nat) (s : State) : Host.Outcome State Fault Refusal :=
  s.run t fun d => if lengthFits len then { d with sbp := { d.sbp with mwl := len } } else d

/-- SETMRL. -/
def execSetmrl (t len : Nat) (s : State) : Host.Outcome State Fault Refusal :=
  s.run t fun d => if lengthFits len then { d with sbp := { d.sbp with mrl := len } } else d

/-- The 48-bit provisional ID (Table 14.1). -/
def provisionalId : Nat := Config.mipiId.toNat * 2 ^ 33 + 0x8200 * 65536 + Config.serial.toNat % 65536

/-- GETPID: the provisional ID, its highest byte first. -/
def execGetpid (t : Nat) (s : State) : Host.Outcome State Fault Refusal :=
  s.run t fun d => d.i3cSay (leBytes 6 provisionalId).reverse

/-- GETBCR. -/
def execGetbcr (t : Nat) (s : State) : Host.Outcome State Fault Refusal := s.run t fun d => d.i3cSay [0x06]

/-- GETDCR. -/
def execGetdcr (t : Nat) (s : State) : Host.Outcome State Fault Refusal := s.run t fun d => d.i3cSay [0x00]

/-- GETSTATUS: the I3C specification lays the status out. -/
def execGetstatus (t : Nat) (s : State) : Host.Outcome State Fault Refusal :=
  s.run t fun d => d.i3cSay (Config.standardReply 0x90 [BitVec.ofNat 8 d.sbp.notify.length])

/-- GETMWL. -/
def execGetmwl (t : Nat) (s : State) : Host.Outcome State Fault Refusal := s.run t fun d => d.i3cSay (be2 d.sbp.mwl)

/-- GETMRL: what the I3C specification adds for a target with an IBI payload follows the length. -/
def execGetmrl (t : Nat) (s : State) : Host.Outcome State Fault Refusal :=
  s.run t fun d => d.i3cSay (be2 d.sbp.mrl ++ Config.standardReply 0x8C [])

/-- RSTACT (R425): 00h loses the MCTP state; 01h and 02h are answered with NACK, as any byte the table does not list. -/
def execRstact (t byte : Nat) (s : State) : Host.Outcome State Fault Refusal :=
  s.run t fun d =>
    if byte = 0 then { d.fset SBP_STAT.EID 0 with sbp := { d.sbp with notify := [] } } else d.i3cSay []

/-- HOT_JOIN_TIMER (R424): requested once, where the port has no address by then. -/
def execHotJoinTimer (t : Nat) (s : State) : Host.Outcome State Fault Refusal :=
  s.run t fun d =>
    if d.addressed ∨ d.sbp.hotJoin then d else { d with sbp := { d.sbp with hotJoin := true } }.send (.i3c [0x02])

/-! ### MCTP control (R426) -/

/-- A message arrives: a packet whose PEC fails is dropped and counted, a message that stands is counted (R426, `SBP_CNT`). -/
def Dev.mctpIn (d : Dev) (pec : Bool) (act : Dev → Dev) : Dev :=
  if ¬ d.addressed then d
  else if ¬ pec then d.finc SBP_CNT.PEC_ERR 1
  else act (d.finc SBP_CNT.MSGS 1)

/-- A control answer: command code, completion code, data. -/
def Dev.control (d : Dev) (code cc : Byte) (bs : List Byte) : Dev := d.send (.mctp 0 (code :: cc :: bs))

/-- SET_ENDPOINT_ID: the IDs that DSP0236 reserves are refused. -/
def execSetEndpointId (t : Nat) (pec : Bool) (eid : Nat) (s : State) : Host.Outcome State Fault Refusal :=
  s.run t fun d => d.mctpIn pec fun d =>
    if eid < 8 ∨ 254 < eid then d.control 1 2 []
    else (d.fset SBP_STAT.EID eid).control 1 0 [BitVec.ofNat 8 eid]

/-- GET_ENDPOINT_ID. -/
def execGetEndpointId (t : Nat) (pec : Bool) (s : State) : Host.Outcome State Fault Refusal :=
  s.run t fun d => d.mctpIn pec fun d => d.control 2 0 [BitVec.ofNat 8 (d.f SBP_STAT.EID)]

/-- GET_MCTP_VERSION_SUPPORT: version 1.3, for the types supported. -/
def execGetMctpVersionSupport (t : Nat) (pec : Bool) (mtype : Nat) (s : State) : Host.Outcome State Fault Refusal :=
  s.run t fun d => d.mctpIn pec fun d =>
    if mtype = 0 ∨ mtype = 1 ∨ mtype = 0x7E ∨ mtype = 0xFF then d.control 4 0 (Config.standardReply 0x04 [1, 3, BitVec.ofNat 8 mtype])
    else d.control 4 0x80 []

/-- GET_MESSAGE_TYPE_SUPPORT: control, PLDM, vendor defined. -/
def execGetMessageTypeSupport (t : Nat) (pec : Bool) (s : State) : Host.Outcome State Fault Refusal :=
  s.run t fun d => d.mctpIn pec fun d => d.control 5 0 [3, 0x00, 0x01, 0x7E]

/-- GET_VENDOR_DEFINED_MESSAGE_SUPPORT: the PCI vendor ID. -/
def execGetVendorDefinedMessageSupport (t : Nat) (pec : Bool) (s : State) : Host.Outcome State Fault Refusal :=
  s.run t fun d => d.mctpIn pec fun d => d.control 6 0 (0 :: be2 Config.vendor.toNat)

/-! ### PLDM (R427, R428) -/

/-- PLDM_TYPE0_COMMAND: DSP0240 lays the answer out. -/
def execPldmType0Command (t : Nat) (pec : Bool) (code : Nat) (body : List Byte) (s : State) :
    Host.Outcome State Fault Refusal :=
  s.run t fun d => d.mctpIn pec fun d => d.send (.mctp 1 (0 :: BitVec.ofNat 8 code :: Config.standardReply code body))

/-- The sensors of R427 under the model's own numbers: a register field, and whether a dark core's supervisor still answers it
(Table 14.4). -/
def Dev.sensorField (d : Dev) (n : Nat) : Option (Fld × Bool) :=
  if n = 1 then some (THM_MAX.TMAX, false)
  else if 2 ≤ n ∧ n < 18 then some (THM_THERM.TEMP (n - 2), true)
  else if n = 18 then some (PWR_HK.CODE 16, true)
  else if n = 19 then some (PWR_STATE.DEVICE, true)
  else if n = 20 then some (TWN_STAT.PEER, false)
  else if n = 21 then some (DUR_BUDGET_STAT.STAGE, false)
  else if n = 22 then some (DUR_TIME_STAT.STATE, false)
  else if n = 23 then some (SBP_STAT.MAIN_ABSENT, true)
  else if 24 ≤ n ∧ n < 72 ∧ d.on (PWR_RAIL.EN (n - 24)) ∧ d.f (PWR_RAIL.SENSE (n - 24)) ≤ 45 then
    some (PWR_HK.CODE (d.f (PWR_RAIL.SENSE (n - 24))), true)
  else none

/-- A sensor's answer: 0 and its value, 1 unavailable, 2 no such sensor. -/
def Dev.sensorBytes (d : Dev) (n : Nat) : List Byte :=
  match d.sensorField n with
  | none => [2]
  | some (x, always) => if d.serves ∨ always then 0 :: leBytes 4 (d.view x) else [1]

/-- PLDM_SENSOR_READ: the PDR repository (sensor 0), or a sensor. -/
def execPldmSensorRead (t : Nat) (pec : Bool) (sensor : Nat) (s : State) : Host.Outcome State Fault Refusal :=
  s.run t fun d => d.mctpIn pec fun d =>
    d.send (.mctp 1 (2 :: BitVec.ofNat 8 sensor :: (if sensor = 0 then Config.standardReply 0x251 [] else d.sensorBytes sensor)))

/-- A PLDM type 5 answer: command, completion code. -/
def Dev.pldm5 (d : Dev) (code cc : Byte) : Dev := d.send (.mctp 1 [5, code, cc])

/-- A PLDM type 5 answer whose code DSP0267 gives: the model names its case alone. -/
def Dev.pldmErr (d : Dev) (code case_ : Byte) : Dev := d.send (.mctp 1 (5 :: code :: Config.standardReply 0x500 [code, case_]))

/-- A PLDM type 5 request: 82h while the core is dark (Table 14.4). -/
def Dev.type5 (d : Dev) (pec : Bool) (code : Byte) (act : Dev → Dev) : Dev :=
  d.mctpIn pec fun d => if ¬ d.serves then (d.finc SBP_CNT.DARK 1).pldm5 code 0x82 else act d

/-- REQUEST_UPDATE: busy while a `FW_STAGE` of the control host is incomplete, or an update is open. -/
def execRequestUpdate (t : Nat) (pec : Bool) (s : State) : Host.Outcome State Fault Refusal :=
  s.run t fun d => d.type5 pec 0x10 fun d =>
    if d.sbp.update ∨ d.ring.cmds.any (fun c => c.op == ocStage && !c.sb) then d.pldmErr 0x10 1
    else { d with sbp := { d.sbp with update := true, updOk := false } }.pldm5 0x10 0

/-- PLDM_FIRMWARE_DATA: written into the inactive slot, as `FW_STAGE` writes it. -/
def execPldmFirmwareData (t : Nat) (pec : Bool) (i : Image) (s : State) : Host.Outcome State Fault Refusal :=
  s.run t fun d => d.type5 pec 0x15 fun d =>
    if ¬ d.sbp.update ∨ d.stageBarred then d.pldmErr 0x15 2 else (d.stageChunk i false).pldm5 0x15 0

/-- VERIFY_COMPLETE: the signature check of the image; an image that fails ends the update. -/
def execVerifyComplete (t : Nat) (pec : Bool) (i : Image) (s : State) : Host.Outcome State Fault Refusal :=
  s.run t fun d => d.type5 pec 0x17 fun d =>
    if ¬ d.sbp.update ∨ d.stageBarred then d.pldmErr 0x17 2
    else
      let d := d.stageChunk i true
      { d with sbp := { d.sbp with update := i.verified, updOk := i.verified } }.pldm5 0x17 (if i.verified then 0 else 1)

/-- A side-band command enters lantern 15's order at receipt, as though fetched, and starts if its turn has come (R432). -/
def Dev.sideCmd (d : Dev) (code inst op : Nat) (body : List (BitVec 64)) (act : Dev → Cmd → Dev) : Dev :=
  let c : Cmd := { id := d.ring.nextCmd, ring := code, tag := inst, op := op, body := body, started := d.clk, sb := true }
  let ring := { d.ring with nextCmd := c.id + 1, cmds := d.ring.cmds ++ [c] }
  { d with ring := ring }.startCmd c.id op (fun _ => true) act

/-- `FW_ARM` was accepted within the last 10 s (R428). -/
def Dev.armed (d : Dev) : Bool := d.sbp.arm.any (fun a => decide (d.clk ≤ a + 10000000000))

/-- ACTIVATE_FIRMWARE (R401, R428): as `FW_ACTIVATE`, with its barrier. -/
def execActivateFirmware (t : Nat) (pec : Bool) (s : State) : Host.Outcome State Fault Refusal :=
  s.run t fun d => d.type5 pec 0x1A fun d =>
    if ¬ d.armed ∨ ¬ d.sbp.update ∨ ¬ d.sbp.updOk then d.pldmErr 0x1A 3
    else if d.ring.barrier.isSome then d.pldmErr 0x1A 1
    else
      let ring := { d.ring with barrier := some d.ring.nextCmd }
      { d with ring := ring, sbp := { d.sbp with update := false, updOk := false } }.sideCmd vcActivate 0 ocActivate [] Dev.actActivate

/-! ### The vendor message set (R429 to R431) -/

/-- A vendor answer: completion code, the request's instance, payload (R429). -/
def Dev.say (d : Dev) (code cc : Nat) (a : SbReq) (body : List Nat) : Dev := d.send (.vendor code cc (a.inst :: body))

/-- 82h: the request needs lantern 15, which does not serve (R433). -/
def Dev.sayDark (d : Dev) (code : Nat) (a : SbReq) : Dev := (d.finc SBP_CNT.DARK 1).say code 0x82 a []

/-- A vendor request arrives (R426, R429); a malformed one is answered 01h. -/
def Dev.vendorIn (d : Dev) (code : Nat) (a : SbReq) (act : Dev → Dev) : Dev :=
  d.mctpIn a.pec fun d => if a.malformed then d.say code 1 a [] else act d

/-- The challenge of a request is the one issued last, within its second (R431). -/
def Dev.challengeGood (d : Dev) (a : SbReq) : Bool :=
  d.sbp.challenge.any (fun c => a.challenge == some c.1 && decide (d.clk ≤ c.2 + 1000000000))

/-- A challenge that a request carries is spent with it. -/
def Dev.spend (d : Dev) (a : SbReq) : Dev :=
  { d with sbp := { d.sbp with challenge := d.sbp.challenge.filter (fun c => a.challenge != some c.1) } }

/-- Authorised requests can be checked: `AUTH_EN`, and a copy of the key (R430). -/
def Dev.provisioned (d : Dev) : Bool := d.on SBP_CFG.AUTH_EN && d.sbp.authKey

/-- 80h: counted, with an event of severity 3 (R431). -/
def Dev.authFail (d : Dev) (code : Nat) (a : SbReq) : Dev :=
  ((d.finc SBP_CNT.AUTH_FAIL 1).raise (source 15 3) 3 0 1 0).say code 0x80 a []

/-- An authorised request (R430, R431). -/
def Dev.authIn (d : Dev) (code : Nat) (a : SbReq) (act : Dev → Dev) : Dev :=
  d.vendorIn code a fun d =>
    if ¬ d.provisioned then d.say code 0x83 a []
    else if d.challengeGood a ∧ a.tagOk then act (d.spend a)
    else (d.spend a).authFail code a

/-- An authorised request that lantern 15 serves (Table 14.4). -/
def Dev.litIn (d : Dev) (code : Nat) (a : SbReq) (act : Dev → Dev) : Dev :=
  d.authIn code a fun d => if ¬ d.serves then d.sayDark code a else act d

/-- One that needs authority over the set-up (R417). -/
def Dev.ruledIn (d : Dev) (code : Nat) (a : SbReq) (act : Dev → Dev) : Dev :=
  d.litIn code a fun d => if d.f SBP_STAT.AUTHORITY = 0 then d.say code 0x81 a [] else act d

/-- Offsets GET_REG serves while the core is dark: GLB_ID, PWR, THM, SBP (Table 14.4). -/
def darkReg (o : Nat) : Bool :=
  decide (o < 0x10) || (decide (0xC00000 ≤ o) && decide (o < 0xE00000)) || (decide (0x3000000 ≤ o) && decide (o < 0x3100000))

/-- GET_REG (R429, R495): live values; the event window's cursor does not move. -/
def execGetReg (t : Nat) (a : SbReq) (off count : Nat) (s : State) : Host.Outcome State Fault Refusal :=
  s.run t fun d => d.vendorIn 1 a fun d =>
    let os := (List.range count).map (fun k => off + 8 * k)
    if off % 8 ≠ 0 ∨ count < 1 ∨ 16 < count then d.say 1 1 a []
    else if ¬ d.serves ∧ os.any (fun o => !darkReg o) then d.sayDark 1 a
    else d.say 1 0 a (os.map d.read8)

/-- GET_CHALLENGE (R431): the power-cycle count above a count that advances at each. -/
def execGetChallenge (t : Nat) (a : SbReq) (s : State) : Host.Outcome State Fault Refusal :=
  s.run t fun d => d.vendorIn 2 a fun d =>
    let c := d.f EVR_LIFE.PCYCLE * 2 ^ 32 + d.sbp.chalCnt.toNat
    { d with sbp := { d.sbp with challenge := some (c, d.clk), chalCnt := d.sbp.chalCnt + 1 } }.say 2 0 a [c]

/-- Records a side-band fetch reads: the last-gasp record alone while the core is dark (Table 14.4). -/
def Dev.sideRecords (d : Dev) (first count : Nat) : List Record :=
  if d.serves then d.recordsFrom first count else (d.pwr.lastGasp.toList.drop first).take count

/-- SB_LOG_FETCH (R494): up to 15 records. -/
def execSbLogFetch (t : Nat) (a : SbReq) (first count : Nat) (s : State) : Host.Outcome State Fault Refusal :=
  s.run t fun d => d.authIn 3 a fun d =>
    if count < 1 ∨ 15 < count then d.say 3 1 a []
    else d.say 3 0 a (((d.sideRecords first count).flatMap Record.bytes).map BitVec.toNat)

/-- SB_LOG_CLEAR (R494): the clearing record's INSTANCE is 1. -/
def execSbLogClear (t : Nat) (a : SbReq) (s : State) : Host.Outcome State Fault Refusal :=
  s.run t fun d => d.litIn 4 a fun d =>
    let n := d.evt.recs.length
    (d.clearLog 1).say 4 0 a [n]

/-- POWER (R453): answered when the operation completes; a dark device powers up, leaves Banked or powers off (Table 14.4). -/
def execPower (t : Nat) (a : SbReq) (op bay : Nat) (s : State) : Host.Outcome State Fault Refusal :=
  s.run t fun d => d.authIn vcPower a fun d =>
    if op = 0 ∨ 6 < op then d.say vcPower 1 a []
    else if ¬ d.serves ∧ ¬ (op = 1 ∨ op = 2 ∨ op = 4) then d.sayDark vcPower a
    else d.powerReq { op := op, bay := bay, who := 2, inst := a.inst }

/-- SB_DECLARE (R243). -/
def execSbDeclare (t : Nat) (a : SbReq) (s : State) : Host.Outcome State Fault Refusal :=
  s.run t fun d => d.litIn 6 a fun d => d.declare.say 6 0 a [csDone]

/-- SB_EVACUATE (R327, R355): KIND and INDEX as Table 12.7 lays them out. -/
def execSbEvacuate (t : Nat) (a : SbReq) (kind index : Nat) (s : State) : Host.Outcome State Fault Refusal :=
  s.run t fun d => d.litIn vcEvacuate a fun d =>
    d.sideCmd vcEvacuate a.inst ocEvacuate [BitVec.ofNat 64 (kind % 256 + 256 * (index % 256))] Dev.actEvacuate

/-- SB_THAW (R324): as `THAW`; an illegal one is answered 01h. -/
def execSbThaw (t : Nat) (a : SbReq) (ch : Nat) (s : State) : Host.Outcome State Fault Refusal :=
  s.run t fun d => d.ruledIn 8 a fun d =>
    if 24 ≤ ch then d.say 8 1 a []
    else if (d.thaw ch).2 = 0 then (d.writeThaw ch).say 8 0 a [csDone]
    else (d.writeThaw ch 1).say 8 1 a []

/-- The device is in Hold, where the side-band configuration commands are answered `HELD` (Table 16.3). -/
def Dev.inHold (d : Dev) : Bool := d.f FWM_STAT.HOLD != 0

/-- SB_CFG_OPEN (R417, R418): refused, with the holder shown, unless the transaction is Closed. -/
def execSbCfgOpen (t : Nat) (a : SbReq) (s : State) : Host.Outcome State Fault Refusal :=
  s.run t fun d => d.ruledIn 9 a fun d =>
    if d.inHold then d.say 9 0 a [csHeld]
    else if d.f CFX_CTL.STATE ≠ 0 then d.say 9 0 a [csRefused, d.f CFX_CTL.HOLDER]
    else (d.openCfx holderSide).say 9 0 a [csDone]

/-- The side-band manager holds the Open transaction. -/
def Dev.sideHolds (d : Dev) : Bool := d.f CFX_CTL.STATE == 1 && d.f CFX_CTL.HOLDER == holderSide

/-- SB_CFG_WRITE (R408, R429): STG fields go to the shadow bank; without a bank of the manager's it is illegal kind 4. -/
def execSbCfgWrite (t : Nat) (a : SbReq) (off value : Nat) (s : State) : Host.Outcome State Fault Refusal :=
  s.run t fun d => d.litIn 10 a fun d =>
    if off % 8 ≠ 0 then d.say 10 1 a []
    else if d.inHold then d.say 10 0 a [csHeld]
    else if d.sideHolds then ((partsOf off 8 (value % 2 ^ 64)).foldl Dev.toShadow d).say 10 0 a [csDone]
    else (d.illegal 4 (off / 4) 1).say 10 1 a []

/-- What a side-band commit does at its turn (R409, R417, R418): without an Open transaction of its own, or authority, check 1
fails. -/
def Dev.sideCommit (d : Dev) (c : Cmd) : Dev :=
  let st := d.f CFX_CTL.STATE
  let when_ := c.byte 16
  if st = 2 then ((d.illegal 5 0 1).dropCmd c.id).send (.vendor vcCommit 1 [c.tag])
  else if st = 3 ∧ d.f CFX_CTL.HOLDER = holderSide then d.complete c csRefused 9
  else if ¬ d.sideHolds ∨ d.f SBP_STAT.AUTHORITY = 0 then
    (((d.fset CFX_RESULT.OUTCOME 2).fset CFX_RESULT.CHECK 1).fset CFX_RESULT.OFFSET 0).complete c csRefused 1
  else if when_ ≠ 0 ∧ ¬ d.tim.valid then d.complete c csNotReady 2
  else d.acceptCommit (some c.id) when_ (c.u64 24)

/-- SB_CFG_COMMIT (R409, R417). -/
def execSbCfgCommit (t : Nat) (a : SbReq) (when time : Nat) (s : State) : Host.Outcome State Fault Refusal :=
  s.run t fun d => d.ruledIn vcCommit a fun d =>
    d.sideCmd vcCommit a.inst ocCommit [BitVec.ofNat 64 (when % 256), BitVec.ofNat 64 time] Dev.sideCommit

/-- SB_CFG_DISCARD (R409, R419): its own Open transaction, or the control host's while the main side is absent. -/
def execSbCfgDiscard (t : Nat) (a : SbReq) (s : State) : Host.Outcome State Fault Refusal :=
  s.run t fun d => d.litIn 12 a fun d =>
    if d.inHold then d.say 12 0 a [csHeld]
    else if d.sideHolds ∨ (d.hostHolds ∧ d.on SBP_STAT.MAIN_ABSENT) then d.discardCfx.say 12 0 a [csDone]
    else d.say 12 0 a [csRefused]

/-- SB_FW_CONFIRM (R480). -/
def execSbFwConfirm (t : Nat) (a : SbReq) (s : State) : Host.Outcome State Fault Refusal :=
  s.run t fun d => d.litIn vcConfirm a fun d => d.sideCmd vcConfirm a.inst ocConfirm [] Dev.actConfirm

/-- SB_KEY_LOAD_BLOB (R369). -/
def execSbKeyLoadBlob (t : Nat) (a : SbReq) (b : Blob) (s : State) : Host.Outcome State Fault Refusal :=
  s.run t fun d => d.litIn vcBlob a fun d => d.sideCmd vcBlob a.inst ocBlob [] (Dev.actBlob b)

/-- FW_ARM (R428). -/
def execFwArm (t : Nat) (a : SbReq) (s : State) : Host.Outcome State Fault Refusal :=
  s.run t fun d => d.litIn 15 a fun d => { d with sbp := { d.sbp with arm := some d.clk } }.say 15 0 a [csDone]

/-- FW_ARM_EXPIRY (R428): 10 s have passed. -/
def execFwArmExpiry (t : Nat) (s : State) : Host.Outcome State Fault Refusal :=
  s.run t fun d => if d.sbp.arm.any (fun a => a + 10000000000 ≤ d.clk) then { d with sbp := { d.sbp with arm := none } } else d

end Sys2Proof.Machine
end

