-- ==== Sys2Proof/Machine/Time.lean ====
section
/-! DEFINITION. Commands of device time, epochs, completion reports and recovery (R201 to R206, R291 to R293). -/

namespace Sys2Proof.Machine

/-! ### Epoch closing (R205) -/

/-- The open epoch closes and what takes effect at a closing instant does: agreed region changes, a scheduled bank, a formed
plan, membership; the next epoch opens (R48, R205, R280, R292, R411, R415, R464). -/
def Dev.closeEpoch (d : Dev) : Dev :=
  let k := d.dur.openEp
  let d := ((d.shutEpoch.applyAgreed (k * 1000000)).applyDue).applyPlan k
  (d.joinMembers.openEpoch).pump

/-- EPOCH_CLOSE (R205). -/
def execEpochClose (t : Nat) (s : State) : Host.Outcome State Fault Refusal :=
  s.run t fun d => if d.dur.isOpen ∧ d.dur.openEp * 1000000 ≤ d.now ∧ ¬ d.dur.saving then d.closeEpoch else d

/-! ### Device time (R201 to R204) -/

/-- Magnitude of the offset of external time from device time, in ns. -/
def Dev.offsetOf (d : Dev) (ext : Nat) : Nat := ((ext : Int) - (d.now : Int)).natAbs

/-- Device time goes forward to external time in one step. -/
def Dev.setTime (d : Dev) (ext : Nat) : Dev :=
  { d with tim := { d.tim with off := (ext : Int) - (d.clk : Int), slew := 0, slewFrom := d.clk } }

/-- The servo begins to slew in the offset measured, in either direction (R24, R26). -/
def Dev.servo (d : Dev) (ext : Nat) : Dev :=
  { d with tim := { d.tim with off := d.tim.off + d.slewed, slew := (ext : Int) - (d.now : Int), slewFrom := d.clk } }

/-- Device time is valid once it is later than the newest seal record's closing instant; the epoch it lies in opens (R204). -/
def Dev.validate (d : Dev) : Dev :=
  if d.tim.valid ∨ d.now ≤ d.tim.pend then d
  else
    let d := { d with tim := { d.tim with valid := true, waitFrom := 0 } }
    (if d.core.stage < 5 then d.stageAt 5 else d).mayOpen

/-- The device is Locked (Table 6.3); reports go on from this instant (R202). -/
def Dev.lock (d : Dev) : Dev :=
  let was := d.f DUR_TIME_STAT.STATE
  let d := d.fset DUR_TIME_STAT.STATE timeLocked
  let at_ := if was = timeHoldover then d.tim.lockAt else d.now
  { d with tim := { d.tim with lockCnt := 0, lockAt := at_ } }

/-- Free-run has been left: the one forward step, in whose cycle the open epoch closes, whether or not its interval is over; no
number is used again. Where external time is behind, device time slews back (R203). -/
def Dev.stepOnce (d : Dev) (ext : Nat) : Dev :=
  let d := { d with tim := { d.tim with leaving := false } }
  if ext ≤ d.now then d
  else
    let d := d.setTime ext
    if d.dur.isOpen ∧ ¬ d.dur.saving then
      ({ d with dur := { d.dur with stepAt := d.now, stepEp := d.dur.openEp + d.epochLen } }).closeEpoch
    else d

/-- A pulse in a state that is not Locked: 16 in a row below 200 ns lock the device. -/
def Dev.countPulse (d : Dev) (off : Nat) (tod : Bool) : Dev :=
  let n := if tod && decide (off < 200) then d.tim.lockCnt + 1 else 0
  let d := { d with tim := { d.tim with lockCnt := n } }
  if n < 16 then d else d.lock

/-- A pulse brings device time to external time: before device time is first set it is taken from the pulse, never back; later the
servo slews (R26, R201). -/
def Dev.steer (d : Dev) (ext : Nat) : Dev :=
  if d.f DUR_TIME_STAT.STATE = timeInvalid ∧ d.now + 200 ≤ ext then d.setTime ext else d.servo ext

/-- A pulse (R201). -/
def Dev.pulse (d : Dev) (ext : Nat) (tod : Bool) : Dev :=
  let d := { d with tim := { d.tim with ptp := tod } }
  let d := if d.tim.leaving ∧ tod then d.stepOnce ext else d
  let off := d.offsetOf ext
  let st := d.f DUR_TIME_STAT.STATE
  let d : Dev := if st = timeLocked then
      (if d.f DUR_EPOCH_CFG.TERR_MAX_NS ≤ off then
        { d.fset DUR_TIME_STAT.STATE timeUnlocked with tim := { d.tim with lockCnt := 0 } } else d)
    else d.countPulse off tod
  let d := if d.f DUR_TIME_STAT.STATE = timeHoldover then d else d.fset DUR_TIME_STAT.TERR_NS (off + 2)
  let d := if tod then d.steer ext else d
  if d.f DUR_TIME_STAT.STATE = timeInvalid then d else d.validate

/-- TIME_PPS (R201 to R204): `ext` is the external time of the pulse, `tod` whether PTP time of day is present. -/
def execTimePps (t ext : Nat) (tod : Bool) (s : State) : Host.Outcome State Fault Refusal :=
  s.run t fun d =>
    if ¬ d.coreOn ∨ d.dur.saving ∨ d.f DUR_EPOCH_CFG.TIME_SRC = 2 then d else d.pulse ext tod

/-- PTP_LOSS (R201): PTP or TIME_PPS is lost; `spread` is that of the servo's frequency estimates in ns per s. -/
def execPtpLoss (t spread : Nat) (s : State) : Host.Outcome State Fault Refusal :=
  s.run t fun d =>
    let d := { d with tim := { d.tim with ptp := false, lockCnt := 0 } }
    if d.f DUR_TIME_STAT.STATE ≠ timeLocked then d
    else { d.fset DUR_TIME_STAT.STATE timeHoldover with tim := { d.tim with
      lostAt := d.clk, terrAtLoss := d.terrNow, spread := max 50 spread } }

/-- HOLDOVER_LIMIT (R201): the estimate passes `TERR_MAX_NS`, or Holdover lasts longer than `HOLD_MAX_S`. -/
def execHoldoverLimit (t : Nat) (s : State) : Host.Outcome State Fault Refusal :=
  s.run t fun d =>
    let e := d.terrNow
    if d.f DUR_TIME_STAT.STATE = timeHoldover ∧
        (d.f DUR_EPOCH_CFG.TERR_MAX_NS < e ∨ d.tim.lostAt + d.f DUR_EPOCH_CFG.HOLD_MAX_S * 1000000000 < d.clk) then
      (d.fset DUR_TIME_STAT.STATE timeUnlocked).fset DUR_TIME_STAT.TERR_NS e
    else d

/-- TIME_VALID_WAIT (R204): 10 s of waiting for valid time. -/
def execTimeValidWait (t : Nat) (s : State) : Host.Outcome State Fault Refusal :=
  s.run t fun d =>
    if ¬ d.coreOn ∨ d.tim.valid ∨ d.tim.waitFrom = 0 ∨ d.clk < d.tim.waitFrom + 10000000000 then d
    else ({ d with tim := { d.tim with waitFrom := 0 } }).raise (source 11 3) 2 0 0xFFFF 0

/-! ### Reports and recovery (R206, R291, R293) -/

/-- The restore is done again, to the cut (R216). -/
def Dev.restoreAgain (d : Dev) : Dev :=
  let d := { d with tier := { d.tier with heathFree := d.allHeath, home := [], migs := [] } }
  ((d.restoreTo (d.restoreEpoch none) {}).reportRestore).settleHorizon

/-- RECOVER(C) at a member: a running one begins a save and restores to C; a restarting one returns to C (R72, R293). A restore that
was short is answered by it. -/
def Dev.recover (d : Dev) (c : Nat) : Dev :=
  let ahead := decide (c < d.f DUR_EPOCH_STAT.LOCAL)
  if d.core.transport then
    if ahead ∨ d.dur.isOpen then ({ d with dur := { d.dur with cut := some c } }).saveOrStop 3 else d
  else
    let d := { d with fab := { d.fab with horizonSeen := true } }
    if ¬ d.core.phaseADone then { d with dur := { d.dur with cut := some c } }
    else if ahead then ({ d with dur := { d.dur with cut := some c } }).restoreAgain
    else ({ d with dur := { d.dur with short := false } }).horizonToCut c

/-- A reported value differs from this device's (R206). -/
def Dev.reportDiffers (d : Dev) (lms : Nat) (policy : Bool) : Bool :=
  lms != d.f DUR_EPOCH_CFG.L_MS || policy != d.on DUR_EPOCH_CFG.POLICY

/-- The report's length and policy, and those of the other members' reports, agree with the device's, or an event tells that
they do not (R206). -/
def Dev.compareMembers (d : Dev) (src : Nat) (r : EpochReport) : Dev :=
  let others := d.fab.members.filter (fun m => m.id != d.selfId && m.id != src && m.epoch.isSome)
  let differs := d.reportDiffers r.lms r.policy || others.any (fun m => d.reportDiffers m.lms m.policy)
  let was := d.dur.mismatch
  let d := { d with dur := { d.dur with mismatch := differs } }
  if differs ∧ ¬ was then d.raise (source 11 4) 2 0 0xFFFF 0 else d

/-- The lowest epoch restored, where a member's restore was short, every member has reported and the policy is cut (R72, R293). -/
def Dev.cutWanted (d : Dev) : Option Nat :=
  if d.on DUR_EPOCH_CFG.POLICY ∨ ¬ d.fab.members.any (·.short) then none else lowestEpoch d.fab.members

/-- The members' short restores are answered by a RECOVER. -/
def Dev.cutTaken (d : Dev) : Dev :=
  { d with fab := { d.fab with members := d.fab.members.map (fun m => { m with short := false }) } }

/-- EPOCH_REP at the steward (R206, R278, R291, R293): a short restore under the policy cut brings RECOVER to all. -/
def execEpochRep (t src : Nat) (r : EpochReport) (s : State) : Host.Outcome State Fault Refusal :=
  s.run t fun d =>
    if ¬ d.isSteward ∨ d.dur.saving ∨ ¬ d.fab.members.any (fun m => m.id == src) then d
    else
      let d := (d.takeReport src r).compareMembers src r
      let d := if r.spanBase ≠ d.f FAB_CFG.SPAN_BASE then d.raise (source 13 2) 2 0 src 0 else d
      match d.cutWanted with
      | some c => (d.cutTaken.toMembers recoverMsg [c]).recover c
      | none => d.stewardHorizon

/-- A peer's length or policy differs from this device's: an event, and completion is withheld until they agree (R206). -/
def Dev.compareReport (d : Dev) (r : EpochReport) : Dev :=
  let differs := d.reportDiffers r.lms r.policy
  let was := d.dur.mismatch
  let d := { d with dur := { d.dur with mismatch := differs } }
  if differs ∧ ¬ was then d.raise (source 11 4) 2 0 0xFFFF 0 else d

/-- Neither twin restores the mirrored writes acknowledged before the stop: the restore of a pair without fabric is short for them
too (R71, R72). -/
def Dev.judgePair (d : Dev) (epoch : Nat) : Dev :=
  if d.core.transport ∨ ¬ d.core.phaseADone ∨ d.dur.short ∨ d.dur.cut.isSome
      ∨ d.dur.lastMir ≤ max (d.f DUR_EPOCH_STAT.LOCAL) epoch then d
  else ({ d with dur := { d.dur with short := true, lastMir := max (d.f DUR_EPOCH_STAT.LOCAL) epoch } }).reportRestore

/-- SEALREP (R72, R206, R215, R291, R293): a pair without fabric links settles its horizon and its recovery between the two. -/
def execSealrep (t : Nat) (h : TwHdr) (r : EpochReport) (s : State) : Host.Outcome State Fault Refusal :=
  s.run t fun d => d.twinRx h false (fun d =>
    let d := d.compareReport r
    if ¬ r.valid ∨ d.dur.saving then d
    else
      let d := { d with twn := { d.twn with peerRep := some r } }
      if d.on FAB_CFG.ENABLE then d
      else
        let d := (d.judgeHorizon r.epoch).judgePair r.epoch
        let short := (r.short || d.dur.short) && !d.on DUR_EPOCH_CFG.POLICY
        if short then d.recover (min (d.f DUR_EPOCH_STAT.LOCAL) r.epoch) else d.settleHorizon)

/-- RECOVER (R72, R216, R293). -/
def execRecover (t cut : Nat) (s : State) : Host.Outcome State Fault Refusal :=
  s.run t fun d => if ¬ d.coreOn ∨ d.dur.saving ∨ ¬ d.on FAB_ID.VALID then d else d.recover cut

end Sys2Proof.Machine
end

