-- ==== Sys2Proof/Machine/TwinMsg.lean ====
section
/-! DEFINITION. Frames of the twin link and its timers (R222 to R240, R253 to R257, R535). -/

namespace Sys2Proof.Machine

/-- TWIN_HELLO (R229): two HELLOs of one side refuse the link with a fatal event; otherwise roles are settled. -/
def execTwinHello (t : Nat) (h : TwHdr) (m : HelloMsg) (s : State) : Host.Outcome State Fault Refusal :=
  s.run t fun d => d.twinRx h false (fun d =>
    if m.west = d.twn.side then
      (({ d with twn := { d.twn with conflict := true } }).twinDown).raise (source 12 4) 6 0 0xFFFF 0
    else (d.acceptHello m).pump)

/-- The link path shows a status of the peer (R240). -/
def Dev.linkStatus (d : Dev) (p : PathStatus) : Dev :=
  let stands := d.f TWN_STAT.PEER
  let show_ (d : Dev) (x : Nat) : Dev :=
    if stands = peerHealthy ∨ stands = peerSaving ∨ stands = peerDown then d.fset TWN_STAT.PEER x else d
  match p with
  | .healthy =>
    show_ ({ d.fset TWN_STAT.LINK_PATH pathHealthy with
      twn := { (d.fset TWN_STAT.LINK_PATH pathHealthy).twn with linkFaultAt := none } }) peerHealthy
  | .saving | .down =>
    show_ ({ d.fset TWN_STAT.LINK_PATH pathFault with
      twn := { (d.fset TWN_STAT.LINK_PATH pathFault).twn with linkFaultAt := some (d.twn.linkFaultAt.getD d.clk) } })
      (if p = .saving then peerSaving else peerDown)
  | .silent => d

/-- HB (R240, R188): taken at once, outside the SEQ order (R228). -/
def execHb (t : Nat) (h : TwHdr) (m : HbMsg) (s : State) : Host.Outcome State Fault Refusal :=
  s.run t fun d => d.twinRx h true (fun d =>
    (({ d with twn := { d.twn with
        peerStage := m.stage, peerSealed := m.sealed, peerRoleVer := m.roleVer } }).linkStatus m.status).judgeFaults)

/-- LEG (R232, R235, R236): replica data, applied in link order; a device in a save accepts none. -/
def execLeg (t : Nat) (h : TwHdr) (region off _len pos : Nat) (data : List Byte) (s : State) :
    Host.Outcome State Fault Refusal :=
  s.run t fun d => d.twinRx h false (fun d =>
    if d.dur.saving then d
    else
      let l : LegIn := { msgid := h.msgid, region := region, off := off, pos := pos, data := data }
      let r : Replica := { msgid := h.msgid, region := region }
      let reps := if (d.rep h.msgid).isSome then d.twn.reps else d.twn.reps ++ [r]
      ({ d with twn := { d.twn with reps := reps, legWait := d.twn.legWait ++ [l] } }).pump)

/-- COMPLETE (R232, R233). -/
def execComplete (t : Nat) (h : TwHdr) (stamp : Nat) (s : State) : Host.Outcome State Fault Refusal :=
  s.run t fun d => d.twinRx h false (fun d =>
    if d.dur.saving then d
    else ((d.setRep h.msgid (fun r => { r with stamp := some stamp })).confirm h.msgid).pump)

/-- ABANDON (R232): the replica rolls the message back. -/
def execAbandon (t : Nat) (h : TwHdr) (s : State) : Host.Outcome State Fault Refusal :=
  s.run t fun d => d.twinRx h false (fun d =>
    match d.rep h.msgid with
    | some r => (d.undoRep r).pump
    | none => d)

/-- CONF (R233): with its own accepted copy the primary decides durability, answers the host and sends DUR. -/
def execConf (t : Nat) (h : TwHdr) (s : State) : Host.Outcome State Fault Refusal :=
  s.run t fun d => d.twinRx h false (fun d =>
    match d.hpt.ops.find? (fun o => o.mirrored && o.msgid == h.msgid) with
    | none => d
    | some o =>
      let d := d.setOp o.id (fun x => { x with conf := true })
      match d.op o.id with
      | some x => (if d.canDurable x then d.makeDurable x else d).pump
      | none => d)

/-- DUR (R234): every line of the message becomes visible at the replica. -/
def execDur (t : Nat) (h : TwHdr) (_decided : Nat) (s : State) : Host.Outcome State Fault Refusal :=
  s.run t fun d => d.twinRx h false (fun d => (d.dropRep h.msgid).pump)

/-- EOE (R237). -/
def execEoe (t : Nat) (h : TwHdr) (epoch : Nat) (s : State) : Host.Outcome State Fault Refusal :=
  s.run t fun d => d.twinRx h false (fun d => { d with dur := { d.dur with eoe := ins d.dur.eoe epoch } })

/-- SWAP_REQ (R254, R255): crossing requests leave east's standing. -/
def execSwapReq (t : Nat) (h : TwHdr) (region : Nat) (all : Bool) (s : State) : Host.Outcome State Fault Refusal :=
  s.run t fun d => d.twinRx h false (fun d =>
    if d.twn.swapOut ∧ ¬ d.twn.side then d.twinSend twSwapRefuse 0
    else
      let d := if d.twn.swapOut then d.endSwap 2 else d
      ({ d with twn := { d.twn with swapIn := some (if all then 4096 else region) } }).pump)

/-- SWAP_READY (R254): the new primary takes the role. -/
def execSwapReady (t : Nat) (h : TwHdr) (s : State) : Host.Outcome State Fault Refusal :=
  s.run t fun d => d.twinRx h false (fun d =>
    let rs := d.swapRegions.filter (fun r => !d.primaryHere r.1 r.2)
    if rs.isEmpty then d
    else (((rs.foldl (fun d r => d.setRole r.1 d.twn.side) d).nextRoleVer).endSwap 1).pump)

/-- SWAP_REFUSE (R255). -/
def execSwapRefuse (t : Nat) (h : TwHdr) (s : State) : Host.Outcome State Fault Refusal :=
  s.run t fun d => d.twinRx h false (fun d => if d.twn.swapOut then d.endSwap 2 else d)

/-- A mirrored region of a returning unit takes every attribute and the size that the survivor sends (R44, R535). -/
def Dev.takeRegion (d : Dev) (m : RegionMsg) (r : Region) : Dev :=
  let r' := Region.ofMsg m .online r.base r.run
  let n := d.localRun m
  if n = r.run then d.setRegion m.region r'
  else if n < r.run then (d.releaseRun (r.base + n) (r.run - n)).setRegion m.region { r' with run := n }
  else (d.grow m.region r' m.size n none).1

/-- What a returning unit does with the survivor's region table: it takes mirrored regions, their keys and seals, and held IDs as
sent (R535). -/
def Dev.takeTable (d : Dev) (m : RegionMsg) : Dev :=
  let d := { d with twn := { d.twn with rsNamed := ins d.twn.rsNamed m.region } }
  match look d.rgn m.region with
  | some r =>
    if r.mirrored ∧ m.func = fnCreate then d.takeRegion m r
    else if r.mirrored ∧ m.func = fnKey then d.setRegion m.region (r.setKey m)
    else if r.mirrored ∧ m.func = fnSeal then d.setRegion m.region { r with state := .sealing, sealAt := some d.now }
    else d
  | none => (d.applyMsg m d.now none).1

/-- Of what the survivor has not named, a returning unit keeps its own unmirrored regions alone (R535). -/
def Dev.dropUnnamed (d : Dev) : Dev :=
  let gone (r : Nat × Region) : Bool := (r.2.mirrored || r.2.remoteHeld) && !d.twn.rsNamed.contains r.1
  (d.rgn.filter gone).foldl (fun d r => { d.releaseRun r.2.base r.2.run with rgn := del (d.releaseRun r.2.base r.2.run).rgn r.1 }) d

/-- RGN_REQ (R535): answered RGN_ACK where this device can hold the change, else RGN_REFUSE with the reason; of two requests
that cross for one ID east's proceeds. -/
def execRgnReq (t : Nat) (h : TwHdr) (m : RegionMsg) (s : State) : Host.Outcome State Fault Refusal :=
  s.run t fun d => d.twinRx h false (fun d =>
    if d.twn.returning then d.takeTable m
    else if m.func = fnHold ∨ m.func = fnUnhold then (d.applyMsg m d.now none).1
    else
      let cross := d.twn.rgnPend.filter (fun p => p.region == m.region)
      if ¬ cross.isEmpty ∧ ¬ d.twn.side then d.twinSend twRgnRefuse 0 [m.region, m.func, 1]
      else
        let d := { d with twn := { d.twn with rgnPend := d.twn.rgnPend.filter (fun p => p.region != m.region) } }
        let d := cross.foldl (fun d p => d.refuseChange p.m p.cmdId 1) d
        match d.cannotHold m with
        | some reason => d.twinSend twRgnRefuse 0 [m.region, m.func, reason]
        | none =>
          let p : PeerId := { region := m.region, func := m.func, cmdId := none, m := m }
          let d := if m.func = fnCreate ∧ m.mirror = .no then d.setRegion m.region heldRegion
            else { d.holdChange m with twn := { (d.holdChange m).twn with rgnApply := d.twn.rgnApply ++ [p] } }
          d.twinSend twRgnAck 0 [m.region, m.func])

/-- RGN_ACK (R535). -/
def execRgnAck (t : Nat) (h : TwHdr) (region func : Nat) (s : State) : Host.Outcome State Fault Refusal :=
  s.run t fun d => d.twinRx h false (fun d =>
    match d.takePend region func with
    | (some p, d) => (d.agreed p).pump
    | (none, d) => d)

/-- RGN_REFUSE (R535). -/
def execRgnRefuse (t : Nat) (h : TwHdr) (region func reason : Nat) (s : State) : Host.Outcome State Fault Refusal :=
  s.run t fun d => d.twinRx h false (fun d =>
    match d.takePend region func with
    | (some p, d) => d.refuseChange p.m p.cmdId reason
    | (none, d) => d)

/-- Bytes of a plot arrive from the survivor, or from the twin for one plot fetched again, the last of them making it whole (R236,
R257, R325): a fetch that a LEG has overtaken is discarded and asked for again. -/
def Dev.takePlot (d : Dev) (idx : Nat) (poison : Bool) (off : Nat) (bs : List Byte) : Dev :=
  let last := poison || decide (plotBytes ≤ off + bs.length)
  if d.twn.rsReject.contains idx then
    if last then ({ d with twn := { d.twn with rsReject := rem d.twn.rsReject idx } }).refetch idx else d
  else
    let d := if last then { d with twn := { d.twn with refetch := rem d.twn.refetch idx } } else d
    if poison then d.setPlotState idx .poisoned
    else
      let d := d.resyncWrite idx off bs
      if last then d.setPlotState idx (d.goodState idx) else d

/-- RS_PLOT (R257, R325). One without data that marks no poison asks a device that holds the plot for it (log entry 29). -/
def execRsPlot (t : Nat) (h : TwHdr) (region plot : Nat) (poison : Bool) (part : PlotPart) (s : State) :
    Host.Outcome State Fault Refusal :=
  s.run t fun d => d.twinRx h false (fun d =>
    match look d.rgn region with
    | none => d
    | some r =>
      let idx := r.base + plot
      if part.data.isEmpty ∧ ¬ poison ∧ ¬ d.twn.returning then d.sendPlot region r plot
      else if plot < r.run ∧ (d.twn.returning ∨ d.twn.refetch.contains idx) then (d.takePlot idx poison part.off part.data).pump else d)

/-- RS_PAGE (R257). -/
def execRsPage (t : Nat) (h : TwHdr) (region page : Nat) (data : List Byte) (s : State) : Host.Outcome State Fault Refusal :=
  s.run t fun d => d.twinRx h false (fun d =>
    match look d.rgn region with
    | none => d
    | some r =>
      if page / 16 < r.run ∧ d.twn.returning then d.resyncWrite (r.base + page / 16) (page % 16 * 4096) data else d)

/-- RS_DONE (R257): the returning unit holds every mirrored region whole, as replica. -/
def execRsDone (t : Nat) (h : TwHdr) (s : State) : Host.Outcome State Fault Refusal :=
  s.run t fun d => d.twinRx h false (fun d =>
    if ¬ d.twn.returning then d
    else
      let d := d.dropUnnamed
      let d := { d with twn := { d.twn with returning := false, declared := false, isolated := false, rs := .inSync } }
      ((d.fset TWN_STAT.PEER peerInSync).fset TWN_RESYNC_STAT.PHASE 5).pump)

/-- TWIN_KEYPH (R226): the peer's frames move to the other key phase. -/
def execTwinKeyph (t : Nat) (h : TwHdr) (s : State) : Host.Outcome State Fault Refusal :=
  s.run t fun d => d.twinRx h false (fun d => { d with twn := { d.twn with rxPhase := 1 - d.twn.rxPhase } })

/-- TWIN_RETX (R228): the sender goes on from the frame named. -/
def execTwinRetx (t : Nat) (h : TwHdr) (first : Nat) (s : State) : Host.Outcome State Fault Refusal :=
  s.run t fun d => d.twinRx h true (fun d => d.twinResend first)

/-- TWIN_RETRANSMIT_TIMER (R228): no ACK covers the oldest frame 4 µs after it was sent. -/
def execTwinRetransmitTimer (t : Nat) (s : State) : Host.Outcome State Fault Refusal :=
  s.run t fun d =>
    match d.twn.unacked with
    | f :: _ => if d.twn.linkUp ∧ f.sentAt + 4000 ≤ d.clk then d.twinResend f.seq else d
    | [] => d

/-- The twin link may come up: enabled, with lantern 12 running, at 8 lanes or more and its key loaded (R221, R224, R368). -/
def Dev.twinCanUp (d : Dev) (width : Nat) : Bool :=
  d.on TWN_CFG.ENABLE && !d.twn.linkUp && d.lanternUp 12 && !d.cph.alarmed && (width == 8 || width == 16 || width == 24 || width == 32)
    && d.slotLoaded (d.twinSlot (d.f TWN_KEY.KEYPH)) 2

/-- TWIN_LINK_UP (R229, R238). -/
def execTwinLinkUp (t width : Nat) (s : State) : Host.Outcome State Fault Refusal :=
  s.run t fun d =>
    if ¬ d.twinCanUp width then d
    else
      let d := { d with twn := { d.twn with
        linkUp := true, hello := false, linkSeen := d.clk, txSeq := 0, rxSeq := 0, unacked := [], txWait := [], linkFaultAt := none } }
      let d := (((d.fset TWN_STAT.WIDTH width).fset TWN_STAT.LGEN ((d.f TWN_STAT.LGEN + 1) % 256)).fset TWN_STAT.LINK_PATH pathHealthy)
      ((d.sendHello).resumeMirror).pump

/-- TWIN_LINK_DOWN (R238). -/
def execTwinLinkDown (t : Nat) (s : State) : Host.Outcome State Fault Refusal := s.run t fun d => d.twinDown

/-- HEARTBEAT_SEND (R240). -/
def execHeartbeatSend (t : Nat) (s : State) : Host.Outcome State Fault Refusal := s.run t fun d => d.heartbeat

end Sys2Proof.Machine
end

