-- ==== Sys2Proof/Machine/Dispatch.lean ====
section
/-! DEFINITION. The meaning of each command, one arm a constructor of `Instr`. -/

namespace Sys2Proof.Machine

def exec (i : Instr) (s : State) : Host.Outcome State Fault Refusal :=
  match i with
  | .rdmaWriteFirst t q data => Sys2Proof.Machine.execRdmaWriteFirst t q data s
  | .rdmaWriteMiddle t q data => Sys2Proof.Machine.execRdmaWriteMiddle t q data s
  | .rdmaWriteLast t q data => Sys2Proof.Machine.execRdmaWriteLast t q data s
  | .rdmaWriteOnly t q data => Sys2Proof.Machine.execRdmaWriteOnly t q data s
  | .rdmaWriteLastWithImmediate t q data imm => Sys2Proof.Machine.execRdmaWriteLastWithImmediate t q data imm s
  | .rdmaWriteOnlyWithImmediate t q data imm => Sys2Proof.Machine.execRdmaWriteOnlyWithImmediate t q data imm s
  | .rdmaReadRequest t q ce => Sys2Proof.Machine.execRdmaReadRequest t q ce s
  | .compareSwap t q cmp swp => Sys2Proof.Machine.execCompareSwap t q cmp swp s
  | .fetchAdd t q add => Sys2Proof.Machine.execFetchAdd t q add s
  | .flushVerb t q => Sys2Proof.Machine.execFlushVerb t q s
  | .atomicWrite t q word => Sys2Proof.Machine.execAtomicWrite t q word s
  | .fenceCount t q tgt n => Sys2Proof.Machine.execFenceCount t q tgt n s
  | .sealQuery t q => Sys2Proof.Machine.execSealQuery t q s
  | .regionInfo t q => Sys2Proof.Machine.execRegionInfo t q s
  | .unsupportedOpcode t q => Sys2Proof.Machine.execUnsupportedOpcode t q s
  | .deadlineExpiry t op est => Sys2Proof.Machine.execDeadlineExpiry t op est s
  | .writeDurable t op => Sys2Proof.Machine.execWriteDurable t op s
  | .fenceCountReached t op => Sys2Proof.Machine.execFenceCountReached t op s
  | .coldStateLoad t conn => Sys2Proof.Machine.execColdStateLoad t conn s
  | .req t r => Sys2Proof.Machine.execReq t r s
  | .rtu t qpn => Sys2Proof.Machine.execRtu t qpn s
  | .dreq t qpn => Sys2Proof.Machine.execDreq t qpn s
  | .drep t qpn => Sys2Proof.Machine.execDrep t qpn s
  | .mraTimeout t port arrived => Sys2Proof.Machine.execMraTimeout t port arrived s
  | .rtuTimeout t conn => Sys2Proof.Machine.execRtuTimeout t conn s
  | .quarantineEnd t conn => Sys2Proof.Machine.execQuarantineEnd t conn s
  | .drepTimeout t conn => Sys2Proof.Machine.execDrepTimeout t conn s
  | .connectionDrained t conn => Sys2Proof.Machine.execConnectionDrained t conn s
  | .errorDrained t conn => Sys2Proof.Machine.execErrorDrained t conn s
  | .portUp t port => Sys2Proof.Machine.execPortUp t port s
  | .portLinkDown t port => Sys2Proof.Machine.execPortLinkDown t port s
  | .pfcPause t port pri quanta => Sys2Proof.Machine.execPfcPause t port pri quanta s
  | .pauseRefresh t port occ => Sys2Proof.Machine.execPauseRefresh t port occ s
  | .pauseWatchdog t port pri => Sys2Proof.Machine.execPauseWatchdog t port pri s
  | .pauseWatchdogEnd t port pri => Sys2Proof.Machine.execPauseWatchdogEnd t port pri s
  | .cnp t qpn => Sys2Proof.Machine.execCnp t qpn s
  | .rateRecovery t conn => Sys2Proof.Machine.execRateRecovery t conn s
  | .arpRequest t port gid => Sys2Proof.Machine.execArpRequest t port gid s
  | .neighbourSolicitation t port gid => Sys2Proof.Machine.execNeighbourSolicitation t port gid s
  | .lldpReceived t port pfc => Sys2Proof.Machine.execLldpReceived t port pfc s
  | .heatHalvingSweep t => Sys2Proof.Machine.execHeatHalvingSweep t s
  | .freePlotRefill t lantern => Sys2Proof.Machine.execFreePlotRefill t lantern s
  | .tableWalkComplete t lantern idx => Sys2Proof.Machine.execTableWalkComplete t lantern idx s
  | .wickRangeInvalidate t first count lmask => Sys2Proof.Machine.execWickRangeInvalidate t first count lmask s
  | .wickInvalidationDone t => Sys2Proof.Machine.execWickInvalidationDone t s
  | .migrationStart t idx kind => Sys2Proof.Machine.execMigrationStart t idx kind s
  | .migrationCopyDone t idx uncorr => Sys2Proof.Machine.execMigrationCopyDone t idx uncorr s
  | .migrationDestinationDurable t idx => Sys2Proof.Machine.execMigrationDestinationDurable t idx s
  | .quiesceReady t idx => Sys2Proof.Machine.execQuiesceReady t idx s
  | .quiesceTimeout t idx => Sys2Proof.Machine.execQuiesceTimeout t idx s
  | .pinQuietExpiry t idx => Sys2Proof.Machine.execPinQuietExpiry t idx s
  | .winAbandonExpiry t mod => Sys2Proof.Machine.execWinAbandonExpiry t mod s
  | .governorEvaluation t rate => Sys2Proof.Machine.execGovernorEvaluation t rate s
  | .budgetRiseEffect t => Sys2Proof.Machine.execBudgetRiseEffect t s
  | .saveRateCalibration t mod rate => Sys2Proof.Machine.execSaveRateCalibration t mod rate s
  | .imageGroupClosed t n place => Sys2Proof.Machine.execImageGroupClosed t n place s
  | .sealRecordClosed t copies => Sys2Proof.Machine.execSealRecordClosed t copies s
  | .epochClose t => Sys2Proof.Machine.execEpochClose t s
  | .timePps t ext tod => Sys2Proof.Machine.execTimePps t ext tod s
  | .ptpLoss t spread => Sys2Proof.Machine.execPtpLoss t spread s
  | .holdoverLimit t => Sys2Proof.Machine.execHoldoverLimit t s
  | .timeValidWait t => Sys2Proof.Machine.execTimeValidWait t s
  | .mainPfail t => Sys2Proof.Machine.execMainPfail t s
  | .saveComplete t bad => Sys2Proof.Machine.execSaveComplete t bad s
  | .restorePhaseADone t r => Sys2Proof.Machine.execRestorePhaseADone t r s
  | .restorePhaseBDone done => Sys2Proof.Machine.execRestorePhaseBDone done s
  | .writeThroughDrained t => Sys2Proof.Machine.execWriteThroughDrained t s
  | .twinHello t h m => Sys2Proof.Machine.execTwinHello t h m s
  | .hb t h m => Sys2Proof.Machine.execHb t h m s
  | .leg t h region off len pos data => Sys2Proof.Machine.execLeg t h region off len pos data s
  | .complete t h stamp => Sys2Proof.Machine.execComplete t h stamp s
  | .abandon t h => Sys2Proof.Machine.execAbandon t h s
  | .conf t h => Sys2Proof.Machine.execConf t h s
  | .dur t h decided => Sys2Proof.Machine.execDur t h decided s
  | .eoe t h epoch => Sys2Proof.Machine.execEoe t h epoch s
  | .sealrep t h r => Sys2Proof.Machine.execSealrep t h r s
  | .swapReq t h region all => Sys2Proof.Machine.execSwapReq t h region all s
  | .swapReady t h => Sys2Proof.Machine.execSwapReady t h s
  | .swapRefuse t h => Sys2Proof.Machine.execSwapRefuse t h s
  | .rgnReq t h m => Sys2Proof.Machine.execRgnReq t h m s
  | .rgnAck t h region func => Sys2Proof.Machine.execRgnAck t h region func s
  | .rgnRefuse t h region func reason => Sys2Proof.Machine.execRgnRefuse t h region func reason s
  | .rsPlot t h region plot poison part => Sys2Proof.Machine.execRsPlot t h region plot poison part s
  | .rsPage t h region page data => Sys2Proof.Machine.execRsPage t h region page data s
  | .rsDone t h => Sys2Proof.Machine.execRsDone t h s
  | .twinKeyph t h => Sys2Proof.Machine.execTwinKeyph t h s
  | .twinRetx t h first => Sys2Proof.Machine.execTwinRetx t h first s
  | .twinRetransmitTimer t => Sys2Proof.Machine.execTwinRetransmitTimer t s
  | .twinLinkUp t width => Sys2Proof.Machine.execTwinLinkUp t width s
  | .twinLinkDown t => Sys2Proof.Machine.execTwinLinkDown t s
  | .heartbeatSend t => Sys2Proof.Machine.execHeartbeatSend t s
  | .lampWatchdogExpiry t => Sys2Proof.Machine.execLampWatchdogExpiry t s
  | .linkPathSilent t => Sys2Proof.Machine.execLinkPathSilent t s
  | .lampPathSilent rx => Sys2Proof.Machine.execLampPathSilent rx s
  | .peerFaultSeen t lamp status => Sys2Proof.Machine.execPeerFaultSeen t lamp status s
  | .detectExpiry t => Sys2Proof.Machine.execDetectExpiry t s
  | .declare t => Sys2Proof.Machine.execDeclare t s
  | .claimReadbackTimeout t => Sys2Proof.Machine.execClaimReadbackTimeout t s
  | .claimRetry t => Sys2Proof.Machine.execClaimRetry t s
  | .claimHeld t => Sys2Proof.Machine.execClaimHeld t s
  | .adoptionAnnounce t xi => Sys2Proof.Machine.execAdoptionAnnounce t xi s
  | .snufInAssert t => Sys2Proof.Machine.execSnufInAssert t s
  | .readFence t => Sys2Proof.Machine.execReadFence t s
  | .snufInDeassert t => Sys2Proof.Machine.execSnufInDeassert t s
  | .fenceLift t => Sys2Proof.Machine.execFenceLift t s
  | .claimBackoffExpiry t => Sys2Proof.Machine.execClaimBackoffExpiry t s
  | .swapGo t region all => Sys2Proof.Machine.execSwapGo t region all s
  | .giveback t => Sys2Proof.Machine.execGiveback t s
  | .twinRekey t => Sys2Proof.Machine.execTwinRekey t s
  | .resyncBulkDone t => Sys2Proof.Machine.execResyncBulkDone t s
  | .resyncCatchupPassDone t => Sys2Proof.Machine.execResyncCatchupPassDone t s
  | .resyncCutoverDone t => Sys2Proof.Machine.execResyncCutoverDone t s
  | .fabHello t h serial id steward ver => Sys2Proof.Machine.execFabHello t h serial id steward ver s
  | .lsa t h serial id steward ver peers => Sys2Proof.Machine.execLsa t h serial id steward ver peers s
  | .seg t h mtype msglen offset data => Sys2Proof.Machine.execSeg t h mtype msglen offset data s
  | .ptpMessage t h event body => Sys2Proof.Machine.execPtpMessage t h event body s
  | .fabKeyph t h => Sys2Proof.Machine.execFabKeyph t h s
  | .fabRetx t h first => Sys2Proof.Machine.execFabRetx t h first s
  | .fwdReq t src msgid f cmp swp => Sys2Proof.Machine.execFwdReq t src msgid f cmp swp s
  | .fwdWrite t src msgid f data => Sys2Proof.Machine.execFwdWrite t src msgid f data s
  | .fwdResp t src msgid r => Sys2Proof.Machine.execFwdResp t src msgid r s
  | .fwdAck t src msgid a => Sys2Proof.Machine.execFwdAck t src msgid a s
  | .segReq t src msgid ranges => Sys2Proof.Machine.execSegReq t src msgid ranges s
  | .epochRep t src r => Sys2Proof.Machine.execEpochRep t src r s
  | .horizon t src epoch => Sys2Proof.Machine.execHorizon t src epoch s
  | .member t id add => Sys2Proof.Machine.execMember t id add s
  | .recover t cut => Sys2Proof.Machine.execRecover t cut s
  | .idAsk t serial last => Sys2Proof.Machine.execIdAsk t serial last s
  | .idGrant t id => Sys2Proof.Machine.execIdGrant t id s
  | .spanTxn t src m => Sys2Proof.Machine.execSpanTxn t src m s
  | .spanVote t src region ok => Sys2Proof.Machine.execSpanVote t src region ok s
  | .reassemblyTimer t src msgid => Sys2Proof.Machine.execReassemblyTimer t src msgid s
  | .tombstoneExpiry t src msgid => Sys2Proof.Machine.execTombstoneExpiry t src msgid s
  | .midxQuarantineEnd t midx => Sys2Proof.Machine.execMidxQuarantineEnd t midx s
  | .messageRetentionExpiry t midx => Sys2Proof.Machine.execMessageRetentionExpiry t midx s
  | .transitTimeout t link => Sys2Proof.Machine.execTransitTimeout t link s
  | .lsaFloodTimer t => Sys2Proof.Machine.execLsaFloodTimer t s
  | .routeRecomputeDone t => Sys2Proof.Machine.execRouteRecomputeDone t s
  | .fabRetransmitTimer t link => Sys2Proof.Machine.execFabRetransmitTimer t link s
  | .fabLinkUp t link => Sys2Proof.Machine.execFabLinkUp t link s
  | .fabLinkDown t link => Sys2Proof.Machine.execFabLinkDown t link s
  | .fjResendTimer t origin home jseq => Sys2Proof.Machine.execFjResendTimer t origin home jseq s
  | .fjLimitExpiry t origin home jseq => Sys2Proof.Machine.execFjLimitExpiry t origin home jseq s
  | .forwardAtomicTimeout t op => Sys2Proof.Machine.execForwardAtomicTimeout t op s
  | .expel t id => Sys2Proof.Machine.execExpel t id s
  | .fabricRekey t => Sys2Proof.Machine.execFabricRekey t s
  | .channelTrainingDone t ch r => Sys2Proof.Machine.execChannelTrainingDone t ch r s
  | .zqCalibrationTimer t ch => Sys2Proof.Machine.execZqCalibrationTimer t ch s
  | .dqsTrackingTimer t ch => Sys2Proof.Machine.execDqsTrackingTimer t ch s
  | .dimmTempPoll t ch temp => Sys2Proof.Machine.execDimmTempPoll t ch temp s
  | .refreshDue t ch => Sys2Proof.Machine.execRefreshDue t ch s
  | .rfmCount t ch bank => Sys2Proof.Machine.execRfmCount t ch bank s
  | .channelFreeze t e scrub home => Sys2Proof.Machine.execChannelFreeze t e scrub home s
  | .freeze t ch => Sys2Proof.Machine.execFreeze t ch s
  | .thaw t ch => Sys2Proof.Machine.execThaw t ch s
  | .thawComplete t ch pass => Sys2Proof.Machine.execThawComplete t ch pass s
  | .ceClear t ch => Sys2Proof.Machine.execCeClear t ch s
  | .ceLogEntryClear t ch k => Sys2Proof.Machine.execCeLogEntryClear t ch k s
  | .patternGo t ch => Sys2Proof.Machine.execPatternGo t ch s
  | .patternDone t ch lines dq => Sys2Proof.Machine.execPatternDone t ch lines dq s
  | .checkerGo t ch verdict devmask => Sys2Proof.Machine.execCheckerGo t ch verdict devmask s
  | .channelEvacuationDone t ch => Sys2Proof.Machine.execChannelEvacuationDone t ch s
  | .stripeRelayDone t => Sys2Proof.Machine.execStripeRelayDone t s
  | .attentionButtonPress t bay => Sys2Proof.Machine.execAttentionButtonPress t bay s
  | .buttonStuck t bay => Sys2Proof.Machine.execButtonStuck t bay s
  | .buttonReleased t bay => Sys2Proof.Machine.execButtonReleased t bay s
  | .programComplete t ch die fail native => Sys2Proof.Machine.execProgramComplete t ch die fail native s
  | .eraseComplete t ch die => Sys2Proof.Machine.execEraseComplete t ch die s
  | .flashReadComplete t op r => Sys2Proof.Machine.execFlashReadComplete t op r s
  | .padTimer t ch die => Sys2Proof.Machine.execPadTimer t ch die s
  | .dieUnresponsive t ch die => Sys2Proof.Machine.execDieUnresponsive t ch die s
  | .moduleInitDone t mod r => Sys2Proof.Machine.execModuleInitDone t mod r s
  | .moduleTempPoll t mod temp => Sys2Proof.Machine.execModuleTempPoll t mod temp s
  | .moduleEvacuationDone t mod => Sys2Proof.Machine.execModuleEvacuationDone t mod s
  | .keyLoad t value => Sys2Proof.Machine.execKeyLoad t value s
  | .keyErase t value => Sys2Proof.Machine.execKeyErase t value s
  | .tamper t => Sys2Proof.Machine.execTamper t s
  | .glitch t => Sys2Proof.Machine.execGlitch t s
  | .katTimer t pass => Sys2Proof.Machine.execKatTimer t pass s
  | .drbgReady t => Sys2Proof.Machine.execDrbgReady t s
  | .drbgHealthFailure t => Sys2Proof.Machine.execDrbgHealthFailure t s
  | .drbgReseed t => Sys2Proof.Machine.execDrbgReseed t s
  | .cipherJob t cmd src aux => Sys2Proof.Machine.execCipherJob t cmd src aux s
  | .cipherJobTimeout t cmd => Sys2Proof.Machine.execCipherJobTimeout t cmd s
  | .keyLoadBlob t cmd b => Sys2Proof.Machine.execKeyLoadBlob t cmd b s
  | .doorbellFetch t => Sys2Proof.Machine.execDoorbellFetch t s
  | .doorbellReadComplete t ok tails heads hb => Sys2Proof.Machine.execDoorbellReadComplete t ok tails heads hb s
  | .descriptorFetchComplete t ring ok descs => Sys2Proof.Machine.execDescriptorFetchComplete t ring ok descs s
  | .ringKick t => Sys2Proof.Machine.execRingKick t s
  | .regionCreate t cmd stripes => Sys2Proof.Machine.execRegionCreate t cmd stripes s
  | .regionModify t cmd => Sys2Proof.Machine.execRegionModify t cmd s
  | .regionSeal t cmd => Sys2Proof.Machine.execRegionSeal t cmd s
  | .regionKey t cmd => Sys2Proof.Machine.execRegionKey t cmd s
  | .regionGrow t cmd => Sys2Proof.Machine.execRegionGrow t cmd s
  | .regionDestroy t cmd => Sys2Proof.Machine.execRegionDestroy t cmd s
  | .copy t cmd => Sys2Proof.Machine.execCopy t cmd s
  | .fill t cmd => Sys2Proof.Machine.execFill t cmd s
  | .migrateHint t cmd => Sys2Proof.Machine.execMigrateHint t cmd s
  | .pin t cmd => Sys2Proof.Machine.execPin t cmd s
  | .sealNow t cmd => Sys2Proof.Machine.execSealNow t cmd s
  | .scrubRange t cmd => Sys2Proof.Machine.execScrubRange t cmd s
  | .evacuateChannel t cmd => Sys2Proof.Machine.execEvacuateChannel t cmd s
  | .evacuateModule t cmd => Sys2Proof.Machine.execEvacuateModule t cmd s
  | .selftestShort t cmd => Sys2Proof.Machine.execSelftestShort t cmd s
  | .selftestExtended t cmd => Sys2Proof.Machine.execSelftestExtended t cmd s
  | .selftestResume t => Sys2Proof.Machine.execSelftestResume t s
  | .abort t cmd => Sys2Proof.Machine.execAbort t cmd s
  | .flushCmd t cmd => Sys2Proof.Machine.execFlushCmd t cmd s
  | .waitCount t cmd => Sys2Proof.Machine.execWaitCount t cmd s
  | .waitCountTimeout t cmd => Sys2Proof.Machine.execWaitCountTimeout t cmd s
  | .cfgCommit t cmd => Sys2Proof.Machine.execCfgCommit t cmd s
  | .cfgCheckDone t => Sys2Proof.Machine.execCfgCheckDone t s
  | .cfgScheduledApply t => Sys2Proof.Machine.execCfgScheduledApply t s
  | .fwStage t cmd xi => Sys2Proof.Machine.execFwStage t cmd xi s
  | .fwActivate t cmd => Sys2Proof.Machine.execFwActivate t cmd s
  | .activationBarrierTimeout t => Sys2Proof.Machine.execActivationBarrierTimeout t s
  | .lanternRotationStep t reads => Sys2Proof.Machine.execLanternRotationStep t reads s
  | .fwConfirm t cmd => Sys2Proof.Machine.execFwConfirm t cmd s
  | .logClear t cmd => Sys2Proof.Machine.execLogClear t cmd s
  | .logFetch t cmd => Sys2Proof.Machine.execLogFetch t cmd s
  | .pmcSelect t cmd => Sys2Proof.Machine.execPmcSelect t cmd s
  | .pmcDumpConfig t cmd => Sys2Proof.Machine.execPmcDumpConfig t cmd s
  | .pmcSamplingConfig t cmd => Sys2Proof.Machine.execPmcSamplingConfig t cmd s
  | .softReset t => Sys2Proof.Machine.execSoftReset t s
  | .softResetDrainExpiry t => Sys2Proof.Machine.execSoftResetDrainExpiry t s
  | .pcieLinkDown t => Sys2Proof.Machine.execPcieLinkDown t s
  | .cfgOpen t => Sys2Proof.Machine.execCfgOpen t s
  | .cfgDiscard t => Sys2Proof.Machine.execCfgDiscard t s
  | .cfgGrant t on => Sys2Proof.Machine.execCfgGrant t on s
  | .registerWrite t off size value => Sys2Proof.Machine.execRegisterWrite t off size value s
  | .entdaa t addr => Sys2Proof.Machine.execEntdaa t addr s
  | .rstdaa t => Sys2Proof.Machine.execRstdaa t s
  | .enec t => Sys2Proof.Machine.execEnec t s
  | .disec t => Sys2Proof.Machine.execDisec t s
  | .setmwl t len => Sys2Proof.Machine.execSetmwl t len s
  | .setmrl t len => Sys2Proof.Machine.execSetmrl t len s
  | .getpid t => Sys2Proof.Machine.execGetpid t s
  | .getbcr t => Sys2Proof.Machine.execGetbcr t s
  | .getdcr t => Sys2Proof.Machine.execGetdcr t s
  | .getstatus t => Sys2Proof.Machine.execGetstatus t s
  | .getmwl t => Sys2Proof.Machine.execGetmwl t s
  | .getmrl t => Sys2Proof.Machine.execGetmrl t s
  | .rstact t byte => Sys2Proof.Machine.execRstact t byte s
  | .hotJoinTimer t => Sys2Proof.Machine.execHotJoinTimer t s
  | .setEndpointId t pec eid => Sys2Proof.Machine.execSetEndpointId t pec eid s
  | .getEndpointId t pec => Sys2Proof.Machine.execGetEndpointId t pec s
  | .getMctpVersionSupport t pec mtype => Sys2Proof.Machine.execGetMctpVersionSupport t pec mtype s
  | .getMessageTypeSupport t pec => Sys2Proof.Machine.execGetMessageTypeSupport t pec s
  | .getVendorDefinedMessageSupport t pec => Sys2Proof.Machine.execGetVendorDefinedMessageSupport t pec s
  | .pldmType0Command t pec code body => Sys2Proof.Machine.execPldmType0Command t pec code body s
  | .pldmSensorRead t pec sensor => Sys2Proof.Machine.execPldmSensorRead t pec sensor s
  | .requestUpdate t pec => Sys2Proof.Machine.execRequestUpdate t pec s
  | .pldmFirmwareData t pec xi => Sys2Proof.Machine.execPldmFirmwareData t pec xi s
  | .verifyComplete t pec xi => Sys2Proof.Machine.execVerifyComplete t pec xi s
  | .activateFirmware t pec => Sys2Proof.Machine.execActivateFirmware t pec s
  | .getReg t a off count => Sys2Proof.Machine.execGetReg t a off count s
  | .getChallenge t a => Sys2Proof.Machine.execGetChallenge t a s
  | .sbLogFetch t a first count => Sys2Proof.Machine.execSbLogFetch t a first count s
  | .sbLogClear t a => Sys2Proof.Machine.execSbLogClear t a s
  | .power t a op bay => Sys2Proof.Machine.execPower t a op bay s
  | .sbDeclare t a => Sys2Proof.Machine.execSbDeclare t a s
  | .sbEvacuate t a kind index => Sys2Proof.Machine.execSbEvacuate t a kind index s
  | .sbThaw t a ch => Sys2Proof.Machine.execSbThaw t a ch s
  | .sbCfgOpen t a => Sys2Proof.Machine.execSbCfgOpen t a s
  | .sbCfgWrite t a off value => Sys2Proof.Machine.execSbCfgWrite t a off value s
  | .sbCfgCommit t a when time => Sys2Proof.Machine.execSbCfgCommit t a when time s
  | .sbCfgDiscard t a => Sys2Proof.Machine.execSbCfgDiscard t a s
  | .sbFwConfirm t a => Sys2Proof.Machine.execSbFwConfirm t a s
  | .sbKeyLoadBlob t a b => Sys2Proof.Machine.execSbKeyLoadBlob t a b s
  | .fwArm t a => Sys2Proof.Machine.execFwArm t a s
  | .fwArmExpiry t => Sys2Proof.Machine.execFwArmExpiry t s
  | .mainSideAbsent t => Sys2Proof.Machine.execMainSideAbsent t s
  | .boardOn t => Sys2Proof.Machine.execBoardOn t s
  | .boardOff t => Sys2Proof.Machine.execBoardOff t s
  | .enterBanked t => Sys2Proof.Machine.execEnterBanked t s
  | .leaveBanked t => Sys2Proof.Machine.execLeaveBanked t s
  | .bayOn t bay => Sys2Proof.Machine.execBayOn t bay s
  | .bayOff t bay => Sys2Proof.Machine.execBayOff t bay s
  | .sequenceSlot t agree => Sys2Proof.Machine.execSequenceSlot t agree s
  | .seqAlert t slave page status => Sys2Proof.Machine.execSeqAlert t slave page status s
  | .housekeepingRound t codes temps => Sys2Proof.Machine.execHousekeepingRound t codes temps s
  | .paceTimer t => Sys2Proof.Machine.execPaceTimer t s
  | .dimTimer t unit => Sys2Proof.Machine.execDimTimer t unit s
  | .shadeTimer t unit => Sys2Proof.Machine.execShadeTimer t unit s
  | .bankTimer t => Sys2Proof.Machine.execBankTimer t s
  | .wakeComplete t unit => Sys2Proof.Machine.execWakeComplete t unit s
  | .powerDownComplete t unit => Sys2Proof.Machine.execPowerDownComplete t unit s
  | .bankedImageDrained t => Sys2Proof.Machine.execBankedImageDrained t s
  | .bankedExitComplete t => Sys2Proof.Machine.execBankedExitComplete t s
  | .avsSetpointReached t mv => Sys2Proof.Machine.execAvsSetpointReached t mv s
  | .lastGasp t cause => Sys2Proof.Machine.execLastGasp t cause s
  | .eyeMonitor t kind lane margin fec => Sys2Proof.Machine.execEyeMonitor t kind lane margin fec s
  | .fecRateExceeded t kind lane => Sys2Proof.Machine.execFecRateExceeded t kind lane s
  | .laneRetrainTimer t group => Sys2Proof.Machine.execLaneRetrainTimer t group s
  | .laneGroupRejoin t group => Sys2Proof.Machine.execLaneGroupRejoin t group s
  | .dramSweep t ch => Sys2Proof.Machine.execDramSweep t ch s
  | .planTimer t p => Sys2Proof.Machine.execPlanTimer t p s
  | .planVoltageRequest t => Sys2Proof.Machine.execPlanVoltageRequest t s
  | .engineMemoryError t err => Sys2Proof.Machine.execEngineMemoryError t err s
  | .engineWatchdogExpiry t engine => Sys2Proof.Machine.execEngineWatchdogExpiry t engine s
  | .spareSubstitutionDone t lantern => Sys2Proof.Machine.execSpareSubstitutionDone t lantern s
  | .confirmWindowExpiry t => Sys2Proof.Machine.execConfirmWindowExpiry t s
  | .rollback t => Sys2Proof.Machine.execRollback t s
  | .lanternRestart t lantern => Sys2Proof.Machine.execLanternRestart t lantern s
  | .pendingClear t group mask => Sys2Proof.Machine.execPendingClear t group mask s
  | .msixUnmask t vector => Sys2Proof.Machine.execMsixUnmask t vector s
  | .counterDump t => Sys2Proof.Machine.execCounterDump t s
  | .counterRegionRefresh t => Sys2Proof.Machine.execCounterRegionRefresh t s
  | .bandwidthWindow t => Sys2Proof.Machine.execBandwidthWindow t s
  | .recorderMirrorWrite t => Sys2Proof.Machine.execRecorderMirrorWrite t s
  | .eventWindowRead t => Sys2Proof.Machine.execEventWindowRead t s
  | .hoursTick t => Sys2Proof.Machine.execHoursTick t s
  | .settingsStoreWrite t => Sys2Proof.Machine.execSettingsStoreWrite t s
  | .coldStart t xs e => Sys2Proof.Machine.execColdStart t xs e s
  | .fullReset t => Sys2Proof.Machine.execFullReset t s
  | .firmwareLoaded t activeOk otherOk => Sys2Proof.Machine.execFirmwareLoaded t activeOk otherOk s
  | .transportStart t => Sys2Proof.Machine.execTransportStart t s
  | .destinationRetryTimer t => Sys2Proof.Machine.execDestinationRetryTimer t s
  | .halvingSweepDone t => Sys2Proof.Machine.execHalvingSweepDone t s
  | .scrubRangeDone t cmd corrected uncorr remapped => Sys2Proof.Machine.execScrubRangeDone t cmd corrected uncorr remapped s
  | .selftestDone t item active paused => Sys2Proof.Machine.execSelftestDone t item active paused s
  | .lanternRestartDone t lantern => Sys2Proof.Machine.execLanternRestartDone t lantern s
  | .resetNRelease t xs => Sys2Proof.Machine.execResetNRelease t xs s
  | .powerGoodReturn t xs => Sys2Proof.Machine.execPowerGoodReturn t xs s
  | .lampPathHealthy rx => Sys2Proof.Machine.execLampPathHealthy rx s
  | .i3cPrivateRead t => Sys2Proof.Machine.execI3cPrivateRead t s
  | .homeRunMoveDone t region => Sys2Proof.Machine.execHomeRunMoveDone t region s

end Sys2Proof.Machine
end

