-- ==== Sys2Proof/Safety.lean ====
section
/-! DEFINITION. What a run must keep: the invariant of the device's data, and the words statements use. -/

namespace Sys2Proof.Machine

/-- The byte memories, and those of every state the save area holds, are in their canonical form. -/
def memsOk (meadow heath : List Host.Cell) (snaps : List EpochSnap) : Prop :=
  Memory.wf meadow ∧ Memory.wf heath ∧ ∀ s ∈ snaps, Memory.wf s.meadow ∧ Memory.wf s.heath

/-- The recorder and its mirror hold at most 4096 records, the supervisor at most 16 of its own (R487, R492, R493). -/
def recsOk (recs mirror dark : List Record) : Prop := recs.length ≤ 4096 ∧ mirror.length ≤ 4096 ∧ dark.length ≤ 16

/-- The invariant of a device: canonical memories, bounded records, and at most 16 messages waiting on the side-band port
(R486). -/
structure Dev.Ok (d : Dev) : Prop where
  mem : memsOk d.mem.meadow d.mem.heath d.dur.snaps
  recs : recsOk d.evt.recs d.evt.mirror d.evt.dark
  ibi : d.sbp.notify.length ≤ 16

/-- `d'` is `d` but for register fields, and of those only the fields in `xs` may differ. -/
def Dev.onlyFields (xs : List Fld) (d d' : Dev) : Prop :=
  (∀ y : Fld, y.key ∉ xs.map Fld.key → d'.f y = d.f y) ∧ d' = { d with regs := d'.regs }

end Sys2Proof.Machine
end

