-- ==== Sys2Proof/Certificates/Slice0/Obligations.lean ====
section
/-! DEFINITION. The statements about the device. -/


namespace Sys2Proof.Machine

/-! ### Words of the statements about requests -/

/-- Instant, packet and verb of a command that is a request of Table 4.1. -/
def requestOf : Instr → Option (Nat × Req × Ask)
  | .rdmaWriteFirst t q data => some (t, q, { kind := .write, part := .first, data := data })
  | .rdmaWriteMiddle t q data => some (t, q, { kind := .write, part := .middle, data := data })
  | .rdmaWriteLast t q data => some (t, q, { kind := .write, part := .last, data := data })
  | .rdmaWriteOnly t q data => some (t, q, { kind := .write, part := .only, data := data })
  | .rdmaWriteLastWithImmediate t q data imm => some (t, q, { kind := .write, part := .last, data := data, imm := some imm })
  | .rdmaWriteOnlyWithImmediate t q data imm => some (t, q, { kind := .write, part := .only, data := data, imm := some imm })
  | .rdmaReadRequest t q _ => some (t, q, { kind := .read })
  | .compareSwap t q cmp swp => some (t, q, { kind := .cmpSwap, cmp := cmp, swp := swp })
  | .fetchAdd t q add => some (t, q, { kind := .fetchAdd, swp := add })
  | .flushVerb t q => some (t, q, { kind := .flush })
  | .atomicWrite t q word => some (t, q, { kind := .atomicWrite, swp := word, data := leBytes 8 word.toNat })
  | .fenceCount t q tgt n => some (t, q, { kind := .fenceCount, tgt := tgt, cnt := n })
  | .sealQuery t q => some (t, q, { kind := .sealQuery })
  | .regionInfo t q => some (t, q, { kind := .regionInfo })
  | _ => none

/-- The device a request finds: a READ may bring the corrected error of a line it reads (R314). -/
def foundBy (c : Instr) (d : Dev) : Dev :=
  match c with
  | .rdmaReadRequest _ _ (some e) => d.corrected e
  | _ => d

/-- The port takes the packet: no save has begun, the port is up, the frame is one it takes, and the ingress buffer held it (R78,
R81, R209). -/
abbrev Dev.hears (d : Dev) (q : Req) : Prop :=
  d.dur.saving = false ∧ (d.port q.port).up = true ∧ frameTaken q.fr = true ∧ q.lost = false

/-- The packet names an Offered or Ready connection by its present generation (R93, Table 3.5). -/
abbrev Dev.knows (d : Dev) (q : Req) : Prop :=
  ((d.conn (q.qpn % 65536)).state = .offered ∨ (d.conn (q.qpn % 65536)).state = .ready) ∧
    (d.conn (q.qpn % 65536)).cgen.toNat = q.qpn / 65536

/-- The device with the packet in its ingress buffer, a congestion notification sent for a marked one, and the connection's
activity noted (R81, R83, R96). -/
def Dev.took (d : Dev) (q : Req) : Dev :=
  let pri := d.dscpPri q.dscp
  let e := d.ingress q.port pri q.occ
  (if q.ce then e.notify (q.qpn % 65536) pri else e).setConn (q.qpn % 65536) (fun x => { x with lastAct := d.clk })

/-- The operation the packet asks for. -/
def Dev.asked (d : Dev) (q : Req) (a : Ask) : Op := (d.took q).draft (q.qpn % 65536) d.now q a

/-- How far the packet's PSN lies beyond the expected one, as a number of 24 bits. -/
def Dev.psnGap (d : Dev) (q : Req) : Nat := (q.psn + 2 ^ 24 - ((d.took q).conn (q.qpn % 65536)).ePsn) % 2 ^ 24

/-- The device once the expected packet has passed orders 1 to 4 of Table 4.5: the connection is Ready and the PSN is taken. -/
def Dev.passed (d : Dev) (q : Req) (a : Ask) : Dev := ((d.took q).madeReady (q.qpn % 65536)).advance (d.asked q a)

/-- A First packet opens a message on its connection. -/
def Dev.opens (d : Dev) (q : Req) (a : Ask) (o : Op) : Dev :=
  let m : OpenMsg := { psn := o.psn, rkey := o.rkey, va := o.off, len := o.len, got := o.data.length, dlHdr := q.dl }
  if a.part = .first then d.setConn o.conn (fun c => { c with openMsg := some m }) else d

/-- A message whose open part another packet joins; its Last packet closes it. -/
def Conn.joins (m : OpenMsg) (a : Ask) (c : Conn) : Conn :=
  let m' : OpenMsg := { m with got := m.got + a.data.length }
  { c with openMsg := if a.part = .last then none else some m' }

/-- The device without a packet that leaves the ingress buffer. -/
def Dev.without (d : Dev) (e : IngPkt) : Dev := { d with hpt := { d.hpt with ingress := d.hpt.ingress.erase e } }

end Sys2Proof.Machine

namespace Sys2Proof.Machine

/-- A twin frame that is taken: the link is up, its tag verifies, and it is of this link-up with a new nonce (R227). -/
def Dev.twinSound (d : Dev) (h : TwHdr) : Prop := d.twn.linkUp = true ∧ h.tagOk = true ∧ d.twinStale h = false

/-- The device that has noted a twin frame's life and acknowledgement (R228, R240). -/
def Dev.twinNoted (d : Dev) (h : TwHdr) : Dev := (d.twinLife h).twinAck h.ack

/-- A twin frame that comes next in SEQ order (R228). -/
def Dev.twinNext (d : Dev) (h : TwHdr) : Prop := d.twinSound h ∧ h.seq = d.twn.rxSeq

/-- The device that takes that frame, before the message has its effect. -/
def Dev.twinTook (d : Dev) (h : TwHdr) : Dev :=
  { d.twinNoted h with twn := { (d.twinNoted h).twn with rxSeq := (d.twn.rxSeq + 1) % 2 ^ 32 } }

end Sys2Proof.Machine

namespace Sys2Proof.Machine

/-- A fabric frame that is taken: its link carries frames, its tag verifies, it is of this link-up with a new nonce, and the
device has a valid ID where the frame needs one (R264, R266). -/
def Dev.fabSound (d : Dev) (h : FabHdr) (early : Bool) : Prop :=
  d.fabLive h.link = true ∧ h.tagOk = true ∧ d.fabStale h = false ∧ (early = true ∨ d.on FAB_ID.VALID = true)

/-- The device that has noted a fabric frame's nonce and acknowledgement. -/
def Dev.fabNoted (d : Dev) (h : FabHdr) : Dev :=
  (d.setFlink h.link (fun l => { l with rxNctr := put l.rxNctr h.keyph h.nctr })).fabAck h.link h.ack

/-- A fabric frame that comes next in its link's SEQ order (R264). -/
def Dev.fabNext (d : Dev) (h : FabHdr) (early : Bool) : Prop :=
  d.fabSound h early ∧ h.seq = ((d.fabNoted h).flink h.link).rxSeq

/-- The device that takes that frame, before the frame has its effect. -/
def Dev.fabTook (d : Dev) (h : FabHdr) : Dev :=
  (d.fabNoted h).setFlink h.link (fun l => { l with rxSeq := (l.rxSeq + 1) % 2 ^ 32 })

/-- The device whose link has heard of its far end (R266). -/
def Dev.farEnd (d : Dev) (n : Nat) (serial : BitVec 64) (id : Option Nat) : Dev :=
  let x := (d.setFlink n (fun l => { l with peerSerial := serial })).fset (FAB_LINK_STAT.PEER n) (id.getD 0)
  x.fset (FAB_LINK_STAT.STATE n) (if id.isSome ∧ x.on FAB_ID.VALID then linkUpState else linkHelloOnly)

/-- The device with a link-state record put into its database. -/
def Dev.withLsa (d : Dev) (l : Lsa) : Dev := { d with fab := { d.fab with db := putLsa d.fab.db l } }

/-- The device that has judged the steward after a new link-state record, and flooded the record on (R270). -/
def Dev.spreadLsa (d : Dev) (l : Lsa) (link : Nat) : Dev :=
  let x := d.withLsa l
  ((({ x with fab := { x.fab with recompute := true } } : Dev).floodLsa l (some link)).nameSteward).settleSteward d.isSteward

/-- That device holds the ID of a record with a lower serial number (R271). -/
def Dev.clashes (d : Dev) (l : Lsa) : Bool :=
  d.on FAB_ID.VALID && l.id == some (d.f FAB_ID.ID) && decide (l.serial.toNat < Config.serial.toNat)

/-- It gives that ID up, or asks for one where it has none. -/
def Dev.judgedId (d : Dev) (l : Lsa) : Dev := if d.clashes l then d.loseId else d.askId

end Sys2Proof.Machine

namespace Sys2Proof.Machine

/-- It is the turn of command `id` of opcode `op`, taken by `fits`: it is `c`, it may start, no field of it is out of range, and
the device does not hold it back (R388, R390). -/
def Dev.turnOf (d : Dev) (id op : Nat) (fits : Cmd → Bool) (c : Cmd) : Prop :=
  d.cmd id = some c ∧ c.op = op ∧ fits c = true ∧ d.startable c = true ∧ d.badField c = none ∧ d.heldBack c = false

/-- Any command of the opcode. -/
def anyCmd : Cmd → Bool := fun _ => true

/-- The command as it runs from now on. -/
def Dev.now_ (d : Dev) (c : Cmd) : Cmd := { c with running := true, started := d.clk }

/-- The device in which it runs. -/
def Dev.begun (d : Dev) (id : Nat) (c : Cmd) : Dev := d.setCmd id (fun _ => d.now_ c)

end Sys2Proof.Machine

namespace Sys2Proof.Machine

/-- What `startRegion` takes: the function's code, and the DRBG where the command draws a tag. -/
def Dev.regionFits (d : Dev) (func : Nat) (c : Cmd) : Bool :=
  (c.func == func || (func == fnCreate && decide (4 < c.func))) && (!c.drawsTag || d.rngUp)

end Sys2Proof.Machine

namespace Sys2Proof.Machine

/-- A side-band message stands: the port has an address and the packets' PEC are right (R424, R426). -/
def Dev.stands (d : Dev) (pec : Bool) : Prop := d.addressed = true ∧ pec = true

/-- The device once such a message has been counted. -/
def Dev.heard (d : Dev) : Dev := d.finc SBP_CNT.MSGS 1

/-- A vendor request is authorised (R430, R431): well formed, provisioned, its challenge the last one issued and in time, its tag
right. -/
def Dev.authed (d : Dev) (a : SbReq) : Prop :=
  d.stands a.pec ∧ a.malformed = false ∧ d.heard.provisioned = true ∧ d.heard.challengeGood a = true ∧ a.tagOk = true

/-- The device once it has been: the challenge is spent. -/
def Dev.opened (d : Dev) (a : SbReq) : Dev := d.heard.spend a

/-- It is authorised, and lantern 15 serves. -/
def Dev.lit (d : Dev) (a : SbReq) : Prop := d.authed a ∧ (d.opened a).serves = true

/-- And the side-band manager has authority over the set-up (R417). -/
def Dev.ruled (d : Dev) (a : SbReq) : Prop := d.lit a ∧ (d.opened a).f SBP_STAT.AUTHORITY ≠ 0

/-- The side-band command that `code` makes of a request (R432). -/
def Dev.sideOf (d : Dev) (code inst op : Nat) (body : List (BitVec 64)) : Cmd :=
  { id := d.ring.nextCmd, ring := code, tag := inst, op := op, body := body, started := d.clk, sb := true }

/-- The device with a side-band command as the newest in the order (R432). -/
def Dev.withSide (d : Dev) (c : Cmd) : Dev :=
  { d with ring := { d.ring with nextCmd := c.id + 1, cmds := d.ring.cmds ++ [c] } }

end Sys2Proof.Machine

open Sys2Proof Sys2Proof.Machine

/-- Whenever command c stands at the front of the queue of waiting commands, a step is exec of c on the state whose queue holds
the rest (the queue is the model's own, log entry 12). (spec/01_architecture.md, spec/00_scope.md.) -/
def Obligations.StepRunsFront : Prop :=
  ∀ (c : Instr) (rest : List Instr) (s : State), s.pending = c :: rest → step s = exec c { s with pending := rest }

/-- With an empty queue the block idles: the step answers a next state, the same state (the model's choice, log entry 12).
(spec/01_architecture.md.) -/
def Obligations.IdleStepKeepsState : Prop :=
  ∀ s : State, s.pending = [] → step s = .next s

/-- For every command and every state exec answers a next state, never a fault and never a refusal, and the waiting commands are
as they were. (spec/01_architecture.md, spec/03_host_ports.md, spec/12_control_rings.md, spec/14_sideband.md,
spec/15_power_thermal.md.) -/
def Obligations.EveryCommandAnswers : Prop :=
  ∀ (c : Instr) (s : State), (∃ d', exec c s = .next { s with dev := d' })

/-- From every state, n steps with n at most the number of waiting commands answer a next state whose queue is the old one
without its first n commands, so that as many steps as commands wait leave an empty queue. (spec/01_architecture.md.) -/
def Obligations.QueueDrainsInOrder : Prop :=
  ∀ (s : State) (n : Nat), n ≤ s.pending.length →
    ∃ d, Sys2Proof.core.run n s = .next { pending := s.pending.drop n, dev := d }

/-- For every state whose device meets Dev.Ok (the meadow and heath memories and those of every state the save area holds in
their one canonical form; at most 4096 records in the recorder and 4096 in its mirror, at most 16 kept by the supervisor; at
most 16 messages waiting on the side-band port), if a step answers next s', the device of s' meets it.
(spec/02_regions_persistence.md, spec/06_durability.md, spec/17_events_telemetry.md.) -/
def Obligations.StepKeepsInvariant : Prop :=
  ∀ s s' : State, s.dev.Ok → step s = .next s' → s'.dev.Ok

/-- The device of the reset state meets Dev.Ok. (spec/17_events_telemetry.md, spec/18_reset_startup.md.) -/
def Obligations.ResetMeetsInvariant : Prop := State.reset.dev.Ok

/-- Whatever command a step runs, the time-base count of the next state is at least that of the state before (a command that
carries an earlier instant acts at the present one, log entry 9). (spec/01_architecture.md, spec/06_durability.md.) -/
def Obligations.TimeNeverRunsBack : Prop :=
  ∀ s s' : State, step s = .next s' → s.dev.clk ≤ s'.dev.clk

/-- For each of the request verbs of Table 4.1 (rdmaWriteFirst, rdmaWriteOnly, rdmaWriteOnlyWithImmediate, rdmaReadRequest,
compareSwap, fetchAdd, flushVerb, atomicWrite, fenceCount, sealQuery, regionInfo): when the port hears the packet, it names an
Offered or Ready connection by its present generation whose state is loaded, its PSN is the expected one, it is valid under
order 4 of Table 4.5 and no message is open, exec answers the next state in which the PSN is taken, the connection is Ready, the
request stands in the ingress buffer with the verdict of checks 1 to 7 at its stamp, and then whatever can go on does so. A
packet that leaves the ingress buffer with a tag slot free and nothing that refuses it becomes an operation with the tag, its
pages reserved; with something that refuses it and no message to hold it for, it is answered; with no tag slot free it is
answered RETRY_AFTER 10 us with an event. (R102, R105, R115, R116, R117, R119, R120, R121, R124, R125, R126, R184.) -/
def Obligations.RequestTakesItsPlace : Prop :=
  (∀ (c : Instr) (t : Nat) (q : Req) (a : Ask) (s : State),
    requestOf c = some (t, q, a) → (a.part = .only ∨ a.part = .first) →
    let d := (foundBy c (s.dev.tick t)).pauseTest
    let k := q.qpn % 65536
    let o := d.asked q a
    let e := d.passed q a
    d.hears q → d.knows q → ((d.took q).conn k).hot = true → d.psnGap q = 0 →
    (d.took q).invalid k q a = false → ((d.took q).conn k).openMsg = none →
    exec c s = .next { s with dev := (((e.pushIngress
      { o := o, part := a.part, msg := o.psn, verdict := e.verdict o }).opens q a o).pump) }) ∧
  (∀ (d : Dev) (e : IngPkt), (e.part = .only ∨ e.part = .first) →
    let f := d.without e
    let l := (f.conn e.o.conn).lantern
    (∀ slot, f.freeSlot l = some slot → f.refusal e.o e.verdict = none →
      (∀ r, look f.rgn e.o.rid = some r → e.o.kind.writes = true → e.o.len ≠ 0 →
        d.takeIngress e = f.enter e.o slot (f.pagesNeeded r e.o)) ∧
      ((look f.rgn e.o.rid = none ∨ e.o.kind.writes = false ∨ e.o.len = 0) → d.takeIngress e = f.enter e.o slot 0)) ∧
    (∀ slot a, f.freeSlot l = some slot → f.refusal e.o e.verdict = some a → e.o.multi = false →
      d.takeIngress e = (f.countRefusal a).reply e.o a) ∧
    (f.freeSlot l = none →
      d.takeIngress e = (f.raise (source 9 0) 2 0 l 0).reply e.o { st := .retryAfter, us := 10 }))

/-- For rdmaWriteMiddle, rdmaWriteLast and rdmaWriteLastWithImmediate: when a message stands open on the connection, whose state
is loaded, and the expected packet fits what its First packet announced, exec answers the next state in which the PSN is taken
and the packet stands in the ingress buffer as part of its message, which its Last packet closes, giving the stamp, the deadline
and the verdict at that stamp; then whatever can go on does so. (R59, R115, R117, R118, R131.) -/
def Obligations.MessageGoesOn : Prop :=
  ∀ (c : Instr) (t : Nat) (q : Req) (a : Ask) (s : State) (m : OpenMsg),
    requestOf c = some (t, q, a) → (a.part = .middle ∨ a.part = .last) →
    let d := (foundBy c (s.dev.tick t)).pauseTest
    let k := q.qpn % 65536
    let e := d.passed q a
    d.hears q → d.knows q → ((d.took q).conn k).hot = true → d.psnGap q = 0 →
    (d.took q).invalid k q a = false → ((d.took q).conn k).openMsg = some m → m.wrong a = false →
    exec c s = .next { s with dev := ((e.pushIngress (e.further (d.asked q a) m a)).setConn k (Conn.joins m a)).pump }

/-- For a request verb whose connection is known and loaded: with a PSN inside the duplicate window the packet is treated as a
duplicate; with one beyond the expected PSN it draws NAK 60h, once, or nothing while a PSN answered by RNR NAK is awaited;
neither becomes an operation. An invalid expected request takes the PSN and is answered by NAK 61h, and so is unsupportedOpcode
on the expected PSN, which completes so; a duplicate of an unsupported opcode changes nothing more than the packet's arrival
does. (R115, R127, R142, R108.) -/
def Obligations.PsnOrdersDecide : Prop :=
  (∀ (c : Instr) (t : Nat) (q : Req) (a : Ask) (s : State), requestOf c = some (t, q, a) →
    let d := (foundBy c (s.dev.tick t)).pauseTest
    let k := q.qpn % 65536
    d.hears q → d.knows q → ((d.took q).conn k).hot = true →
    (2 ^ 23 ≤ d.psnGap q → exec c s = .next { s with dev := ((d.took q).duplicate (d.asked q a) a).pump }) ∧
    (d.psnGap q ≠ 0 → d.psnGap q < 2 ^ 23 → exec c s = .next { s with dev := ((d.took q).beyond (d.asked q a)).pump }) ∧
    (d.psnGap q = 0 → (d.took q).invalid k q a = true →
      exec c s = .next { s with dev := (((d.took q).advance (d.asked q a)).nakInvalidReq (d.asked q a)).pump })) ∧
  (∀ (t : Nat) (q : Req) (s : State),
    let d := s.dev.tick t
    let o := d.asked q { kind := .write }
    d.hears q → d.knows q → ((d.took q).conn (q.qpn % 65536)).hot = true →
    (d.psnGap q = 0 → exec (.unsupportedOpcode t q) s = .next { s with dev := (((d.took q).advance o).nakInvalidReq o).pump }) ∧
    (2 ^ 23 ≤ d.psnGap q → exec (.unsupportedOpcode t q) s = .next { s with dev := (d.took q).pump }) ∧
    (d.psnGap q ≠ 0 → d.psnGap q < 2 ^ 23 →
      exec (.unsupportedOpcode t q) s = .next { s with dev := ((d.took q).beyond o).pump }))

/-- For every request verb: once a save has begun the packet is dropped and counted in CONN_STALE; on a port that is down, or
with a frame the port does not take, nothing changes; a packet that the ingress buffer lost is noted as lost; one that names no
Offered or Ready connection by its present generation is dropped and counted in CONN_STALE, after the packet's arrival in the
ingress buffer; one whose connection is cold waits, with the verdict of its own instant where it begins a message, and wakes the
connection's lantern. (R78, R81, R93, R96, R209.) -/
def Obligations.UnheardRequestsAreDropped : Prop :=
  ∀ (c : Instr) (t : Nat) (q : Req) (a : Ask) (s : State), requestOf c = some (t, q, a) →
    let d := (foundBy c (s.dev.tick t)).pauseTest
    let k := q.qpn % 65536
    (d.dur.saving = true → exec c s = .next { s with dev := d.finc HPT_DROP_CNT.CONN_STALE 1 }) ∧
    (d.dur.saving = false → ((d.port q.port).up = false ∨ frameTaken q.fr = false) → exec c s = .next { s with dev := d }) ∧
    (d.dur.saving = false → (d.port q.port).up = true → frameTaken q.fr = true → q.lost = true →
      exec c s = .next { s with dev := d.lostPacket q.port (d.dscpPri q.dscp) }) ∧
    (d.hears q → ¬ d.knows q →
      exec c s = .next { s with dev := ((d.ingress q.port (d.dscpPri q.dscp) q.occ).finc HPT_DROP_CNT.CONN_STALE 1).count 0x20B 0 1 }) ∧
    (d.hears q → d.knows q → ((d.took q).conn k).hot = false →
      let e := (d.took q).wake ((d.took q).conn k).lantern
      let v := if a.part = .middle ∨ a.part = .last then none else some ((d.took q).verdict (d.asked q a))
      let p : ColdPkt := { c := k, q := q, a := some a, stamp := d.now, verdict := v }
      exec c s = .next { s with dev := { e with hpt := { e.hpt with cold := e.hpt.cold ++ [p] } } })

/-- Applying bytes of a write at one touch of a plot whose home is meadow plot loc stores them from meadow address loc × 65536
plus the offset in the plot on: a byte inside reads as the write's byte, every other byte of meadow reads as before, and heath
is untouched (for a meadow in its canonical form, which StepKeepsInvariant keeps). (R117, R128, R190, spec/04_memory_verbs.md.) -/
def Obligations.WriteStoresItsBytes : Prop :=
  ∀ (d : Dev) (o : Op) (t : Touch) (bs : List Byte), Memory.wf d.mem.meadow →
    let a := (d.entry t.idx).loc * plotBytes + t.off
    let d' := d.applyTouch o t bs
    (∀ i, i < bs.length → memGet d'.mem.meadow (a + i) = bs.getD i 0) ∧
    (∀ x, x < a ∨ a + bs.length ≤ x → memGet d'.mem.meadow x = memGet d.mem.meadow x) ∧
    d'.mem.heath = d.mem.heath

/-- deadlineExpiry of a complete request of a host at or after its deadline expires it, and of a single-packet request that
still waits in the ingress buffer answers it there; writeDurable of a write that may become durable makes it so;
fenceCountReached ends a fence that passes; coldStateLoad, where a packet waits for a cold connection whose lantern runs, loads
it into a free slot of its lantern, or into the slot of the least recently active connection with no operation in flight, and
the packets that waited go on; then whatever can go on does so. exec answers each of these next states. A completion for a tag
that names no operation is dropped and counted in TAG_STALE. (R96, R101, R105, R124, R128, R131, R133, R143.) -/
def Obligations.VerbEngineGoesOn : Prop :=
  ∀ (t op k : Nat) (est : Option Nat) (s : State),
    let d := s.dev.tick t
    (∀ o x, d.op op = some o → o.cmd = none → d.dueAt o = some x → x ≤ d.now →
      exec (.deadlineExpiry t op est) s = .next { s with dev := (d.expire o est).pump }) ∧
    (∀ e, d.op op = none → d.hpt.ingress.find? (fun e => (e.part == .only || e.part == .first) &&
        waitingId e.o.conn e.o.psn == op) = some e → e.part = .only → e.o.dl ≤ d.now →
      exec (.deadlineExpiry t op est) s = .next { s with dev := (d.expireWaiting e est).pump }) ∧
    (∀ o, d.op op = some o → d.canDurable o = true →
      exec (.writeDurable t op) s = .next { s with dev := (d.makeDurable o).pump }) ∧
    (∀ o, d.op op = some o → o.kind = .fenceCount → o.phase = .fenced → d.fencePasses o = true →
      exec (.fenceCountReached t op) s = .next { s with dev := (d.finishFence o).pump }) ∧
    (d.op op = none → exec (.writeDurable t op) s = .next { s with dev := d.finc HPT_DROP_CNT.TAG_STALE 1 } ∧
      exec (.fenceCountReached t op) s = .next { s with dev := d.finc HPT_DROP_CNT.TAG_STALE 1 }) ∧
    ((d.conn k).hot = false → d.hpt.cold.any (fun p => p.c == k) = true → d.lanternUp (d.conn k).lantern = true →
      ((d.hotOf (d.conn k).lantern).length < 2048 → exec (.coldStateLoad t k) s = .next { s with dev :=
        ((((d.setConn k (fun c => { c with hot := true })).count 0x207 (d.conn k).lantern 1).thawPackets k).pump) }) ∧
      (∀ v, 2048 ≤ (d.hotOf (d.conn k).lantern).length → d.coldVictim (d.conn k).lantern = some v →
        let e := d.setConn v (fun c => { c with hot := false })
        exec (.coldStateLoad t k) s = .next { s with dev :=
          ((((e.setConn k (fun c => { c with hot := true })).count 0x207 (e.conn k).lantern 1).thawPackets k).pump) }))

/-- On a port that is up, with a frame it takes and no save begun: where the lantern of the port group can answer, a REQ that
meets no condition of Table 3.2 takes free connection index i: exec answers the next state in which REP with the granted block
has been sent, unless the priority is paused, and the connection is Offered under the next generation with the MTU, responder
resources, weight, deadline header and status header granted; a REQ that meets a condition draws REJ with its order and changes
nothing else. Where the lantern cannot answer the REQ waits. Once a save has begun it is dropped and counted in CONN_STALE; a
port that is down takes nothing. A REQ still unanswered 1 ms after its arrival receives MRA, once: mraTimeout. The numbers of
REJ are the model's choice (log entry 17). So req answers the next state named. (R86, R87, R88, R89, R92, R93, R209,
spec/03_host_ports.md.) -/
def Obligations.ConnectionRequestAnswered : Prop :=
  ∀ (t : Nat) (r : CmReq) (i : Nat) (s : State),
    let d := s.dev.tick t
    let pri := d.dscpPri r.dscp
    let here := d.dur.saving = false ∧ (d.port r.port).up = true ∧ frameTaken r.fr = true
    let p : PendReq := { port := r.port, arrived := d.clk, mra := false, r := r }
    let ahead := d.reqsAhead p
    let g := nextCgen (lookD d.hpt.cgens i 0)
    let grant := (offerOf r).map d.grant
    (here → d.reqServed r.port = true → d.refuseReq r ahead = none → d.freeIndex = some i →
      (∃ d', exec (.req t r) s = .next { s with dev := d' } ∧
        (d'.conn i).state = .offered ∧ (d'.conn i).cgen = g ∧ (d'.conn i).port = r.port ∧
        (d'.conn i).lantern = r.port / 32 ∧ (d'.conn i).peerQpn = r.peerQpn ∧ (d'.conn i).mtu = mtuOf r.mtu ∧
        (d'.conn i).resp = min r.depth 64 ∧ (d'.conn i).weight = (grant.map (·.weight)).getD 1 ∧
        (d'.conn i).ePsn = r.psn % 2 ^ 24 ∧
        ((d'.conn i).dlHdr = true ↔ ∃ o, offerOf r = some o ∧ o.flags % 2 = 1) ∧
        ((d'.conn i).stHdr = true ↔ ∃ o, offerOf r = some o ∧ o.flags / 2 % 2 = 1) ∧
        ((d.port r.port).holds pri d.clk = false → d'.out = .cm r.port .rep
          [g.toNat * 65536 + i, d.drawn.toNat % 2 ^ 24, mtuOf r.mtu, min r.depth 64]
          ((grant.map Offer.bytes).getD []) :: d.out) ∧
        (∀ k, k ≠ i → d'.conn k = d.conn k) ∧ d'.mem = d.mem ∧ d'.regs = d.regs ∧ d'.rgn = d.rgn)) ∧
    (∀ n, here → d.reqServed r.port = true → d.refuseReq r ahead = some n →
      exec (.req t r) s = .next { s with dev := d.sendCm r.port pri .rej [n] }) ∧
    (here → d.reqServed r.port = false →
      let e := d.wake (r.port / 32)
      exec (.req t r) s = .next { s with dev := { e with hpt := { e.hpt with reqs := d.hpt.reqs ++ [p] } } }) ∧
    (d.dur.saving = true → exec (.req t r) s = .next { s with dev := d.finc HPT_DROP_CNT.CONN_STALE 1 }) ∧
    (d.dur.saving = false → ((d.port r.port).up = false ∨ frameTaken r.fr = false) →
      exec (.req t r) s = .next { s with dev := d }) ∧
    (∀ port arrived q, d.hpt.reqs.find? (fun q => q.port == port && q.arrived == arrived && !q.mra
        && decide (arrived + 1000000 ≤ d.clk)) = some q →
      exec (.mraTimeout t port arrived) s = .next { s with dev :=
        (({ d with hpt := { d.hpt with reqs := d.hpt.reqs.map (PendReq.marked port arrived) } }).sendCm port
          (d.dscpPri q.r.dscp) .mra []) })

/-- RTU makes an Offered connection Ready; an Offered one that has heard nothing for RTU_TO_MS is rejected by timeout and
quarantined; DREQ on an Offered connection is answered by DREP and quarantines it, on a Ready one it starts draining; DREP ends
a connection to which the device has sent DREQ, and so do 8 ms without it; a drained Draining connection draws DREP and is
quarantined, a drained one in Error has DREQ sent; after 2 ms in Quarantine the index is free and its connection forgotten. CNP
cuts the connection's rate by rate >> BETA_SHIFT, to no less than 1 (100 Mb/s); RECOVER_US without one raises it by AI_STEP, to
no more than the line rate; a CNP that names no open connection is counted in CONN_STALE. So rtu, rtuTimeout, dreq, drep,
drepTimeout, connectionDrained, errorDrained, quarantineEnd, cnp and rateRecovery each answer the next state named. (R84, R89,
R93, R94, R97, R98, R99, R534, spec/03_host_ports.md.) -/
def Obligations.ConnectionOpensAndCloses : Prop :=
  ∀ (t qpn c : Nat) (s : State),
    let d := s.dev.tick t
    let x := d.conn c
    (d.connOf qpn = some c → x.state = .offered →
      exec (.rtu t qpn) s = .next { s with dev := d.setConn c (fun y => { y with state := .ready, since := d.clk }) }) ∧
    (x.state = .offered → x.since + d.f HPT_CM_CTL.RTU_TO_MS * 1000000 ≤ d.clk →
      exec (.rtuTimeout t c) s = .next { s with dev := ((d.sendCm x.port x.pri .rej [7]).quarantine c).pump }) ∧
    (d.connOf qpn = some c → x.state = .offered →
      exec (.dreq t qpn) s = .next { s with dev := ((d.sendCm x.port x.pri .drep [qpn]).quarantine c).pump }) ∧
    (d.connOf qpn = some c → x.state = .ready →
      exec (.dreq t qpn) s = .next { s with dev := (d.setConn c (fun y => { y with state := .draining, since := d.clk })).pump }) ∧
    (d.connOf qpn = some c → x.dreqAt.isSome = true → exec (.drep t qpn) s = .next { s with dev := (d.quarantine c).pump }) ∧
    (∀ a, x.state.isOpen = true → x.dreqAt = some a → a + 8000000 ≤ d.clk →
      exec (.drepTimeout t c) s = .next { s with dev := (d.quarantine c).pump }) ∧
    (x.state = .draining → d.drained c = true →
      exec (.connectionDrained t c) s = .next { s with dev := ((d.sendCm x.port x.pri .drep [d.qpn c]).quarantine c).pump }) ∧
    (x.state = .error → d.drained c = true → x.dreqAt = none →
      exec (.errorDrained t c) s = .next { s with dev := (d.sendCm x.port x.pri .dreq [d.qpn c]).setConn c (fun y => { y with dreqAt := some d.clk }) }) ∧
    (x.state = .quarantine → x.since + 2000000 ≤ d.clk →
      exec (.quarantineEnd t c) s = .next { s with dev := { d with hpt := { d.hpt with conns := del d.hpt.conns c, freed := d.hpt.freed ++ [c] } } }) ∧
    (d.connOf qpn = some c → exec (.cnp t qpn) s = .next { s with dev := (d.setConn c (fun y =>
      { y with rate := max 1 (y.rate - y.rate / 2 ^ d.f HPT_CC_CTL.BETA_SHIFT), lastCnpRx := d.clk })) }) ∧
    (d.connOf qpn = none → exec (.cnp t qpn) s = .next { s with dev := d.finc HPT_DROP_CNT.CONN_STALE 1 }) ∧
    (x.state.isOpen = true → x.lastCnpRx + d.f HPT_CC_CTL.RECOVER_US * 1000 ≤ d.clk →
      exec (.rateRecovery t c) s = .next { s with dev := (d.setConn c (fun y =>
        { y with rate := min (d.port x.port).lineRate (y.rate + d.f HPT_CC_CTL.AI_STEP), lastCnpRx := d.clk })) })

/-- Each of these commands answers a next state. portUp: a trained port of a mode that has it, while the core runs past start-up
stage 2 and no save has begun, comes up with its line rate, raises event 8.0, wakes its port group and sends LLDP with the
willing bit clear. portLinkDown: a port that is up goes down, its queued frames and pause state are discarded, the tags those
frames hold are freed, and event 8.0 is raised; its connections stay. pfcPause: a pause frame on a lossless priority of a port
that is up holds that priority from the first unbroken pause on until its time ends, or, with time zero, releases it and lets
queued frames out. pauseRefresh: the occupancy is noted and each pause sent is refreshed or ended. pauseWatchdog: once WD_MS
have passed without a break, pause is ignored for the priority, the responses queued on it are discarded with their tags, what
else is queued may leave, and event 8.2 is raised. pauseWatchdogEnd: 1 s later pause is heeded again. arpRequest and
neighbourSolicitation: an address request for one of the port's own GIDs of the right kind is answered and changes nothing else;
one for another address changes nothing. lldpReceived: settings of a neighbour that disagree with LOSSLESS raise event 8.3,
settings that agree change nothing. (R77, R78, R79, R81, R82, R100, spec/03_host_ports.md.) -/
def Obligations.PortsPauseAndAnswer : Prop :=
  ∀ (t port pri quanta occ gid pfc : Nat) (s : State),
    let d := s.dev.tick t
    let p := d.port port
    (d.portExists port = true → p.up = false → 2 ≤ d.core.stage → d.dur.saving = false →
      let e := ((d.setPort port (fun p => { up := true, drops := p.drops, lineRate := 1000 * lanesOf (d.octMode port) })).raise
        (source 8 0) 2 0 port 0).wake (portUnit port)
      exec (.portUp t port) s = .next { s with dev := e.send (.lldp port (e.f HPT_PFC_CTL.LOSSLESS) false) }) ∧
    (p.up = true → exec (.portLinkDown t port) s = .next { s with dev :=
      (((d.setPort port (fun p => { lineRate := p.lineRate, drops := p.drops })).freeTags (p.held.filterMap (·.tag))).raise
        (source 8 0) 2 0 port 0) }) ∧
    (p.up = true → d.lossless pri = true → quanta ≠ 0 →
      let e := d.count 0x305 port 1
      let since := match look (e.port port).pausedAt pri with
        | some (a, b) => if e.clk ≤ b then a else e.clk
        | none => e.clk
      exec (.pfcPause t port pri quanta) s = .next { s with dev :=
        (e.setPort port (fun p => { p with pausedAt := put p.pausedAt pri (since, e.clk + e.pauseNs port quanta) })) }) ∧
    (p.up = true → d.lossless pri = true → exec (.pfcPause t port pri 0) s = .next { s with dev :=
      (((d.count 0x305 port 1).setPort port (fun p => { p with pausedAt := del p.pausedAt pri })).letOut port) }) ∧
    (p.up = true → exec (.pauseRefresh t port occ) s = .next { s with dev :=
      ((List.range 8).foldl (fun (e : Dev) k =>
          e.refreshPri port (if (e.gapPris port).contains k then e.f HPT_PFC_CTL.XOFF_KIB else occ) k)
        (d.setPort port (fun p => { p with occKib := occ }))) }) ∧
    (∀ a b, look p.pausedAt pri = some (a, b) → look p.ignoreAt pri = none → d.f HPT_PFC_CTL.WD_MS ≠ 0 → d.clk ≤ b →
      a + d.f HPT_PFC_CTL.WD_MS * 1000000 ≤ d.clk →
      let gone (h : Held) : Bool := h.resp && h.pri == pri
      let e := d.setPort port (fun p => { p with ignoreAt := put p.ignoreAt pri d.clk, held := p.held.filter (fun h => !gone h) })
      exec (.pauseWatchdog t port pri) s = .next { s with dev :=
        (((e.freeTags ((p.held.filter gone).filterMap (·.tag))).letOut port).raise (source 8 2) 2 0 port 0) }) ∧
    (∀ a, look p.ignoreAt pri = some a → a + 1000000000 ≤ d.clk → exec (.pauseWatchdogEnd t port pri) s = .next { s with dev :=
      (d.setPort port (fun p => { p with ignoreAt := del p.ignoreAt pri, pausedAt := del p.pausedAt pri })) }) ∧
    (p.up = true → ipv4Mapped gid = true → d.ownGid port gid = true →
      exec (.arpRequest t port gid) s = .next { s with dev := d.send (.arpReply port gid) }) ∧
    (p.up = true → ipv4Mapped gid = false → d.ownGid port gid = true →
      exec (.neighbourSolicitation t port gid) s = .next { s with dev := d.send (.neighbourAdv port gid) }) ∧
    (d.ownGid port gid = false → exec (.arpRequest t port gid) s = .next { s with dev := d } ∧
      exec (.neighbourSolicitation t port gid) s = .next { s with dev := d }) ∧
    (p.up = true → pfc ≠ d.f HPT_PFC_CTL.LOSSLESS →
      exec (.lldpReceived t port pfc) s = .next { s with dev := d.raise (source 8 3) 2 0 port 0 }) ∧
    (pfc = d.f HPT_PFC_CTL.LOSSLESS → exec (.lldpReceived t port pfc) s = .next { s with dev := d })

/-- Each of these commands answers a next state. heatHalvingSweep: in a new heat interval, with no save begun, a halving sweep
starts at once, or is overdue while one still runs. halvingSweepDone: the end of a sweep starts an overdue one and raises event
10.0. freePlotRefill: a free-plot queue below 192 plots is filled and waiting first writes go on. tableWalkComplete: a walk that
met a broadcast for its index is repeated; another one fills the wick cache with the entry, in the slot of R152, unless its line
lies on a frozen channel. wickRangeInvalidate: a range invalidation that finds none running notes its range, removes every wick
copy of the range from the lanterns named and is BUSY until wickInvalidationDone; one that finds one running is an illegal
sequence of kind 7. (R150, R152, R156, R157, R159, spec/05_tiering.md.) -/
def Obligations.HeatAndWickGoOn : Prop :=
  ∀ (t lantern idx first count lmask : Nat) (s : State),
    let d := s.dev.tick t
    let e : Dev := { d with tier := { d.tier with sweepNo := d.heatInterval } }
    (d.tier.sweepNo < d.heatInterval → d.dur.saving = false → e.tier.sweepOn = false →
      exec (.heatHalvingSweep t) s = .next { s with dev := e.sweep }) ∧
    (d.tier.sweepNo < d.heatInterval → d.dur.saving = false → e.tier.sweepOn = true →
      exec (.heatHalvingSweep t) s = .next { s with dev := { e with tier := { e.tier with sweepDue := true } } }) ∧
    (d.tier.sweepOn = true → d.tier.sweepDue = false →
      exec (.halvingSweepDone t) s = .next { s with dev := { d with tier := { d.tier with sweepOn := false, sweepDue := false } } }) ∧
    (d.tier.sweepOn = true → d.tier.sweepDue = true →
        exec (.halvingSweepDone t) s = .next { s with dev := (({ d with tier := { d.tier with sweepOn := false, sweepDue := false } } : Dev).raise (source 10 0) 2 0 8 0).sweep }) ∧
    (lantern < 8 → (lookD d.tier.queues lantern []).length < 192 →
      exec (.freePlotRefill t lantern) s = .next { s with dev := (d.refill lantern 4).pump }) ∧
    (∀ w, d.tier.walks.find? (fun w => w.lantern == lantern && w.idx == idx) = some w →
      let others := d.tier.walks.filter (fun w => !(w.lantern == lantern && w.idx == idx))
      let e : Dev := { d with tier := { d.tier with walks := others } }
      (w.dirty = true → exec (.tableWalkComplete t lantern idx) s = .next { s with dev := { d with tier := { d.tier with walks := others ++ [{ w with dirty := false }] } } }) ∧
      (w.dirty = false → e.tableFrozen lantern [{ idx := idx, off := 0, n := 0, pos := 0 }] = false →
        exec (.tableWalkComplete t lantern idx) s = .next { s with dev := e.wickFill lantern idx }) ∧
      (w.dirty = false → e.tableFrozen lantern [{ idx := idx, off := 0, n := 0, pos := 0 }] = true →
        exec (.tableWalkComplete t lantern idx) s = .next { s with dev := e })) ∧
    (d.on TIER_WICK_INV.BUSY = false → (∃ d', exec (.wickRangeInvalidate t first count lmask) s = .next { s with dev := d' } ∧
        d'.on TIER_WICK_INV.BUSY = true ∧
      d'.tier = { d.tier with wick := d.tier.wick.filter (fun w =>
        !(lmask / 2 ^ (w.1 / 64) % 2 == 1 && decide (first ≤ w.2.idx) && decide (w.2.idx < first + count))) } ∧
      d' = { d with regs := d'.regs, tier := d'.tier })) ∧
    (d.on TIER_WICK_INV.BUSY = true →
      exec (.wickRangeInvalidate t first count lmask) s = .next { s with dev := d.illegal 7 (TIER_WICK_INV.GO.off / 4) }) ∧
    exec (.wickInvalidationDone t) s = .next { s with dev := d.fset TIER_WICK_INV.BUSY 0 }

/-- Each of these commands answers a next state. migrationStart: a waiting migration of the kind named is issued, after those of
a higher priority that wait at the same tier lantern. migrationCopyDone: a copy that is done and not frozen leads to M3, an
uncorrectable line on the way poisons a meadow plot and moves it on, or cancels a copy from heath with event 10.1.
migrationDestinationDurable: a durable destination sends the quiesce of the handshake, or, where an evacuation that is not
frozen has lines to copy again, copies them and stays in M3. quiesceReady: a handshake that every pipeline answers ready
commits, or is refused where a witness matched. quiesceTimeout: one held for 4 µs is refused. pinQuietExpiry: a quiet meadow
plot of a pin-heath region that is not pinned is demoted. winAbandonExpiry: migrations to a module whose window has been closed
for WIN_ABANDON are cancelled. destinationRetryTimer: every 100 ms the waiting migrations are tried again, demand first, then
evacuation, promotion and demotion. (R161, R166, R167, R171, R174, R345, Table 5.5 of spec/05_tiering.md.) -/
def Obligations.MigrationsStep : Prop :=
  ∀ (t idx mod : Nat) (kind : MigKind) (tr : Tier) (uncorr : Bool) (m : Migration) (s : State),
    let d := s.dev.tick t
    ((kind, tr) ∈ d.waiting idx →
      let l := d.srcLantern idx
      let first := d.tier.waitDst.filter (fun w => decide (w.2.1.prio < kind.prio) && d.srcLantern w.1 == l)
      let ofKind (k : MigKind) : List Nat := (first.filter (fun w => w.2.1 == k)).map (·.1)
      exec (.migrationStart t idx kind) s = .next { s with dev :=
        (((ofKind .demand ++ ofKind .evacuation ++ ofKind .promotion).foldl Dev.issueMig d).issueMig idx) }) ∧
    (d.migOf idx = some m → m.step = .copying → m.frozen = false →
      ((uncorr = false ∨ (d.entry idx).state = .poisoned) →
          exec (.migrationCopyDone t idx uncorr) s = .next { s with dev := d.copied m }) ∧
      ((d.entry idx).state ≠ .poisoned → m.srcTier = .meadow →
          exec (.migrationCopyDone t idx true) s = .next { s with dev := ((d.setPlotState m.idx .poisoned).copyPlot m).setMig m.idx (fun m => { m with step := .making, prog := 0 }) }) ∧
      ((d.entry idx).state ≠ .poisoned → m.srcTier ≠ .meadow →
          exec (.migrationCopyDone t idx true) s = .next { s with dev := (d.cancelMig m.idx).raise (source 10 1) 2 0 m.lantern 0 })) ∧
    (d.migOf idx = some m → m.step = .making →
      (m.dstTier = .meadow ∨ d.heathClosed m = true ∨ (d.entry idx).state = .poisoned) →
      (m.bitmap ≠ [] → m.frozen = false →
          exec (.migrationDestinationDurable t idx) s = .next { s with dev := ((d.copyPlot m).setMig idx (fun m => { m with bitmap := [], prog := 0 })).pumpDies }) ∧
      (m.bitmap = [] → d.dur.saving = false →
          exec (.migrationDestinationDurable t idx) s = .next { s with dev := (d.broadcast idx).setMig idx (fun m => { m with step := .quiescing, wt := false, quiAt := d.clk }) })) ∧
    (d.migOf idx = some m → m.step = .quiescing → d.plotOpen m = false → d.dur.saving = false →
      (m.wt = false → exec (.quiesceReady t idx) s = .next { s with dev := (d.commitMig idx).pump }) ∧
      (m.wt = true → exec (.quiesceReady t idx) s = .next { s with dev := (d.refuseMig idx).pump })) ∧
    (d.migOf idx = some m → m.step = .quiescing → m.quiAt + 4000 ≤ d.clk →
      exec (.quiesceTimeout t idx) s = .next { s with dev := (d.refuseMig idx).pump }) ∧
    (∀ rid r, d.regionOf idx = some (rid, r) → r.policy = .pinHeath → (d.entry idx).tier = .meadow →
      (d.entry idx).pin = false →
      lookD d.tier.lastWr idx 0 + d.f TIER_THRESH.PIN_QUIET * 1000000 ≤ d.clk →
      exec (.pinQuietExpiry t idx) s = .next { s with dev := d.startMig idx .demotion (if r.cls = .deep then .deep else .fast) }) ∧
    exec (.winAbandonExpiry t mod) s = .next { s with dev := ((d.tier.migs.filter (fun m => m.dstTier != .meadow && d.modOfHeath m.dstLoc == mod &&
        m.paused.any (fun p => p + d.f TIER_WIN_CTL.WIN_ABANDON * 1000000 ≤ d.clk))).foldl
          (fun (e : Dev) m => e.cancelMig m.idx) d) } ∧
    (d.tier.retryAt + 100000000 ≤ d.clk → (∃ d', exec (.destinationRetryTimer t) s = .next { s with dev := d' } ∧
        ∃ e : Dev, e = ([MigKind.demand, .evacuation, .promotion, .demotion].flatMap (fun k =>
          (d.tier.waitDst.filter (fun w => w.2.1 == k)).map (·.1))).foldl Dev.issueMig d ∧
        d' = { e with tier := { e.tier with retryAt := e.clk } }))

/-- Copying the plot of a migration whose plot is not poisoned leaves every byte of the source plot at the same place of the
destination plot, and every byte of the destination's memory outside the destination plot, and the whole of the other memory, as
it was (canonical memories, source and destination not the same plot). (R166, R171, Table 5.5 of spec/05_tiering.md.) -/
def Obligations.MigrationCopiesThePlot : Prop :=
  ∀ (d : Dev) (m : Migration), Memory.wf d.mem.meadow → Memory.wf d.mem.heath → (d.entry m.idx).state ≠ .poisoned →
    let src := if m.srcTier = .meadow then d.mem.meadow else d.mem.heath
    let d' := d.copyPlot m
    (m.dstTier = .meadow →
      (∀ i, i < 65536 → memGet d'.mem.meadow (m.dstLoc * 65536 + i) = memGet src (m.srcLoc * 65536 + i)) ∧
      (∀ x, x / 65536 ≠ m.dstLoc → memGet d'.mem.meadow x = memGet d.mem.meadow x) ∧ d'.mem.heath = d.mem.heath) ∧
    (m.dstTier ≠ .meadow →
      (∀ i, i < 65536 → memGet d'.mem.heath (m.dstLoc * 65536 + i) = memGet src (m.srcLoc * 65536 + i)) ∧
      (∀ x, x / 65536 ≠ m.dstLoc → memGet d'.mem.heath x = memGet d.mem.heath x) ∧ d'.mem.meadow = d.mem.meadow)

/-- Where the plot's GEN is still the one read at M1, a commit leaves the entry with the destination's tier and location, GEN
advanced by one and HEAT and PIN as they were, poisoned if it was, else sealed in a sealed region or if it was sealed, else
resident; the tracker entry is gone, every other plot's entry is as it was and neither memory changes. Otherwise the migration
is cancelled. (R149, R166, R167.) -/
def Obligations.CommitMovesTheHome : Prop :=
  ∀ (d : Dev) (idx : Nat) (m : Migration), d.migOf idx = some m →
    let e := d.entry idx
    let d' := d.commitMig idx
    (e.gen = m.gen0 →
      d'.entry idx = { e with
        tier := m.dstTier, loc := m.dstLoc, gen := e.gen + 1,
        state := if e.state = .poisoned then .poisoned
          else if e.state = .sealed ∨ (d.regionOf idx).any (fun r => r.2.state == .sealed) then .sealed else .resident } ∧
      d'.migOf idx = none ∧ (∀ k, k ≠ idx → d'.entry k = d.entry k) ∧ d'.mem = d.mem) ∧
    (e.gen ≠ m.gen0 → d' = d.cancelMig idx)

/-- Whatever the tree's 63 bits were, after a hit or fill on entry e below 64 the entry a fill would take is another one.
(R152.) -/
def Obligations.WickVictimSparesTheTouched : Prop :=
  ∀ (b : BitVec 63) (e : Nat), e < 64 → plruVictim (plruTouch b e 1 6) 1 0 6 ≠ e

/-- Whatever message a frame carries: on a link that is down nothing happens; a frame whose tag fails is counted in AUTH_FAIL
and noted, and the link stays up while at most 16 such fell within 1 ms, else it goes down with an event in group 14; a frame of
another link generation or with a nonce not above the last of its key phase is dropped and counted in STALE. A sound frame first
notes life on the link and takes the acknowledgement. HB and RETX are then taken at once; another message is taken where its SEQ
is the one expected, which moves on by one modulo 2^32, dropped where it is an old one, and answered RETX naming the first
missing SEQ where it lies beyond. (R226, R227, R228, R240.) -/
def Obligations.TwinFramesKeepTheirOrder : Prop :=
  ∀ (d : Dev) (h : TwHdr) (free : Bool) (act : Dev → Dev),
    let fails := (d.clk :: d.twn.tagFails).filter (fun x => d.clk < x + 1000000)
    let counted := ({ d with twn := { d.twn with tagFails := fails } } : Dev).finc TWN_LINK_CNT.AUTH_FAIL 1
    (d.twn.linkUp = false → d.twinRx h free act = d) ∧
    (d.twn.linkUp = true → h.tagOk = false → fails.length ≤ 16 → d.twinRx h free act = counted) ∧
    (d.twn.linkUp = true → h.tagOk = false → 16 < fails.length →
      d.twinRx h free act = counted.twinDown.raise (source 14 1) 2 0 0xFFFF 0) ∧
    (d.twn.linkUp = true → h.tagOk = true → d.twinStale h = true → d.twinRx h free act = d.finc TWN_LINK_CNT.STALE 1) ∧
    (d.twinSound h → d.twinRx h true act = act (d.twinNoted h)) ∧
    (d.twinNext h → d.twinRx h false act = act (d.twinTook h)) ∧
    (d.twinSound h → h.seq ≠ d.twn.rxSeq → seqLe h.seq d.twn.rxSeq = true → d.twinRx h false act = d.twinNoted h) ∧
    (d.twinSound h → h.seq ≠ d.twn.rxSeq → seqLe h.seq d.twn.rxSeq = false →
      d.twinRx h false act = (d.twinNoted h).twinNow twRetx [d.twn.rxSeq])

/-- Where each frame comes next in order: a HELLO of the device's own side refuses the link with event 12.4 of severity 6, one
of the other side is accepted; HB notes the peer's stage, highest sealed epoch, role version and status; with no save begun a
LEG of region, offset, position and data joins the LEGs that wait, under a replica message that is opened where there is none,
and what can be applied is, in link order; COMPLETE notes the stamp and lets CONF follow once the message is whole; ABANDON
rolls the replica message back; CONF lets the primary decide durability where its own copy is accepted, and waits otherwise; DUR
ends the replica message; EOE(k) puts epoch k into the set of those arrived; SEALREP is compared and, where it is valid and no
save has begun, kept as the peer's report; a pair without fabric links then judges its horizon by it and settles it, or, where a
restore came short and the policy asks for it, goes back to the lower of the two epochs. During a save LEG and COMPLETE have no
effect of their own. So twinHello, hb, leg, complete, abandon, conf, dur, eoe and sealrep each answer the next state named.
(R229, R232, R233, R234, R235, R237, R238, R240, R291, spec/07_twin.md.) -/
def Obligations.ReplicaMessagesAct : Prop :=
  ∀ (t : Nat) (h : TwHdr) (m : HelloMsg) (b : HbMsg) (region off len pos stamp decided epoch : Nat) (data : List Byte)
    (r : EpochReport) (s : State),
    let d := s.dev.tick t
    let e := d.twinTook h
    (d.twinNext h → m.west = d.twn.side →
        exec (.twinHello t h m) s = .next { s with dev := ({ e with twn := { e.twn with conflict := true } } : Dev).twinDown.raise (source 12 4) 6 0 0xFFFF 0 }) ∧
    (d.twinNext h → m.west ≠ d.twn.side → exec (.twinHello t h m) s = .next { s with dev := (e.acceptHello m).pump }) ∧
    (d.twinSound h → exec (.hb t h b) s = .next { s with dev := (({ d.twinNoted h with twn := { (d.twinNoted h).twn with
          peerStage := b.stage, peerSealed := b.sealed, peerRoleVer := b.roleVer } } : Dev).linkStatus b.status).judgeFaults }) ∧
    (d.twinNext h → d.dur.saving = false →
        exec (.leg t h region off len pos data) s = .next { s with dev := (({ e with twn := { e.twn with
          reps := if (e.rep h.msgid).isSome then e.twn.reps else e.twn.reps ++ [{ msgid := h.msgid, region := region }]
          legWait := e.twn.legWait ++ [{ msgid := h.msgid, region := region, off := off, pos := pos, data := data }] } } : Dev).pump) }) ∧
    (d.twinNext h → d.dur.saving = false →
        exec (.complete t h stamp) s = .next { s with dev := ((e.setRep h.msgid (fun r => { r with stamp := some stamp })).confirm h.msgid).pump }) ∧
    (d.twinNext h → d.dur.saving = true → exec (.leg t h region off len pos data) s = .next { s with dev := e } ∧
        exec (.complete t h stamp) s = .next { s with dev := e }) ∧
    (∀ x, d.twinNext h → e.rep h.msgid = some x → exec (.abandon t h) s = .next { s with dev := (e.undoRep x).pump }) ∧
    (d.twinNext h → e.rep h.msgid = none → exec (.abandon t h) s = .next { s with dev := e }) ∧
    (∀ o x, d.twinNext h → e.hpt.ops.find? (fun o => o.mirrored && o.msgid == h.msgid) = some o →
      (e.setOp o.id (fun y => { y with conf := true })).op o.id = some x →
      ((e.setOp o.id (fun y => { y with conf := true })).canDurable x = true →
          exec (.conf t h) s = .next { s with dev := ((e.setOp o.id (fun y => { y with conf := true })).makeDurable x).pump }) ∧
      ((e.setOp o.id (fun y => { y with conf := true })).canDurable x = false →
          exec (.conf t h) s = .next { s with dev := (e.setOp o.id (fun y => { y with conf := true })).pump })) ∧
    (d.twinNext h → exec (.dur t h decided) s = .next { s with dev := (e.dropRep h.msgid).pump }) ∧
    (d.twinNext h → exec (.eoe t h epoch) s = .next { s with dev := { e with dur := { e.dur with eoe := ins e.dur.eoe epoch } } }) ∧
    (d.twinNext h →
      let c := e.compareReport r
      let k : Dev := { c with twn := { c.twn with peerRep := some r } }
      let j := (k.judgeHorizon r.epoch).judgePair r.epoch
      let short := (r.short || j.dur.short) && !j.on DUR_EPOCH_CFG.POLICY
      (r.valid = false ∨ c.dur.saving = true → exec (.sealrep t h r) s = .next { s with dev := c }) ∧
      (r.valid = true → c.dur.saving = false → k.on FAB_CFG.ENABLE = true →
          exec (.sealrep t h r) s = .next { s with dev := k }) ∧
      (r.valid = true → c.dur.saving = false → k.on FAB_CFG.ENABLE = false →
        (short = true → exec (.sealrep t h r) s = .next { s with dev := j.recover (min (j.f DUR_EPOCH_STAT.LOCAL) r.epoch) }) ∧
        (short = false → exec (.sealrep t h r) s = .next { s with dev := j.settleHorizon })))

/-- Where each frame comes next in order: a SWAP_REQ that crosses one of east's own is refused with SWAP_REFUSE; otherwise it
notes the regions, ending a swap of west's own with result 2. SWAP_READY gives this side the primary role of every region of the
swap it lacks, advances ROLE_VER and ends the swap with result 1, and changes nothing where it lacks none. SWAP_REFUSE ends this
side's swap with result 2. An RGN_REQ gives a returning unit the survivor's table; one of a held or released ID is recorded at
once; else a request that names an ID of which one of east's own waits is refused with reason 1, and west's own, where they
cross, are refused with reason 1 instead; one this device cannot hold is refused with its reason, and one it can hold is noted
(a creation of an unmirrored region as a held ID, every other change reserved and kept to the closing instant) and acknowledged.
RGN_ACK lets the change it answers go on, RGN_REFUSE refuses it with its reason; one that answers none changes nothing else. So
swapReq, swapReady, swapRefuse, rgnReq, rgnAck and rgnRefuse each answer the next state named. (R254, R255, R535,
spec/07_twin.md.) -/
def Obligations.SwapAndRegionFramesAct : Prop :=
  ∀ (t : Nat) (h : TwHdr) (region func reason : Nat) (all : Bool) (m : RegionMsg) (s : State),
    let d := s.dev.tick t
    let e := d.twinTook h
    let lacking := e.swapRegions.filter (fun r => !e.primaryHere r.1 r.2)
    let crossing := e.twn.rgnPend.filter (fun p => p.region == m.region)
    (d.twinNext h → e.twn.swapOut = true → e.twn.side = false →
      exec (.swapReq t h region all) s = .next { s with dev := e.twinSend twSwapRefuse 0 }) ∧
    (d.twinNext h → e.twn.swapOut = true → e.twn.side = true →
        exec (.swapReq t h region all) s = .next { s with dev := ({ e.endSwap 2 with twn := { (e.endSwap 2).twn with swapIn := some (if all then 4096 else region) } } : Dev).pump }) ∧
    (d.twinNext h → e.twn.swapOut = false →
        exec (.swapReq t h region all) s = .next { s with dev := ({ e with twn := { e.twn with swapIn := some (if all then 4096 else region) } } : Dev).pump }) ∧
    (d.twinNext h → lacking ≠ [] → exec (.swapReady t h) s = .next { s with dev := ((lacking.foldl (fun x r => x.setRole r.1 x.twn.side) e).nextRoleVer.endSwap 1).pump }) ∧
    (d.twinNext h → lacking = [] → exec (.swapReady t h) s = .next { s with dev := e }) ∧
    (d.twinNext h → e.twn.swapOut = true → exec (.swapRefuse t h) s = .next { s with dev := e.endSwap 2 }) ∧
    (d.twinNext h → e.twn.returning = true → exec (.rgnReq t h m) s = .next { s with dev := e.takeTable m }) ∧
    (d.twinNext h → e.twn.returning = false → (m.func = fnHold ∨ m.func = fnUnhold) →
      exec (.rgnReq t h m) s = .next { s with dev := (e.applyMsg m e.now none).1 }) ∧
    (d.twinNext h → e.twn.returning = false → m.func ≠ fnHold → m.func ≠ fnUnhold →
      (crossing ≠ [] → e.twn.side = false →
        exec (.rgnReq t h m) s = .next { s with dev := e.twinSend twRgnRefuse 0 [m.region, m.func, 1] }) ∧
      (crossing = [] ∨ e.twn.side = true →
        let k : Dev := { e with twn := { e.twn with rgnPend := e.twn.rgnPend.filter (fun p => p.region != m.region) } }
        let g := crossing.foldl (fun x p => x.refuseChange p.m p.cmdId 1) k
        (∀ n, g.cannotHold m = some n →
          exec (.rgnReq t h m) s = .next { s with dev := g.twinSend twRgnRefuse 0 [m.region, m.func, n] }) ∧
        (g.cannotHold m = none → m.func = fnCreate → m.mirror = .no →
          exec (.rgnReq t h m) s = .next { s with dev := (g.setRegion m.region heldRegion).twinSend twRgnAck 0 [m.region, m.func] }) ∧
        (g.cannotHold m = none → (m.func ≠ fnCreate ∨ m.mirror ≠ .no) →
          let kept : PeerId := { region := m.region, func := m.func, cmdId := none, m := m }
          exec (.rgnReq t h m) s = .next { s with dev := (({ g.holdChange m with
              twn := { (g.holdChange m).twn with rgnApply := g.twn.rgnApply ++ [kept] } } : Dev).twinSend twRgnAck 0 [m.region, m.func]) }))) ∧
    (∀ p, d.twinNext h → (e.takePend region func).1 = some p →
      exec (.rgnAck t h region func) s = .next { s with dev := ((e.takePend region func).2.agreed p).pump } ∧
      exec (.rgnRefuse t h region func reason) s = .next { s with dev := (e.takePend region func).2.refuseChange p.m p.cmdId reason }) ∧
    (d.twinNext h → (e.takePend region func).1 = none →
      exec (.rgnAck t h region func) s = .next { s with dev := (e.takePend region func).2 } ∧
      exec (.rgnRefuse t h region func reason) s = .next { s with dev := (e.takePend region func).2 })

/-- Where each frame comes next in order: an RS_PLOT without data or poison to a device that does not return is answered with
the plot; a plot that is awaited is taken, unless a LEG reached it since it was asked for; an RS_PAGE within the region's run is
written on a returning unit; RS_DONE ends the return, the peer in sync and phase 5. KEYPH moves the peer's frames to the other
key phase. RETX, taken at once, sends again from the frame it names, and so does a frame unacknowledged for 4 µs. The survivor's
phases follow Table 7.6: with the HELLO done, the end of Bulk sends every plot and leads to Catch-up; each pass sends the marked
pages and counts, and leads to Cut-over where fewer than CUT_PAGES were marked or MAX_PASS passes had run; the end of Cut-over
sends the last pages and RS_DONE, releases TWIN_SNUF_OUT and leaves the peer in sync. So rsPlot, rsPage, rsDone, twinKeyph,
twinRetx, twinRetransmitTimer, resyncBulkDone, resyncCatchupPassDone and resyncCutoverDone each answer the next state named.
(R257, R258, R325, R226, R228, Table 7.6 of spec/07_twin.md.) -/
def Obligations.ResyncRuns : Prop :=
  ∀ (t : Nat) (h : TwHdr) (region plot page first off : Nat) (poison : Bool) (data : List Byte) (r : Region) (s : State),
    let d := s.dev.tick t
    let e := d.twinTook h
    (d.twinNext h → look e.rgn region = some r →
      (e.twn.returning = false → exec (.rsPlot t h region plot false { off := off }) s = .next { s with dev := e.sendPlot region r plot }) ∧
      (plot < r.run → (data ≠ [] ∨ poison = true ∨ e.twn.returning = true) →
        (e.twn.returning = true ∨ e.twn.refetch.contains (r.base + plot) = true) →
        exec (.rsPlot t h region plot poison { off := off, data := data }) s = .next { s with dev := (e.takePlot (r.base + plot) poison off data).pump }) ∧
      (page / 16 < r.run → e.twn.returning = true →
        exec (.rsPage t h region page data) s = .next { s with dev := e.resyncWrite (r.base + page / 16) (page % 16 * 4096) data })) ∧
    (d.twinNext h → e.twn.returning = true →
      let k := e.dropUnnamed
      let w : TwnSt := { k.twn with returning := false, declared := false, isolated := false, rs := .inSync }
      exec (.rsDone t h) s = .next { s with dev := ((({ k with twn := w } : Dev).fset TWN_STAT.PEER peerInSync).fset
        TWN_RESYNC_STAT.PHASE 5).pump }) ∧
    (d.twinNext h → exec (.twinKeyph t h) s = .next { s with dev := { e with twn := { e.twn with rxPhase := 1 - e.twn.rxPhase } } }) ∧
    (d.twinSound h → exec (.twinRetx t h first) s = .next { s with dev := (d.twinNoted h).twinResend first }) ∧
    (∀ f rest, d.twn.unacked = f :: rest → d.twn.linkUp = true → f.sentAt + 4000 ≤ d.clk →
      exec (.twinRetransmitTimer t) s = .next { s with dev := d.twinResend f.seq }) ∧
    (d.twn.rsSource = true → d.twn.hello = true →
      (d.twn.rs = .bulk → exec (.resyncBulkDone t) s = .next { s with dev := ({ d.sendBulk with twn := { d.sendBulk.twn with rs := .catchUp } } : Dev).fset TWN_RESYNC_STAT.PHASE 3 }) ∧
      (d.twn.rs = .catchUp →
        let p := d.sendPages.fset TWN_RESYNC_STAT.PASSES (d.sendPages.f TWN_RESYNC_STAT.PASSES + 1)
        (d.f TWN_RESYNC_CTL.CUT_PAGES ≤ d.twn.rsBits.length → p.f TWN_RESYNC_STAT.PASSES < p.f TWN_RESYNC_CTL.MAX_PASS →
          exec (.resyncCatchupPassDone t) s = .next { s with dev := p }) ∧
        ((d.twn.rsBits.length < d.f TWN_RESYNC_CTL.CUT_PAGES ∨ p.f TWN_RESYNC_CTL.MAX_PASS ≤ p.f TWN_RESYNC_STAT.PASSES) →
          exec (.resyncCatchupPassDone t) s = .next { s with dev := (({ p with twn := { p.twn with rs := .cutOver, soleMeadow := false } } : Dev).fset TWN_RESYNC_STAT.PHASE 4).pump })) ∧
      (d.twn.rs = .cutOver →
        let p := (((d.sendPages.twinSend twRsDone 0).snuf false).fset TWN_STAT.CLAIM claimNone).fset TWN_STAT.PEER peerInSync
        let w : TwnSt := { p.twn with rs := .inSync, rsSource := false, declared := false, isolated := false }
        exec (.resyncCutoverDone t) s = .next { s with dev := (({ p with twn := w } : Dev).fset TWN_RESYNC_STAT.PHASE 5).rejoin.pump }))

/-- A link that can come up does: it restarts its SEQ, advances LGEN by one, notes its width, sends HELLO and resumes mirrored
messages; a link that was up goes down, its frames discarded, and counts. A heartbeat leaves with status, stage, sealed epoch,
role version and claim. A lantern 12 that did not serve the lamp leaves it dark. No frame for 3 µs makes the link path silent; a
lamp that falls silent is an event alone where the link is healthy, and 8 periods of the healthy band make it healthy again. A
fault on one path is an event alone where the other path is healthy; one seen for 8 µs declares the peer failed where the other
path is not. With the link path silent for DETECT_US, a healthy lamp path leads to isolation, and a lamp path that has been
silent as long, or is switched off, to the declaration. DECLARE declares the peer failed whatever the paths show. So twinLinkUp,
twinLinkDown, heartbeatSend, lampWatchdogExpiry, linkPathSilent, lampPathSilent, lampPathHealthy, peerFaultSeen, detectExpiry
and declare each answer the next state named. (R229, R238, R239, R240, R241, R242, R243, Table 7.4 of spec/07_twin.md.) -/
def Obligations.PathsJudgeThePeer : Prop :=
  ∀ (t width : Nat) (st : PathStatus) (periods : List (Nat × Nat)) (s : State),
    let d := s.dev.tick t
    let span := d.f TWN_CFG.DETECT_US * 1000
    (d.twinCanUp width = true → exec (.twinLinkUp t width) s = .next { s with dev := ((((({ d with twn := { d.twn with
          linkUp := true, hello := false, linkSeen := d.clk, txSeq := 0, rxSeq := 0, unacked := [], txWait := [], linkFaultAt := none } } :
        Dev).fset TWN_STAT.WIDTH width).fset TWN_STAT.LGEN ((d.f TWN_STAT.LGEN + 1) % 256)).fset TWN_STAT.LINK_PATH
          pathHealthy).sendHello.resumeMirror.pump) }) ∧
    (d.twn.linkUp = true → (∃ d', exec (.twinLinkDown t) s = .next { s with dev := d' } ∧
        d'.twn = { d.twn with linkUp := false, hello := false, unacked := [], txWait := [] } ∧
      d'.f TWN_STAT.WIDTH = 0 ∧ d'.f TWN_STAT.LINK_PATH = 0 ∧
      d.onlyFields [TWN_STAT.WIDTH, TWN_STAT.LINK_PATH, TWN_LINK_CNT.DOWN] { d' with twn := d.twn })) ∧
    (d.twn.linkUp = false → exec (.twinLinkDown t) s = .next { s with dev := d } ∧
        exec (.heartbeatSend t) s = .next { s with dev := d }) ∧
    (d.twn.linkUp = true →
      let status : PathStatus := if d.twn.lampOut = .silent then .healthy else d.twn.lampOut
      let beat : TxFrame := { ftype := twHb, seq := d.twn.txSeq, args := [statusCode status, d.f DUR_BUDGET_STAT.STAGE, d.f DUR_EPOCH_STAT.LOCAL, d.f TWN_STAT.ROLE_VER, d.f TWN_STAT.CLAIM] }
      exec (.heartbeatSend t) s = .next { s with dev := (d.twinPut beat).count 0x700 0 1 }) ∧
    (d.on TWN_CFG.ENABLE = false → exec (.lampWatchdogExpiry t) s = .next { s with dev := { d with twn := { d.twn with lampOut := .silent } } }) ∧
    (d.on TWN_CFG.ENABLE = true → d.on TWN_CFG.LAMP_EN = true →
        exec (.lampWatchdogExpiry t) s = .next { s with dev := ({ d with twn := { d.twn with lampOut := .silent } } : Dev).send (.lampOut .silent) }) ∧
    (d.twn.linkSeen + 3000 ≤ d.clk →
      exec (.linkPathSilent t) s = .next { s with dev := ({ d.fset TWN_STAT.LINK_PATH 0 with twn := { d.twn with linkFaultAt := none } } : Dev).judgeFaults }) ∧
    (d.lampOn = true → d.f TWN_STAT.LAMP_PATH ≠ 0 → (periods.any lampPeriod = false ∨ lampStatus periods = some .silent) →
      let e : Dev := { d.fset TWN_STAT.LAMP_PATH 0 with twn := { d.twn with lampSeen := d.clk - 3000, lampFaultAt := none } }
      (e.f TWN_STAT.LINK_PATH = 1 → exec (.lampPathSilent { t := t, periods := periods }) s = .next { s with dev := e.raise (source 12 0) 2 0 0xFFFF 0 }) ∧
      (e.f TWN_STAT.LINK_PATH ≠ 1 → exec (.lampPathSilent { t := t, periods := periods }) s = .next { s with dev := e.judgeFaults })) ∧
    (d.lampOn = true → lampStatus periods = some .healthy →
      exec (.lampPathHealthy { t := t, periods := periods }) s = .next { s with dev := { d.fset TWN_STAT.LAMP_PATH 1 with twn := { d.twn with lampSeen := d.clk, lampFaultAt := none } } }) ∧
    (d.on TWN_CFG.ENABLE = true → st ≠ .healthy → st ≠ .silent →
      (d.lampOn = true → lampStatus periods = some st →
        let e := d.lampFault st periods
        (e.f TWN_STAT.LINK_PATH = 1 → exec (.peerFaultSeen t (some periods) st) s = .next { s with dev := e.raise (source 12 0) 2 0 0xFFFF 0 }) ∧
        (e.f TWN_STAT.LINK_PATH ≠ 1 → exec (.peerFaultSeen t (some periods) st) s = .next { s with dev := e.judgeFaults }) ∧
        (e.f TWN_STAT.LINK_PATH ≠ 1 → 8000 ≤ lampSpan st periods → 8000 ≤ d.clk →
          exec (.peerFaultSeen t (some periods) st) s = .next { s with dev := e.declare })) ∧
      (∀ a, d.twn.linkFaultAt = some a →
        let e := d.fset TWN_STAT.LINK_PATH 2
        (e.lampPath = 1 → exec (.peerFaultSeen t none st) s = .next { s with dev := e.raise (source 12 0) 2 0 0xFFFF 0 }) ∧
        (e.lampPath ≠ 1 → exec (.peerFaultSeen t none st) s = .next { s with dev := e.judgeFaults }) ∧
        (e.lampPath ≠ 1 → a + 8000 ≤ d.clk → exec (.peerFaultSeen t none st) s = .next { s with dev := e.declare }))) ∧
    (d.f TWN_STAT.LINK_PATH = 0 → d.twn.linkSeen + span ≤ d.clk →
      (d.lampPath = 1 → exec (.detectExpiry t) s = .next { s with dev := d.isolate }) ∧
      (d.lampPath = 0 → (d.on TWN_CFG.LAMP_EN = false ∨ d.twn.lampSeen + span ≤ d.clk) →
          exec (.detectExpiry t) s = .next { s with dev := d.declare }) ∧
      (d.lampPath = 2 → exec (.detectExpiry t) s = .next { s with dev := d.judgeFaults })) ∧
    exec (.declare t) s = .next { s with dev := d.declare }

/-- A fabric link that can come up goes to HELLO only with LGEN advanced, its order restarted, the pools of its virtual channels
full, and HELLO leaves; a link that was not down goes down and the change is flooded. A frame of another link generation or with
an old nonce is counted in STALE; one that is not a HELLO or LSA reaches nothing while the device has no valid ID. A HELLO in
order refuses a link to the device itself, else it names the far end and makes the link up where both IDs are valid, HELLO only
otherwise. An LSA that brings nothing newer, or is the device's own, changes nothing more; a newer one is kept, flooded on and
judged. 10 ms after the last flooding the record is flooded again; a recomputation that is pending installs the routes and lets
waiting frames go on. KEYPH has no effect of its own; RETX, and a frame unacknowledged for 8 µs, send again. A PTP message on
the link of PTP_LINK gives time under TIME_SRC 01b, a delay request on another link is answered, and any other is dropped. So
fabLinkUp, fabLinkDown, fabHello, lsa, lsaFloodTimer, routeRecomputeDone, fabKeyph, fabRetx, fabRetransmitTimer, fabricRekey and
ptpMessage each answer the next state named. (R227, R228, R263, R264, R265, R266, R268, R270, R272, R294, Table 8.2 of
spec/08_fabric.md.) -/
def Obligations.FabricLinksRun : Prop :=
  ∀ (t link first ver : Nat) (h : FabHdr) (serial : BitVec 64) (id : Option Nat) (steward event : Bool)
    (peers : List (Nat × BitVec 64)) (body : List Byte) (free early : Bool) (act : Dev → Dev) (s : State),
    let d := s.dev.tick t
    let e := d.fabTook h
    (d.fabCanUp link = true →
      let x := (d.fset (FAB_LINK_STAT.STATE link) linkHelloOnly).fset (FAB_LINK_STAT.LGEN link) ((d.f (FAB_LINK_STAT.LGEN link) + 1) % 256)
      let pools := (List.range 4).map (fun v => (v, (Config.vcPool v).toNat))
      let y := x.setFlink link (fun l => { l with txSeq := 0, rxSeq := 0, unacked := [], txWait := [], peerSerial := 0, credit := pools })
      exec (.fabLinkUp t link) s = .next { s with dev := y.fabNow link frHello y.helloWords }) ∧
    (d.f (FAB_LINK_STAT.STATE link) ≠ 0 → exec (.fabLinkDown t link) s = .next { s with dev := (d.fabDown link).ownLsa }) ∧
    (d.fabLive h.link = true → h.tagOk = true → d.fabStale h = true → d.fabRx h free early act = d.finc FAB_CNT.STALE 1) ∧
    (d.fabLive h.link = true → h.tagOk = true → d.fabStale h = false → d.on FAB_ID.VALID = false →
      d.fabRx h free false act = d) ∧
    (d.fabSound h early → h.seq ≠ ((d.fabNoted h).flink h.link).rxSeq →
      d.fabRx h false early act = if seqLe h.seq ((d.fabNoted h).flink h.link).rxSeq then d.fabNoted h
        else (d.fabNoted h).fabAskAgain h.link) ∧
    (d.fabNext h true → serial = Config.serial →
      exec (.fabHello t h serial id steward ver) s = .next { s with dev := e.fset (FAB_LINK_STAT.STATE h.link) linkRefused }) ∧
    (d.fabNext h true → serial ≠ Config.serial →
      let x := e.farEnd h.link serial id
      (x.fab.db.any (fun l => l.serial == serial && decide (ver ≤ l.ver)) = true →
        exec (.fabHello t h serial id steward ver) s = .next { s with dev := x.ownLsa.askId }) ∧
      (x.fab.db.any (fun l => l.serial == serial && decide (ver ≤ l.ver)) = false →
        exec (.fabHello t h serial id steward ver) s = .next { s with dev := (x.withLsa { serial := serial, id := id, steward := steward, ver := 0, peers := [] }).ownLsa.askId })) ∧
    (d.fabNext h true → (serial = Config.serial ∨ e.fab.db.any (fun x => x.serial == serial && decide (ver ≤ x.ver)) = true) →
      exec (.lsa t h serial id steward ver peers) s = .next { s with dev := e }) ∧
    (d.fabNext h true → serial ≠ Config.serial → e.fab.db.any (fun x => x.serial == serial && decide (ver ≤ x.ver)) = false →
      let l : Lsa := { serial := serial, id := id, steward := steward, ver := ver, peers := peers }
      (id = none → exec (.lsa t h serial id steward ver peers) s = .next { s with dev := (e.spreadLsa l h.link).judgedId l }) ∧
      (∀ i, id = some i → exec (.lsa t h serial id steward ver peers) s = .next { s with dev := ((e.spreadLsa l h.link).judgedId l).enlist i })) ∧
    (d.on FAB_CFG.ENABLE = true → d.fab.lsaAt + 10000000 ≤ d.clk →
        exec (.lsaFloodTimer t) s = .next { s with dev := d.ownLsa }) ∧
    (d.fab.recompute = true → exec (.routeRecomputeDone t) s = .next { s with dev := d.computeRoutes.drainTransit.pump }) ∧
    (d.fabNext h true → exec (.fabKeyph t h) s = .next { s with dev := e }) ∧
    (d.fabSound h true → exec (.fabRetx t h first) s = .next { s with dev := (d.fabNoted h).fabResend h.link first }) ∧
    (∀ f rest, (d.flink link).unacked = f :: rest → d.fabLive link = true → f.sentAt + 8000 ≤ d.clk →
      exec (.fabRetransmitTimer t link) s = .next { s with dev := d.fabResend link f.seq }) ∧
    exec (.fabricRekey t) s = .next { s with dev := d.fabRekey } ∧
    (d.fabNext h false →
      let master := e.f DUR_EPOCH_CFG.TIME_SRC = 1 ∧ h.link = e.f FAB_CFG.PTP_LINK
      let ask := event = true ∧ (body.headD 0).toNat % 16 = 1
      (master → exec (.ptpMessage t h event body) s = .next { s with dev := { e with tim := { e.tim with ptp := true } } }) ∧
      (¬ master → ask → exec (.ptpMessage t h event body) s = .next { s with dev := e.fabNow h.link frPtp ((Config.standardReply 3 body).map (fun (b : Byte) => b.toNat)) }) ∧
      (¬ master → ¬ ask → exec (.ptpMessage t h event body) s = .next { s with dev := e }))

/-- A segment in order for this device is taken: a segment that matches a tombstone, or whose MSGID differs from its open
context's, is counted in STALE, one whose MSGLEN differs or whose range ends beyond it is dropped and counted, any other fills
its context, a new one where it is the message's first; a segment for another device goes on with one hop less, and with no hop
left is dropped and counted. Frames that have waited 64 µs in the device are dropped and counted. A context with no new byte for
50 µs asks for its first eight missing ranges, and after eight requests is dropped and counted. SEG_REQ sends the ranges named
of a message that is kept and has a path. A tombstone older than 1.5 ms, the quarantine of an index 2 ms after it was freed, and
a message that awaits no answer 1 ms after it was sent end; nothing else of the device changes. So seg, transitTimeout,
reassemblyTimer, segReq, tombstoneExpiry, midxQuarantineEnd and messageRetentionExpiry each answer the next state named. (R274,
R275, R276, R277, Table 8.3 of spec/08_fabric.md.) -/
def Obligations.FabricMessagesRun : Prop :=
  ∀ (t link src msgid midx mtype msglen offset : Nat) (h : FabHdr) (data : List Byte) (ranges : List (Nat × Nat)) (s : State),
    let d := s.dev.tick t
    let e := d.fabTook h
    (d.fabNext h false →
      (h.dst = e.selfId → exec (.seg t h mtype msglen offset data) s = .next { s with dev := e.takeSeg h mtype msglen offset data }) ∧
      (h.dst ≠ e.selfId → h.hops = 0 → exec (.seg t h mtype msglen offset data) s = .next { s with dev := e.finc FAB_CNT.HOP_DROP 1 }) ∧
      (h.dst ≠ e.selfId → h.hops ≠ 0 →
        let frame : TxFrame := { ftype := frSeg, mtype := mtype, msgid := h.msgid, stamp := h.stamp, src := h.src, vc := h.vc, msglen := msglen, off := offset, data := data }
        let onward : Transit := { link := h.link, since := e.clk, dst := h.dst, hops := h.hops - 1, frame := frame }
        exec (.seg t h mtype msglen offset data) s = .next { s with dev := e.forwardTransit onward })) ∧
    (let late (x : Transit) : Bool := x.link == link && decide (x.since + 64000 ≤ d.clk);
      (d.fab.transit.filter late = [] → exec (.transitTimeout t link) s = .next { s with dev := d }) ∧
      (d.fab.transit.filter late ≠ [] →
          exec (.transitTimeout t link) s = .next { s with dev := (({ d with fab := { d.fab with transit := d.fab.transit.filter (fun x => !late x) } } : Dev).finc FAB_CNT.HOP_DROP
          (d.fab.transit.filter late).length) })) ∧
    (∀ c, d.fab.ctxs.find? (fun c => c.src == src && c.msgid == msgid) = some c →
      (d.clk < c.lastAt + 50000 * (c.asked + 1) → exec (.reassemblyTimer t src msgid) s = .next { s with dev := d }) ∧
      (c.lastAt + 50000 * (c.asked + 1) ≤ d.clk → 8 ≤ c.asked →
        exec (.reassemblyTimer t src msgid) s = .next { s with dev := (d.endCtx src msgid).finc FAB_CNT.HOP_DROP 1 }) ∧
      (c.lastAt + 50000 * (c.asked + 1) ≤ d.clk → c.asked < 8 →
          exec (.reassemblyTimer t src msgid) s = .next { s with dev := ((({ d with fab := { d.fab with ctxs := d.fab.ctxs.map (fun x =>
            if x.src = src ∧ x.msgid = msgid then { x with asked := x.asked + 1 } else x) } } : Dev).finc FAB_CNT.SEG_REQ 1).fabSend
          src segReq (msgid :: ((missing c.got 0 c.len).take 8).flatMap (fun r => [r.1, r.2]))) })) ∧
    (∀ x r, d.fab.sent.find? (fun x => x.dst == src && x.msgid == msgid) = some x → look d.fab.routes src = some r →
      r.links ≠ [] → exec (.segReq t src msgid ranges) s = .next { s with dev := ranges.foldl (fun (d : Dev) q => d.sendRange r x q.1 q.2 (q.2 / 8192 + 1)) d }) ∧
    exec (.tombstoneExpiry t src msgid) s = .next { s with dev := ({ d with fab := { d.fab with
      tombs := d.fab.tombs.filter (fun x => !(x.src == src && x.msgid == msgid && decide (x.setAt + 1500000 < d.clk))) } }) } ∧
    (d.fab.quarMidx.any (fun q => q.1 == midx && decide (q.2 + 2000000 ≤ d.clk)) = true →
        exec (.midxQuarantineEnd t midx) s = .next { s with dev := ({ d with fab := { d.fab with
          quarMidx := d.fab.quarMidx.filter (fun q => q.1 != midx), freeMidx := d.fab.freeMidx ++ [midx] } }) }) ∧
    (d.fab.quarMidx.any (fun q => q.1 == midx && decide (q.2 + 2000000 ≤ d.clk)) = false →
      exec (.midxQuarantineEnd t midx) s = .next { s with dev := d }) ∧
    (let gone (x : Sent) : Bool := x.midx == midx && decide (x.sentAt + 1000000 ≤ d.clk) && !d.awaited x;
      exec (.messageRetentionExpiry t midx) s = .next { s with dev := ({ d with fab := { d.fab with
        sent := d.fab.sent.filter (fun x => !gone x),
        quarMidx := d.fab.quarMidx ++ (d.fab.sent.filter gone).map (fun x => (x.midx, d.clk)) } }) }) ∧
    (∀ c : Dev, ∀ b : Ctx,
      (c.fab.tombs.any (fun x => x.src == h.src && x.msgid == h.msgid) = true →
        c.takeSeg h mtype msglen offset data = c.finc FAB_CNT.STALE 1) ∧
      (c.fab.tombs.any (fun x => x.src == h.src && x.msgid == h.msgid) = false →
        c.fab.ctxs.find? (fun x => x.src == h.src && midxOf x.msgid == midxOf h.msgid) = some b →
        (b.msgid ≠ h.msgid → c.takeSeg h mtype msglen offset data = c.finc FAB_CNT.STALE 1) ∧
        (b.msgid = h.msgid → (b.len ≠ msglen ∨ msglen < offset + data.length) →
          c.takeSeg h mtype msglen offset data = c.finc FAB_CNT.HOP_DROP 1) ∧
        (b.msgid = h.msgid → b.len = msglen → offset + data.length ≤ msglen →
          c.takeSeg h mtype msglen offset data = c.fillCtx b offset data)) ∧
      (c.fab.tombs.any (fun x => x.src == h.src && x.msgid == h.msgid) = false →
        c.fab.ctxs.find? (fun x => x.src == h.src && midxOf x.msgid == midxOf h.msgid) = none →
        offset + data.length ≤ msglen →
        let fresh : Ctx := { src := h.src, msgid := h.msgid, mtype := mtype, len := msglen, got := [], bytes := [], lastAt := c.clk, asked := 0, stamp := h.stamp }
        c.takeSeg h mtype msglen offset data = c.fillCtx fresh offset data))

/-- With a valid ID and no save begun, a FWD_REQ is taken at its home, which then judges its deadlines, and a FWD_WRITE is taken
with its data; without an ID, or during a save, neither has an effect. A FWD_RESP whose tag is live frees the request kept and
gives a READ its part or an atomic its answer; one whose tag is stale is dropped and counted. An atomic unanswered for 1 ms is
answered RETRY_AFTER with INDOUBT = 1. A FWD_ACK for a journal entry that is Sent or Applied frees the write kept and, for a
Sent one, takes the verdict: OK makes it Applied, or releases it where the horizon has passed its epoch; RETRY_AFTER keeps it in
Sent under its hint; REDIRECT moves it to the new primary; anything else fails it. A Sent entry is sent again after its hint,
and an entry that is Posted or Sent FJ_LIMIT_MS after its stamp fails with status 03h. So fwdReq, fwdWrite, fwdResp,
forwardAtomicTimeout, fwdAck, fjResendTimer and fjLimitExpiry each answer the next state named. (R281, R282, R283, R284, R287,
R288, R289, R143, Table 8.4 of spec/08_fabric.md, Table 8.5 of spec/08_fabric.md.) -/
def Obligations.ForwardingRuns : Prop :=
  ∀ (t src msgid op home origin jseq : Nat) (f : FwdHdr) (cmp swp : BitVec 64) (data : List Byte) (r : FwdAnswer) (a : FwdVerdict)
    (s : State),
    let d := s.dev.tick t
    (d.on FAB_ID.VALID = true → d.dur.saving = false →
      exec (.fwdReq t src msgid f cmp swp) s = .next { s with dev := (d.takeFwd { src := src, post := false, h := f, cmp := cmp, swp := swp, data := [] }).fwdDeadlines } ∧
      exec (.fwdWrite t src msgid f data) s = .next { s with dev := d.takeFwd { src := src, post := true, h := f, cmp := 0, swp := BitVec.ofNat 64 (ofLeBytes (data.take 8)), data := data } }) ∧
    ((d.on FAB_ID.VALID = false ∨ d.dur.saving = true) →
      exec (.fwdReq t src msgid f cmp swp) s = .next { s with dev := d } ∧
          exec (.fwdWrite t src msgid f data) s = .next { s with dev := d }) ∧
    (∀ x o, d.fab.fwd.find? (fun x => x.opId == r.tag && x.part == r.part && x.home == src) = some x → d.op r.tag = some o →
      let e := d.freeMsg (fun m => m.mtype == fwdReq && m.dst == src && m.args.getD 6 0 == r.tag)
      (o.kind = .read → exec (.fwdResp t src msgid r) s = .next { s with dev := (e.takePart o x r).pump }) ∧
      (o.kind ≠ .read → exec (.fwdResp t src msgid r) s = .next { s with dev := (e.takeAtomic o x r).pump })) ∧
    (d.op r.tag = none → exec (.fwdResp t src msgid r) s = .next { s with dev := d.finc HPT_DROP_CNT.TAG_STALE 1 }) ∧
    (d.op op = none → exec (.forwardAtomicTimeout t op) s = .next { s with dev := d.finc HPT_DROP_CNT.TAG_STALE 1 }) ∧
    (∀ o, d.op op = some o → (o.kind = .cmpSwap ∨ o.kind = .fetchAdd) → o.phase = .forwarded →
      d.fab.fwd.any (fun x => x.opId == op && decide (x.sentAt + 1000000 ≤ d.clk)) = true →
      exec (.forwardAtomicTimeout t op) s = .next { s with dev := (d.answer o { st := .retryAfter, us := d.deadlineUs o.rkey o.kind, inDoubt := true }).pump }) ∧
    (∀ x, d.fab.fj.find? (fun f => f.same a.origin src a.jseq && (f.state == .sent || f.state == .applied)) = some x →
      let e := d.freeMsg (fun m => m.mtype == fwdWrite && m.dst == src && m.args.getD 4 0 == a.jseq &&
          m.args.getD 5 0 == a.origin)
      (x.state = .sent → exec (.fwdAck t src msgid a) s = .next { s with dev := (e.takeVerdict x a).fjWindow.pump }) ∧
      (x.state ≠ .sent → exec (.fwdAck t src msgid a) s = .next { s with dev := e.fjWindow.pump })) ∧
    (∀ (e : Dev) (x : Fj),
      let set (g : Fj → Fj) : Dev :=
        { e with fab := { e.fab with fj := e.fab.fj.map (fun (y : Fj) => if y.same x.origin x.home x.jseq then g y else y) } }
      (a.status = .ok → e.f DUR_HORIZON.HORIZON < a.homeEpoch →
        e.takeVerdict x a = set (fun y => { y with state := .applied, homeEpoch := a.homeEpoch })) ∧
      (a.status = .ok → a.homeEpoch ≤ e.f DUR_HORIZON.HORIZON →
        e.takeVerdict x a = { e with fab := { e.fab with fj := e.fab.fj.filter (fun (y : Fj) => !y.same x.origin x.home x.jseq) } }) ∧
      (a.status = .retryAfter → e.takeVerdict x a = set (fun y => { y with hint := a.arg, sentAt := e.clk })) ∧
      (a.status = .redirect → e.takeVerdict x a = e.fjMove x a.other) ∧
      (a.status ≠ .ok → a.status ≠ .retryAfter → a.status ≠ .redirect → e.takeVerdict x a = e.fjFail x a.status.code)) ∧
    (∀ x, d.fab.fj.find? (fun f => f.same origin home jseq && f.state == .sent) = some x →
      (x.sentAt + x.hint * 1000 ≤ d.clk → exec (.fjResendTimer t origin home jseq) s = .next { s with dev := d.fjSend x }) ∧
      (d.clk < x.sentAt + x.hint * 1000 → exec (.fjResendTimer t origin home jseq) s = .next { s with dev := d })) ∧
    (∀ x, d.fab.fj.find? (fun f => f.same origin home jseq && (f.state == .posted || f.state == .sent)) = some x →
      (x.stamp + d.f FAB_FWD_CTL.FJ_LIMIT_MS * 1000000 ≤ d.now →
        exec (.fjLimitExpiry t origin home jseq) s = .next { s with dev := (d.fjFail x 3).fjWindow.pump }) ∧
      (d.now < x.stamp + d.f FAB_FWD_CTL.FJ_LIMIT_MS * 1000000 →
          exec (.fjLimitExpiry t origin home jseq) s = .next { s with dev := d }))

/-- HORIZON from the steward is noted and raises the horizon where it is higher; from another device, or with no valid ID, it
has no effect. MEMBER removes a member, lets a steward enlist one, and notes elsewhere that it joins at the next epoch. EXPEL
acts as its register says. A steward answers ID_ASK with the ID in LAST where it is free, else the lowest free one, and
remembers it; a device that is strapped to take one and has none takes an ID granted. SPAN_TXN begins the transaction at the
steward; a member that can hold the change reserves it and votes for it, one that cannot votes against it. SPAN_VOTE is counted
at the steward, and settles the transaction once every voter has voted or one has refused; elsewhere it is the outcome of the
change held or asked for. So spanTxn, expel, idAsk, idGrant and spanVote each answer the next state named. (R65, R215, R268,
R280, R291, R292, R293, Table 8.3 of spec/08_fabric.md.) -/
def Obligations.FabricSetRuns : Prop :=
  ∀ (t src epoch id last region : Nat) (add ok : Bool) (serial : BitVec 64) (m : RegionMsg) (s : State),
    let d := s.dev.tick t
    (src = d.f FAB_ID.STEWARD → d.on FAB_ID.VALID = true →
        exec (.horizon t src epoch) s = .next { s with dev := (({ d with fab := { d.fab with horizonSeen := true } } : Dev).judgeHorizon epoch).raiseHorizon epoch }) ∧
    ((src ≠ d.f FAB_ID.STEWARD ∨ d.on FAB_ID.VALID = false) → exec (.horizon t src epoch) s = .next { s with dev := d }) ∧
    (d.on FAB_ID.VALID = true →
      exec (.member t id false) s = .next { s with dev := d.removeMember id } ∧
      (d.isSteward = true → exec (.member t id true) s = .next { s with dev := d.enlist id }) ∧
      (d.isSteward = false → exec (.member t id true) s = .next { s with dev := { d with fab := { d.fab with joinAt := d.fab.joinAt ++ [(id, true)] } } })) ∧
    (d.on FAB_ID.VALID = false → exec (.member t id add) s = .next { s with dev := d } ∧
        exec (.spanTxn t src m) s = .next { s with dev := d }) ∧
    exec (.expel t id) s = .next { s with dev := d.expel id } ∧
    (∀ i, d.on FAB_CFG.ENABLE = true → d.isSteward = true → d.grantId last = some i →
        exec (.idAsk t serial last) s = .next { s with dev := ({ d with fab := { d.fab with granted := ins d.fab.granted i } } : Dev).send (.fabric i idGrant [serial.toNat, i] []) }) ∧
    (d.on FAB_CFG.ENABLE = true → d.fab.strapSrc = true → d.on FAB_ID.VALID = false →
      exec (.idGrant t id) s = .next { s with dev := d.takeGrant (id % 4096) }) ∧
    (d.on FAB_ID.VALID = true →
      (d.isSteward = true → exec (.spanTxn t src m) s = .next { s with dev := d.startSpan m src }) ∧
      (d.isSteward = false → d.cannotHold m = none →
          exec (.spanTxn t src m) s = .next { s with dev := (({ d.holdChange m with fab := { (d.holdChange m).fab with spanHeld := d.fab.spanHeld ++ [m] } } : Dev).fabSend
          src spanVote [m.region, 1]) }) ∧
      (∀ n, d.isSteward = false → d.cannotHold m = some n →
        exec (.spanTxn t src m) s = .next { s with dev := d.fabSend src spanVote [m.region, 0] })) ∧
    (∀ x, d.fab.spans.find? (fun x => x.region == region) = some x →
      let y : SpanTxn := { x with voters := x.voters.filter (fun v => v != src), ok := x.ok && ok }
      ((y.voters = [] ∨ y.ok = false) → exec (.spanVote t src region ok) s = .next { s with dev := (d.endSpan y).pump }) ∧
      (y.voters ≠ [] → y.ok = true → exec (.spanVote t src region ok) s = .next { s with dev := { d with fab := { d.fab with spans := d.fab.spans.map (fun z => if z.region = region then y else z) } } })) ∧
    (d.fab.spans.find? (fun x => x.region == region) = none →
      (d.fab.spanHeld.find? (fun m => m.region == region) = some m →
          exec (.spanVote t src region ok) s = .next { s with dev := (d.settleSpan m ok).pump }) ∧
      (∀ p, d.fab.spanHeld.find? (fun m => m.region == region) = none →
          d.fab.spanPend.find? (fun p => p.region == region) = some p →
        exec (.spanVote t src region ok) s = .next { s with dev := (d.settleSpan p.m ok).pump }) ∧
      (d.fab.spanHeld.find? (fun m => m.region == region) = none → d.fab.spanPend.find? (fun p => p.region == region) = none →
        exec (.spanVote t src region ok) s = .next { s with dev := d }))

/-- A channel in Training that found no module becomes Absent; one that fails, or does not fit its set, is Failed with TRAIN 4;
one that passes is Online with TRAIN 3 from stored results and 2 from a full run, its remap list loaded and its set's plots
returned, and where the device already serves and the stripe does not cover it a re-lay begins. An Online channel notes its ZQ
calibration every 128 ms and its DQS tracking every 16 ms. A temperature poll sets DIMM_TEMP, tREFI 3900 ns up to 85 °C and 1950
ns above, and the throttle from DIMM_THR on; a refresh and a refresh management command are counted. A drained channel lets the
stripe be laid again; then the stripe lies over the channels in use and a draining channel is Empty. So channelTrainingDone,
zqCalibrationTimer, dqsTrackingTimer, dimmTempPoll, refreshDue, rfmCount, channelEvacuationDone and stripeRelayDone each answer
the next state named. (R299, R305, R306, R307, R308, R310, R311, R312, R330, R331, R459, Table 9.2 of spec/09_dram_channels.md.) -/
def Obligations.ChannelsTrainAndTick : Prop :=
  ∀ (t ch temp bank : Nat) (r : TrainResult) (s : State),
    let d := s.dev.tick t
    let st := d.chanState ch
    (st = chTraining → ch < 24 →
      (r.found = false → exec (.channelTrainingDone t ch r) s = .next { s with dev := (d.fset (MDW_STAT.TRAIN ch) 0).toChanEvent ch chAbsent }) ∧
      (r.found = true → (r.type = 3 ∨ r.pass = false ∨ (d.noteTraining ch r).fitsSet ch r = false) →
        exec (.channelTrainingDone t ch r) s = .next { s with dev := ((d.noteTraining ch r).fset (MDW_STAT.TRAIN ch) 4).toChanEvent ch chFailed }) ∧
      (r.found = true → r.type ≠ 3 → r.pass = true → (d.noteTraining ch r).fitsSet ch r = true →
        let e := ((d.noteTraining ch r).loadRemap ch r.serials).fset (MDW_STAT.TRAIN ch) (if r.stored then 3 else 2)
        let e := (e.toChanEvent ch chOnline).returnPlots (e.f (MDW_CFG.SET ch))
        let late := e.core.transport && !e.mdw.stripe.contains ch && e.mdw.relay.isNone
        (late = true → exec (.channelTrainingDone t ch r) s = .next { s with dev := ({ e with mdw := { e.mdw with relay := some ch } } : Dev).pump }) ∧
        (late = false → exec (.channelTrainingDone t ch r) s = .next { s with dev := e.pump }))) ∧
    (st = chOnline → (d.chan ch).zqAt + 128000000 ≤ d.clk →
      exec (.zqCalibrationTimer t ch) s = .next { s with dev := d.setChan ch (fun c => { c with zqAt := d.clk }) }) ∧
    (st = chOnline → (d.chan ch).dqsAt + 16000000 ≤ d.clk →
      exec (.dqsTrackingTimer t ch) s = .next { s with dev := d.setChan ch (fun c => { c with dqsAt := d.clk }) }) ∧
    (st ≠ chAbsent → st ≠ chOff → (∃ d', exec (.dimmTempPoll t ch temp) s = .next { s with dev := d' } ∧
        d'.f (MDW_STAT.DIMM_TEMP ch) = temp % 2 ^ (MDW_STAT.DIMM_TEMP ch).width ∧
      (temp ≤ 85 → (d'.chan ch).trefi = 3900) ∧ (85 < temp → (d'.chan ch).trefi = 1950) ∧
      ((d'.chan ch).limited = true ↔ d.f THM_DIMM.DIMM_THR ≤ temp) ∧
      (∀ k, k ≠ ch → d'.chan k = d.chan k) ∧ d' = { d with regs := d'.regs, mdw := d'.mdw })) ∧
    ((st = chOnline ∨ st = chDraining ∨ st = chEmpty) →
      exec (.refreshDue t ch) s = .next { s with dev := (d.count 0x404 ch 1).setChan ch (fun c => { c with refs := c.refs + 1 }) }) ∧
    (d.f (MDW_REF.RFM_TH ch) ≠ 0 → (st = chOnline ∨ st = chDraining) →
      exec (.rfmCount t ch bank) s = .next { s with dev := d.setChan ch (fun c => { c with rfms := c.rfms + 1 }) }) ∧
    (d.f (MDW_REF.RFM_TH ch) = 0 → exec (.rfmCount t ch bank) s = .next { s with dev := d }) ∧
    (d.chanDrained ch = true → d.mdw.relay = none →
      exec (.channelEvacuationDone t ch) s = .next { s with dev := { d with mdw := { d.mdw with relay := some ch } } }) ∧
    (∀ c, d.mdw.relay = some c →
      let e : Dev := { d with mdw := { d.mdw with relay := none, stripe := d.stripeNow } }
      (e.chanState c = chDraining → exec (.stripeRelayDone t) s = .next { s with dev := e.toChanEvent c chEmpty }) ∧
      (e.chanState c ≠ chDraining → exec (.stripeRelayDone t) s = .next { s with dev := e }))

/-- An uncorrectable line freezes an Online channel with the line captured and the cause 3 for a home-table line, 2 under scrub
and 1 for another read; on a draining channel its plot is poisoned, or the home line rebuilt, and the channel does not freeze
again; on another channel nothing happens. FREEZE freezes an Online channel with cause 4 and is an illegal sequence of kind 8
elsewhere. THAW of a Frozen channel raises THAW_BUSY and ends self-refresh, is of kind 7 while one runs and of kind 8 elsewhere.
A thaw that completes poisons what failed every re-read, brings the channel Online with THAW_BUSY clear and event code 3, and
lets waiting work go on. Clearing the error counts and a log entry is refused with kind 8 on a Frozen channel. The pattern
generator starts in Training and Empty and is busy until it is done; a comparison then leaves its count, saturated, and the DQ
mask. The line checker, enabled on an Empty channel, writes the raw line, or reads it with the verdict and devices found; of a
line no raw write has stored the verdict and the devices alone are stated. So channelFreeze, freeze, thaw, thawComplete,
ceClear, ceLogEntryClear, patternGo, patternDone and checkerGo each answer the next state named. (R315, R316, R321, R322, R324,
R329, R306, R318, R319, Table 9.2 of spec/09_dram_channels.md.) -/
def Obligations.ChannelsFreezeAndThaw : Prop :=
  ∀ (t ch k lines dq verdict devmask : Nat) (err : LineErr) (scrub : Bool) (home : Option Nat) (s : State),
    let d := s.dev.tick t
    (d.chanState err.ch = chOnline → exec (.channelFreeze t err scrub home) s = .next { s with dev := (((d.captureUe err).setChan err.ch (fun c => { c with ueLine := err.line, ueHome := home })).freeze err.ch
        (if home.isSome then 3 else if scrub then 2 else 1)) }) ∧
    (d.chanState err.ch = chDraining →
      (∀ l, home = some l → exec (.channelFreeze t err scrub home) s = .next { s with dev := (d.rebuildLine l).pump }) ∧
      (∀ i, home = none → (d.meadowOf err.ch (err.line * 64)).bind (fun a => d.idxOfPlot (a / plotBytes)) = some i →
        exec (.channelFreeze t err scrub home) s = .next { s with dev := (d.poison i).pump })) ∧
    (d.chanState err.ch ≠ chOnline → d.chanState err.ch ≠ chDraining →
        exec (.channelFreeze t err scrub home) s = .next { s with dev := d }) ∧
    (d.chanState ch = chOnline → exec (.freeze t ch) s = .next { s with dev := (d.setChan ch (fun c => { c with ueHome := none })).freeze ch 4 }) ∧
    (d.chanState ch ≠ chOnline → exec (.freeze t ch) s = .next { s with dev := d.illegal 8 ((MDW_FRZ.FREEZE ch).off / 4) }) ∧
    (d.chanState ch = chFrozen → d.on (MDW_FRZ.THAW_BUSY ch) = false →
      exec (.thaw t ch) s = .next { s with dev := (d.fset (MDW_FRZ.THAW_BUSY ch) 1).fset (MDW_STAT.SR ch) 0 }) ∧
    (d.chanState ch = chFrozen → d.on (MDW_FRZ.THAW_BUSY ch) = true →
      exec (.thaw t ch) s = .next { s with dev := d.illegal 7 ((MDW_FRZ.THAW ch).off / 4) } ∧
      exec (.thawComplete t ch true) s = .next { s with dev := (((d.toChan ch chOnline).fset (MDW_FRZ.THAW_BUSY ch) 0).raise (chanSource ch 3) 2 0 ch 0).endFreeze ch } ∧
      exec (.thawComplete t ch false) s = .next { s with dev := ((((d.thawLost ch).toChan ch chOnline).fset (MDW_FRZ.THAW_BUSY ch) 0).raise (chanSource ch 3) 2 0 ch 0).endFreeze ch }) ∧
    (d.chanState ch ≠ chFrozen → exec (.thaw t ch) s = .next { s with dev := d.illegal 8 ((MDW_FRZ.THAW ch).off / 4) } ∧
      exec (.ceClear t ch) s = .next { s with dev := d.clearCe ch } ∧
          exec (.ceLogEntryClear t ch k) s = .next { s with dev := d.fset (MDW_CELOG.VALID ch k) 0 }) ∧
    (d.chanState ch = chFrozen → exec (.ceClear t ch) s = .next { s with dev := d.illegal 8 ((MDW_CE.CLEAR ch).off / 4) } ∧
      exec (.ceLogEntryClear t ch k) s = .next { s with dev := d.illegal 8 ((MDW_CELOG.VALID ch k).off / 4) }) ∧
    (d.chanState ch = chTraining ∨ d.chanState ch = chEmpty →
      (d.on (MDW_PAT.BUSY ch) = false → exec (.patternGo t ch) s = .next { s with dev := d.fset (MDW_PAT.BUSY ch) 1 }) ∧
      (d.on (MDW_PAT.BUSY ch) = true → exec (.patternGo t ch) s = .next { s with dev := d.illegal 7 ((MDW_PAT.GO ch).off / 4) })) ∧
    (d.chanState ch ≠ chTraining → d.chanState ch ≠ chEmpty →
        exec (.patternGo t ch) s = .next { s with dev := d.illegal 8 ((MDW_PAT.GO ch).off / 4) }) ∧
    (d.on (MDW_PAT.BUSY ch) = true →
      let e := d.fset (MDW_PAT.BUSY ch) 0
      (e.f (MDW_PAT.OP ch) = 0 → exec (.patternDone t ch lines dq) s = .next { s with dev := e }) ∧
      (e.f (MDW_PAT.OP ch) ≠ 0 → exec (.patternDone t ch lines dq) s = .next { s with dev := (e.fset (MDW_CMP.FAIL_LINES ch) (min lines (2 ^ 24 - 1))).fset (MDW_CMP.DQ_FAIL ch) dq })) ∧
    (d.on (MDW_CHK.EN ch) = true → d.chanState ch = chEmpty → d.f (MDW_CHK.OP ch) = 0 →
      exec (.checkerGo t ch verdict devmask) s = .next { s with dev := (d.setChan ch (fun c => { c with
        raw := put c.raw (d.f (MDW_CHK.LINE ch)) (BitVec.ofNat 640 (d.rawLine ch)) })) }) ∧
    ((d.on (MDW_CHK.EN ch) = false ∨ d.chanState ch ≠ chEmpty) →
        exec (.checkerGo t ch verdict devmask) s = .next { s with dev := d }) ∧
    (∀ v, d.on (MDW_CHK.EN ch) = true → d.chanState ch = chEmpty → d.f (MDW_CHK.OP ch) ≠ 0 →
      look (d.chan ch).raw (d.f (MDW_CHK.LINE ch)) = some v →
          (∃ d', exec (.checkerGo t ch verdict devmask) s = .next { s with dev := d' } ∧ (∀ i, i < 8 →
          d'.f (MDW_CHK_DATA.DATA ch i) = v.toNat / 2 ^ (64 * i) % 2 ^ 64) ∧
        d'.f (MDW_CHK_ECC.ECC ch) = v.toNat / 2 ^ 512 % 2 ^ (MDW_CHK_ECC.ECC ch).width ∧
        d'.f (MDW_CHK_RES.RESULT ch) = verdict % 2 ^ (MDW_CHK_RES.RESULT ch).width ∧
        d'.f (MDW_CHK_RES.DEVMASK ch) = devmask % 2 ^ (MDW_CHK_RES.DEVMASK ch).width ∧ d' = { d with regs := d'.regs })) ∧
    (d.on (MDW_CHK.EN ch) = true → d.chanState ch = chEmpty → d.f (MDW_CHK.OP ch) ≠ 0 →
      look (d.chan ch).raw (d.f (MDW_CHK.LINE ch)) = none →
          (∃ d', exec (.checkerGo t ch verdict devmask) s = .next { s with dev := d' } ∧
          d'.f (MDW_CHK_RES.RESULT ch) = verdict % 2 ^ (MDW_CHK_RES.RESULT ch).width ∧
        d'.f (MDW_CHK_RES.DEVMASK ch) = devmask % 2 ^ (MDW_CHK_RES.DEVMASK ch).width ∧
            d' = { d with regs := d'.regs, free := d.free + 10 }))

/-- A program a die runs that passed ends, its migration's copy is durable and the die goes on; one that failed is counted as
grown bad and made again, on another die once this one is retired, and waits outside the normal window. An erase is counted and
frees its die. The read of a heath plot for an issued READ waits while its die programs or erases, and is counted; an
uncorrectable one fails the read, a further plot is awaited, and after the last the READ goes on to be answered; a tag no
operation holds is stale. PAD_US after an open native block fell idle filler is programmed. A die in service that does not
answer fails its reads, has its plots poisoned, its migrations cancelled and leaves service. A module that finds nothing becomes
Absent, one outside the limits Failed with its eight channels, another Online with its dies counted and its save layout made. A
temperature is shown in TEMP and judges the window. A drained module without save duty or images leaves its heath plots out of
the pool and becomes Empty, its seal records kept on another module. So programComplete, eraseComplete, flashReadComplete,
padTimer, dieUnresponsive, moduleInitDone, moduleTempPoll and moduleEvacuationDone each answer the next state named. (R336,
R341, R342, R343, R345, R347, R350, R352, R353, R356, R357, spec/10_flash_channels.md.) -/
def Obligations.HeathOperationsComplete : Prop :=
  ∀ (t ch die op mod : Nat) (native : Bool) (r : ReadResult) (mr : ModuleResult) (temp : Option Int) (s : State),
    let d := s.dev.tick t
    let k := ch * 16 + die
    ((d.die k).busy.any (fun b => b.1 == opPslc || b.1 == opNative) = true →
      exec (.programComplete t ch die false native) s = .next { s with dev := (d.programPassed k native).pumpDies.pump } ∧
      (let y := d.die k
       let f := d.failedProgram k
       let waits := f.f (HTH_DIE.STATE ch die) != 1 || (f.modWindow (moduleOf ch) != 0 && y.why != whySave)
       let again := f.setDie k (fun z => { z with busy := z.busy.map (fun b => (b.1, f.clk)) })
       let idle := f.setDie k (fun z => { z with busy := none })
       let held (m : Migration) : Migration := { m with prog := 0, paused := if idle.modWindow (moduleOf ch) = 0 then m.paused else some (m.paused.getD idle.clk) }
       (waits = false → exec (.programComplete t ch die true native) s = .next { s with dev := again.pumpDies.pump }) ∧
       (waits = true → y.why ≠ whyMig → exec (.programComplete t ch die true native) s = .next { s with dev := idle.pumpDies.pump }) ∧
       (waits = true → y.why = whyMig → exec (.programComplete t ch die true native) s = .next { s with dev := (idle.setMig y.ref held).pumpDies.pump }))) ∧
    ((d.die k).busy.any (fun b => b.1 != opErase) = false → d.f (HTH_DIE.STATE ch die) = 1 →
      exec (.eraseComplete t ch die) s = .next { s with dev := (((d.count 0x502 ch 1).setDie k (fun y => { y with busy := none })).pumpDies).pump }) ∧
    (d.op op = none → exec (.flashReadComplete t op r) s = .next { s with dev := d.finc HPT_DROP_CNT.TAG_STALE 1 }) ∧
    (∀ o g x, d.op op = some o → o.phase = .issued → look d.rgn o.rid = some g →
      (d.heathTouches (d.opTouches o g o.off o.len))[o.appl]? = some x →
      let loc := (d.entry x.idx).loc
      let b := lookD d.hth.map loc 0
      let e := ((d.dropRead b o.id).countRead (b / 16) r).wantRefresh loc r.bits
      let n := (d.heathTouches (d.opTouches o g o.off o.len)).length
      ((d.die b).busy.any (fun x => x.1 != opRead) = true → exec (.flashReadComplete t op r) s = .next { s with dev := d }) ∧
      ((d.die b).busy.any (fun x => x.1 != opRead) = false →
        (r.uncorr = true → exec (.flashReadComplete t op r) s = .next { s with dev := ((e.failRead o x.idx (b / 16)).pumpDies).pump }) ∧
        (r.uncorr = false → o.appl + 1 < n →
          exec (.flashReadComplete t op r) s = .next { s with dev := (e.setOp o.id (fun y => { y with appl := y.appl + 1 })).pumpDies }) ∧
        (r.uncorr = false → n ≤ o.appl + 1 → exec (.flashReadComplete t op r) s = .next { s with dev :=
          ((e.setOp o.id (fun y => { y with phase := .waiting, dieRead := true, appl := 0 })).pumpDies).pump }))) ∧
    (∀ p, (d.die k).padFrom = some p → p + d.f (HTH_SCHED.PAD_US ch) * 1000 ≤ d.clk →
      d.tier.migs.any (fun m => m.dstTier == .deep && m.prog == 0 && m.step == .making &&
          lookD d.hth.map m.dstLoc 0 == k) = false →
      d.canProgram k = true → exec (.padTimer t ch die) s = .next { s with dev := (d.setDie k (fun y => { y with busy := some (opNative, d.clk), why := whyFill, padFrom := none })).count 0x501 ch 1 }) ∧
    (d.f (HTH_DIE.STATE ch die) = 1 →
      let lost := (d.tier.home.filter (fun e => (e.2.tier == .fast || e.2.tier == .deep) &&
          lookD d.hth.map e.2.loc 0 == k)).map (·.1)
      let e := lost.foldl Dev.poison (d.failDieReads k)
      let onDie := e.tier.migs.filter (fun m => m.dstTier != .meadow && lookD e.hth.map m.dstLoc 0 == k)
      let g := onDie.foldl (fun (x : Dev) m => x.cancelMig m.idx) e
      let h := (g.dropDie k).setDie k (fun y => { y with busy := none, reads := [], padFrom := none, openIdx := [], lastTwo := [] })
      exec (.dieUnresponsive t ch die) s = .next { s with dev :=
        (((onDie.filter (fun m => m.kind == .evacuation)).foldl (fun (x : Dev) m => x.evacuate m.idx) h).pumpDies).pump }) ∧
    (d.f (HTH_MOD_STAT.STATE mod) = modInit → mod < 20 →
      (mr.found = false → exec (.moduleInitDone t mod mr) s = .next { s with dev := d.toMod mod modAbsent }) ∧
      (mr.found = true → d.modFits mod mr = false →
          exec (.moduleInitDone t mod mr) s = .next { s with dev := ((List.range 8).foldl (fun (d : Dev) i => d.fset (HTH_STAT.STATE (8 * mod + i)) 3) d).toMod mod modFailed }) ∧
      (mr.found = true → d.modFits mod mr = true →
          exec (.moduleInitDone t mod mr) s = .next { s with dev := ((((d.noteModule mod mr).countDies mod).layModule mod mr).toMod mod modOnline).pumpDies })) ∧
    (∀ x, mod < 20 → (d.f (HTH_MOD_STAT.STATE mod) = modOnline ∨ d.f (HTH_MOD_STAT.STATE mod) = modDraining ∨
        d.f (HTH_MOD_STAT.STATE mod) = modEmpty) → d.modTemp mod temp = some x →
      let e := d.fset (HTH_MOD_STAT.TEMP mod) ((x % 256).toNat)
      exec (.moduleTempPoll t mod temp) s = .next { s with dev := ((e.toWindow mod (windowOf (signed8 (e.f (HTH_MOD_CFG.WIN_LO mod))) (signed8 (e.f (HTH_MOD_CFG.WIN_HI mod))) x
          (e.modWindow mod))).pump) }) ∧
    (d.f (HTH_MOD_STAT.STATE mod) = modDraining → d.f (DUR_MOD.DUTY mod) = 0 → (d.plotsOnModule mod) = [] →
      d.tier.migs.any (fun m => m.dstTier != .meadow && d.modOfHeath m.dstLoc == mod) = false →
      d.dur.images.any (fun x => x.mod == mod) = false →
      let moved (x : SealRec) : SealRec := { x with mods := x.mods.map (fun m => if m = mod then (d.imageMods.find? (fun m => m != mod && !x.mods.contains m)).getD mod else m) }
      exec (.moduleEvacuationDone t mod) s = .next { s with dev := (({ d with
            hth := { d.hth with mods := change d.hth.mods mod {} (fun x => { x with evacImg := true }) },
            dur := { d.dur with seals := d.dur.seals.map moved },
            tier := { d.tier with heathFree := d.tier.heathFree.filter (fun x => d.modOfHeath x.2 != mod) } } : Dev).toMod mod modEmpty) })

/-- A claim whose readback has not come 1 us after its assertion is released and fails with event 12.2 of severity 6; a failed
one is tried again 100 us after; one whose hold has lasted 10 us with the input deasserted promotes the device where no save has
begun. The input's assertion is noted; west gives up a claim not yet held for a random 20 to 100 us, and the write fence acts,
but on east while its own output is asserted; after 5 us the read fence acts; the input's deassertion restarts the hold and lets
a wanted claim start, and 1 us after it both fences lift. An adopted address is announced three times, 1 ms apart. A role swap
begins with SWAP_REQ where the link is up, no declaration or isolation stands and a region meant is primary here, and sets its
result otherwise. GIVEBACK in sync clears the adopted GIDs and ends their connections. REKEY moves to the other phase, over a
link that is up with a KEYPH frame, once that phase's slot holds a key, and waits otherwise. So claimReadbackTimeout,
claimRetry, claimHeld, snufInAssert, readFence, snufInDeassert, fenceLift, claimBackoffExpiry, adoptionAnnounce, swapGo,
giveback and twinRekey each answer the next state named. (R226, R244, R245, R246, R247, R248, R251, R253, R260,
spec/07_twin.md.) -/
def Obligations.ClaimsSettleTheSurvivor : Prop :=
  ∀ (t i n b region : Nat) (all : Bool) (s : State),
    let d := s.dev.tick t
    let claim := d.f TWN_STAT.CLAIM
    (claim = claimAsserting → d.twn.snufOutAt + 1000 ≤ d.clk →
        exec (.claimReadbackTimeout t) s = .next { s with dev := ((d.snuf false).fset TWN_STAT.CLAIM claimFailed).raise (source 12 2) 6 0 0xFFFF 0 }) ∧
    ((claim ≠ claimAsserting ∨ d.clk < d.twn.snufOutAt + 1000) → exec (.claimReadbackTimeout t) s = .next { s with dev := d }) ∧
    (claim = claimFailed → d.twn.snufOutAt + 100000 ≤ d.clk →
      let free := d.claimWanted = true ∧ d.twn.snufOut = false ∧ d.on TWN_STAT.SNUF_IN = false ∧ d.dur.saving = false;
      (free → exec (.claimRetry t) s = .next { s with dev := (d.snuf true).fset TWN_STAT.CLAIM claimAsserting }) ∧
      (¬ free → exec (.claimRetry t) s = .next { s with dev := d })) ∧
    ((claim ≠ claimFailed ∨ d.clk < d.twn.snufOutAt + 100000) → exec (.claimRetry t) s = .next { s with dev := d }) ∧
    (let held := claim = claimAsserting ∧ d.twn.holdFrom + 10000 ≤ d.clk ∧ d.on TWN_STAT.SNUF_IN = false ∧ d.dur.saving = false;
     (held → exec (.claimHeld t) s = .next { s with dev := d.promote }) ∧
         (¬ held → exec (.claimHeld t) s = .next { s with dev := d })) ∧
    (let u : Dev := { d.fset TWN_STAT.SNUF_IN 1 with twn := { d.twn with snufInAt := d.clk, snufOffAt := none } }
     let w := (u.snuf false).fset TWN_STAT.CLAIM claimBackoff
     let y : Dev := { w.drew with twn := { w.drew.twn with backoff := some (w.clk + w.backoffNs) } };
     (u.twn.side = false → u.twn.snufOut = true → exec (.snufInAssert t) s = .next { s with dev := u }) ∧
     (u.twn.side = false → u.twn.snufOut = false →
         exec (.snufInAssert t) s = .next { s with dev := ((u.fset TWN_STAT.FENCE_WR 1).fenceOps).pump }) ∧
     (u.twn.side = true → u.f TWN_STAT.CLAIM ≠ claimAsserting →
         exec (.snufInAssert t) s = .next { s with dev := ((u.fset TWN_STAT.FENCE_WR 1).fenceOps).pump }) ∧
     (u.twn.side = true → u.f TWN_STAT.CLAIM = claimAsserting →
         exec (.snufInAssert t) s = .next { s with dev := ((y.fset TWN_STAT.FENCE_WR 1).fenceOps).pump })) ∧
    (let five := d.on TWN_STAT.SNUF_IN = true ∧ d.on TWN_STAT.FENCE_WR = true ∧ d.twn.snufInAt + 5000 ≤ d.clk;
     (five → exec (.readFence t) s = .next { s with dev := (d.fset TWN_STAT.FENCE_RD 1).pump }) ∧
         (¬ five → exec (.readFence t) s = .next { s with dev := d })) ∧
    (d.on TWN_STAT.SNUF_IN = false → exec (.snufInDeassert t) s = .next { s with dev := d }) ∧
    (d.on TWN_STAT.SNUF_IN = true → exec (.snufInDeassert t) s = .next { s with dev := (({ d.fset TWN_STAT.SNUF_IN 0 with
        twn := { d.twn with snufOffAt := some d.clk, holdFrom := d.clk } } : Dev).startClaim) }) ∧
    (d.on TWN_STAT.SNUF_IN = false → d.twn.snufOffAt = some b → b + 1000 ≤ d.clk →
        exec (.fenceLift t) s = .next { s with dev := ((({ d with twn := { d.twn with snufOffAt := none } } : Dev).fset TWN_STAT.FENCE_WR 0).fset TWN_STAT.FENCE_RD 0).pump }) ∧
    (d.on TWN_STAT.SNUF_IN = true → exec (.fenceLift t) s = .next { s with dev := d }) ∧
    (claim = claimBackoff → d.twn.backoff = some b → b ≤ d.clk →
        exec (.claimBackoffExpiry t) s = .next { s with dev := (({ d with twn := { d.twn with backoff := none } } : Dev).fset TWN_STAT.CLAIM claimNone).startClaim }) ∧
    (claim ≠ claimBackoff → exec (.claimBackoffExpiry t) s = .next { s with dev := d }) ∧
    (look d.twn.adopted i = some n → n < 3 → d.twn.promotedAt + n * 1000000 ≤ d.clk →
        exec (.adoptionAnnounce t i) s = .next { s with dev := ({ d.send (.announce (d.f (TWN_ADOPT.PORT i)) (d.f (TWN_PEER_GID.GID i))) with
        twn := { d.twn with adopted := put d.twn.adopted i (n + 1) } }) }) ∧
    (look d.twn.adopted i = none → exec (.adoptionAnnounce t i) s = .next { s with dev := d }) ∧
    (d.on TWN_CTL.SWAP_BUSY = true → exec (.swapGo t region all) s = .next { s with dev := d.illegal 7 (TWN_CTL.SWAP_GO.off / 4) }) ∧
    (d.on TWN_CTL.SWAP_BUSY = false →
      let e := (d.fset TWN_CTL.REGION region).fset TWN_CTL.ALL (bit all)
      let e : Dev := { e with twn := { e.twn with swapReg := if all then 4096 else region } }
      let here := e.rgn.any (fun r => r.2.mirrored && e.primaryHere r.1 r.2 && (all || r.1 == region))
      let free := e.twn.linkUp = true ∧ e.twn.hello = true ∧ e.twn.declared = false ∧ e.twn.isolated = false ∧
          e.twn.swapIn = none;
      (free → here = false → exec (.swapGo t region all) s = .next { s with dev := e.fset TWN_CTL.SWAP_RESULT 4 }) ∧
      (free → here = true →
        let u := (e.fset TWN_CTL.SWAP_BUSY 1).fset TWN_CTL.SWAP_RESULT 0
        exec (.swapGo t region all) s = .next { s with dev := (({ u with twn := { u.twn with swapOut := true } } : Dev).twinSend twSwapReq 0 [region, bit all]).pump }) ∧
      (¬ free → exec (.swapGo t region all) s = .next { s with dev := e.fset TWN_CTL.SWAP_RESULT (if e.twn.swapIn.isSome ∧ e.twn.side then 2 else 3) })) ∧
    (d.f TWN_STAT.PEER ≠ peerInSync → exec (.giveback t) s = .next { s with dev := d.illegal 8 (TWN_CTL.GIVEBACK.off / 4) }) ∧
    (d.f TWN_STAT.PEER = peerInSync →
      let e := (d.twn.adopted.map (·.1)).foldl (fun (d : Dev) i => d.fset (HPT_GID.GID (d.f (TWN_ADOPT.PORT i)) (d.f (TWN_ADOPT.SLOT i))) 0) d
      let g : Dev := { e with twn := { e.twn with adopted := [] } }
      exec (.giveback t) s = .next { s with dev := ((g.hpt.conns.filter (fun c => c.2.adopted && c.2.state.isOpen)).map (·.1)).foldl Dev.sendDreq g }) ∧
    (let next := 1 - d.f TWN_KEY.KEYPH;
     (d.slotLoaded (d.twinSlot next) 2 = true →
      let e : Dev := { d.fset TWN_KEY.REKEY 0 with twn := { d.twn with rekeyDue := false } }
      (d.twn.linkUp = true → exec (.twinRekey t) s = .next { s with dev := e.twinQueue { ftype := twKeyph, args := [next] } }) ∧
      (d.twn.linkUp = false → exec (.twinRekey t) s = .next { s with dev := e.twinPhase next })) ∧
     (d.slotLoaded (d.twinSlot next) 2 = false →
         exec (.twinRekey t) s = .next { s with dev := { d with twn := { d.twn with rekeyDue := true } } }))

/-- Whatever a command's own action is: a command that is not there, is of another opcode, or may not start yet leaves the
device as it is; one whose turn has come is answered BAD_FIELD with the lowest offending byte offset, or HELD where the device
is in a Hold that holds it back; otherwise it runs from now on and its action takes place. (R388, R390, R392, R396, R397, R401,
Table 12.5 of spec/12_control_rings.md.) -/
def Obligations.RingCommandsTakeTheirTurn : Prop :=
  ∀ (d : Dev) (id op : Nat) (fits : Cmd → Bool) (act : Dev → Cmd → Dev) (c : Cmd),
    (d.cmd id = none → d.startCmd id op fits act = d) ∧
    (d.cmd id = some c → (c.op ≠ op ∨ fits c = false ∨ d.startable c = false) → d.startCmd id op fits act = d) ∧
    (∀ i, d.cmd id = some c → c.op = op → fits c = true → d.startable c = true → d.badField c = some i →
      d.startCmd id op fits act = d.complete c csBadField i) ∧
    (d.cmd id = some c → c.op = op → fits c = true → d.startable c = true → d.badField c = none → d.heldBack c = true →
      d.startCmd id op fits act = d.complete c csHeld) ∧
    (d.turnOf id op fits c → d.startCmd id op fits act = act (d.begun id c) (d.now_ c))

/-- While the core serves, a doorbell fetch with rings enabled and none outstanding reads the page; a kick wakes lantern 15
where it sleeps and reads it. A page read that ends in an error raises event 15.1 and changes no ring; one that succeeds takes
the tails, the heads and the heartbeat, lets each ring fetch and settles waits. Descriptors of a fetch that is outstanding are
taken in order, up to the number asked for; an error stops the ring and sets FETCH_ERR; a ring that was disabled, or fetching
that has stopped, takes none. A PCIe link that goes down, and HB_AGE reaching 1000 ms, make the main side absent; before that it
is not. So doorbellFetch, ringKick, doorbellReadComplete, descriptorFetchComplete, pcieLinkDown and mainSideAbsent each answer
the next state named. (R380, R382, R383, R384, R385, R386, R387, R389, R417, R432, Table 12.2 of spec/12_control_rings.md.) -/
def Obligations.DoorbellAndDescriptors : Prop :=
  ∀ (t ring : Nat) (ok : Bool) (tails heads : List (Nat × Nat)) (hb : BitVec 64) (descs : List (List (BitVec 64))) (s : State),
    let d := s.dev.tick t
    let page := d.f RING_DB_CFG.ADDR * 4096
    (d.serves = true → d.on RING_DB_CFG.EN = true → d.ring.fetching = false →
        exec (.doorbellFetch t) s = .next { s with dev := ({ d with ring := { d.ring with fetching := true } } : Dev).send (.doorbellRead page) }) ∧
    (d.serves = true → d.asleep 15 = false → d.on RING_DB_CFG.EN = true →
        exec (.ringKick t) s = .next { s with dev := ({ d with ring := { d.ring with fetching := true } } : Dev).send (.doorbellRead page) }) ∧
    (d.serves = true → d.asleep 15 = true → d.on RING_DB_CFG.EN = false →
        exec (.ringKick t) s = .next { s with dev := d.wake 15 }) ∧
    (d.serves = false → exec (.doorbellFetch t) s = .next { s with dev := d } ∧
        exec (.ringKick t) s = .next { s with dev := d }) ∧
    (d.ring.fetching = true → d.coreOn = true →
      let e : Dev := { d with ring := { d.ring with fetching := false } }
      exec (.doorbellReadComplete t false tails heads hb) s = .next { s with dev := e.raise (source 15 1) 2 0 0 0 } ∧
      (let e : Dev := { e with ring := { e.ring with pcieUp := true } }
       let e := tails.foldl (fun (e : Dev) x => if x.1 < 64 then e.takeTail x.1 (x.2 % 65536) else e) e
       let e := heads.foldl (fun (e : Dev) x => if x.1 < 64 then e.takeHead x.1 (x.2 % 65536) else e) e
       let e := (List.range 64).foldl Dev.fetchRing (e.takeHeartbeat hb)
       exec (.doorbellReadComplete t true tails heads hb) s = .next { s with dev := e.settleWaits (e.ring.cmds.length) })) ∧
    (∀ k, look d.ring.toFetch ring = some k →
      let e : Dev := { d with ring := { d.ring with toFetch := del d.ring.toFetch ring } }
      exec (.descriptorFetchComplete t ring false descs) s = .next { s with dev := (e.setRing ring (fun r => { r with stopped := true })).fset RING_GSTAT.FETCH_ERR 1 } ∧
      (d.ring.stopFetch = false → d.on (RING_SQ_CFG.EN ring) = true →
        exec (.descriptorFetchComplete t ring true descs) s = .next { s with dev := e.takeDescs ring (descs.take k) }) ∧
      ((d.ring.stopFetch = true ∨ d.on (RING_SQ_CFG.EN ring) = false) →
          exec (.descriptorFetchComplete t ring true descs) s = .next { s with dev := e })) ∧
    (look d.ring.toFetch ring = none → exec (.descriptorFetchComplete t ring ok descs) s = .next { s with dev := d }) ∧
    exec (.pcieLinkDown t) s = .next { s with dev := ({ d with ring := { d.ring with pcieUp := false, fetching := false, toFetch := [] } } : Dev).mainAbsent } ∧
    (d.ring.hbAt + 1000000000 ≤ d.clk → exec (.mainSideAbsent t) s = .next { s with dev := d.mainAbsent }) ∧
    (d.clk < d.ring.hbAt + 1000000000 → exec (.mainSideAbsent t) s = .next { s with dev := d })

/-- When its turn comes, an ABORT that finds no incomplete command of the ring and tag completes DONE with 1 where such a
command has completed since reset, else 2; one whose target has not started makes it complete ABORTED and itself 0, a barrier it
held going; one whose target runs and is abortable stops it and completes with 0; one whose target runs and is not abortable
completes with 1. FLUSH and WAIT_COUNT run from then on and complete as soon as their condition holds. A WAIT_COUNT with a
timeout that has run it out completes REFUSED 11; one with no timeout, or before it, goes on waiting. So abort, flushCmd,
waitCount and waitCountTimeout each answer the next state named. (R396, R397, R398, Table 12.9 of spec/12_control_rings.md.) -/
def Obligations.OrderingCommandsAct : Prop :=
  ∀ (t id : Nat) (c : Cmd) (s : State),
    let d := s.dev.tick t
    let e := d.begun id c
    let a := d.now_ c
    (d.turnOf id ocAbort anyCmd c →
      (e.abortTarget a = none → exec (.abort t id) s = .next { s with dev := (e.complete a csDone
        (if e.ring.doneTags.contains (a.byte 16 % 64 * 65536 + a.u16 18) then 1 else 2)) }) ∧
      (∀ x, e.abortTarget a = some x →
        (x.running = false → e.ring.barrier ≠ some x.id →
          exec (.abort t id) s = .next { s with dev := (e.complete x csAborted).complete a csDone 0 }) ∧
        (x.running = false → e.ring.barrier = some x.id →
            exec (.abort t id) s = .next { s with dev := (({ e with ring := { e.ring with barrier := none } } : Dev).complete x csAborted).complete a csDone 0 }) ∧
        (x.running = true → abortOps.contains x.op = true →
            exec (.abort t id) s = .next { s with dev := ((e.stopCmd x).complete a csDone 0).pump }) ∧
        (x.running = true → abortOps.contains x.op = false →
            exec (.abort t id) s = .next { s with dev := e.complete a csDone 1 }))) ∧
    (d.turnOf id ocFlush anyCmd c → exec (.flushCmd t id) s = .next { s with dev := e.settleWaits e.ring.cmds.length }) ∧
    (d.turnOf id ocWait anyCmd c → exec (.waitCount t id) s = .next { s with dev := e.settleWaits e.ring.cmds.length }) ∧
    (d.cmd id = some c → c.op = ocWait → c.running = true →
      (c.u32 24 ≠ 0 → c.started + c.u32 24 * 1000 ≤ d.clk →
          exec (.waitCountTimeout t id) s = .next { s with dev := d.complete c csRefused 11 }) ∧
      ((c.u32 24 = 0 ∨ d.clk < c.started + c.u32 24 * 1000) → exec (.waitCountTimeout t id) s = .next { s with dev := d })) ∧
    (∀ x : Cmd, x.running = true → x.sb = false → x.op = ocWait →
      (d.on (RING_SQ_CFG.EN (x.byte 16 % 64)) = false → d.waitOver x = some (csRefused, 12)) ∧
      (d.on (RING_SQ_CFG.EN (x.byte 16 % 64)) = true →
        (d.f (RING_STAT.DONE_CNT (x.byte 16 % 64)) + 2 ^ 32 - x.u32 20) % 2 ^ 32 < 2 ^ 31 →
        d.waitOver x = some (csDone, d.f (RING_STAT.DONE_CNT (x.byte 16 % 64)))) ∧
      (d.on (RING_SQ_CFG.EN (x.byte 16 % 64)) = true →
        2 ^ 31 ≤ (d.f (RING_STAT.DONE_CNT (x.byte 16 % 64)) + 2 ^ 32 - x.u32 20) % 2 ^ 32 → d.waitOver x = none))

/-- While the core serves, OPEN in Closed opens a transaction of the host with every applied STG value in the shadow bank, and
is an illegal sequence of kind 7 in any other state; DISCARD throws away a bank the host holds Open and otherwise does nothing;
GRANT is written, the authority set anew, and the side-band manager's bank dropped where a grant is withdrawn. A commit whose
turn comes is answered SIDEBAND_HOLDS where that manager holds the bank, is an illegal sequence of kind 5 in Checking, is
REFUSED 9 while one is scheduled and REFUSED 1 in Closed, NOT_READY 2 where it needs device time that is invalid, and is
accepted into Checking otherwise. The end of the checking refuses the bank with its first failing rule and field, applies it at
once for WHEN 0, and schedules it otherwise, for TIME or for the epoch's closing instant; a scheduled bank applies once that
instant has come. The settings store is written, under the next generation, where a change waits. So cfgOpen, cfgDiscard,
cfgGrant, cfgCommit, cfgCheckDone, cfgScheduledApply and settingsStoreWrite each answer the next state named. (R408, R409, R410,
R411, R412, R413, R416, R417, R418, R420, R421, Table 13.2 of spec/13_configuration.md.) -/
def Obligations.ConfigTransactionsRun : Prop :=
  ∀ (t id : Nat) (on : Bool) (c : Cmd) (s : State),
    let d := s.dev.tick t
    let e := d.begun id c
    let a := d.now_ c
    (d.serves = true →
      (d.f CFX_CTL.STATE = 0 → exec (.cfgOpen t) s = .next { s with dev := { (d.fset CFX_CTL.STATE 1).fset CFX_CTL.HOLDER holderHost with cfx := { shadow := d.listed .stg } } }) ∧
      (d.f CFX_CTL.STATE ≠ 0 → exec (.cfgOpen t) s = .next { s with dev := d.illegal 7 CFX_CTL.OPEN.place }) ∧
      (d.f CFX_CTL.STATE = 1 → d.f CFX_CTL.HOLDER = holderHost →
          exec (.cfgDiscard t) s = .next { s with dev := d.discardCfx }) ∧
      ((d.f CFX_CTL.STATE ≠ 1 ∨ d.f CFX_CTL.HOLDER ≠ holderHost) → exec (.cfgDiscard t) s = .next { s with dev := d }) ∧
      ((d.on CFX_CTL.GRANT = false ∨ on = true) →
          exec (.cfgGrant t on) s = .next { s with dev := (d.fset CFX_CTL.GRANT (bit on)).setAuthority }) ∧
      (d.on CFX_CTL.GRANT = true → exec (.cfgGrant t false) s = .next { s with dev := (d.fset CFX_CTL.GRANT 0).setAuthority.dropSideBank })) ∧
    (d.turnOf id ocCommit anyCmd c →
      (d.f CFX_CTL.STATE ≠ 0 → d.f CFX_CTL.HOLDER = holderSide →
          exec (.cfgCommit t id) s = .next { s with dev := e.complete a csSideband }) ∧
      (d.f CFX_CTL.STATE = 2 → d.f CFX_CTL.HOLDER ≠ holderSide →
          exec (.cfgCommit t id) s = .next { s with dev := ((e.illegal 5 a.ring).dropCmd a.id).settleWaits e.ring.cmds.length }) ∧
      (d.f CFX_CTL.STATE = 3 → d.f CFX_CTL.HOLDER ≠ holderSide →
          exec (.cfgCommit t id) s = .next { s with dev := e.complete a csRefused 9 }) ∧
      (d.f CFX_CTL.STATE = 0 → exec (.cfgCommit t id) s = .next { s with dev := (((e.fset CFX_RESULT.OUTCOME 2).fset CFX_RESULT.CHECK 1).fset CFX_RESULT.OFFSET 0).complete a csRefused 1 }) ∧
      (d.f CFX_CTL.STATE = 1 → d.f CFX_CTL.HOLDER ≠ holderSide →
        (a.byte 16 ≠ 0 → d.tim.valid = false → exec (.cfgCommit t id) s = .next { s with dev := e.complete a csNotReady 2 }) ∧
        ((a.byte 16 = 0 ∨ d.tim.valid = true) →
            exec (.cfgCommit t id) s = .next { s with dev := { e.fset CFX_CTL.STATE 2 with cfx := { e.cfx with cmdId := some a.id, when := a.byte 16, time := a.u64 24, applyAt := 0 } } }))) ∧
    (d.f CFX_CTL.STATE = 2 →
      (∀ k o, d.bankFault = some (k, o) → exec (.cfgCheckDone t) s = .next { s with dev := d.refuseCommit k o }) ∧
      (d.bankFault = none → d.cfx.when = 0 → exec (.cfgCheckDone t) s = .next { s with dev := d.applyCfx }) ∧
      (d.bankFault = none → d.cfx.when ≠ 0 →
          exec (.cfgCheckDone t) s = .next { s with dev := ({ d.fset CFX_CTL.STATE 3 with cfx := { d.cfx with
        applyAt := if d.cfx.when = 1 then d.cfx.time else d.epochOf d.now * 1000000 } }) })) ∧
    (d.f CFX_CTL.STATE = 3 → d.cfx.applyAt ≤ d.now → exec (.cfgScheduledApply t) s = .next { s with dev := d.applyCfx }) ∧
    ((d.f CFX_CTL.STATE ≠ 3 ∨ d.now < d.cfx.applyAt) → exec (.cfgScheduledApply t) s = .next { s with dev := d }) ∧
    (d.store.dirty = true → (∃ d', exec (.settingsStoreWrite t) s = .next { s with dev := d' } ∧
        d'.f CFX_STORE.GENERATION = (d.f CFX_STORE.GENERATION + 1) % 2 ^ CFX_STORE.GENERATION.width ∧
      d'.store = { d.store with valid := true, dirty := false } ∧ d' = { d with regs := d'.regs, store := d'.store })) ∧
    (d.store.dirty = false → exec (.settingsStoreWrite t) s = .next { s with dev := d })

/-- With device time valid, a region command whose turn has come goes as follows. A creation draws its tag and is REFUSED with
the reason that bars it, ends with DMA_FAULT where its stripe table is short, is answered NO_SPACE where its portion here does
not fit, and is accepted as a change otherwise. Another function is REFUSED 3 on the counter region but for its key, REFUSED 2
where the region is not in use; on a region in use it draws a tag where it enables a key, is a BAD_FIELD for a growth that
shrinks, is answered with what this device cannot hold, and is accepted as a change otherwise. A destroy of a region that may be
destroyed is accepted, of another one REFUSED 2. Without valid time each completes NOT_READY 2. An accepted change of a region
that is neither spanned nor needs the twin takes effect at once, a seal at the open epoch's closing instant; a creation then
leaves the region Online with its attributes and run. A run that has moved lets its growth complete. So regionCreate,
regionModify, regionSeal, regionKey, regionGrow, regionDestroy and homeRunMoveDone each answer the next state named. (R35, R37,
R38, R40, R44, R48, R49, R50, R378, R391, R394, Table 12.8 of spec/12_control_rings.md.) -/
def Obligations.RegionCommandsAct : Prop :=
  ∀ (t id : Nat) (stripes : List (BitVec 32)) (c : Cmd) (s : State),
    let d := s.dev.tick t
    let e := d.begun id c
    let a := d.now_ c
    let runs (st : List (BitVec 32)) (x : Dev) : Prop :=
      (c.func = fnCreate → st = stripes → exec (.regionCreate t id stripes) s = .next { s with dev := x }) ∧
      (c.func = fnModify → st = [] → exec (.regionModify t id) s = .next { s with dev := x }) ∧
      (c.func = fnSeal → st = [] → exec (.regionSeal t id) s = .next { s with dev := x }) ∧
      (c.func = fnKey → st = [] → exec (.regionKey t id) s = .next { s with dev := x }) ∧
      (c.func = fnGrow → st = [] → exec (.regionGrow t id) s = .next { s with dev := x })
    (∀ st, d.turnOf id ocRegion (d.regionFits c.func) c → runs st (e.runRegion a st)) ∧
    (∀ (x : Dev) (y : Cmd) (st : List (BitVec 32)), x.tim.valid = false → x.runRegion y st = x.complete y csNotReady 2) ∧
    (∀ (x : Dev) (y : Cmd) (st : List (BitVec 32)), x.tim.valid = true → y.func = fnCreate →
      let m := x.createMsg y st
      let u := x.rngUsed
      (∀ k, u.createBar m = some k → x.runRegion y st = u.complete y csRefused k) ∧
      (u.createBar m = none → m.spanned = true → m.stripes.length < y.u16 50 →
          x.runRegion y st = u.complete y csDmaFault 0 (y.u64 56)) ∧
      (u.createBar m = none → (m.spanned = false ∨ y.u16 50 ≤ m.stripes.length) →
        (u.noRoom m = true → x.runRegion y st = u.complete y csNoSpace) ∧
        (u.noRoom m = false → x.runRegion y st = (u.submitChange m (some y.id)).pump))) ∧
    (∀ (x : Dev) (y : Cmd) (st : List (BitVec 32)), x.tim.valid = true → y.func ≠ fnCreate →
      (y.region = counterRegion → y.func ≠ fnKey → x.runRegion y st = x.complete y csRefused 3) ∧
      (y.region ≠ counterRegion → look x.rgn y.region = none → x.runRegion y st = x.complete y csRefused 2) ∧
      (∀ r, y.region ≠ counterRegion → look x.rgn y.region = some r →
        let m := x.changeMsg y r
        let u := if y.drawsTag then x.rngUsed else x
        let bad := y.func = fnGrow ∧ (m.size < r.size ∨ (r.spanned = false ∧ 2 ^ 34 < m.size))
        (bad → x.runRegion y st = u.complete y csBadField 24) ∧
        (¬ bad → u.cannotHold m = some 0 → x.runRegion y st = u.complete y csNoSpace) ∧
        (∀ k, ¬ bad → u.cannotHold m = some (k + 1) → x.runRegion y st = u.complete y csRefused (k + 1)) ∧
        (¬ bad → u.cannotHold m = none → x.runRegion y st = (u.submitChange m (some y.id)).pump))) ∧
    (d.turnOf id ocDestroy anyCmd c →
      (d.tim.valid = false → exec (.regionDestroy t id) s = .next { s with dev := e.complete a csNotReady 2 }) ∧
      (d.tim.valid = true → look d.rgn c.region = none →
          exec (.regionDestroy t id) s = .next { s with dev := e.complete a csRefused 2 }) ∧
      (∀ r, d.tim.valid = true → look d.rgn c.region = some r →
        ((c.region = counterRegion ∨ stateForbids fnDestroy r = true) →
            exec (.regionDestroy t id) s = .next { s with dev := e.complete a csRefused 2 }) ∧
        (c.region ≠ counterRegion → stateForbids fnDestroy r = false →
            exec (.regionDestroy t id) s = .next { s with dev := ((e.submitChange { region := c.region, func := fnDestroy, size := r.size, mirror := r.mirror, spanned := r.spanned }
            (some a.id)).pump) }))) ∧
    (∀ (x : Dev) (m : RegionMsg) (cmd : Option Nat), m.stripes = [] → (look x.rgn m.region).any (fun r => r.spanned) = false →
      (x.holdChange m).changesAlone = true →
      x.submitChange m cmd = (x.holdChange m).finishChange m ((x.holdChange m).changeAt m) cmd) ∧
    (∀ (x : Dev) (m : RegionMsg) (n : Nat) (cmd : Option Nat), look x.rgn m.region = none → m.func = fnCreate →
      x.applyMsg m n cmd = (x.setRegion m.region (Region.ofMsg m .online (x.freeRun (x.localRun m)) (x.localRun m)), true)) ∧
    (∀ region g r, d.tier.grow.find? (fun g => g.region == region) = some g → look d.rgn region = some r →
      (g.cmdId.bind (d.endGrow g r).cmd = none →
          exec (.homeRunMoveDone t region) s = .next { s with dev := (d.endGrow g r).pump }) ∧
      (∀ x, g.cmdId.bind (d.endGrow g r).cmd = some x →
        exec (.homeRunMoveDone t region) s = .next { s with dev := ((d.endGrow g r).complete x csDone 0 (d.endGrow g r).now).pump }))

/-- When its turn comes, a data command that names a region it may not act on completes REFUSED 2; a COPY or FILL that may act
runs and its first block is let go on; a MIGRATE_HINT starts the migrations of the plots it moves and completes with their
number and the number skipped; a PIN changes PIN of every plot of the range that has the other value and completes with their
number; SEAL_NOW sets the stop flag as told and waits for the epochs to seal; a scrub looks its plots up on the lantern of its
region modulo 8 and runs, with the lines it covers as its progress, and when it is done leaves its five counts and completes
with the uncorrectable lines, saturated, and the lines read. EVACUATE of a channel or module that is refused completes REFUSED
6; one that is accepted starts the evacuation and completes with the plots to move. So copy, fill, migrateHint, pin, sealNow,
scrubRange, scrubRangeDone, evacuateChannel and evacuateModule each answer the next state named. (R163, R207, R318, R319, R325,
R327, R328, R355, R356, R393, Table 12.6 of spec/12_control_rings.md.) -/
def Obligations.DataCommandsAct : Prop :=
  ∀ (t id corrected uncorr remapped : Nat) (c : Cmd) (s : State),
    let d := s.dev.tick t
    let e := d.begun id c
    let a := d.now_ c
    (d.turnOf id ocCopy anyCmd c →
      (d.dataRegion c.src.1 = true → d.dataRegion c.dest.1 = true → c.dest.1 ≠ counterRegion →
          exec (.copy t id) s = .next { s with dev := e.pump }) ∧
      ((d.dataRegion c.src.1 = false ∨ d.dataRegion c.dest.1 = false ∨ c.dest.1 = counterRegion) →
        exec (.copy t id) s = .next { s with dev := e.complete a csRefused 2 })) ∧
    (d.turnOf id ocFill anyCmd c →
      (d.dataRegion c.dest.1 = true → c.dest.1 ≠ counterRegion → exec (.fill t id) s = .next { s with dev := e.pump }) ∧
      ((d.dataRegion c.dest.1 = false ∨ c.dest.1 = counterRegion) →
          exec (.fill t id) s = .next { s with dev := e.complete a csRefused 2 })) ∧
    (∀ r, d.turnOf id ocHint anyCmd c → look d.rgn c.region = some r → d.dataRegion c.region = true → c.region ≠ counterRegion →
      let tier := Tier.ofCode (a.byte 18)
      let l := (e.writtenIn r (a.u64 24) (a.u64 40)).filter (e.hintMoves r tier)
      exec (.migrateHint t id) s = .next { s with dev := ((l.foldl (fun (x : Dev) i =>
        x.startMig i (x.hintKind tier i) tier) e).complete a csDone l.length
          (a.u64 40 - l.length)) }) ∧
    (∀ r, d.turnOf id ocPin anyCmd c → look d.rgn c.region = some r → d.dataRegion c.region = true → c.region ≠ counterRegion →
      (a.byte 18 % 2 = 1 → let l := (e.idxsOf r (a.u64 24) (a.u64 40)).filter (fun i => (e.entry i).pin != true)
        exec (.pin t id) s = .next { s with dev := (l.foldl (fun (x : Dev) i => x.setPin i true) e).complete a csDone 0 l.length }) ∧
      (a.byte 18 % 2 = 0 → let l := (e.writtenIn r (a.u64 24) (a.u64 40)).filter (fun i => (e.entry i).pin != false)
        exec (.pin t id) s = .next { s with dev := (l.foldl (fun (x : Dev) i => x.setPin i false) e).complete a csDone 0 l.length })) ∧
    ((look d.rgn c.region = none ∨ d.dataRegion c.region = false ∨ c.region = counterRegion) →
      (d.turnOf id ocHint anyCmd c → exec (.migrateHint t id) s = .next { s with dev := e.complete a csRefused 2 }) ∧
      (d.turnOf id ocPin anyCmd c → exec (.pin t id) s = .next { s with dev := e.complete a csRefused 2 })) ∧
    (d.turnOf id ocSealNow anyCmd c →
        exec (.sealNow t id) s = .next { s with dev := (({ e with dur := { e.dur with stop := a.byte 16 % 2 == 1, sealNow := e.dur.sealNow ++ [(a.id, e.now)] } } :
        Dev).settleSealNow.pump) }) ∧
    (d.turnOf id ocScrub anyCmd c →
      (c.byte 18 = 0 → d.dataRegion c.region = false →
          exec (.scrubRange t id) s = .next { s with dev := e.complete a csRefused 2 }) ∧
      ((c.byte 18 ≠ 0 ∨ d.dataRegion c.region = true) →
        let w := (e.scrubIdxs a).foldl (fun (x : Dev) i => x.wickLookup (a.region % 8) i) e
        exec (.scrubRange t id) s = .next { s with dev := w.setCmd a.id (fun x => { x with progress := (e.scrubLines a).1 }) })) ∧
    (d.cmd id = some c → c.op = ocScrub → c.running = true →
        exec (.scrubRangeDone t id corrected uncorr remapped) s = .next { s with dev := ((d.scrubCounts c [(d.scrubLines c).1, corrected, uncorr, remapped, (d.scrubLines c).2 - (d.scrubLines c).1]).complete c csDone
        (min uncorr (2 ^ 32 - 1)) (d.scrubLines c).1) }) ∧
    (d.turnOf id ocEvacuate (fun c => c.func == 0) c →
      (e.evacRefused (a.byte 17) = true → exec (.evacuateChannel t id) s = .next { s with dev := e.complete a csRefused 6 }) ∧
      (e.evacRefused (a.byte 17) = false →
          exec (.evacuateChannel t id) s = .next { s with dev := (e.evacChannel (a.byte 17)).complete a csDone 0 (e.plotsToMove (a.byte 17)).length })) ∧
    (d.turnOf id ocEvacuate (fun c => c.func == 1) c →
      (e.evacModRefused (a.byte 17) = true → exec (.evacuateModule t id) s = .next { s with dev := e.complete a csRefused 6 }) ∧
      (e.evacModRefused (a.byte 17) = false →
          exec (.evacuateModule t id) s = .next { s with dev := (e.evacModule (a.byte 17)).complete a csDone 0 (e.plotsOnModule (a.byte 17)).length }))

/-- When its turn comes, FW_STAGE completes BUSY while a side-band update is open and REFUSED 10 where the inactive slot must be
kept; else its chunk leaves the inactive slot Empty, or with FINAL and a verified image Staged with the image's version and
formats, and it completes DONE, or REFUSED 10 for a FINAL image that fails. FW_ACTIVATE completes REFUSED 10 and releases its
barrier where the slot is not Staged or the formats differ, and begins the rolling restart otherwise. A barrier whose earlier
commands are not complete after 10 s ends with REFUSED 8. While a restart runs each step moves a role; a step with none changes
nothing. FW_CONFIRM completes REFUSED 10 outside the window and confirms the image in it. The window's expiry, and ROLLBACK on
an active slot that is not confirmed, begin a rollback behind a barrier; ROLLBACK otherwise is an illegal sequence of kind 8. So
fwStage, fwActivate, activationBarrierTimeout, lanternRotationStep, fwConfirm and confirmWindowExpiry each answer the next state
named. (R401, R428, R476, R477, R479, R480, spec/16_ageing_service.md.) -/
def Obligations.FirmwareCommandsAct : Prop :=
  ∀ (t id : Nat) (i : Image) (reads : Bool) (c : Cmd) (s : State),
    let d := s.dev.tick t
    let e := d.begun id c
    let a := d.now_ c
    let n := d.fwOther
    (d.turnOf id ocStage anyCmd c →
      (d.sbp.update = true → exec (.fwStage t id i) s = .next { s with dev := e.complete a csBusy }) ∧
      (d.sbp.update = false → d.stageBarred = true →
          exec (.fwStage t id i) s = .next { s with dev := e.complete a csRefused 10 }) ∧
      (d.sbp.update = false → d.stageBarred = false →
        (c.byte 40 % 2 = 0 → exec (.fwStage t id i) s = .next { s with dev := (e.fset (FWM_SLOT.STATE n) fwEmpty).complete a csDone }) ∧
        (c.byte 40 % 2 = 1 → i.verified = false →
          exec (.fwStage t id i) s = .next { s with dev := (e.fset (FWM_SLOT.STATE n) fwEmpty).complete a csRefused 10 }) ∧
        (c.byte 40 % 2 = 1 → i.verified = true →
            exec (.fwStage t id i) s = .next { s with dev := (((((e.fset (FWM_SLOT.STATE n) fwStaged).fset (FWM_SLOT.VERSION n) i.version.toNat).fset (FWM_SLOT.FMT_LO n) i.fmtLo).fset
            (FWM_SLOT.FMT_HI n) i.fmtHi).complete a csDone) }))) ∧
    (d.turnOf id ocActivate anyCmd c →
      (e.activateBarred = true → exec (.fwActivate t id) s = .next { s with dev := { e.complete a csRefused 10 with ring := { (e.complete a csRefused 10).ring with barrier := none } } }) ∧
      (e.activateBarred = false → exec (.fwActivate t id) s = .next { s with dev := ({ e.fset FWM_STAT.LANTERNS 0 with
        fwm := { e.fwm with rotating := true, rollback := false, rotStep := 0, cmdId := some a.id } }) })) ∧
    (∀ x, d.ring.barrier.bind d.cmd = some x → x.running = false →
      (x.started + 10000000000 ≤ d.clk →
          exec (.activationBarrierTimeout t) s = .next { s with dev := { d.complete x csRefused 8 with ring := { (d.complete x csRefused 8).ring with barrier := none } } }) ∧
      (d.clk < x.started + 10000000000 → exec (.activationBarrierTimeout t) s = .next { s with dev := d })) ∧
    (d.mayRotate = true → exec (.lanternRotationStep t reads) s = .next { s with dev := d.rotate reads }) ∧
    (d.mayRotate = false → exec (.lanternRotationStep t reads) s = .next { s with dev := d }) ∧
    (d.turnOf id ocConfirm anyCmd c →
      (d.fwm.window = none → exec (.fwConfirm t id) s = .next { s with dev := e.complete a csRefused 10 }) ∧
      (d.fwm.window ≠ none → exec (.fwConfirm t id) s = .next { s with dev := e.confirmImage.complete a csDone })) ∧
    (∀ w, d.fwm.window = some w → w ≤ d.clk → d.fwm.rotating = false → d.fwm.rollback = false → d.canRollBack = true →
      exec (.confirmWindowExpiry t) s = .next { s with dev := ({ d.fset FWM_STAT.LANTERNS 0 with
        ring := { d.ring with barrier := some d.ring.nextCmd },
        fwm := { d.fwm with window := none, rollback := true, rotStep := 0, cmdId := none } }) }) ∧
    (∀ w, d.fwm.window = some w → d.clk < w → exec (.confirmWindowExpiry t) s = .next { s with dev := d }) ∧
    (d.canRollBack = true → d.fwm.rotating = false → d.fwm.rollback = false →
        exec (.rollback t) s = .next { s with dev := ({ d.fset FWM_STAT.LANTERNS 0 with
        ring := { d.ring with barrier := some d.ring.nextCmd },
        fwm := { d.fwm with window := none, rollback := true, rotStep := 0, cmdId := none } }) }) ∧
    (d.canRollBack = false → exec (.rollback t) s = .next { s with dev := d.illegal 8 FWM_CTL.ROLLBACK.place })

/-- When its turn comes a self-test completes REFUSED 7 while one runs, and becomes the one that runs otherwise; a resume ends
its pause; its end reports the failing item with event 0.3 and completes with it and the seconds, a short test letting engines
removed for a watchdog return but those of the item that failed. An eye measurement is kept with the FEC rate, and the third in
a row below a quarter takes the lane out; a FEC rate exceeded takes it out at once. A removed twin group notes its retraining
and rejoins one second later, eight lanes wider, with event 12.3 where the link is up. A sweep due on an Online channel is
noted; a plan is formed while lantern 14 runs and no save has begun; 1 ms before the closing instant a rise is requested of the
regulator, once. While the core runs a corrected memory error of an engine is counted for its lantern, one that is not corrected
retires the engine, and one that misses its watchdog leaves service and counts towards its lantern's restart; the end of a
substitution gives the spare the number. So selftestShort, selftestExtended, selftestResume, selftestDone, eyeMonitor,
fecRateExceeded, laneRetrainTimer, laneGroupRejoin, dramSweep, planTimer, planVoltageRequest, engineMemoryError,
engineWatchdogExpiry and spareSubstitutionDone each answer the next state named. (R399, R461, R462, R463, R464, R469, R470,
R471, R472, R473, R474, spec/16_ageing_service.md.) -/
def Obligations.AgeingAndRepairGoOn : Prop :=
  ∀ (t id item active paused kind lane margin fec group ch engine l : Nat) (p q : Plan) (c : Cmd) (s : State),
    let d := s.dev.tick t
    let e := d.begun id c
    let a := d.now_ c
    (d.turnOf id ocShort anyCmd c →
      (d.age.selftest ≠ none → exec (.selftestShort t id) s = .next { s with dev := e.complete a csRefused 7 }) ∧
      (d.age.selftest = none → exec (.selftestShort t id) s = .next { s with dev := { e with age := { e.age with selftest := some a.id, selfPaused := false } } })) ∧
    (d.turnOf id ocExtended anyCmd c →
      (d.age.selftest ≠ none → exec (.selftestExtended t id) s = .next { s with dev := e.complete a csRefused 7 }) ∧
      (d.age.selftest = none → exec (.selftestExtended t id) s = .next { s with dev := { e with age := { e.age with selftest := some a.id, selfPaused := false } } })) ∧
    exec (.selftestResume t) s = .next { s with dev := { d with age := { d.age with selfPaused := false } } } ∧
    (∀ x, d.age.selftest.bind d.cmd = some x →
      let u : Dev := { d with age := { d.age with selftest := none, selfPaused := false } }
      let bad (p : Nat) : Bool := item == 131072 + p / 9
      let v := if x.op = ocShort then (u.age.wdOut.filter (fun p => !bad p)).foldl Dev.returnEngine u else u
      (item = 0 → exec (.selftestDone t item active paused) s = .next { s with dev :=
        ((v.raise (source 0 3) 2 0 0xFFFF item).complete x csDone item (active * 2 ^ 32 + paused)) }) ∧
      (item ≠ 0 → exec (.selftestDone t item active paused) s = .next { s with dev :=
        (((v.failedItem item).raise (source 0 3) 2 0 0xFFFF item).complete x csDone item (active * 2 ^ 32 + paused)) })) ∧
    (d.lanternUp 14 = true →
      let k := kind * 65536 + lane
      let u := d.countEye k margin
      let u : Dev := { u with age := { u.age with fecs := put u.age.fecs k fec } }
      (lookD u.age.lowEyes k 0 < 3 → exec (.eyeMonitor t kind lane margin fec) s = .next { s with dev := u }) ∧
      (3 ≤ lookD u.age.lowEyes k 0 → exec (.eyeMonitor t kind lane margin fec) s = .next { s with dev := ({ u with age := { u.age with lowEyes := del u.age.lowEyes k } } : Dev).laneFails kind lane })) ∧
    (d.lanternUp 14 = false → exec (.eyeMonitor t kind lane margin fec) s = .next { s with dev := d }) ∧
    exec (.fecRateExceeded t kind lane) s = .next { s with dev := d.laneFails kind lane } ∧
    (d.age.removed.contains group = true →
      exec (.laneRetrainTimer t group) s = .next { s with dev := { d with age := { d.age with retrain := put d.age.retrain group d.clk } } } ∧
      (∀ n, look d.age.retrain group = some n → n + 1000000000 ≤ d.clk →
        let u : Dev := { d with age := { d.age with removed := rem d.age.removed group, retrain := del d.age.retrain group } }
        (d.twn.linkUp = false → exec (.laneGroupRejoin t group) s = .next { s with dev := u }) ∧
        (d.twn.linkUp = true → exec (.laneGroupRejoin t group) s = .next { s with dev := (u.fset TWN_STAT.WIDTH (u.f TWN_STAT.WIDTH + 8)).raise (source 12 3) 2 0 0xFFFF (u.f TWN_STAT.WIDTH + 8) }))) ∧
    (d.age.removed.contains group = false → exec (.laneRetrainTimer t group) s = .next { s with dev := d } ∧
        exec (.laneGroupRejoin t group) s = .next { s with dev := d }) ∧
    (d.chanState ch = chOnline → d.lanternUp 14 = true →
      lookD d.age.sweptAt ch 0 + d.f AGE_CTL.SWEEP_H * 3600000000000 ≤ d.clk →
      exec (.dramSweep t ch) s = .next { s with dev := { d with age := { d.age with sweptAt := put d.age.sweptAt ch d.clk } } }) ∧
    (d.lanternUp 14 = true → d.dur.saving = false → exec (.planTimer t p) s = .next { s with dev := d.formPlan p }) ∧
    (d.age.plan = some q → d.f AGE_PLAN_STAT.VCORE_MV < q.voltMv → d.age.voltReq = false →
      d.dur.openEp * 1000000 ≤ d.now + 1000000 →
          exec (.planVoltageRequest t) s = .next { s with dev := { d.send (.avs q.voltMv) with age := { d.age with voltReq := true, voltOk := false } } }) ∧
    ((d.age.plan = none ∨ d.age.voltReq = true) → exec (.planVoltageRequest t) s = .next { s with dev := d }) ∧
    (d.coreOn = true → exec (.engineMemoryError t { engine := engine }) s = .next { s with dev := d.removeEngine engine true } ∧
      exec (.engineMemoryError t { engine := engine, corrected := true }) s = .next { s with dev :=
        (({ d with age := { d.age with memCe := change d.age.memCe (engine / 9) 0 (· + 1) } } : Dev).count 0x101 (engine / 9) 1) }) ∧
    (d.coreOn = true → (d.workingSlots (engine / 9)).contains (engine % 9) = true →
        exec (.engineWatchdogExpiry t engine) s = .next { s with dev := (({ d with age := { d.age with
          wdFails := d.age.wdFails.filter (fun x => d.clk ≤ x.2 + 1000000) ++ [(engine, d.clk)],
          wdOut := ins d.age.wdOut engine } } : Dev).removeEngine engine false) }) ∧
    exec (.spareSubstitutionDone t l) s = .next { s with dev := (d.endSubstitution l).pump }

/-- When its turn comes LOG_CLEAR clears the recorder and completes with the number of records it held; LOG_FETCH writes the
records from FIRST on, 64 bytes each, to RESULT_ADDR and completes with their number, and writes nothing where there are none.
Writing ones to a group's pending bits clears those sources. Unmasking a vector lets a message held for it leave, and none
otherwise. The mirror is written where the core runs and a record waits for it. Reading the event window moves its cursor past
the record shown under AUTO and nothing else. A private read by the controller takes the oldest queued notification. While a
board rail is on, a sixteenth of an hour counts in HOURS and the store, and with the core on in the temperature history and the
life estimates. So logClear, logFetch, pendingClear, msixUnmask, recorderMirrorWrite, eventWindowRead, i3cPrivateRead and
hoursTick each answer the next state named. (R424, R485, R486, R488, R492, R493, R494, R495, spec/17_events.md.) -/
def Obligations.RecorderActs : Prop :=
  ∀ (t id group mask vector : Nat) (c : Cmd) (s : State),
    let d := s.dev.tick t
    let e := d.begun id c
    let a := d.now_ c
    let rs := e.recordsFrom (a.u16 16 % 4096) (a.u16 18 % 8192)
    (d.turnOf id ocLogClear anyCmd c →
        exec (.logClear t id) s = .next { s with dev := (e.clearLog 0).complete a csDone d.evt.recs.length }) ∧
    (d.turnOf id ocLogFetch anyCmd c →
      (rs = [] → exec (.logFetch t id) s = .next { s with dev := e.complete a csDone 0 }) ∧
      (rs ≠ [] → exec (.logFetch t id) s = .next { s with dev := (e.send (.hostWrite a.result (rs.flatMap Record.bytes))).complete a csDone rs.length })) ∧
    exec (.pendingClear t group mask) s = .next { s with dev := d.clearPending group mask } ∧
    (d.evt.pba.contains vector = true →
        exec (.msixUnmask t vector) s = .next { s with dev := (({ d with evt := { d.evt with unmasked := ins d.evt.unmasked vector, pba := rem d.evt.pba vector } } : Dev).send
        (.msix vector)) }) ∧
    (d.evt.pba.contains vector = false →
        exec (.msixUnmask t vector) s = .next { s with dev := { d with evt := { d.evt with unmasked := ins d.evt.unmasked vector, pba := rem d.evt.pba vector } } }) ∧
    (d.evt.dirtyAt ≠ none → d.coreOn = true → exec (.recorderMirrorWrite t) s = .next { s with dev := d.writeMirror }) ∧
    (d.evt.dirtyAt = none → exec (.recorderMirrorWrite t) s = .next { s with dev := d }) ∧
    (∀ r, d.windowRecord = some r →
      (d.on EVR_WIN_CTL.AUTO = true → exec (.eventWindowRead t) s = .next { s with dev := d.fset EVR_CURSOR.SEQ (r.seq + 1) }) ∧
      (d.on EVR_WIN_CTL.AUTO = false → exec (.eventWindowRead t) s = .next { s with dev := d })) ∧
    (d.windowRecord = none → exec (.eventWindowRead t) s = .next { s with dev := d }) ∧
    (∀ m r, d.sbp.notify = m :: r → exec (.i3cPrivateRead t) s = .next { s with dev := ({ d with sbp := { d.sbp with notify := r } } : Dev).send (.mctp 0x7E (notifyBytes m)) }) ∧
    (d.sbp.notify = [] → exec (.i3cPrivateRead t) s = .next { s with dev := d }) ∧
    (d.pwr.boardOn = true →
      let u := d.fset EVR_LIFE.HOURS (d.f EVR_LIFE.HOURS + 1)
      let u : Dev := { u with store := { u.store with hours := d.f EVR_LIFE.HOURS + 1 } }
      (u.coreOn = true → exec (.hoursTick t) s = .next { s with dev := u.countHeat.lifeNow }) ∧ (u.coreOn = false →
          exec (.hoursTick t) s = .next { s with dev := u })) ∧
    (d.pwr.boardOn = false → exec (.hoursTick t) s = .next { s with dev := d })

/-- When its turn comes a selection gives the counter its event, instance and ALL, its count starting from zero, and keeps a
sampler only where the new event may be sampled; a dump configuration sets the interval and, where it is not zero, the ring of
dumps from its start with number zero; a sampling configuration replaces the counter's sampler, and removes it for a period of
zero. While the core runs, a multiple of the interval that has come since the last dump latches every counter and writes one
entry of 4096 bytes at the ring's position under the next number; with dumps stopped every counter is latched each millisecond;
a bandwidth window that is over is measured at every port and the next begins. So pmcSelect, pmcDumpConfig, pmcSamplingConfig,
counterDump, counterRegionRefresh and bandwidthWindow each answer the next state named. (R496, R497, R498, R499, R500, R501,
Table 17.4 of spec/17_events.md.) -/
def Obligations.CountersAct : Prop :=
  ∀ (t id : Nat) (c : Cmd) (s : State),
    let d := s.dev.tick t
    let e := d.begun id c
    let a := d.now_ c
    let k := a.u16 18 % 512
    let ev := a.u16 20 % 4096
    let us := d.f PMC_DUMP_STAT.INTERVAL_US
    let due := d.now / (us * 1000) * (us * 1000)
    (d.turnOf id ocPmc (fun c => c.func == 0 || c.func == 3) c →
        exec (.pmcSelect t id) s = .next { s with dev := (({ e with pmc := { e.pmc with
          sels := e.pmc.sels.filter (fun x => x.ctr != k) ++
            [{ ctr := k, event := ev, inst := a.byte 22, all := a.byte 23 % 2 == 1 }],
          cnts := del e.pmc.cnts k,
          samplers := e.pmc.samplers.filter (fun x => x.ctr != k ||
            ((decide (1 ≤ ev) && decide (ev ≤ 3)) || (decide (0x200 ≤ ev) &&
                decide (ev ≤ 0x203)))) } } : Dev).complete a csDone) }) ∧
    (d.turnOf id ocPmc (fun c => c.func == 1) c →
      let u := e.fset PMC_DUMP_STAT.INTERVAL_US (a.u32 32)
      (a.u32 32 = 0 → exec (.pmcDumpConfig t id) s = .next { s with dev := u.complete a csDone }) ∧
      (a.u32 32 ≠ 0 → exec (.pmcDumpConfig t id) s = .next { s with dev := ({ u with pmc := { u.pmc with addr := a.u64 24, entries := a.u32 36, pos := 0, seq := 0 } } : Dev).complete a csDone })) ∧
    (d.turnOf id ocPmc (fun c => c.func == 2) c →
        exec (.pmcSamplingConfig t id) s = .next { s with dev := (({ e with pmc := { e.pmc with samplers := e.pmc.samplers.filter (fun x => x.ctr != k) ++
          (if a.u32 32 = 0 then [] else
            [{ ctr := k, addr := a.u64 24, entries := a.u32 36, period := a.u32 32, next := 0, left := a.u32 32, lastUs := 0 }]) } } :
        Dev).complete a csDone) }) ∧
    (us ≠ 0 → d.coreOn = true → d.pmc.snap.takenAt < due →
      let u := d.latchAll due
      let b := u.pmc.snap.bytes us
      let w := (u.send (.hostWrite (u.pmc.addr + 4096 * (u.pmc.pos % u.pmc.entries)) (b ++
          List.replicate (4096 - b.length) 0))).fset
        PMC_DUMP_STAT.SEQ u.pmc.seq
      exec (.counterDump t) s = .next { s with dev := { w with pmc := { u.pmc with seq := u.pmc.seq + 1, pos := (u.pmc.pos + 1) % u.pmc.entries } } }) ∧
    ((us = 0 ∨ d.coreOn = false ∨ due ≤ d.pmc.snap.takenAt) → exec (.counterDump t) s = .next { s with dev := d }) ∧
    (d.on PMC_DUMP_STAT.INTERVAL_US = false → d.coreOn = true → d.pmc.snap.takenAt < d.now / 1000000 * 1000000 →
      exec (.counterRegionRefresh t) s = .next { s with dev := d.latchAll (d.now / 1000000 * 1000000) }) ∧
    ((d.on PMC_DUMP_STAT.INTERVAL_US = true ∨ d.coreOn = false ∨ d.now / 1000000 * 1000000 ≤ d.pmc.snap.takenAt) →
      exec (.counterRegionRefresh t) s = .next { s with dev := d }) ∧
    (d.coreOn = true → d.pmc.bwAt + d.f PMC_BW_CTL.WIN_US * 1000 ≤ d.now →
        exec (.bandwidthWindow t) s = .next { s with dev := ({ (List.range 256).foldl Dev.measurePort d with
        pmc := { ((List.range 256).foldl Dev.measurePort d).pmc with bwAt := ((List.range 256).foldl Dev.measurePort d).now } }) }) ∧
    (d.now < d.pmc.bwAt + d.f PMC_BW_CTL.WIN_US * 1000 → exec (.bandwidthWindow t) s = .next { s with dev := d })

/-- While the core runs and no load is in progress, a write of GO with OP 00b naming a device slot or a bound slot is illegal;
another clears every CPH_KEY_DATA register and answers ALARMED after an alarm, KEY_USAGE for a usage outside 1 to 4, and
otherwise OK, with the key in its slot. With OP 01b the slot is erased, its blob with it, the store written where a blob was,
and the side-band key's copy taken again for its slot. When its turn comes KEY_LOAD_BLOB completes DONE where the blob unwraps
and with the failure's code otherwise. Tampering that may act, and a glitch, erase slots, KEK, DRBG state and the side-band
key's copy, latch their cause and raise event 14.0 of severity 6; with the core on, waiting jobs are dropped, twin and fabric
links go down, ports stop accepting and every region goes Offline. A due known-answer test that fails does the same. The DRBG
becomes ready, fails, and is seeded again after 2^20 requests. A cipher job that may run but finds no entropy ready waits, goes
on once there is some, and completes NOT_READY after 100 ms. So keyLoad, keyErase, keyLoadBlob, tamper, katTimer, drbgReady,
drbgHealthFailure, drbgReseed, cipherJob and cipherJobTimeout each answer the next state named. (R361, R363, R364, R365, R369,
R371, R372, R373, R374, R376, R377, R378.) -/
def Obligations.KeysAndAlarmAct : Prop :=
  ∀ (t v id : Nat) (src aux : List Byte) (b : Blob) (c : Cmd) (s : State),
    let d := s.dev.tick t
    let w := d.keyFields v
    let n := w.f CPH_KEY_LOAD.SLOT
    let u := w.f CPH_KEY_LOAD.USAGE
    let fl := w.f CPH_KEY_LOAD.FLAGS
    let bar := 0xF00 ≤ n ∨ w.slotBound n = true
    let words := (List.range (if u = 1 then 8 else 4)).map (fun i => BitVec.ofNat 64 (w.f (CPH_KEY_DATA.KEY i)))
    let k := (List.range 12).foldl (fun (d : Dev) i => d.fset (CPH_KEY_DATA.KEY i) 0) w
    (d.coreOn = true → bitsOf v 63 63 = 1 → bitsOf v 57 56 = 0 → d.on CPH_KEY_LOAD.BUSY = false →
      (bar → exec (.keyLoad t v) s = .next { s with dev := w.illegal 8 (CPH_KEY_LOAD.GO.off / 4) }) ∧
      (¬ bar → w.cph.alarmed = true → exec (.keyLoad t v) s = .next { s with dev := k.fset CPH_KEY_LOAD.RESULT crAlarmed }) ∧
      (¬ bar → w.cph.alarmed = false → (u < 1 ∨ 4 < u) →
          exec (.keyLoad t v) s = .next { s with dev := k.fset CPH_KEY_LOAD.RESULT crKeyUsage }) ∧
      (¬ bar → w.cph.alarmed = false → 1 ≤ u → u ≤ 4 →
          exec (.keyLoad t v) s = .next { s with dev := (k.fset CPH_KEY_LOAD.RESULT crOk).loadSlot n { usage := u, persist := fl % 2 == 1, job := fl / 2 == 1, key := words } })) ∧
    (d.coreOn = true → bitsOf v 63 63 = 1 → bitsOf v 57 56 = 1 → d.on CPH_KEY_LOAD.BUSY = false → ¬ bar →
      let fin (x : Dev) : Dev := if n = x.f SBP_CFG.AUTH_SLOT then x.copyAuth else x;
      let e := w.fset CPH_KEY_LOAD.RESULT crOk
      let e : Dev := { e with cph := { e.cph with slots := del e.cph.slots n, blobs := del e.cph.blobs n } }
      ((look w.cph.blobs n = none) → exec (.keyErase t v) s = .next { s with dev := fin e }) ∧
      ((look w.cph.blobs n ≠ none) → exec (.keyErase t v) s = .next { s with dev := fin e.writeStore })) ∧
    (d.turnOf id ocBlob anyCmd c →
      let r := (d.begun id c).unwrap b
      (r.2 = crOk → exec (.keyLoadBlob t id b) s = .next { s with dev := r.1.complete (d.now_ c) csDone }) ∧
      (r.2 ≠ crOk → exec (.keyLoadBlob t id b) s = .next { s with dev := r.1.complete (d.now_ c) csCipher r.2 })) ∧
    (let hit (cause : Nat) (x : Fld) : Dev :=
        let e := (d.fset x 1).fset CPH_RNG_STAT.STATE 0
        let e : Dev := { e with
          cph := { e.cph with slots := [], kek := false, sinceSeed := 0, alarmed := true },
          sbp := { e.sbp with authKey := false } }
        e.raise (source 14 0) 6 0 cause 0;
     let fall (e : Dev) : Dev :=
        let e := ((e.dropJobs).setStatus .down).heartbeat
        let f := e.liveLinks.foldl Dev.fabDown (if e.twn.linkUp then e.twinDown else e)
        ((f.fset HPT_CM_CTL.ACCEPT 0).allOffline).pump;
      (d.on CPH_CTL.TAMPER_EN = false → exec (.tamper t) s = .next { s with dev := d }) ∧
      (d.on CPH_CTL.TAMPER_EN = true → (hit 0 CPH_ALARM.TAMPER).coreOn = false →
          exec (.tamper t) s = .next { s with dev := hit 0 CPH_ALARM.TAMPER }) ∧
      (d.on CPH_CTL.TAMPER_EN = true → (hit 0 CPH_ALARM.TAMPER).coreOn = true →
        exec (.tamper t) s = .next { s with dev := fall (hit 0 CPH_ALARM.TAMPER) }) ∧
      ((hit 1 CPH_ALARM.GLITCH).coreOn = false → exec (.glitch t) s = .next { s with dev := hit 1 CPH_ALARM.GLITCH }) ∧
      ((hit 1 CPH_ALARM.GLITCH).coreOn = true → exec (.glitch t) s = .next { s with dev := fall (hit 1 CPH_ALARM.GLITCH) }) ∧
      (d.coreOn = true → d.cph.lastKat + d.f CPH_CTL.KAT_S * 1000000000 ≤ d.clk →
        exec (.katTimer t true) s = .next { s with dev := { d with cph := { d.cph with lastKat := d.clk } } } ∧
        exec (.katTimer t false) s = .next { s with dev := ({ d with cph := { d.cph with lastKat := d.clk } } : Dev).alarm alarmTest })) ∧
    ((d.rngUp = true ∨ (d.cph.alarmed = true ∧ d.cph.kek = false)) → exec (.drbgReady t) s = .next { s with dev := d }) ∧
    (d.rngUp = false → (d.cph.alarmed = false ∨ d.cph.kek = true) →
        exec (.drbgReady t) s = .next { s with dev := ({ d.fset CPH_RNG_STAT.STATE rngReady with cph := { d.cph with sinceSeed := 0 } } : Dev).commission }) ∧
    (let l := d.clk :: d.cph.failAt.filter (fun x => decide (d.clk ≤ x + 1000000000))
     let e := (d.fset CPH_RNG_STAT.STATE rngFailed).finc CPH_RNG_STAT.FAIL_CNT 1
     let e : Dev := { e with cph := { e.cph with failAt := l } };
      (l.length < 3 → exec (.drbgHealthFailure t) s = .next { s with dev := e }) ∧
      (3 ≤ l.length → exec (.drbgHealthFailure t) s = .next { s with dev := e.raise (source 14 2) 5 0 0 0 })) ∧
    (2 ^ 20 ≤ d.cph.sinceSeed → exec (.drbgReseed t) s = .next { s with dev := { d with cph := { d.cph with sinceSeed := 0 } } }) ∧
    (d.cph.sinceSeed < 2 ^ 20 → exec (.drbgReseed t) s = .next { s with dev := d }) ∧
    (d.turnOf id ocJob anyCmd c → d.cph.jobs.any (fun j => j.cmdId == id) = false →
      let e := d.begun id c
      let a := d.now_ c
      (∀ code, e.jobBar a = some code →
        exec (.cipherJob t id src aux) s = .next { s with dev := e.complete a csCipher code }) ∧
      (e.jobBar a = none → e.rngUp = true → exec (.cipherJob t id src aux) s = .next { s with dev := e.runJob a src aux }) ∧
      (e.jobBar a = none → e.rngUp = false →
          exec (.cipherJob t id src aux) s = .next { s with dev := { e with cph := { e.cph with jobs := e.cph.jobs ++ [{ cmdId := id, since := e.clk }] } } })) ∧
    (d.cph.jobs.any (fun j => j.cmdId == id) = true → d.cmd id = some c →
      let e : Dev := { d with cph := { d.cph with jobs := d.cph.jobs.filter (fun j => j.cmdId != id) } }
      (d.rngUp = false → exec (.cipherJob t id src aux) s = .next { s with dev := d }) ∧
      (d.rngUp = true → e.jobBar c = none → exec (.cipherJob t id src aux) s = .next { s with dev := e.runJob c src aux })) ∧
    (∀ j, d.cph.jobs.find? (fun j => j.cmdId == id) = some j → d.cmd id = some c →
      (d.clk < j.since + 100000000 → exec (.cipherJobTimeout t id) s = .next { s with dev := d }) ∧
      (j.since + 100000000 ≤ d.clk → exec (.cipherJobTimeout t id) s = .next { s with dev := ({ d with cph := { d.cph with jobs := d.cph.jobs.filter (fun j => j.cmdId != id) } } : Dev).complete c csNotReady 1 }))

/-- An evaluation takes the image rate, keeping the tokens accrued, releases OVER where D has come down to B, and sets the
stage; the token store is full as stage 2 is entered. A rise of B that is due takes effect and one that is not due does not. A
calibrated module that is Online and inside the save window enters save duty at the lower of its measured rate and its limit,
and B is computed again. A group that closes on a module that may take images makes the next versions of the image order imaged.
The seal of the oldest closed epoch, closed on two modules that may take images, completes it where nothing of it is held back
and no marker of it is awaited: it leaves the closed epochs, is sealed, and LOCAL names it. When D first is 0 in write-through,
OVER and the stage are 0. So governorEvaluation, budgetRiseEffect, saveRateCalibration, imageGroupClosed, sealRecordClosed and
writeThroughDrained each answer the next state named. (R62, R181, R182, R185, R186, R193, R194, R219, Table 6.2 of
spec/06_durability.md.) -/
def Obligations.GovernorAndSealsGoOn : Prop :=
  ∀ (t rate mod n blk epoch m1 m2 : Nat) (s : State),
    let d := s.dev.tick t
    exec (.governorEvaluation t rate) s = .next { s with dev := (((({ d with dur := { d.dur with tokens := d.tokensNow, tokAt := d.clk, imgRate := rate } } : Dev).settleOver.govern).count
        0x604 0 d.dirtyPages).pump) } ∧
    (∀ e : Dev,
      let u := e.fset DUR_BUDGET_STAT.STAGE e.stageNow
      (e.stageNow = 2 → e.f DUR_BUDGET_STAT.STAGE ≠ 2 →
        e.govern = { u with dur := { u.dur with tokens := u.dur.imgRate * 100000, tokAt := u.clk } }) ∧
      ((e.stageNow ≠ 2 ∨ e.f DUR_BUDGET_STAT.STAGE = 2) → e.govern = u)) ∧
    (let due := d.dur.rise.filter (fun r => decide (r.2 ≤ d.clk))
     (due.getLast? = none → exec (.budgetRiseEffect t) s = .next { s with dev := d }) ∧
     (∀ b at_, due.getLast? = some (b, at_) →
      let left := d.dur.rise.filter (fun r => decide (d.clk < r.2))
      exec (.budgetRiseEffect t) s = .next { s with dev := ({ d with dur := { d.dur with budget := b, rise := left } } : Dev).settleOver })) ∧
    (d.f (HTH_MOD_STAT.STATE mod) = modOnline → d.modWindow mod ≤ 1 → mod < 20 →
      let done (x : Nat × Module) : Nat × Module := if x.1 = mod then (x.1, { x.2 with calDue := false }) else x
      let u : Dev := { d with hth := { d.hth with mods := d.hth.mods.map done } }
      exec (.saveRateCalibration t mod rate) s = .next { s with dev :=
        ((u.fset (DUR_MOD.RATE mod) (min rate (u.f (HTH_MOD_STAT.SAVE_CAP mod)))).fset (DUR_MOD.DUTY mod) 1).rebudget }) ∧
    ((d.f (HTH_MOD_STAT.STATE mod) ≠ modOnline ∨ 1 < d.modWindow mod ∨ 20 ≤ mod) →
      exec (.saveRateCalibration t mod rate) s = .next { s with dev := d }) ∧
    (d.writesImages mod = true → mod < 20 →
      let e := (d.closeGroup n mod blk).count 0x602 0 n
      exec (.imageGroupClosed t n { mod := mod, blk := blk }) s = .next { s with dev := ((e.countImages.settleOver.settleSealNow).pump).settleOff }) ∧
    (d.writesImages mod = false → exec (.imageGroupClosed t n { mod := mod, blk := blk }) s = .next { s with dev := d }) ∧
    (d.dur.closed.head? = some epoch → d.epochHeld epoch = false → d.awaitsEoe epoch = false → m1 ≠ m2 →
      d.writesImages m1 = true → d.writesImages m2 = true →
      exec (.sealRecordClosed t { epoch := epoch, m1 := m1, m2 := m2 }) s = .next { s with dev := ((d.writeSeal epoch [m1, m2]).completeEpoch epoch).pump }) ∧
    (∀ x : Dev,
      let u : Dev := { x with
        dur := { x.dur with
          closed := x.dur.closed.filter (fun y => y != epoch), sealed := epoch :: x.dur.sealed,
          eoe := x.dur.eoe.filter (fun y => epoch < y) },
        tim := { x.tim with pend := epoch * 1000000 } }
      x.completeEpoch epoch = ((((u.fset DUR_EPOCH_STAT.LOCAL epoch).report).settleHorizon).countImages).settleSealNow) ∧
    ((d.dur.closed.head? ≠ some epoch ∨ d.epochHeld epoch = true ∨ d.awaitsEoe epoch = true ∨ m1 = m2 ∨
        d.writesImages m1 = false ∨
        d.writesImages m2 = false) → exec (.sealRecordClosed t { epoch := epoch, m1 := m1, m2 := m2 }) s = .next { s with dev := d }) ∧
    (d.on DUR_BUDGET_STAT.WT = true → d.dur.wtDrained = false → d.dirtyPages = 0 →
      let u : Dev := { d with dur := { d.dur with wtDrained := true, exposure := false } }
      exec (.writeThroughDrained t) s = .next { s with dev := ((u.fset DUR_BUDGET_STAT.OVER 0).fset DUR_BUDGET_STAT.STAGE 0).pump }) ∧
    ((d.on DUR_BUDGET_STAT.WT = false ∨ d.dur.wtDrained = true ∨ d.dirtyPages ≠ 0) →
        exec (.writeThroughDrained t) s = .next { s with dev := d })

/-- The open epoch closes once its instant has come and no save runs: it joins the closed epochs with a snapshot and its EOE is
due to an enabled twin; agreed region changes, a due bank and a formed plan take effect, and the next epoch opens. PTP lost in
Locked enters Holdover, with the estimate growing from its value at no less than 50 ns per second; past a limit of Holdover the
state is Unlocked. Ten seconds of waiting for valid time raise event 11.3, once. A report at the steward is taken and compared;
once every member has reported, a short restore under policy cut brings RECOVER with the lowest reported epoch to every member
and to the steward, and any other report may raise the horizon. RECOVER at a running member that is ahead, or has an open epoch,
begins a save towards the cut; at a restarting member in phase A it notes the cut, after phase A one that is ahead restores
again and another raises its horizon to the cut. So epochClose, ptpLoss, holdoverLimit, timeValidWait, timePps, epochRep and
recover each answer the next state named. (R72, R201, R203, R204, R205, R206, R216, R291, R293, Table 6.3 of
spec/06_durability.md.) -/
def Obligations.TimeAndEpochsGoOn : Prop :=
  ∀ (t spread src cut c : Nat) (r : EpochReport) (s : State),
    let d := s.dev.tick t
    let k := d.dur.openEp
    (d.dur.isOpen = true → k * 1000000 ≤ d.now → d.dur.saving = false →
      let e : Dev := { d with dur := { d.dur with
        isOpen := false, closed := d.dur.closed ++ [k], snaps := d.dur.snaps ++ [d.snapNow k] } }
      let e : Dev := if d.on TWN_CFG.ENABLE = true ∧ d.twn.soleMeadow = false ∧ d.twn.declared = false then
        { e with twn := { e.twn with eoeDue := e.twn.eoeDue ++ [k] } } else e
      exec (.epochClose t) s = .next { s with dev := ((((e.applyAgreed (k * 1000000)).applyDue).applyPlan k).joinMembers.openEpoch).pump }) ∧
    ((d.dur.isOpen = false ∨ d.now < k * 1000000 ∨ d.dur.saving = true) → exec (.epochClose t) s = .next { s with dev := d }) ∧
    (let e : Dev := { d with tim := { d.tim with ptp := false, lockCnt := 0 } };
     (d.f DUR_TIME_STAT.STATE ≠ timeLocked → exec (.ptpLoss t spread) s = .next { s with dev := e }) ∧
     (d.f DUR_TIME_STAT.STATE = timeLocked →
         exec (.ptpLoss t spread) s = .next { s with dev := ({ e.fset DUR_TIME_STAT.STATE timeHoldover with tim := { e.tim with
         lostAt := d.clk, terrAtLoss := e.terrNow, spread := max 50 spread } }) })) ∧
    (let lim := d.f DUR_EPOCH_CFG.TERR_MAX_NS < d.terrNow ∨ d.tim.lostAt + d.f DUR_EPOCH_CFG.HOLD_MAX_S * 1000000000 < d.clk;
     (d.f DUR_TIME_STAT.STATE = timeHoldover → lim →
         exec (.holdoverLimit t) s = .next { s with dev := (d.fset DUR_TIME_STAT.STATE timeUnlocked).fset DUR_TIME_STAT.TERR_NS d.terrNow }) ∧
     ((d.f DUR_TIME_STAT.STATE ≠ timeHoldover ∨ ¬ lim) → exec (.holdoverLimit t) s = .next { s with dev := d })) ∧
    (let due := d.coreOn = true ∧ d.tim.valid = false ∧ d.tim.waitFrom ≠ 0 ∧ d.tim.waitFrom + 10000000000 ≤ d.clk;
     (due → exec (.timeValidWait t) s = .next { s with dev := ({ d with tim := { d.tim with waitFrom := 0 } } : Dev).raise (source 11 3) 2 0 0xFFFF 0 }) ∧
     (¬ due → exec (.timeValidWait t) s = .next { s with dev := d })) ∧
    (∀ (ext : Nat) (tod : Bool),
      ((d.coreOn = false ∨ d.dur.saving = true ∨ d.f DUR_EPOCH_CFG.TIME_SRC = 2) →
          exec (.timePps t ext tod) s = .next { s with dev := d }) ∧
      (d.coreOn = true → d.dur.saving = false → d.f DUR_EPOCH_CFG.TIME_SRC ≠ 2 →
          exec (.timePps t ext tod) s = .next { s with dev := d.pulse ext tod })) ∧
    (d.isSteward = true → d.dur.saving = false → d.fab.members.any (fun m => m.id == src) = true →
      let e := (d.takeReport src r).compareMembers src r
      let e := if r.spanBase ≠ e.f FAB_CFG.SPAN_BASE then e.raise (source 13 2) 2 0 src 0 else e
      let shortCut := e.fab.members.any (·.short) = true ∧ e.on DUR_EPOCH_CFG.POLICY = false
      let taken : Dev := { e with fab := { e.fab with members := e.fab.members.map (fun m => { m with short := false }) } };
      (shortCut → lowestEpoch e.fab.members = some c →
          exec (.epochRep t src r) s = .next { s with dev := (taken.toMembers recoverMsg [c]).recover c }) ∧
      ((¬ shortCut ∨ lowestEpoch e.fab.members = none) →
          exec (.epochRep t src r) s = .next { s with dev := e.stewardHorizon })) ∧
    (d.coreOn = true → d.dur.saving = false → d.on FAB_ID.VALID = true →
      let e : Dev := { d with fab := { d.fab with horizonSeen := true } }
      (d.core.transport = true → (cut < d.f DUR_EPOCH_STAT.LOCAL ∨ d.dur.isOpen = true) →
          exec (.recover t cut) s = .next { s with dev := ({ d with dur := { d.dur with cut := some cut } } : Dev).saveOrStop 3 }) ∧
      (d.core.transport = true → d.f DUR_EPOCH_STAT.LOCAL ≤ cut → d.dur.isOpen = false →
          exec (.recover t cut) s = .next { s with dev := d }) ∧
      (d.core.transport = false → d.core.phaseADone = false →
          exec (.recover t cut) s = .next { s with dev := { e with dur := { e.dur with cut := some cut } } }) ∧
      (d.core.transport = false → d.core.phaseADone = true → cut < d.f DUR_EPOCH_STAT.LOCAL →
        exec (.recover t cut) s = .next { s with dev := ({ e with dur := { e.dur with cut := some cut } } : Dev).restoreAgain }) ∧
      (d.core.transport = false → d.core.phaseADone = true → d.f DUR_EPOCH_STAT.LOCAL ≤ cut →
        exec (.recover t cut) s = .next { s with dev := ({ e with dur := { e.dur with short := false } } : Dev).horizonToCut cut }))

/-- While the core is dark, a save runs or the device holds, a register write changes nothing. Otherwise an access that is not 4
or 8 bytes, or not aligned to its size, is ignored and counted as illegal kind 8 with the register's offset; an access of which
one register is barred is ignored as a whole and counted with the first such kind; any other acts on each register that it
reaches, lowest first, the low half of a 128-bit register being held for its high half. So registerWrite answers the next state
named for every access. (R8, R10, R404, R405, R406, R408, Table 12.10 of spec/12_control_rings.md.) -/
def Obligations.RegisterWritesAct : Prop :=
  ∀ (t off size v : Nat) (s : State),
    let d := s.dev.tick t
    let ps := partsOf off size (v % 2 ^ (8 * size))
    let ready := d.coreOn = true ∧ d.dur.saving = false ∧ d.dur.held = false
    let fit := (size = 4 ∨ size = 8) ∧ off % size = 0
    (¬ ready → exec (.registerWrite t off size v) s = .next { s with dev := d }) ∧
    (ready → ¬ fit → exec (.registerWrite t off size v) s = .next { s with dev := d.illegal 8 (off / 4 % 2 ^ 24) }) ∧
    (∀ k, ready → fit → (ps.map d.accessBar).find? (fun k => k != 0) = some k →
      exec (.registerWrite t off size v) s = .next { s with dev := d.illegal k (off / 4) }) ∧
    (ready → fit → (∀ p ∈ ps, d.accessBar p = 0) →
      exec (.registerWrite t off size v) s = .next { s with dev := (ps.foldl (fun (d : Dev) p =>
        if p.width = 128 ∧ p.lo = 0 then d.latchLow p else d.writePart (d.widen p)) d) })

/-- While the core serves and one operation runs, another is illegal kind 7. Otherwise PWR_CTL shows the operation, its bay and
BUSY while the core serves, and the operation is asked for: a board power-up; a board power-off; entry to Banked where the
device is Lit, no save runs and no power-off waits, refused otherwise; leaving Banked, where it is Banked, which asks for the
board's on sequence; a bay power-up where its channel or module is Off or Absent; and a bay power-down where its state permits
it. What is not permitted is answered with its result code at once. So boardOn, boardOff, enterBanked, leaveBanked, bayOn and
bayOff each answer the next state named. (R439, R440, R444, R451, R452, R453, spec/15_power_thermal.md.) -/
def Obligations.PowerOperationsAct : Prop :=
  ∀ (t bay : Nat) (s : State),
    let d := s.dev.tick t
    let by_ (op b : Nat) : Dev := if d.serves then ((d.fset PWR_CTL.OP op).fset PWR_CTL.BAY b).fset PWR_CTL.BUSY 1 else d
    let rq (op b : Nat) : PwrReq := { op := op, bay := b, who := if d.serves then 1 else 0 }
    (d.serves = true → d.on PWR_CTL.BUSY = true →
      let e := d.illegal 7 (PWR_CTL.GO.off / 4)
      exec (.boardOn t) s = .next { s with dev := e } ∧ exec (.boardOff t) s = .next { s with dev := e } ∧
          exec (.enterBanked t) s = .next { s with dev := e } ∧ exec (.leaveBanked t) s = .next { s with dev := e } ∧
      exec (.bayOn t bay) s = .next { s with dev := e } ∧ exec (.bayOff t bay) s = .next { s with dev := e }) ∧
    ((d.serves = false ∨ d.on PWR_CTL.BUSY = false) →
      exec (.boardOn t) s = .next { s with dev := (by_ 1 boardBay).boardUp (rq 1 boardBay) } ∧
      exec (.boardOff t) s = .next { s with dev := (by_ 2 boardBay).askBoardOff (rq 2 boardBay) } ∧
      (let e := by_ 3 boardBay
       let r := rq 3 boardBay
       let may := e.coreOn = true ∧ e.f PWR_STATE.DEVICE = devLit ∧ e.dur.saving = false ∧ e.pwr.waitOff = [];
       (may → exec (.enterBanked t) s = .next { s with dev := e.enterBank [r] }) ∧
       (¬ may → exec (.enterBanked t) s = .next { s with dev := e.answerPwr r (if e.dur.saving then pwrSave else pwrState) })) ∧
      (let e := by_ 4 boardBay
       let r := rq 4 boardBay
       let u := e.setDevice devLeaving;
       (e.f PWR_STATE.DEVICE ≠ devBanked → exec (.leaveBanked t) s = .next { s with dev := e.answerPwr r pwrState }) ∧
       (e.f PWR_STATE.DEVICE = devBanked →
           exec (.leaveBanked t) s = .next { s with dev := ({ u with pwr := { u.pwr with bankStep := 4, bankReqs := [r] } } : Dev).askSeq { bay := boardBay, on := true } })) ∧
      (let e := by_ 5 bay
       let r := rq 5 bay
       let m := e.f (HTH_MOD_STAT.STATE (bay - 24))
       let may := (bay < 24 ∧ (e.chanState bay = chOff ∨ e.chanState bay = chAbsent)) ∨
         (24 ≤ bay ∧ bay < 44 ∧ (m = modOff ∨ m = modAbsent));
       (may → exec (.bayOn t bay) s = .next { s with dev := e.askSeq { bay := bay, on := true, reqs := [r] } }) ∧
       (¬ may → exec (.bayOn t bay) s = .next { s with dev := e.answerPwr r pwrBay })) ∧
      (let e := by_ 6 bay
       let r := rq 6 bay
       let m := e.f (HTH_MOD_STAT.STATE (bay - 24))
       let may := (bay < 24 ∧ (e.chanState bay = chEmpty ∨ e.chanState bay = chAbsent ∨ e.chanState bay = chFailed)) ∨
         (24 ≤ bay ∧ bay < 44 ∧ (m = modEmpty ∨ m = modFailed));
       (may → exec (.bayOff t bay) s = .next { s with dev := e.askOff { bay := bay, on := false, reqs := [r] } pwrState }) ∧
       (¬ may → exec (.bayOff t bay) s = .next { s with dev := e.answerPwr r pwrBay })))

/-- A slot boundary before its time does nothing; a boundary at which a turned sequence's turn has come begins the off sequence;
one past the halt slot ends the sequence with the comparison's result; any other sends the 1 us pulse, switches the rails of the
slot and counts it; with no sequence running, the next one that waits may begin. An alert reads the slave's STATUS_WORD, and a
fault bit in it is a fault of each of its rails that is on and judged by it. A housekeeping round of 64 codes is taken; a
shorter one counts as the converter's absence. The last gasp keeps one record. The regulator's report is the core voltage. A
press of a button seen released before powers its bay up where it is Off and raises event 1.4 otherwise; one held for 10 s is
stuck, an event of severity 3; a release arms it again, with an event where it was stuck. So sequenceSlot, seqAlert,
housekeepingRound, lastGasp, avsSetpointReached, attentionButtonPress, buttonStuck and buttonReleased each answer the next state
named. (R435, R436, R439, R442, R444, R446, R455, R464, R511, R512, Table 15.1 of spec/15_power_thermal.md.) -/
def Obligations.SupervisorGoesOn : Prop :=
  ∀ (t slave page status mv cause bay : Nat) (agree : Bool) (codes : List Nat) (temps : List Int) (q : Seq) (s : State),
    let d := s.dev.tick t
    (d.pwr.seq = none → exec (.sequenceSlot t agree) s = .next { s with dev := d.nextSeq }) ∧
    (d.pwr.seq = some q →
      (d.clk < d.pwr.slotAt + q.slot * 50000 → exec (.sequenceSlot t agree) s = .next { s with dev := d }) ∧
      (d.pwr.slotAt + q.slot * 50000 ≤ d.clk → ∀ b, q.turn = some b → b ≤ q.slot →
          exec (.sequenceSlot t agree) s = .next { s with dev := d.turnSeq q }) ∧
      (d.pwr.slotAt + q.slot * 50000 ≤ d.clk → q.turn = none → d.haltSlot q ≤ q.slot →
        exec (.sequenceSlot t agree) s = .next { s with dev := d.endSeq q agree }) ∧
      (d.pwr.slotAt + q.slot * 50000 ≤ d.clk → ((∃ b, q.turn = some b ∧ q.slot < b) ∨ (q.turn = none ∧ q.slot < d.haltSlot q)) →
        let u := (d.send (.seqSync 1)).beginSlot q q.slot
        exec (.sequenceSlot t agree) s = .next { s with dev := { u with pwr := { u.pwr with seq := some { q with slot := q.slot + 1 } } } })) ∧
    (let e := (d.send (.slave slave 0x00 (leBytes 1 page))).send (.slave slave 0x79 [])
     let is (n : Nat) : Bool := d.on (PWR_RAIL.EN n) && d.f (PWR_RAIL.SLAVE n) == slave && d.f (PWR_RAIL.PAGE n) == page
        && d.f (PWR_RAIL.SENSE n) == 0x3F && d.fbit PWR_RAIL_STAT.ON n;
     (BitVec.ofNat 16 status &&& statusFaults = 0 → exec (.seqAlert t slave page status) s = .next { s with dev := e }) ∧
     (BitVec.ofNat 16 status &&& statusFaults ≠ 0 →
         exec (.seqAlert t slave page status) s = .next { s with dev := ((List.range 48).filter is).foldl Dev.railFault (e.send (.slave slave 0x03 [])) })) ∧
    (64 ≤ codes.length → exec (.housekeepingRound t codes temps) s = .next { s with dev := d.hkRound codes temps }) ∧
    (codes.length < 64 → exec (.housekeepingRound t codes temps) s = .next { s with dev := d.hkAbsent }) ∧
    exec (.lastGasp t cause) s = .next { s with dev := { d with pwr := { d.pwr with lastGasp := some (d.gaspRecord cause) } } } ∧
    (let ok := d.age.voltReq && d.age.plan.any (fun p => decide (p.voltMv ≤ mv));
     exec (.avsSetpointReached t mv) s = .next { s with dev := ({ d.fset AGE_PLAN_STAT.VCORE_MV mv with age := { d.age with
         voltOk := d.age.voltOk || ok, voltAfter := if d.age.voltAfter = some mv then none else d.age.voltAfter } }) }) ∧
    ((44 ≤ bay ∨ d.mdw.armed.contains bay = false) → exec (.attentionButtonPress t bay) s = .next { s with dev := d }) ∧
    (bay < 44 → d.mdw.armed.contains bay = true →
      let e : Dev := { d with mdw := { d.mdw with armed := rem d.mdw.armed bay, buttons := put d.mdw.buttons bay d.clk } }
      (e.bayOff bay = true → e.coreOn = true →
          exec (.attentionButtonPress t bay) s = .next { s with dev := e.powerReq { op := 5, bay := bay, who := 6 } }) ∧
      ((e.bayOff bay = false ∨ e.coreOn = false) →
          exec (.attentionButtonPress t bay) s = .next { s with dev := e.raise (source 1 4) 2 0 bay 0 })) ∧
    (∀ since, look d.mdw.buttons bay = some since → since + 10000000000 ≤ d.clk → d.mdw.stuck.contains bay = false →
      exec (.buttonStuck t bay) s = .next { s with dev := ({ d with mdw := { d.mdw with stuck := ins d.mdw.stuck bay } } : Dev).raise (source 1 4) 3 0 bay 0 }) ∧
    (look d.mdw.buttons bay = none → exec (.buttonStuck t bay) s = .next { s with dev := d }) ∧
    (bay < 44 →
      let e : Dev := { d with mdw := { d.mdw with
        armed := ins d.mdw.armed bay, buttons := del d.mdw.buttons bay, stuck := rem d.mdw.stuck bay } }
      (d.mdw.stuck.contains bay = true →
          exec (.buttonReleased t bay) s = .next { s with dev := e.raise (source 1 4) 3 0 bay 0 }) ∧
      (d.mdw.stuck.contains bay = false → exec (.buttonReleased t bay) s = .next { s with dev := e }))

/-- An idle unit that is awake and may sleep is Dimmed; one that may be Shaded begins to drain, and when it has drained and is
idle it is Shaded and not Dimmed, a transport lantern losing its wick cache and a DRAM group's DIMMs entering self-refresh. A
wake that completes clears both marks, takes the DIMMs out of self-refresh and lets waiting work go on. In stage 3 each port
that is up pauses its lossless priorities. An idle Lit device enters Banked once its timer allows it; with D at 0 and nothing in
flight the meadow is left in self-refresh and the rest goes dark; with the board on again the lanterns start without restore,
time invalid, and the waiting requests answered. So dimTimer, shadeTimer, powerDownComplete, wakeComplete, paceTimer, bankTimer,
bankedImageDrained and bankedExitComplete each answer the next state named. (R27, R447, R448, R449, R450, R451, R452, R457,
R514, Table 15.5 of spec/15_power_thermal.md.) -/
def Obligations.PowerStatesGoOn : Prop :=
  ∀ (t unit : Nat) (s : State),
    let d := s.dev.tick t
    let runs := d.coreOn = true ∧ d.dur.saving = false
    (runs → d.asleep unit = false → d.drainingUnit unit = false → d.pwr.waking.contains unit = false → d.staysLit unit = false →
      d.unitIdle unit = true → ∀ x i, dimField unit = some (x, i) →
          exec (.dimTimer t unit) s = .next { s with dev := d.setFbit x i true }) ∧
    ((¬ runs ∨ d.asleep unit = true ∨ d.drainingUnit unit = true ∨ d.pwr.waking.contains unit = true ∨ d.staysLit unit = true ∨
      d.unitIdle unit = false ∨ dimField unit = none) → exec (.dimTimer t unit) s = .next { s with dev := d }) ∧
    (runs → d.f PWR_IDLE.SHADE_US ≠ 0 → d.shaded unit = false → d.drainingUnit unit = false →
        d.pwr.waking.contains unit = false →
      d.mayShade unit = true → d.unitIdle unit = true →
          exec (.shadeTimer t unit) s = .next { s with dev := { d with pwr := { d.pwr with draining := put d.pwr.draining unit d.clk } } }) ∧
    ((¬ runs ∨ d.f PWR_IDLE.SHADE_US = 0 ∨ d.mayShade unit = false ∨ d.unitIdle unit = false) →
        exec (.shadeTimer t unit) s = .next { s with dev := d }) ∧
    (d.drainingUnit unit = true → d.unitIdle unit = true →
      let e : Dev := { d with pwr := { d.pwr with draining := del d.pwr.draining unit } }
      let e := match dimField unit with | some (x, i) => e.setFbit x i false | none => e
      let e := e.setFbit (shadeField unit).1 (shadeField unit).2 true
      (unit < 8 → exec (.powerDownComplete t unit) s = .next { s with dev := ({ e with tier := { e.tier with
          wick := e.tier.wick.filter (fun w => w.1 / 64 != unit), plru := del e.tier.plru unit,
          walks := e.tier.walks.filter (fun w => w.lantern != unit) } } : Dev) }) ∧
      (8 ≤ unit → unit < 24 → exec (.powerDownComplete t unit) s = .next { s with dev := e }) ∧
      (24 ≤ unit → unit < 30 → exec (.powerDownComplete t unit) s = .next { s with dev := (((groupChans unit).filter (fun n => e.chanState n != chAbsent && e.chanState n != chOff)).foldl (fun (d : Dev) n =>
          d.fset (MDW_STAT.SR n) 1) e) }) ∧
      (30 ≤ unit → exec (.powerDownComplete t unit) s = .next { s with dev := e })) ∧
    ((d.drainingUnit unit = false ∨ d.unitIdle unit = false) → exec (.powerDownComplete t unit) s = .next { s with dev := d }) ∧
    (d.pwr.waking.contains unit = true → d.drainingUnit unit = false →
      let e : Dev := { d with pwr := { d.pwr with waking := rem d.pwr.waking unit } }
      let e := match dimField unit with | some (x, i) => e.setFbit x i false | none => e
      let e := (e.setFbit (shadeField unit).1 (shadeField unit).2 false).selfRefresh unit false
      (e.coreOn = true → e.dur.saving = false →
          exec (.wakeComplete t unit) s = .next { s with dev := (e.pumpDies.serveReqs).pump }) ∧
      ((e.coreOn = false ∨ e.dur.saving = true) → exec (.wakeComplete t unit) s = .next { s with dev := e })) ∧
    ((d.pwr.waking.contains unit = false ∨ d.drainingUnit unit = true) →
        exec (.wakeComplete t unit) s = .next { s with dev := d }) ∧
    (runs → 3 ≤ d.f THM_MAX.STAGE →
      let pris := (List.range 8).filter (d.fbit HPT_PFC_CTL.LOSSLESS)
      exec (.paceTimer t) s = .next { s with dev := ((d.hpt.ports.filter (fun p => p.2.up)).foldl (fun (d : Dev) p =>
        pris.foldl (fun (d : Dev) k =>
          (d.send (.pause p.1 k (quantaOf (d.f THM_THR.PACE_PCT) p.2.lineRate))).count 0x304 p.1 1) d) d) }) ∧
    ((¬ runs ∨ d.f THM_MAX.STAGE < 3) → exec (.paceTimer t) s = .next { s with dev := d }) ∧
    (runs → d.f PWR_IDLE.BANK_S ≠ 0 → d.f PWR_STATE.DEVICE = devLit → d.hpt.ops = [] → d.ring.cmds = [] → d.tier.migs = [] →
      d.pwr.waitOff = [] → d.pwr.waking = [] → exec (.bankTimer t) s = .next { s with dev := d.enterBank [] }) ∧
    ((¬ runs ∨ d.f PWR_IDLE.BANK_S = 0 ∨ d.hpt.ops ≠ []) → exec (.bankTimer t) s = .next { s with dev := d }) ∧
    (let e := d.bankGoesOn
     let dry := e.pwr.bankStep = 2 ∧ e.dirtyPages = 0 ∧ e.hpt.ops = [] ∧ e.ring.cmds = [] ∧ e.dur.saving = false;
     (dry → exec (.bankedImageDrained t) s = .next { s with dev := (e.quietConns.foldl Dev.sendDreq e).bankDown }) ∧
     (¬ dry → exec (.bankedImageDrained t) s = .next { s with dev := e })) ∧
    (d.pwr.bankStep = 4 → d.pwr.boardOn = true → d.pwr.seq = none → 
      let held := d.f TWN_STAT.CLAIM == claimHeld && d.twn.snufOut
      let w := d.bankedRegs.fset FAB_ID.VALID 0
      let e : Dev := { w with
        core := { w.core with stage := 6, transport := false, phaseADone := true, rolesSettled := !w.on TWN_CFG.ENABLE || held },
        cph := { w.cph with kek := true, alarmed := false, lastKat := w.clk },
        tim := { w.tim with waitFrom := max 1 w.clk },
        pwr := { w.pwr with bankStep := 0, bankReqs := [], holdTest := 16, holdBad := false } }
      let e := ((e.loadRecorder.unwrapAll).keylessOffline).standingPlan
      let e := (((e.linksNow e).rebudget).setStatus .healthy).setDevice devLit
      exec (.bankedExitComplete t) s = .next { s with dev := d.pwr.bankReqs.foldl (fun (d : Dev) r => d.answerPwr r pwrDone) e }) ∧
    ((d.pwr.bankStep ≠ 4 ∨ d.pwr.boardOn = false ∨ d.pwr.seq ≠ none) →
        exec (.bankedExitComplete t) s = .next { s with dev := d })

/-- Power failing at MAIN_PFAIL begins a save where the core runs, and otherwise the dark device holds. A save that runs ends
complete where the energy lasted and no alarm stands, and cut otherwise, and the device stops. Power good and RESET_N high let a
held device leave reset. A cold start finds nothing of the supervisor's state but its EEPROM, counts a power cycle, samples the
straps, loads the EEPROM and runs the board's on sequence where AUTO_ON asks for it. RESET_N low raises event 0.1 and begins a
save where the core runs; in a dark core the device goes dark and holds; during a save it is only noted. Firmware that verifies
boots the first slot of the boot order; none kills the core. Restore phase A without the save-image key fails; with it the
newest sound epoch is restored, an event naming the epochs lost where a seal record is bad; phase B ends with nothing left to
restore, the pages whose image failed its check noted as bad. Once phase A is done, time is valid, roles are settled and the
horizon is known, transport starts with ACCEPT set and the device's own forwarded entries sent again. So mainPfail,
saveComplete, powerGoodReturn, resetNRelease, coldStart, fullReset, firmwareLoaded, restorePhaseADone, restorePhaseBDone and
transportStart each answer the next state named. (R208, R209, R210, R213, R215, R290, R361, R453, R481, R503, R504, R507.) -/
def Obligations.SavesAndStartsGoOn : Prop :=
  ∀ (t : Nat) (a b : Bool) (bad : List (Nat × Nat)) (lines : Option (List (Nat × Nat))) (pages : List Nat) (x : Straps) (e : Eeprom) (r : RestoreIn) (s : State),
    let d := s.dev.tick t
    (let u : Dev := { d with core := { d.core with powerGood := false } };
     (u.coreOn = true → exec (.mainPfail t) s = .next { s with dev := u.saveOrStop 0 }) ∧
     (u.coreOn = false → exec (.mainPfail t) s = .next { s with dev := { u.darken with dur := { u.darken.dur with held := true } } })) ∧
    (d.dur.saving = false → exec (.saveComplete t lines) s = .next { s with dev := d }) ∧
    (d.dur.saving = true → d.cph.alarmed = false →
      exec (.saveComplete t (some bad)) s = .next { s with dev := (d.saveDone bad).stopped d.dur.saveWhy }) ∧
    (d.dur.saving = true → (lines = none ∨ d.cph.alarmed = true) →
      exec (.saveComplete t lines) s = .next { s with dev := d.saveCut.stopped d.dur.saveWhy }) ∧
    (let u : Dev := { d with core := { d.core with powerGood := true, straps := x } }
     let may (u : Dev) : Prop := u.dur.held = true ∧ u.dur.saving = false ∧ u.core.powerGood = true ∧ u.core.resetN = false ∧
       u.pwr.needUp = false;
     (may u → exec (.powerGoodReturn t x) s = .next { s with dev := u.startUp x false }) ∧
         (¬ may u → exec (.powerGoodReturn t x) s = .next { s with dev := u }) ∧
     (let u : Dev := { d with core := { d.core with resetN := false, straps := x } };
      (may u → exec (.resetNRelease t x) s = .next { s with dev := u.startUp x false }) ∧
          (¬ may u → exec (.resetNRelease t x) s = .next { s with dev := u }))) ∧
    (let u := ((((d.coldState.finc EVR_LIFE.PCYCLE 1).fset PWR_CTL.BUSY 0).restart x true).loadEeprom e)
     let seq := u.on PWR_SEQ_CFG.AUTO_ON = true ∧ (u.pwr.boardOn = false ∨ u.boardMoves = true) ∧ u.pwr.eepromOk = true;
     (seq → exec (.coldStart t x e) s = .next { s with dev := u.askSeq { bay := boardBay, on := true, reqs := [{ op := 1 }] } }) ∧
     (¬ seq → exec (.coldStart t x e) s = .next { s with dev := u })) ∧
    (let u : Dev := { d with core := { d.core with resetN := true } }
     let w := u.darken;
     (d.dur.saving = true → exec (.fullReset t) s = .next { s with dev := u }) ∧
     (d.dur.saving = false → u.coreOn = true →
         exec (.fullReset t) s = .next { s with dev := (u.raise (source 0 1) 2 0 1 0).saveOrStop 1 }) ∧
     (d.dur.saving = false → u.coreOn = false →
         exec (.fullReset t) s = .next { s with dev := { w with core := { w.core with owed := some 1 }, dur := { w.dur with held := true } } })) ∧
    (d.mayBoot = false → exec (.firmwareLoaded t a b) s = .next { s with dev := d }) ∧
    (d.mayBoot = true →
      (∀ n, d.bootOrder.find? (fun n => if n = d.bootSlot then a else b) = some n →
        exec (.firmwareLoaded t a b) s = .next { s with dev := d.bootCore d.bootSlot n }) ∧
      (a = false → b = false → exec (.firmwareLoaded t a b) s = .next { s with dev := d.kill })) ∧
    (d.coreOn = true → d.dur.saving = false → d.f DUR_RESTORE_STAT.PHASE = 1 →
      ((look d.cph.slots slotSave = none → (d.store.valid = true ∨ d.f FWM_STAT.HOLD ≠ 0) →
        exec (.restorePhaseADone t r) s = .next { s with dev := d.restoreFails })) ∧
      (look d.cph.slots slotSave = none → d.store.valid = false → d.f FWM_STAT.HOLD = 0 →
          exec (.restorePhaseADone t r) s = .next { s with dev := d }) ∧
      (look d.cph.slots slotSave ≠ none → r.keyOk = false →
          exec (.restorePhaseADone t r) s = .next { s with dev := d.restoreFails }) ∧
      (look d.cph.slots slotSave ≠ none → r.keyOk = true →
        (r.badSeal = none → exec (.restorePhaseADone t r) s = .next { s with dev := (d.restoreTo (d.restoreEpoch none) r).phaseAEnd }) ∧
        (∀ k, r.badSeal = some k →
          let low := d.restoreEpoch (some k)
          let newest := d.dur.sealed.foldl max 0
          (newest < k → exec (.restorePhaseADone t r) s = .next { s with dev := (d.restoreTo low r).phaseAEnd }) ∧
          (k ≤ newest → exec (.restorePhaseADone t r) s = .next { s with dev := ((d.nameLost (low + 1) newest).restoreTo low r).phaseAEnd })))) ∧
    (d.f DUR_RESTORE_STAT.PHASE = 2 → d.coreOn = true → d.dur.saving = false →
      let u := (pages.filter (fun p => d.mem.unrestored.contains (p / 16))).foldl Dev.badPage d
      exec (.restorePhaseBDone { t := t, bad := pages }) s = .next { s with dev :=
        (({ u with mem := { u.mem with unrestored := [] } } : Dev).fset DUR_RESTORE_STAT.PHASE 3).pump }) ∧
    ((d.f DUR_RESTORE_STAT.PHASE ≠ 2 ∨ d.coreOn = false ∨ d.dur.saving = true) →
      exec (.restorePhaseBDone { t := t, bad := pages }) s = .next { s with dev := d }) ∧
    (let go := d.core.transport = false ∧ d.coreOn = true ∧ d.dur.saving = false ∧ d.core.phaseADone = true ∧
        d.tim.valid = true ∧
       d.core.rolesSettled = true ∧ d.horizonKnown = true;
     (go →
      let u := ({ d with core := { d.core with transport := true } } : Dev).fset HPT_CM_CTL.ACCEPT 1
      let u := if u.core.stage < 6 then u.stageAt 6 else u
      exec (.transportStart t) s = .next { s with dev := ((u.fab.fj.filter (fun f => f.origin == u.selfId && f.state != FjState.failed)).foldl Dev.fjSend u).pump }) ∧
     (¬ go → exec (.transportStart t) s = .next { s with dev := d }))

/-- While the core runs and no save has begun a soft reset raises event 0.1, stops and drains the rings, discards the
transaction and returns the soft registers; in any other state it does nothing. The drain ends once it is over or 10 ms after it
began. A lantern of the sixteen that is not restarting reloads its engines' image, its role starts again and it is noted; within
one second of the last restart its engines are removed instead. The end of a restart lets what waited go on, lantern 12 showing
its status again. So softReset, softResetDrainExpiry, lanternRestart and lanternRestartDone each answer the next state named.
(R402, R469, R503, R505, R506, R513, R515, Table 18.2 of spec/18_reset_startup.md.) -/
def Obligations.ResetsWithinServiceAct : Prop :=
  ∀ (t l at_ : Nat) (s : State),
    let d := s.dev.tick t
    let may := d.coreOn = true ∧ d.dur.saving = false ∧ d.dur.held = false
    (may →
      let u := ((d.raise (source 0 1) 2 0 2 0).stopRing true).softRegs false
      exec (.softReset t) s = .next { s with dev := ((({ u with latchRd := none, latchWr := [] } : Dev).setAuthority).settleDrain).pump }) ∧
    (¬ may → exec (.softReset t) s = .next { s with dev := d }) ∧
    (d.ring.drainAt = none → exec (.softResetDrainExpiry t) s = .next { s with dev := d }) ∧
    (d.ring.drainAt = some at_ →
      ((d.drainOver = true ∨ at_ + 10000000 ≤ d.clk) → exec (.softResetDrainExpiry t) s = .next { s with dev := d.endDrain }) ∧
      (d.drainOver = false → d.clk < at_ + 10000000 → exec (.softResetDrainExpiry t) s = .next { s with dev := d })) ∧
    (may → l < 16 → d.age.restarting.contains l = false →
      (∀ b, look d.age.lastRestart l = some b → d.clk < b + 1000000000 →
          exec (.lanternRestart t l) s = .next { s with dev := (d.workingSlots l).foldl (fun (d : Dev) k => d.removeEngine (9 * l + k) false) d }) ∧
      ((∀ b, look d.age.lastRestart l = some b → b + 1000000000 ≤ d.clk) →
        let u := ((d.raise (source 0 1) 2 0 3 0).reloadEngines l).restartRole l
        let noted : AgeSt := { u.age with restarting := ins u.age.restarting l, lastRestart := put u.age.lastRestart l u.clk }
        exec (.lanternRestart t l) s = .next { s with dev := ({ u with age := noted } : Dev).pump })) ∧
    ((¬ may ∨ 16 ≤ l ∨ d.age.restarting.contains l = true) → exec (.lanternRestart t l) s = .next { s with dev := d }) ∧
    (d.age.restarting.contains l = true →
      let u : Dev := { d with age := { d.age with restarting := rem d.age.restarting l } }
      (l ≠ 12 → exec (.lanternRestartDone t l) s = .next { s with dev := (u.serveReqs.pumpDies).pump }) ∧
      (l = 12 → exec (.lanternRestartDone t l) s = .next { s with dev := (u.showStatus.serveReqs.pumpDies).pump })) ∧
    (d.age.restarting.contains l = false → exec (.lanternRestartDone t l) s = .next { s with dev := d })

/-- An address is taken once and lost by RSTDAA; ENEC enables in-band interrupts and announces what waits, DISEC disables them;
lengths from 69 to 256 are accepted and others are not; a port with an address answers GETPID, GETBCR 06h, GETDCR 00h,
GETSTATUS, GETMWL and GETMRL; RSTACT 00h loses the MCTP state and any other byte is answered with no data; Hot-Join is asked for
once without an address. A message that stands is counted and answered: endpoint IDs set and read, version, message types and
vendor support given, PLDM type 0 and sensors read. A packet whose PEC fails counts in PEC_ERR and does nothing else. So entdaa,
rstdaa, enec, disec, setmwl, setmrl, getpid, getbcr, getdcr, getstatus, getmwl, getmrl, rstact, hotJoinTimer, setEndpointId,
getEndpointId, getMctpVersionSupport, getMessageTypeSupport, getVendorDefinedMessageSupport, pldmType0Command and pldmSensorRead
each answer the next state named. (R424, R425, R426, R427, R433, Table 14.1 of spec/14_sideband.md, Table 14.4 of
spec/14_sideband.md.) -/
def Obligations.SideBandBusActs : Prop :=
  ∀ (t addr len byte eid mtype code sensor : Nat) (pec : Bool) (body : List Byte) (s : State),
    let d := s.dev.tick t
    let h := d.heard
    let on := d.addressed = true
    (d.addressed = false → exec (.entdaa t addr) s = .next { s with dev := d.fset SBP_STAT.DYN_ADDR addr }) ∧
    (on → exec (.entdaa t addr) s = .next { s with dev := d }) ∧
    exec (.rstdaa t) s = .next { s with dev := d.fset SBP_STAT.DYN_ADDR 0 } ∧
    (let e := d.fset SBP_STAT.IBI_EN 1;
     (e.sbp.notify = [] → exec (.enec t) s = .next { s with dev := e }) ∧ (e.sbp.notify ≠ [] →
         exec (.enec t) s = .next { s with dev := e.inBand })) ∧
    exec (.disec t) s = .next { s with dev := d.fset SBP_STAT.IBI_EN 0 } ∧
    (69 ≤ len → len ≤ 256 → exec (.setmwl t len) s = .next { s with dev := { d with sbp := { d.sbp with mwl := len } } } ∧
      exec (.setmrl t len) s = .next { s with dev := { d with sbp := { d.sbp with mrl := len } } }) ∧
    ((len < 69 ∨ 256 < len) → exec (.setmwl t len) s = .next { s with dev := d } ∧
        exec (.setmrl t len) s = .next { s with dev := d }) ∧
    (on →
      exec (.getpid t) s = .next { s with dev := d.send (.i3c (leBytes 6 provisionalId).reverse) } ∧
          exec (.getbcr t) s = .next { s with dev := d.send (.i3c [0x06]) } ∧
      exec (.getdcr t) s = .next { s with dev := d.send (.i3c [0x00]) } ∧
      exec (.getstatus t) s = .next { s with dev := d.send (.i3c (Config.standardReply 0x90 [BitVec.ofNat 8 d.sbp.notify.length])) } ∧
      exec (.getmwl t) s = .next { s with dev := d.send (.i3c (be2 d.sbp.mwl)) } ∧
      exec (.getmrl t) s = .next { s with dev := d.send (.i3c (be2 d.sbp.mrl ++ Config.standardReply 0x8C [])) }) ∧
    exec (.rstact t 0) s = .next { s with dev := { d.fset SBP_STAT.EID 0 with sbp := { d.sbp with notify := [] } } } ∧
    (on → byte ≠ 0 → exec (.rstact t byte) s = .next { s with dev := d.send (.i3c []) }) ∧
    (d.addressed = false → d.sbp.hotJoin = false →
        exec (.hotJoinTimer t) s = .next { s with dev := ({ d with sbp := { d.sbp with hotJoin := true } } : Dev).send (.i3c [0x02]) }) ∧
    ((on ∨ d.sbp.hotJoin = true) → exec (.hotJoinTimer t) s = .next { s with dev := d }) ∧
    (d.stands pec →
      (8 ≤ eid → eid ≤ 254 → exec (.setEndpointId t pec eid) s = .next { s with dev := (h.fset SBP_STAT.EID eid).send (.mctp 0 [1, 0, BitVec.ofNat 8 eid]) }) ∧
      exec (.getEndpointId t pec) s = .next { s with dev := h.send (.mctp 0 [2, 0, BitVec.ofNat 8 (h.f SBP_STAT.EID)]) } ∧
      ((mtype = 0 ∨ mtype = 1 ∨ mtype = 0x7E ∨ mtype = 0xFF) →
          exec (.getMctpVersionSupport t pec mtype) s = .next { s with dev := h.send (.mctp 0 (4 :: 0 :: Config.standardReply 0x04 [1, 3, BitVec.ofNat 8 mtype])) }) ∧
      (mtype ≠ 0 → mtype ≠ 1 → mtype ≠ 0x7E → mtype ≠ 0xFF →
          exec (.getMctpVersionSupport t pec mtype) s = .next { s with dev := h.send (.mctp 0 [4, 0x80]) }) ∧
      exec (.getMessageTypeSupport t pec) s = .next { s with dev := h.send (.mctp 0 [5, 0, 3, 0x00, 0x01, 0x7E]) } ∧
      exec (.getVendorDefinedMessageSupport t pec) s = .next { s with dev := h.send (.mctp 0 (6 :: 0 :: 0 :: be2 Config.vendor.toNat)) } ∧
      exec (.pldmType0Command t pec code body) s = .next { s with dev := h.send (.mctp 1 (0 :: BitVec.ofNat 8 code :: Config.standardReply code body)) } ∧
      (sensor ≠ 0 → exec (.pldmSensorRead t pec sensor) s = .next { s with dev := (h.send (.mctp 1 (2 :: BitVec.ofNat 8 sensor ::
          match h.sensorField sensor with
          | none => [2]
          | some (x, always) => if h.serves = true ∨ always = true then 0 :: leBytes 4 (h.view x) else [1]))) })) ∧
    (on → exec (.getEndpointId t false) s = .next { s with dev := d.finc SBP_CNT.PEC_ERR 1 }) ∧
    (d.addressed = false → exec (.getEndpointId t pec) s = .next { s with dev := d })

/-- A message that stands is answered 82h by a dark core. While lantern 15 serves, an update opens where none is open and no
FW_STAGE of the control host is incomplete; its chunks are written into the inactive slot where that slot may be written;
VerifyComplete stages an image whose signature checks and ends the update where it does not; ActivateFirmware within 10 s of an
authorised FW_ARM, of a verified image and with no barrier, begins the barrier and enters the command order as FW_ACTIVATE, and
is refused otherwise. FW_ARM arms; ten seconds later the arm is gone. So requestUpdate, pldmFirmwareData, verifyComplete,
activateFirmware, fwArm and fwArmExpiry each answer the next state named. (R351, R401, R428, R431, R433, Table 14.4 of
spec/14_sideband.md.) -/
def Obligations.FirmwareUpdateByPldmActs : Prop :=
  ∀ (t : Nat) (pec : Bool) (i : Image) (a : SbReq) (s : State),
    let d := s.dev.tick t
    let h := d.heard
    let ready := d.stands pec ∧ h.serves = true
    let dark (code : Byte) : Dev := (h.finc SBP_CNT.DARK 1).send (.mctp 1 [5, code, 0x82])
    (d.stands pec → h.serves = false →
      exec (.requestUpdate t pec) s = .next { s with dev := dark 0x10 } ∧
          exec (.pldmFirmwareData t pec i) s = .next { s with dev := dark 0x15 } ∧
      exec (.verifyComplete t pec i) s = .next { s with dev := dark 0x17 } ∧
          exec (.activateFirmware t pec) s = .next { s with dev := dark 0x1A }) ∧
    (ready → h.sbp.update = false → (∀ c ∈ h.ring.cmds, c.op = ocStage → c.sb = true) →
        exec (.requestUpdate t pec) s = .next { s with dev := ({ h with sbp := { h.sbp with update := true, updOk := false } } : Dev).send (.mctp 1 [5, 0x10, 0]) }) ∧
    (ready → h.sbp.update = true → exec (.requestUpdate t pec) s = .next { s with dev := h.pldmErr 0x10 1 }) ∧
    (ready → h.sbp.update = true → h.stageBarred = false →
      exec (.pldmFirmwareData t pec i) s = .next { s with dev := (h.fset (FWM_SLOT.STATE h.fwOther) fwEmpty).send (.mctp 1 [5, 0x15, 0]) } ∧
      (i.verified = false → exec (.verifyComplete t pec i) s = .next { s with dev := (let e := h.fset (FWM_SLOT.STATE h.fwOther) fwEmpty
         ({ e with sbp := { e.sbp with update := false, updOk := false } } : Dev).send (.mctp 1 [5, 0x17, 1])) }) ∧
      (i.verified = true → exec (.verifyComplete t pec i) s = .next { s with dev := (let n := h.fwOther
         let e := (((h.fset (FWM_SLOT.STATE n) fwStaged).fset (FWM_SLOT.VERSION n) i.version.toNat).fset (FWM_SLOT.FMT_LO n)
           i.fmtLo).fset (FWM_SLOT.FMT_HI n) i.fmtHi
         ({ e with sbp := { e.sbp with update := true, updOk := true } } : Dev).send (.mctp 1 [5, 0x17, 0])) })) ∧
    (ready → (h.sbp.update = false ∨ h.stageBarred = true) →
        exec (.pldmFirmwareData t pec i) s = .next { s with dev := h.pldmErr 0x15 2 } ∧
      exec (.verifyComplete t pec i) s = .next { s with dev := h.pldmErr 0x17 2 }) ∧
    (ready → h.armed = true → h.sbp.update = true → h.sbp.updOk = true → h.ring.barrier = none →
      let e : Dev := { h with
        ring := { h.ring with barrier := some h.ring.nextCmd }, sbp := { h.sbp with update := false, updOk := false } }
      let c := e.sideOf vcActivate 0 ocActivate []
      let u := e.withSide c
      (u.turnOf c.id ocActivate anyCmd c →
          exec (.activateFirmware t pec) s = .next { s with dev := (u.begun c.id c).actActivate (u.now_ c) }) ∧
      (u.cmd c.id = some c → u.startable c = false → exec (.activateFirmware t pec) s = .next { s with dev := u })) ∧
    (ready → (h.armed = false ∨ h.sbp.update = false ∨ h.sbp.updOk = false) →
      exec (.activateFirmware t pec) s = .next { s with dev := h.pldmErr 0x1A 3 }) ∧
    (d.lit a → exec (.fwArm t a) s = .next { s with dev := (let e := d.opened a
       ({ e with sbp := { e.sbp with arm := some e.clk } } : Dev).send (.vendor 15 0 [a.inst, csDone])) }) ∧
    (∀ b, d.sbp.arm = some b →
      (b + 10000000000 ≤ d.clk → exec (.fwArmExpiry t) s = .next { s with dev := { d with sbp := { d.sbp with arm := none } } }) ∧
      (d.clk < b + 10000000000 → exec (.fwArmExpiry t) s = .next { s with dev := d })) ∧
    (d.sbp.arm = none → exec (.fwArmExpiry t) s = .next { s with dev := d })

/-- For whatever a request would do: one that does not stand is dropped, counted in PEC_ERR where the port has an address; a
malformed one is answered 01h; an authorised one is answered 83h where authorisation is not provisioned, 80h where its challenge
is not the last one issued, is older than one second, or its tag is wrong, the challenge it carries being spent, AUTH_FAIL
counted and event 15.3 of severity 3 raised; 82h where lantern 15 is needed and does not serve; 81h where authority is needed
and the manager has none; and it acts otherwise. (R417, R426, R429, R430, R431, R433, Table 14.3 of spec/14_sideband.md.) -/
def Obligations.VendorRequestsAreJudged : Prop :=
  ∀ (d : Dev) (code : Nat) (a : SbReq) (act : Dev → Dev),
    let h := d.heard
    let e := d.opened a
    let say (x : Dev) (cc : Nat) : Dev := x.send (.vendor code cc [a.inst])
    let bad := ((e.finc SBP_CNT.AUTH_FAIL 1).raise (source 15 3) 3 0 1 0)
    (d.addressed = false → d.vendorIn code a act = d ∧ d.authIn code a act = d) ∧
    (d.addressed = true → a.pec = false → d.vendorIn code a act = d.finc SBP_CNT.PEC_ERR 1) ∧
    (d.stands a.pec →
      (a.malformed = true → d.vendorIn code a act = say h 1 ∧ d.authIn code a act = say h 1) ∧
      (a.malformed = false → d.vendorIn code a act = act h) ∧
      (a.malformed = false → h.provisioned = false → d.authIn code a act = say h 0x83) ∧
      (a.malformed = false → h.provisioned = true → (h.challengeGood a = false ∨ a.tagOk = false) →
        d.authIn code a act = say bad 0x80)) ∧
    (d.authed a →
      d.authIn code a act = act e ∧
      (e.serves = false → d.litIn code a act = say (e.finc SBP_CNT.DARK 1) 0x82) ∧
      (e.serves = true → d.litIn code a act = act e ∧
        (e.f SBP_STAT.AUTHORITY = 0 → d.ruledIn code a act = say e 0x81) ∧
        (e.f SBP_STAT.AUTHORITY ≠ 0 → d.ruledIn code a act = act e)))

/-- GET_REG with an aligned offset and 1 to 16 registers answers their live values, and 82h where a dark core would need others
than its own; GET_CHALLENGE answers a new challenge, which replaces the last. Once authorised, LOG_FETCH of 1 to 15 records
answers them, POWER asks for its operation; once lantern 15 serves, LOG_CLEAR clears and answers the number held, DECLARE
declares, CFG_WRITE writes its STG fields into the manager's own shadow bank, CFG_DISCARD discards the manager's transaction,
and EVACUATE, FW_CONFIRM and KEY_LOAD_BLOB enter the command order as the newest command and start where their turn has come;
once the manager has authority, THAW thaws a Frozen channel, CFG_OPEN opens a Closed transaction for it, and CFG_COMMIT enters
the order. So getReg, getChallenge, sbLogFetch, power, sbLogClear, sbDeclare, sbCfgWrite, sbCfgDiscard, sbEvacuate, sbFwConfirm,
sbKeyLoadBlob, sbThaw, sbCfgOpen and sbCfgCommit each answer the next state named. (R243, R324, R369, R408, R409, R417, R418,
R419, R429, R431, R432, R494.) -/
def Obligations.VendorCommandsAct : Prop :=
  ∀ (t off count first op bay kind index ch value when time : Nat) (a : SbReq) (b : Blob) (s : State),
    let d := s.dev.tick t
    let h := d.heard
    let e := d.opened a
    let os := (List.range count).map (fun k => off + 8 * k)
    let starts (i : Instr) (c : Cmd) (act : Dev → Cmd → Dev) : Prop :=
      let u := e.withSide c;
      (u.turnOf c.id c.op anyCmd c → exec i s = .next { s with dev := act (u.begun c.id c) (u.now_ c) }) ∧
      (u.cmd c.id = some c → u.startable c = false → exec i s = .next { s with dev := u })
    (d.stands a.pec → a.malformed = false →
      (off % 8 = 0 → 1 ≤ count → count ≤ 16 →
        ((h.serves = true ∨ ∀ o ∈ os, darkReg o = true) →
            exec (.getReg t a off count) s = .next { s with dev := h.send (.vendor 1 0 (a.inst :: os.map h.read8)) }) ∧
        (h.serves = false → (∃ o ∈ os, darkReg o = false) →
            exec (.getReg t a off count) s = .next { s with dev := (h.finc SBP_CNT.DARK 1).send (.vendor 1 0x82 [a.inst]) })) ∧
      (let c := h.f EVR_LIFE.PCYCLE * 2 ^ 32 + h.sbp.chalCnt.toNat
       exec (.getChallenge t a) s = .next { s with dev := (({ h with sbp := { h.sbp with challenge := some (c, h.clk), chalCnt := h.sbp.chalCnt + 1 } } : Dev).send
          (.vendor 2 0 [a.inst, c])) })) ∧
    (d.authed a →
      (1 ≤ count → count ≤ 15 → exec (.sbLogFetch t a first count) s = .next { s with dev := e.send (.vendor 3 0 (a.inst :: ((e.sideRecords first count).flatMap Record.bytes).map BitVec.toNat)) }) ∧
      (1 ≤ op → op ≤ 6 → (e.serves = true ∨ op = 1 ∨ op = 2 ∨ op = 4) →
          exec (.power t a op bay) s = .next { s with dev := e.powerReq { op := op, bay := bay, who := 2, inst := a.inst } })) ∧
    (d.lit a →
      exec (.sbLogClear t a) s = .next { s with dev := (e.clearLog 1).send (.vendor 4 0 [a.inst, e.evt.recs.length]) } ∧
      exec (.sbDeclare t a) s = .next { s with dev := e.declare.send (.vendor 6 0 [a.inst, csDone]) } ∧
      (off % 8 = 0 → e.f FWM_STAT.HOLD = 0 → e.sideHolds = true →
          exec (.sbCfgWrite t a off value) s = .next { s with dev := ((partsOf off 8 (value % 2 ^ 64)).foldl Dev.toShadow e).send (.vendor 10 0 [a.inst, csDone]) }) ∧
      (e.f FWM_STAT.HOLD = 0 → e.sideHolds = true →
          exec (.sbCfgDiscard t a) s = .next { s with dev := e.discardCfx.send (.vendor 12 0 [a.inst, csDone]) }) ∧
      starts (.sbEvacuate t a kind index)
        (e.sideOf vcEvacuate a.inst ocEvacuate [BitVec.ofNat 64 (kind % 256 + 256 * (index % 256))]) Dev.actEvacuate ∧
      starts (.sbFwConfirm t a) (e.sideOf vcConfirm a.inst ocConfirm []) Dev.actConfirm ∧
      starts (.sbKeyLoadBlob t a b) (e.sideOf vcBlob a.inst ocBlob []) (Dev.actBlob b)) ∧
    (d.ruled a →
      (ch < 24 → e.chanState ch = chFrozen → e.on (MDW_FRZ.THAW_BUSY ch) = false →
          exec (.sbThaw t a ch) s = .next { s with dev := ((e.fset (MDW_FRZ.THAW_BUSY ch) 1).fset (MDW_STAT.SR ch) 0).send (.vendor 8 0 [a.inst, csDone]) }) ∧
      (e.f FWM_STAT.HOLD = 0 → e.f CFX_CTL.STATE = 0 →
          exec (.sbCfgOpen t a) s = .next { s with dev := (e.openCfx holderSide).send (.vendor 9 0 [a.inst, csDone]) }) ∧
      starts (.sbCfgCommit t a when time)
        (e.sideOf vcCommit a.inst ocCommit [BitVec.ofNat 64 (when % 256), BitVec.ofNat 64 time]) Dev.sideCommit)

/-- With epochs that close at the multiples of the epoch length L in milliseconds, the epoch of a stamp is a closing instant
strictly after the stamp and no closing instant strictly after the stamp is earlier; a stamp equal to a closing instant belongs
to the epoch that follows it, L milliseconds on. The one forward step of device time closes the open epoch early: from the step
on, a stamp whose first closing instant is not past the epoch that follows the closed one belongs to that following epoch, so no
epoch number is used twice. (R60.) -/
def Obligations.EpochOfAWrite : Prop :=
  ∀ (d : Dev) (stamp : Nat),
    let len := d.epochLen
    let k := d.epochOf stamp
    (stamp < d.dur.stepAt ∨ (∀ j, len ∣ j → stamp < j * 1000000 → d.dur.stepEp ≤ j) →
      len ∣ k ∧ stamp < k * 1000000 ∧
      (∀ j, len ∣ j → stamp < j * 1000000 → k ≤ j) ∧
      (∀ j, len ∣ j → stamp = j * 1000000 → k = j + len)) ∧
    (∀ j, d.dur.stepAt ≤ stamp → len ∣ j → stamp < j * 1000000 → j ≤ d.dur.stepEp → k = d.dur.stepEp)

/-- For a command of ring 0 to 63, a 16-bit tag and an 8-bit status, the entry holds RESULT0 in bits 31:0, TAG in 47:32, STATUS
in 55:48, the phase in bit 56 (0 until it is written, and then that of the completion ring), the low five bits of the ring
number in 61:57, 0 in 63:62, RESULT1 in 126:64 and bit 5 of the ring number in 127; the status codes are those of Table 12.5.
(R388.) -/
def Obligations.CompletionEntryLayout : Prop :=
  (∀ (c : Cmd) (status r0 r1 : Nat), c.ring < 64 → c.tag < 65536 → status < 256 →
    let e := (c.entry status r0 r1).toNat
    e % 2 ^ 32 = r0 % 2 ^ 32 ∧ e / 2 ^ 32 % 2 ^ 16 = c.tag ∧ e / 2 ^ 48 % 2 ^ 8 = status ∧ e / 2 ^ 56 % 2 = 0 ∧
    e / 2 ^ 57 % 2 ^ 5 = c.ring % 32 ∧ e / 2 ^ 62 % 2 ^ 2 = 0 ∧ e / 2 ^ 64 % 2 ^ 63 = r1 % 2 ^ 63 ∧ e / 2 ^ 127 = c.ring / 32) ∧
  (∀ (e : BitVec 128) (p : Nat), p < 2 → e.toNat / 2 ^ 56 % 2 = 0 → (withPhase e p).toNat = e.toNat + p * 2 ^ 56) ∧
  (∀ (d : Dev) (n : Nat) (e : BitVec 128),
    (d.cqWrite n e).out = .completion n (withPhase e (d.f (RING_STAT.CQ_PHASE n))) :: d.out) ∧
  [csDone, csBadField, csRefused, csAborted, csNoSpace, csNotReady, csDmaFault, csHeld, csSideband, csNotAuthorised, csBusy, csData,
    csCipher] = List.range 13

/-- On every device, two meadow addresses that resolve to the same channel and channel address are the same address: the
interleave of a set, and the sets laid end to end, alias nothing. (R301, spec/09_dram_channels.md.) -/
def Obligations.MeadowPlacesAreDistinct : Prop :=
  ∀ (d : Dev) (a b : Nat) (x : Nat × Nat), d.locate a = some x → d.locate b = some x → a = b
end

