-- ==== Sys2Proof/Laws/Memory.lean ====
section
/-! SUPPORT. Laws of tables by key and of byte memory: reading after writing, and that every memory operation keeps the
canonical form. -/

namespace Sys2Proof.Machine

/-! ### Tables by key -/

theorem look_put {α : Type} (l : List (Nat × α)) (k j : Nat) (v : α) :
    look (put l k v) j = if k = j then some v else look l j := by
  induction l with
  | nil => simp [put, look]
  | cons x r ih =>
    obtain ⟨i, w⟩ := x
    simp only [put]
    split
    · simp [look]
    · split
      · simp only [look]; split <;> simp_all
      · simp only [look, ih]; split <;> simp_all

theorem lookD_put {α : Type} (l : List (Nat × α)) (k j : Nat) (v dflt : α) :
    lookD (put l k v) j dflt = if k = j then v else lookD l j dflt := by
  simp only [lookD, look_put]; split <;> simp

@[simp] theorem lookD_put_self {α : Type} (l : List (Nat × α)) (k : Nat) (v dflt : α) :
    lookD (put l k v) k dflt = v := by simp [lookD_put]

theorem lookD_change {α : Type} (l : List (Nat × α)) (k j : Nat) (dflt : α) (f : α → α) (d' : α) :
    lookD (change l k dflt f) j d' = if k = j then f (lookD l k dflt) else lookD l j d' := by
  simp [change, lookD_put]

theorem look_del {α : Type} (l : List (Nat × α)) (k j : Nat) :
    look (del l k) j = if k = j then none else look l j := by
  induction l with
  | nil => simp [del, look]
  | cons x r ih =>
    obtain ⟨i, w⟩ := x
    simp only [del]
    split
    · next h => subst h; simp only [ih, look]; split <;> simp_all
    · next h =>
      simp only [look, ih]
      by_cases hk : k = j
      · subst hk; simp [h]
      · simp [hk]

/-! ### Register fields -/

theorem Dev.f_fset (d : Dev) (x y : Fld) (v : Nat) :
    (d.fset x v).f y = if x.key = y.key then v % 2 ^ x.width else d.f y := by
  simp [Dev.f, Dev.fset, lookD_put]

@[simp] theorem Dev.f_fset_self (d : Dev) (x : Fld) (v : Nat) : (d.fset x v).f x = v % 2 ^ x.width := by
  simp [Dev.f_fset]

theorem Dev.f_fset_ne (d : Dev) {x y : Fld} (v : Nat) (h : x.key ≠ y.key) : (d.fset x v).f y = d.f y := by
  simp [Dev.f_fset, h]

/-! ### The canonical form -/

theorem memWf_cons (a : Nat) (b : Byte) (r : List Host.Cell) :
    memWf ((a, b) :: r) = true ↔ b ≠ 0 ∧ (∀ c ∈ r, a < c.1) ∧ memWf r = true := by
  induction r generalizing a b with
  | nil => simp [memWf]
  | cons x r ih =>
    obtain ⟨a', b'⟩ := x
    rw [show memWf ((a, b) :: (a', b') :: r) = (b != 0 && decide (a < a') && memWf ((a', b') :: r)) from rfl]
    simp only [Bool.and_eq_true, bne_iff_ne, ne_eq, decide_eq_true_eq, List.mem_cons, forall_eq_or_imp]
    constructor
    · rintro ⟨⟨hb, hl⟩, hw⟩
      exact ⟨hb, ⟨hl, fun c hc => Nat.lt_trans hl (((ih a' b').1 hw).2.1 c hc)⟩, hw⟩
    · rintro ⟨hb, ⟨hl, _⟩, hw⟩
      exact ⟨⟨hb, hl⟩, hw⟩

theorem mem_memPut {m : List Host.Cell} {a : Nat} {b : Byte} {c : Host.Cell} (h : c ∈ memPut m a b) :
    c.1 = a ∨ c ∈ m := by
  induction m with
  | nil =>
    simp only [memPut] at h
    split at h <;> simp_all
  | cons x r ih =>
    obtain ⟨j, w⟩ := x
    simp only [memPut] at h
    split at h
    · split at h
      · exact .inr h
      · rcases List.mem_cons.1 h with rfl | h
        · exact .inl rfl
        · exact .inr h
    · split at h
      · split at h
        · exact .inr (List.mem_cons_of_mem _ h)
        · rcases List.mem_cons.1 h with rfl | h
          · exact .inl rfl
          · exact .inr (List.mem_cons_of_mem _ h)
      · rcases List.mem_cons.1 h with rfl | h
        · exact .inr (List.mem_cons_self ..)
        · exact (ih h).imp_right (List.mem_cons_of_mem _)

/-- Writing one byte keeps the canonical form. -/
theorem memPut_wf {m : List Host.Cell} (a : Nat) (b : Byte) (h : Memory.wf m) : Memory.wf (memPut m a b) := by
  induction m with
  | nil => simp only [memPut]; split <;> simp_all [Memory.wf, memWf]
  | cons x r ih =>
    obtain ⟨j, w⟩ := x
    obtain ⟨hw, hl, hr⟩ := (memWf_cons j w r).1 h
    simp only [memPut]
    split
    · next hj =>
      split
      · exact h
      · next hb =>
        refine (memWf_cons _ _ _).2 ⟨hb, fun c hc => ?_, h⟩
        rcases List.mem_cons.1 hc with rfl | hc
        · exact hj
        · exact Nat.lt_trans hj (hl c hc)
    · split
      · next ha =>
        subst ha
        split
        · exact hr
        · next hb => exact (memWf_cons _ _ _).2 ⟨hb, hl, hr⟩
      · refine (memWf_cons _ _ _).2 ⟨hw, fun c hc => ?_, ih hr⟩
        rcases mem_memPut hc with hc | hc
        · omega
        · exact hl c hc

/-- Writing bytes keeps the canonical form. -/
theorem memWrite_wf {m : List Host.Cell} (a : Nat) (bs : List Byte) (h : Memory.wf m) : Memory.wf (memWrite m a bs) := by
  induction bs generalizing m a with
  | nil => exact h
  | cons b r ih => exact ih _ (memPut_wf a b h)

theorem memWf_filter {m : List Host.Cell} (p : Host.Cell → Bool) (h : Memory.wf m) : Memory.wf (m.filter p) := by
  induction m with
  | nil => exact h
  | cons x r ih =>
    obtain ⟨j, w⟩ := x
    obtain ⟨hw, hl, hr⟩ := (memWf_cons j w r).1 h
    rw [List.filter_cons]
    split
    · exact (memWf_cons _ _ _).2 ⟨hw, fun c hc => hl c (List.mem_of_mem_filter hc), ih hr⟩
    · exact ih hr

/-- Clearing a run of bytes keeps the canonical form. -/
theorem memClear_wf {m : List Host.Cell} (a n : Nat) (h : Memory.wf m) : Memory.wf (memClear m a n) := memWf_filter _ h

/-- Writing back a list of bytes keeps the canonical form (R199). -/
theorem memPuts_wf {β : Type} {m : List Host.Cell} (f : List Host.Cell → β → Nat × Byte) (l : List β) (h : Memory.wf m) :
    Memory.wf (l.foldl (fun m x => memPut m (f m x).1 (f m x).2) m) := by
  induction l generalizing m with
  | nil => exact h
  | cons x r ih => exact ih (memPut_wf _ _ h)

end Sys2Proof.Machine
end

