-- ==== Sys2Proof/Laws/Bytes.lean ====
section
/-! SUPPORT. Read after write: what a byte of memory reads as after bytes have been written or a run has been cleared. -/

namespace Sys2Proof.Machine

theorem memGet_cons (j : Nat) (w : Byte) (r : List Host.Cell) (x : Nat) :
    memGet ((j, w) :: r) x = if j = x then w else memGet r x := by
  simp only [memGet, lookD, look]
  split <;> rfl

/-- An address below every listed one reads as an unlisted byte. -/
theorem memGet_unlisted {m : List Host.Cell} {x : Nat} (h : ∀ c ∈ m, c.1 ≠ x) : memGet m x = 0 := by
  induction m with
  | nil => rfl
  | cons c r ih =>
    obtain ⟨j, w⟩ := c
    rw [memGet_cons, if_neg (h _ (List.mem_cons_self ..))]
    exact ih fun c hc => h c (List.mem_cons_of_mem _ hc)

theorem memGet_memPut {m : List Host.Cell} (a : Nat) (b : Byte) (x : Nat) (h : Memory.wf m) :
    memGet (memPut m a b) x = if x = a then b else memGet m x := by
  induction m with
  | nil =>
    simp only [memPut]
    split
    · next hb => subst hb; split <;> rfl
    · rw [memGet_cons]
      by_cases hx : x = a
      · rw [if_pos hx, if_pos hx.symm]
      · rw [if_neg hx, if_neg fun e => hx e.symm]
  | cons c r ih =>
    obtain ⟨j, w⟩ := c
    obtain ⟨hw, hl, hr⟩ := (memWf_cons j w r).1 h
    have low : ∀ y, y ≤ j → y ≠ j → memGet ((j, w) :: r) y = 0 := fun y hy hn =>
      memGet_unlisted fun c hc => by
        rcases List.mem_cons.1 hc with rfl | hc
        · exact fun e => hn e.symm
        · exact fun e => absurd (hl c hc) (by omega)
    simp only [memPut]
    by_cases hx : x = a
    · subst hx
      rw [if_pos rfl]
      split
      · next hj =>
        split
        · next hb => rw [low x (by omega) (by omega), hb]
        · rw [memGet_cons, if_pos rfl]
      · split
        · next hj =>
          subst hj
          split
          · next hb => rw [hb]; exact memGet_unlisted fun c hc => fun e => absurd (hl c hc) (by omega)
          · rw [memGet_cons, if_pos rfl]
        · next hj => rw [memGet_cons, if_neg fun e => hj e.symm, ih hr, if_pos rfl]
    · rw [if_neg hx]
      split
      · split
        · rfl
        · rw [memGet_cons, if_neg fun e => hx e.symm]
      · split
        · next hj =>
          subst hj
          have hax : ¬ a = x := fun e => hx e.symm
          rw [memGet_cons _ w, if_neg hax]
          split
          · rfl
          · rw [memGet_cons, if_neg hax]
        · rw [memGet_cons, memGet_cons, ih hr, if_neg hx]

theorem memGet_memWrite {m : List Host.Cell} (a : Nat) (bs : List Byte) (x : Nat) (h : Memory.wf m) :
    memGet (memWrite m a bs) x = if a ≤ x ∧ x < a + bs.length then bs.getD (x - a) 0 else memGet m x := by
  induction bs generalizing m a with
  | nil => rw [if_neg (by simp only [List.length_nil]; omega)]; rfl
  | cons b r ih =>
    rw [memWrite, ih _ (memPut_wf a b h), memGet_memPut _ _ _ h]
    by_cases hx : x = a
    · subst hx
      rw [if_neg (by omega), if_pos rfl, if_pos (by simp)]
      simp
    · rw [if_neg hx]
      by_cases hr : a + 1 ≤ x ∧ x < a + 1 + r.length
      · rw [if_pos hr, if_pos ⟨by omega, by simp only [List.length_cons]; omega⟩]
        obtain ⟨k, rfl⟩ : ∃ k, x = a + 1 + k := ⟨x - a - 1, by omega⟩
        rw [show a + 1 + k - a = k + 1 by omega, show a + 1 + k - (a + 1) = k by omega]
        simp
      · rw [if_neg hr, if_neg (by simp only [List.length_cons]; omega)]

theorem memGet_memClear {m : List Host.Cell} (a n x : Nat) :
    memGet (memClear m a n) x = if a ≤ x ∧ x < a + n then 0 else memGet m x := by
  unfold memClear
  induction m with
  | nil => split <;> rfl
  | cons c r ih =>
    obtain ⟨j, w⟩ := c
    rw [List.filter_cons]
    split
    · next h =>
      rw [memGet_cons, memGet_cons, ih]
      split
      · next hj => subst hj; rw [if_neg (by simp at h; omega)]
      · rfl
    · next h =>
      rw [ih, memGet_cons]
      split
      · rfl
      · next hx =>
        rw [if_neg]
        rintro rfl
        exact hx (by simpa using h)

theorem memRead_length (m : List Host.Cell) (a n : Nat) : (memRead m a n).length = n := by
  induction n generalizing a with
  | zero => rfl
  | succ n ih => simp [memRead, ih]

theorem memRead_getD (m : List Host.Cell) (a n i : Nat) (h : i < n) : (memRead m a n).getD i 0 = memGet m (a + i) := by
  induction n generalizing a i with
  | zero => omega
  | succ n ih =>
    cases i with
    | zero => rfl
    | succ i =>
      have := ih (a + 1) i (by omega)
      rw [show a + (i + 1) = a + 1 + i by omega, ← this]
      rfl

end Sys2Proof.Machine
end

