-- ==== Sys2Proof/Laws/State.lean ====
section
/-! SUPPORT. What each plain update of the device leaves alone: one lemma per field and update, true by unfolding, so that no later
proof unfolds a record update; and what a command's frame reads. -/

namespace Sys2Proof.Machine

/-! ### The state -/

@[simp] theorem State.run_eq (s : State) (t : Nat) (f : Dev → Dev) : s.run t f = .next { s with dev := f (s.dev.tick t) } := rfl

@[simp] theorem Dev.tick_clk (d : Dev) (t : Nat) : (d.tick t).clk = max d.clk t := rfl

@[simp] theorem Dev.send_out (d : Dev) (o : Out) : (d.send o).out = o :: d.out := rfl

@[simp] theorem Dev.used_free (d : Dev) : d.used.free = d.free + 1 := rfl

/-! ### `fset` -/

@[simp] theorem Dev.fset_clk (d : Dev) (x : Fld) (v : Nat) : (d.fset x v).clk = d.clk := rfl
@[simp] theorem Dev.fset_free (d : Dev) (x : Fld) (v : Nat) : (d.fset x v).free = d.free := rfl
@[simp] theorem Dev.fset_out (d : Dev) (x : Fld) (v : Nat) : (d.fset x v).out = d.out := rfl
@[simp] theorem Dev.fset_latchRd (d : Dev) (x : Fld) (v : Nat) : (d.fset x v).latchRd = d.latchRd := rfl
@[simp] theorem Dev.fset_latchWr (d : Dev) (x : Fld) (v : Nat) : (d.fset x v).latchWr = d.latchWr := rfl
@[simp] theorem Dev.fset_core (d : Dev) (x : Fld) (v : Nat) : (d.fset x v).core = d.core := rfl
@[simp] theorem Dev.fset_hpt (d : Dev) (x : Fld) (v : Nat) : (d.fset x v).hpt = d.hpt := rfl
@[simp] theorem Dev.fset_rgn (d : Dev) (x : Fld) (v : Nat) : (d.fset x v).rgn = d.rgn := rfl
@[simp] theorem Dev.fset_tier (d : Dev) (x : Fld) (v : Nat) : (d.fset x v).tier = d.tier := rfl
@[simp] theorem Dev.fset_mem (d : Dev) (x : Fld) (v : Nat) : (d.fset x v).mem = d.mem := rfl
@[simp] theorem Dev.fset_dur (d : Dev) (x : Fld) (v : Nat) : (d.fset x v).dur = d.dur := rfl
@[simp] theorem Dev.fset_tim (d : Dev) (x : Fld) (v : Nat) : (d.fset x v).tim = d.tim := rfl
@[simp] theorem Dev.fset_twn (d : Dev) (x : Fld) (v : Nat) : (d.fset x v).twn = d.twn := rfl
@[simp] theorem Dev.fset_fab (d : Dev) (x : Fld) (v : Nat) : (d.fset x v).fab = d.fab := rfl
@[simp] theorem Dev.fset_mdw (d : Dev) (x : Fld) (v : Nat) : (d.fset x v).mdw = d.mdw := rfl
@[simp] theorem Dev.fset_hth (d : Dev) (x : Fld) (v : Nat) : (d.fset x v).hth = d.hth := rfl
@[simp] theorem Dev.fset_cph (d : Dev) (x : Fld) (v : Nat) : (d.fset x v).cph = d.cph := rfl
@[simp] theorem Dev.fset_ring (d : Dev) (x : Fld) (v : Nat) : (d.fset x v).ring = d.ring := rfl
@[simp] theorem Dev.fset_cfx (d : Dev) (x : Fld) (v : Nat) : (d.fset x v).cfx = d.cfx := rfl
@[simp] theorem Dev.fset_store (d : Dev) (x : Fld) (v : Nat) : (d.fset x v).store = d.store := rfl
@[simp] theorem Dev.fset_sbp (d : Dev) (x : Fld) (v : Nat) : (d.fset x v).sbp = d.sbp := rfl
@[simp] theorem Dev.fset_pwr (d : Dev) (x : Fld) (v : Nat) : (d.fset x v).pwr = d.pwr := rfl
@[simp] theorem Dev.fset_age (d : Dev) (x : Fld) (v : Nat) : (d.fset x v).age = d.age := rfl
@[simp] theorem Dev.fset_fwm (d : Dev) (x : Fld) (v : Nat) : (d.fset x v).fwm = d.fwm := rfl
@[simp] theorem Dev.fset_evt (d : Dev) (x : Fld) (v : Nat) : (d.fset x v).evt = d.evt := rfl
@[simp] theorem Dev.fset_pmc (d : Dev) (x : Fld) (v : Nat) : (d.fset x v).pmc = d.pmc := rfl

/-! ### `finc` -/

@[simp] theorem Dev.finc_clk (d : Dev) (x : Fld) (n : Nat) : (d.finc x n).clk = d.clk := rfl
@[simp] theorem Dev.finc_free (d : Dev) (x : Fld) (n : Nat) : (d.finc x n).free = d.free := rfl
@[simp] theorem Dev.finc_out (d : Dev) (x : Fld) (n : Nat) : (d.finc x n).out = d.out := rfl
@[simp] theorem Dev.finc_latchRd (d : Dev) (x : Fld) (n : Nat) : (d.finc x n).latchRd = d.latchRd := rfl
@[simp] theorem Dev.finc_latchWr (d : Dev) (x : Fld) (n : Nat) : (d.finc x n).latchWr = d.latchWr := rfl
@[simp] theorem Dev.finc_core (d : Dev) (x : Fld) (n : Nat) : (d.finc x n).core = d.core := rfl
@[simp] theorem Dev.finc_hpt (d : Dev) (x : Fld) (n : Nat) : (d.finc x n).hpt = d.hpt := rfl
@[simp] theorem Dev.finc_rgn (d : Dev) (x : Fld) (n : Nat) : (d.finc x n).rgn = d.rgn := rfl
@[simp] theorem Dev.finc_tier (d : Dev) (x : Fld) (n : Nat) : (d.finc x n).tier = d.tier := rfl
@[simp] theorem Dev.finc_mem (d : Dev) (x : Fld) (n : Nat) : (d.finc x n).mem = d.mem := rfl
@[simp] theorem Dev.finc_dur (d : Dev) (x : Fld) (n : Nat) : (d.finc x n).dur = d.dur := rfl
@[simp] theorem Dev.finc_tim (d : Dev) (x : Fld) (n : Nat) : (d.finc x n).tim = d.tim := rfl
@[simp] theorem Dev.finc_twn (d : Dev) (x : Fld) (n : Nat) : (d.finc x n).twn = d.twn := rfl
@[simp] theorem Dev.finc_fab (d : Dev) (x : Fld) (n : Nat) : (d.finc x n).fab = d.fab := rfl
@[simp] theorem Dev.finc_mdw (d : Dev) (x : Fld) (n : Nat) : (d.finc x n).mdw = d.mdw := rfl
@[simp] theorem Dev.finc_hth (d : Dev) (x : Fld) (n : Nat) : (d.finc x n).hth = d.hth := rfl
@[simp] theorem Dev.finc_cph (d : Dev) (x : Fld) (n : Nat) : (d.finc x n).cph = d.cph := rfl
@[simp] theorem Dev.finc_ring (d : Dev) (x : Fld) (n : Nat) : (d.finc x n).ring = d.ring := rfl
@[simp] theorem Dev.finc_cfx (d : Dev) (x : Fld) (n : Nat) : (d.finc x n).cfx = d.cfx := rfl
@[simp] theorem Dev.finc_store (d : Dev) (x : Fld) (n : Nat) : (d.finc x n).store = d.store := rfl
@[simp] theorem Dev.finc_sbp (d : Dev) (x : Fld) (n : Nat) : (d.finc x n).sbp = d.sbp := rfl
@[simp] theorem Dev.finc_pwr (d : Dev) (x : Fld) (n : Nat) : (d.finc x n).pwr = d.pwr := rfl
@[simp] theorem Dev.finc_age (d : Dev) (x : Fld) (n : Nat) : (d.finc x n).age = d.age := rfl
@[simp] theorem Dev.finc_fwm (d : Dev) (x : Fld) (n : Nat) : (d.finc x n).fwm = d.fwm := rfl
@[simp] theorem Dev.finc_evt (d : Dev) (x : Fld) (n : Nat) : (d.finc x n).evt = d.evt := rfl
@[simp] theorem Dev.finc_pmc (d : Dev) (x : Fld) (n : Nat) : (d.finc x n).pmc = d.pmc := rfl

/-! ### `resetRegs` -/

@[simp] theorem Dev.resetRegs_clk (d : Dev) (cls : List ResetClass) : (d.resetRegs cls).clk = d.clk := rfl
@[simp] theorem Dev.resetRegs_free (d : Dev) (cls : List ResetClass) : (d.resetRegs cls).free = d.free := rfl
@[simp] theorem Dev.resetRegs_out (d : Dev) (cls : List ResetClass) : (d.resetRegs cls).out = d.out := rfl
@[simp] theorem Dev.resetRegs_latchRd (d : Dev) (cls : List ResetClass) : (d.resetRegs cls).latchRd = d.latchRd := rfl
@[simp] theorem Dev.resetRegs_latchWr (d : Dev) (cls : List ResetClass) : (d.resetRegs cls).latchWr = d.latchWr := rfl
@[simp] theorem Dev.resetRegs_core (d : Dev) (cls : List ResetClass) : (d.resetRegs cls).core = d.core := rfl
@[simp] theorem Dev.resetRegs_hpt (d : Dev) (cls : List ResetClass) : (d.resetRegs cls).hpt = d.hpt := rfl
@[simp] theorem Dev.resetRegs_rgn (d : Dev) (cls : List ResetClass) : (d.resetRegs cls).rgn = d.rgn := rfl
@[simp] theorem Dev.resetRegs_tier (d : Dev) (cls : List ResetClass) : (d.resetRegs cls).tier = d.tier := rfl
@[simp] theorem Dev.resetRegs_mem (d : Dev) (cls : List ResetClass) : (d.resetRegs cls).mem = d.mem := rfl
@[simp] theorem Dev.resetRegs_dur (d : Dev) (cls : List ResetClass) : (d.resetRegs cls).dur = d.dur := rfl
@[simp] theorem Dev.resetRegs_tim (d : Dev) (cls : List ResetClass) : (d.resetRegs cls).tim = d.tim := rfl
@[simp] theorem Dev.resetRegs_twn (d : Dev) (cls : List ResetClass) : (d.resetRegs cls).twn = d.twn := rfl
@[simp] theorem Dev.resetRegs_fab (d : Dev) (cls : List ResetClass) : (d.resetRegs cls).fab = d.fab := rfl
@[simp] theorem Dev.resetRegs_mdw (d : Dev) (cls : List ResetClass) : (d.resetRegs cls).mdw = d.mdw := rfl
@[simp] theorem Dev.resetRegs_hth (d : Dev) (cls : List ResetClass) : (d.resetRegs cls).hth = d.hth := rfl
@[simp] theorem Dev.resetRegs_cph (d : Dev) (cls : List ResetClass) : (d.resetRegs cls).cph = d.cph := rfl
@[simp] theorem Dev.resetRegs_ring (d : Dev) (cls : List ResetClass) : (d.resetRegs cls).ring = d.ring := rfl
@[simp] theorem Dev.resetRegs_cfx (d : Dev) (cls : List ResetClass) : (d.resetRegs cls).cfx = d.cfx := rfl
@[simp] theorem Dev.resetRegs_store (d : Dev) (cls : List ResetClass) : (d.resetRegs cls).store = d.store := rfl
@[simp] theorem Dev.resetRegs_sbp (d : Dev) (cls : List ResetClass) : (d.resetRegs cls).sbp = d.sbp := rfl
@[simp] theorem Dev.resetRegs_pwr (d : Dev) (cls : List ResetClass) : (d.resetRegs cls).pwr = d.pwr := rfl
@[simp] theorem Dev.resetRegs_age (d : Dev) (cls : List ResetClass) : (d.resetRegs cls).age = d.age := rfl
@[simp] theorem Dev.resetRegs_fwm (d : Dev) (cls : List ResetClass) : (d.resetRegs cls).fwm = d.fwm := rfl
@[simp] theorem Dev.resetRegs_evt (d : Dev) (cls : List ResetClass) : (d.resetRegs cls).evt = d.evt := rfl
@[simp] theorem Dev.resetRegs_pmc (d : Dev) (cls : List ResetClass) : (d.resetRegs cls).pmc = d.pmc := rfl

/-! ### `tick` -/

@[simp] theorem Dev.tick_free (d : Dev) (t : Nat) : (d.tick t).free = d.free := rfl
@[simp] theorem Dev.tick_out (d : Dev) (t : Nat) : (d.tick t).out = d.out := rfl
@[simp] theorem Dev.tick_regs (d : Dev) (t : Nat) : (d.tick t).regs = d.regs := rfl
@[simp] theorem Dev.tick_latchRd (d : Dev) (t : Nat) : (d.tick t).latchRd = d.latchRd := rfl
@[simp] theorem Dev.tick_latchWr (d : Dev) (t : Nat) : (d.tick t).latchWr = d.latchWr := rfl
@[simp] theorem Dev.tick_core (d : Dev) (t : Nat) : (d.tick t).core = d.core := rfl
@[simp] theorem Dev.tick_hpt (d : Dev) (t : Nat) : (d.tick t).hpt = d.hpt := rfl
@[simp] theorem Dev.tick_rgn (d : Dev) (t : Nat) : (d.tick t).rgn = d.rgn := rfl
@[simp] theorem Dev.tick_tier (d : Dev) (t : Nat) : (d.tick t).tier = d.tier := rfl
@[simp] theorem Dev.tick_mem (d : Dev) (t : Nat) : (d.tick t).mem = d.mem := rfl
@[simp] theorem Dev.tick_dur (d : Dev) (t : Nat) : (d.tick t).dur = d.dur := rfl
@[simp] theorem Dev.tick_tim (d : Dev) (t : Nat) : (d.tick t).tim = d.tim := rfl
@[simp] theorem Dev.tick_twn (d : Dev) (t : Nat) : (d.tick t).twn = d.twn := rfl
@[simp] theorem Dev.tick_fab (d : Dev) (t : Nat) : (d.tick t).fab = d.fab := rfl
@[simp] theorem Dev.tick_mdw (d : Dev) (t : Nat) : (d.tick t).mdw = d.mdw := rfl
@[simp] theorem Dev.tick_hth (d : Dev) (t : Nat) : (d.tick t).hth = d.hth := rfl
@[simp] theorem Dev.tick_cph (d : Dev) (t : Nat) : (d.tick t).cph = d.cph := rfl
@[simp] theorem Dev.tick_ring (d : Dev) (t : Nat) : (d.tick t).ring = d.ring := rfl
@[simp] theorem Dev.tick_cfx (d : Dev) (t : Nat) : (d.tick t).cfx = d.cfx := rfl
@[simp] theorem Dev.tick_store (d : Dev) (t : Nat) : (d.tick t).store = d.store := rfl
@[simp] theorem Dev.tick_sbp (d : Dev) (t : Nat) : (d.tick t).sbp = d.sbp := rfl
@[simp] theorem Dev.tick_pwr (d : Dev) (t : Nat) : (d.tick t).pwr = d.pwr := rfl
@[simp] theorem Dev.tick_age (d : Dev) (t : Nat) : (d.tick t).age = d.age := rfl
@[simp] theorem Dev.tick_fwm (d : Dev) (t : Nat) : (d.tick t).fwm = d.fwm := rfl
@[simp] theorem Dev.tick_evt (d : Dev) (t : Nat) : (d.tick t).evt = d.evt := rfl
@[simp] theorem Dev.tick_pmc (d : Dev) (t : Nat) : (d.tick t).pmc = d.pmc := rfl

/-! ### `send` -/

@[simp] theorem Dev.send_clk (d : Dev) (o : Out) : (d.send o).clk = d.clk := rfl
@[simp] theorem Dev.send_free (d : Dev) (o : Out) : (d.send o).free = d.free := rfl
@[simp] theorem Dev.send_regs (d : Dev) (o : Out) : (d.send o).regs = d.regs := rfl
@[simp] theorem Dev.send_latchRd (d : Dev) (o : Out) : (d.send o).latchRd = d.latchRd := rfl
@[simp] theorem Dev.send_latchWr (d : Dev) (o : Out) : (d.send o).latchWr = d.latchWr := rfl
@[simp] theorem Dev.send_core (d : Dev) (o : Out) : (d.send o).core = d.core := rfl
@[simp] theorem Dev.send_hpt (d : Dev) (o : Out) : (d.send o).hpt = d.hpt := rfl
@[simp] theorem Dev.send_rgn (d : Dev) (o : Out) : (d.send o).rgn = d.rgn := rfl
@[simp] theorem Dev.send_tier (d : Dev) (o : Out) : (d.send o).tier = d.tier := rfl
@[simp] theorem Dev.send_mem (d : Dev) (o : Out) : (d.send o).mem = d.mem := rfl
@[simp] theorem Dev.send_dur (d : Dev) (o : Out) : (d.send o).dur = d.dur := rfl
@[simp] theorem Dev.send_tim (d : Dev) (o : Out) : (d.send o).tim = d.tim := rfl
@[simp] theorem Dev.send_twn (d : Dev) (o : Out) : (d.send o).twn = d.twn := rfl
@[simp] theorem Dev.send_fab (d : Dev) (o : Out) : (d.send o).fab = d.fab := rfl
@[simp] theorem Dev.send_mdw (d : Dev) (o : Out) : (d.send o).mdw = d.mdw := rfl
@[simp] theorem Dev.send_hth (d : Dev) (o : Out) : (d.send o).hth = d.hth := rfl
@[simp] theorem Dev.send_cph (d : Dev) (o : Out) : (d.send o).cph = d.cph := rfl
@[simp] theorem Dev.send_ring (d : Dev) (o : Out) : (d.send o).ring = d.ring := rfl
@[simp] theorem Dev.send_cfx (d : Dev) (o : Out) : (d.send o).cfx = d.cfx := rfl
@[simp] theorem Dev.send_store (d : Dev) (o : Out) : (d.send o).store = d.store := rfl
@[simp] theorem Dev.send_sbp (d : Dev) (o : Out) : (d.send o).sbp = d.sbp := rfl
@[simp] theorem Dev.send_pwr (d : Dev) (o : Out) : (d.send o).pwr = d.pwr := rfl
@[simp] theorem Dev.send_age (d : Dev) (o : Out) : (d.send o).age = d.age := rfl
@[simp] theorem Dev.send_fwm (d : Dev) (o : Out) : (d.send o).fwm = d.fwm := rfl
@[simp] theorem Dev.send_evt (d : Dev) (o : Out) : (d.send o).evt = d.evt := rfl
@[simp] theorem Dev.send_pmc (d : Dev) (o : Out) : (d.send o).pmc = d.pmc := rfl

/-! ### `used` -/

@[simp] theorem Dev.used_clk (d : Dev) : (d.used).clk = d.clk := rfl
@[simp] theorem Dev.used_out (d : Dev) : (d.used).out = d.out := rfl
@[simp] theorem Dev.used_regs (d : Dev) : (d.used).regs = d.regs := rfl
@[simp] theorem Dev.used_latchRd (d : Dev) : (d.used).latchRd = d.latchRd := rfl
@[simp] theorem Dev.used_latchWr (d : Dev) : (d.used).latchWr = d.latchWr := rfl
@[simp] theorem Dev.used_core (d : Dev) : (d.used).core = d.core := rfl
@[simp] theorem Dev.used_hpt (d : Dev) : (d.used).hpt = d.hpt := rfl
@[simp] theorem Dev.used_rgn (d : Dev) : (d.used).rgn = d.rgn := rfl
@[simp] theorem Dev.used_tier (d : Dev) : (d.used).tier = d.tier := rfl
@[simp] theorem Dev.used_mem (d : Dev) : (d.used).mem = d.mem := rfl
@[simp] theorem Dev.used_dur (d : Dev) : (d.used).dur = d.dur := rfl
@[simp] theorem Dev.used_tim (d : Dev) : (d.used).tim = d.tim := rfl
@[simp] theorem Dev.used_twn (d : Dev) : (d.used).twn = d.twn := rfl
@[simp] theorem Dev.used_fab (d : Dev) : (d.used).fab = d.fab := rfl
@[simp] theorem Dev.used_mdw (d : Dev) : (d.used).mdw = d.mdw := rfl
@[simp] theorem Dev.used_hth (d : Dev) : (d.used).hth = d.hth := rfl
@[simp] theorem Dev.used_cph (d : Dev) : (d.used).cph = d.cph := rfl
@[simp] theorem Dev.used_ring (d : Dev) : (d.used).ring = d.ring := rfl
@[simp] theorem Dev.used_cfx (d : Dev) : (d.used).cfx = d.cfx := rfl
@[simp] theorem Dev.used_store (d : Dev) : (d.used).store = d.store := rfl
@[simp] theorem Dev.used_sbp (d : Dev) : (d.used).sbp = d.sbp := rfl
@[simp] theorem Dev.used_pwr (d : Dev) : (d.used).pwr = d.pwr := rfl
@[simp] theorem Dev.used_age (d : Dev) : (d.used).age = d.age := rfl
@[simp] theorem Dev.used_fwm (d : Dev) : (d.used).fwm = d.fwm := rfl
@[simp] theorem Dev.used_evt (d : Dev) : (d.used).evt = d.evt := rfl
@[simp] theorem Dev.used_pmc (d : Dev) : (d.used).pmc = d.pmc := rfl

/-! ### `writeMirror` -/

@[simp] theorem Dev.writeMirror_clk (d : Dev) : (d.writeMirror).clk = d.clk := rfl
@[simp] theorem Dev.writeMirror_free (d : Dev) : (d.writeMirror).free = d.free := rfl
@[simp] theorem Dev.writeMirror_out (d : Dev) : (d.writeMirror).out = d.out := rfl
@[simp] theorem Dev.writeMirror_regs (d : Dev) : (d.writeMirror).regs = d.regs := rfl
@[simp] theorem Dev.writeMirror_latchRd (d : Dev) : (d.writeMirror).latchRd = d.latchRd := rfl
@[simp] theorem Dev.writeMirror_latchWr (d : Dev) : (d.writeMirror).latchWr = d.latchWr := rfl
@[simp] theorem Dev.writeMirror_core (d : Dev) : (d.writeMirror).core = d.core := rfl
@[simp] theorem Dev.writeMirror_hpt (d : Dev) : (d.writeMirror).hpt = d.hpt := rfl
@[simp] theorem Dev.writeMirror_rgn (d : Dev) : (d.writeMirror).rgn = d.rgn := rfl
@[simp] theorem Dev.writeMirror_tier (d : Dev) : (d.writeMirror).tier = d.tier := rfl
@[simp] theorem Dev.writeMirror_mem (d : Dev) : (d.writeMirror).mem = d.mem := rfl
@[simp] theorem Dev.writeMirror_dur (d : Dev) : (d.writeMirror).dur = d.dur := rfl
@[simp] theorem Dev.writeMirror_tim (d : Dev) : (d.writeMirror).tim = d.tim := rfl
@[simp] theorem Dev.writeMirror_twn (d : Dev) : (d.writeMirror).twn = d.twn := rfl
@[simp] theorem Dev.writeMirror_fab (d : Dev) : (d.writeMirror).fab = d.fab := rfl
@[simp] theorem Dev.writeMirror_mdw (d : Dev) : (d.writeMirror).mdw = d.mdw := rfl
@[simp] theorem Dev.writeMirror_hth (d : Dev) : (d.writeMirror).hth = d.hth := rfl
@[simp] theorem Dev.writeMirror_cph (d : Dev) : (d.writeMirror).cph = d.cph := rfl
@[simp] theorem Dev.writeMirror_ring (d : Dev) : (d.writeMirror).ring = d.ring := rfl
@[simp] theorem Dev.writeMirror_cfx (d : Dev) : (d.writeMirror).cfx = d.cfx := rfl
@[simp] theorem Dev.writeMirror_store (d : Dev) : (d.writeMirror).store = d.store := rfl
@[simp] theorem Dev.writeMirror_sbp (d : Dev) : (d.writeMirror).sbp = d.sbp := rfl
@[simp] theorem Dev.writeMirror_pwr (d : Dev) : (d.writeMirror).pwr = d.pwr := rfl
@[simp] theorem Dev.writeMirror_age (d : Dev) : (d.writeMirror).age = d.age := rfl
@[simp] theorem Dev.writeMirror_fwm (d : Dev) : (d.writeMirror).fwm = d.fwm := rfl
@[simp] theorem Dev.writeMirror_pmc (d : Dev) : (d.writeMirror).pmc = d.pmc := rfl

/-! ### `setRegion` -/

@[simp] theorem Dev.setRegion_clk (d : Dev) (rid : Nat) (r : Region) : (d.setRegion rid r).clk = d.clk := rfl
@[simp] theorem Dev.setRegion_free (d : Dev) (rid : Nat) (r : Region) : (d.setRegion rid r).free = d.free := rfl
@[simp] theorem Dev.setRegion_out (d : Dev) (rid : Nat) (r : Region) : (d.setRegion rid r).out = d.out := rfl
@[simp] theorem Dev.setRegion_regs (d : Dev) (rid : Nat) (r : Region) : (d.setRegion rid r).regs = d.regs := rfl
@[simp] theorem Dev.setRegion_latchRd (d : Dev) (rid : Nat) (r : Region) : (d.setRegion rid r).latchRd = d.latchRd := rfl
@[simp] theorem Dev.setRegion_latchWr (d : Dev) (rid : Nat) (r : Region) : (d.setRegion rid r).latchWr = d.latchWr := rfl
@[simp] theorem Dev.setRegion_core (d : Dev) (rid : Nat) (r : Region) : (d.setRegion rid r).core = d.core := rfl
@[simp] theorem Dev.setRegion_hpt (d : Dev) (rid : Nat) (r : Region) : (d.setRegion rid r).hpt = d.hpt := rfl
@[simp] theorem Dev.setRegion_tier (d : Dev) (rid : Nat) (r : Region) : (d.setRegion rid r).tier = d.tier := rfl
@[simp] theorem Dev.setRegion_mem (d : Dev) (rid : Nat) (r : Region) : (d.setRegion rid r).mem = d.mem := rfl
@[simp] theorem Dev.setRegion_tim (d : Dev) (rid : Nat) (r : Region) : (d.setRegion rid r).tim = d.tim := rfl
@[simp] theorem Dev.setRegion_twn (d : Dev) (rid : Nat) (r : Region) : (d.setRegion rid r).twn = d.twn := rfl
@[simp] theorem Dev.setRegion_fab (d : Dev) (rid : Nat) (r : Region) : (d.setRegion rid r).fab = d.fab := rfl
@[simp] theorem Dev.setRegion_mdw (d : Dev) (rid : Nat) (r : Region) : (d.setRegion rid r).mdw = d.mdw := rfl
@[simp] theorem Dev.setRegion_hth (d : Dev) (rid : Nat) (r : Region) : (d.setRegion rid r).hth = d.hth := rfl
@[simp] theorem Dev.setRegion_cph (d : Dev) (rid : Nat) (r : Region) : (d.setRegion rid r).cph = d.cph := rfl
@[simp] theorem Dev.setRegion_ring (d : Dev) (rid : Nat) (r : Region) : (d.setRegion rid r).ring = d.ring := rfl
@[simp] theorem Dev.setRegion_cfx (d : Dev) (rid : Nat) (r : Region) : (d.setRegion rid r).cfx = d.cfx := rfl
@[simp] theorem Dev.setRegion_store (d : Dev) (rid : Nat) (r : Region) : (d.setRegion rid r).store = d.store := rfl
@[simp] theorem Dev.setRegion_sbp (d : Dev) (rid : Nat) (r : Region) : (d.setRegion rid r).sbp = d.sbp := rfl
@[simp] theorem Dev.setRegion_pwr (d : Dev) (rid : Nat) (r : Region) : (d.setRegion rid r).pwr = d.pwr := rfl
@[simp] theorem Dev.setRegion_age (d : Dev) (rid : Nat) (r : Region) : (d.setRegion rid r).age = d.age := rfl
@[simp] theorem Dev.setRegion_fwm (d : Dev) (rid : Nat) (r : Region) : (d.setRegion rid r).fwm = d.fwm := rfl
@[simp] theorem Dev.setRegion_evt (d : Dev) (rid : Nat) (r : Region) : (d.setRegion rid r).evt = d.evt := rfl
@[simp] theorem Dev.setRegion_pmc (d : Dev) (rid : Nat) (r : Region) : (d.setRegion rid r).pmc = d.pmc := rfl

/-! ### `setChan` -/

@[simp] theorem Dev.setChan_clk (d : Dev) (n : Nat) (f : Chan → Chan) : (d.setChan n f).clk = d.clk := rfl
@[simp] theorem Dev.setChan_free (d : Dev) (n : Nat) (f : Chan → Chan) : (d.setChan n f).free = d.free := rfl
@[simp] theorem Dev.setChan_out (d : Dev) (n : Nat) (f : Chan → Chan) : (d.setChan n f).out = d.out := rfl
@[simp] theorem Dev.setChan_regs (d : Dev) (n : Nat) (f : Chan → Chan) : (d.setChan n f).regs = d.regs := rfl
@[simp] theorem Dev.setChan_latchRd (d : Dev) (n : Nat) (f : Chan → Chan) : (d.setChan n f).latchRd = d.latchRd := rfl
@[simp] theorem Dev.setChan_latchWr (d : Dev) (n : Nat) (f : Chan → Chan) : (d.setChan n f).latchWr = d.latchWr := rfl
@[simp] theorem Dev.setChan_core (d : Dev) (n : Nat) (f : Chan → Chan) : (d.setChan n f).core = d.core := rfl
@[simp] theorem Dev.setChan_hpt (d : Dev) (n : Nat) (f : Chan → Chan) : (d.setChan n f).hpt = d.hpt := rfl
@[simp] theorem Dev.setChan_rgn (d : Dev) (n : Nat) (f : Chan → Chan) : (d.setChan n f).rgn = d.rgn := rfl
@[simp] theorem Dev.setChan_tier (d : Dev) (n : Nat) (f : Chan → Chan) : (d.setChan n f).tier = d.tier := rfl
@[simp] theorem Dev.setChan_mem (d : Dev) (n : Nat) (f : Chan → Chan) : (d.setChan n f).mem = d.mem := rfl
@[simp] theorem Dev.setChan_dur (d : Dev) (n : Nat) (f : Chan → Chan) : (d.setChan n f).dur = d.dur := rfl
@[simp] theorem Dev.setChan_tim (d : Dev) (n : Nat) (f : Chan → Chan) : (d.setChan n f).tim = d.tim := rfl
@[simp] theorem Dev.setChan_twn (d : Dev) (n : Nat) (f : Chan → Chan) : (d.setChan n f).twn = d.twn := rfl
@[simp] theorem Dev.setChan_fab (d : Dev) (n : Nat) (f : Chan → Chan) : (d.setChan n f).fab = d.fab := rfl
@[simp] theorem Dev.setChan_hth (d : Dev) (n : Nat) (f : Chan → Chan) : (d.setChan n f).hth = d.hth := rfl
@[simp] theorem Dev.setChan_cph (d : Dev) (n : Nat) (f : Chan → Chan) : (d.setChan n f).cph = d.cph := rfl
@[simp] theorem Dev.setChan_ring (d : Dev) (n : Nat) (f : Chan → Chan) : (d.setChan n f).ring = d.ring := rfl
@[simp] theorem Dev.setChan_cfx (d : Dev) (n : Nat) (f : Chan → Chan) : (d.setChan n f).cfx = d.cfx := rfl
@[simp] theorem Dev.setChan_store (d : Dev) (n : Nat) (f : Chan → Chan) : (d.setChan n f).store = d.store := rfl
@[simp] theorem Dev.setChan_sbp (d : Dev) (n : Nat) (f : Chan → Chan) : (d.setChan n f).sbp = d.sbp := rfl
@[simp] theorem Dev.setChan_pwr (d : Dev) (n : Nat) (f : Chan → Chan) : (d.setChan n f).pwr = d.pwr := rfl
@[simp] theorem Dev.setChan_age (d : Dev) (n : Nat) (f : Chan → Chan) : (d.setChan n f).age = d.age := rfl
@[simp] theorem Dev.setChan_fwm (d : Dev) (n : Nat) (f : Chan → Chan) : (d.setChan n f).fwm = d.fwm := rfl
@[simp] theorem Dev.setChan_evt (d : Dev) (n : Nat) (f : Chan → Chan) : (d.setChan n f).evt = d.evt := rfl
@[simp] theorem Dev.setChan_pmc (d : Dev) (n : Nat) (f : Chan → Chan) : (d.setChan n f).pmc = d.pmc := rfl

/-! ### `dirtyPage` -/

@[simp] theorem Dev.dirtyPage_clk (d : Dev) (page : Nat) (epoch : Nat) : (d.dirtyPage page epoch).clk = d.clk := rfl
@[simp] theorem Dev.dirtyPage_free (d : Dev) (page : Nat) (epoch : Nat) : (d.dirtyPage page epoch).free = d.free := rfl
@[simp] theorem Dev.dirtyPage_out (d : Dev) (page : Nat) (epoch : Nat) : (d.dirtyPage page epoch).out = d.out := rfl
@[simp] theorem Dev.dirtyPage_regs (d : Dev) (page : Nat) (epoch : Nat) : (d.dirtyPage page epoch).regs = d.regs := rfl
@[simp] theorem Dev.dirtyPage_latchRd (d : Dev) (page : Nat) (epoch : Nat) : (d.dirtyPage page epoch).latchRd = d.latchRd := rfl
@[simp] theorem Dev.dirtyPage_latchWr (d : Dev) (page : Nat) (epoch : Nat) : (d.dirtyPage page epoch).latchWr = d.latchWr := rfl
@[simp] theorem Dev.dirtyPage_core (d : Dev) (page : Nat) (epoch : Nat) : (d.dirtyPage page epoch).core = d.core := rfl
@[simp] theorem Dev.dirtyPage_hpt (d : Dev) (page : Nat) (epoch : Nat) : (d.dirtyPage page epoch).hpt = d.hpt := rfl
@[simp] theorem Dev.dirtyPage_rgn (d : Dev) (page : Nat) (epoch : Nat) : (d.dirtyPage page epoch).rgn = d.rgn := rfl
@[simp] theorem Dev.dirtyPage_tier (d : Dev) (page : Nat) (epoch : Nat) : (d.dirtyPage page epoch).tier = d.tier := rfl
@[simp] theorem Dev.dirtyPage_mem (d : Dev) (page : Nat) (epoch : Nat) : (d.dirtyPage page epoch).mem = d.mem := rfl
@[simp] theorem Dev.dirtyPage_tim (d : Dev) (page : Nat) (epoch : Nat) : (d.dirtyPage page epoch).tim = d.tim := rfl
@[simp] theorem Dev.dirtyPage_twn (d : Dev) (page : Nat) (epoch : Nat) : (d.dirtyPage page epoch).twn = d.twn := rfl
@[simp] theorem Dev.dirtyPage_fab (d : Dev) (page : Nat) (epoch : Nat) : (d.dirtyPage page epoch).fab = d.fab := rfl
@[simp] theorem Dev.dirtyPage_mdw (d : Dev) (page : Nat) (epoch : Nat) : (d.dirtyPage page epoch).mdw = d.mdw := rfl
@[simp] theorem Dev.dirtyPage_hth (d : Dev) (page : Nat) (epoch : Nat) : (d.dirtyPage page epoch).hth = d.hth := rfl
@[simp] theorem Dev.dirtyPage_cph (d : Dev) (page : Nat) (epoch : Nat) : (d.dirtyPage page epoch).cph = d.cph := rfl
@[simp] theorem Dev.dirtyPage_ring (d : Dev) (page : Nat) (epoch : Nat) : (d.dirtyPage page epoch).ring = d.ring := rfl
@[simp] theorem Dev.dirtyPage_cfx (d : Dev) (page : Nat) (epoch : Nat) : (d.dirtyPage page epoch).cfx = d.cfx := rfl
@[simp] theorem Dev.dirtyPage_store (d : Dev) (page : Nat) (epoch : Nat) : (d.dirtyPage page epoch).store = d.store := rfl
@[simp] theorem Dev.dirtyPage_sbp (d : Dev) (page : Nat) (epoch : Nat) : (d.dirtyPage page epoch).sbp = d.sbp := rfl
@[simp] theorem Dev.dirtyPage_pwr (d : Dev) (page : Nat) (epoch : Nat) : (d.dirtyPage page epoch).pwr = d.pwr := rfl
@[simp] theorem Dev.dirtyPage_age (d : Dev) (page : Nat) (epoch : Nat) : (d.dirtyPage page epoch).age = d.age := rfl
@[simp] theorem Dev.dirtyPage_fwm (d : Dev) (page : Nat) (epoch : Nat) : (d.dirtyPage page epoch).fwm = d.fwm := rfl
@[simp] theorem Dev.dirtyPage_evt (d : Dev) (page : Nat) (epoch : Nat) : (d.dirtyPage page epoch).evt = d.evt := rfl
@[simp] theorem Dev.dirtyPage_pmc (d : Dev) (page : Nat) (epoch : Nat) : (d.dirtyPage page epoch).pmc = d.pmc := rfl

/-! ### `broadcast` -/

@[simp] theorem Dev.broadcast_clk (d : Dev) (idx : Nat) : (d.broadcast idx).clk = d.clk := rfl
@[simp] theorem Dev.broadcast_free (d : Dev) (idx : Nat) : (d.broadcast idx).free = d.free := rfl
@[simp] theorem Dev.broadcast_out (d : Dev) (idx : Nat) : (d.broadcast idx).out = d.out := rfl
@[simp] theorem Dev.broadcast_regs (d : Dev) (idx : Nat) : (d.broadcast idx).regs = d.regs := rfl
@[simp] theorem Dev.broadcast_latchRd (d : Dev) (idx : Nat) : (d.broadcast idx).latchRd = d.latchRd := rfl
@[simp] theorem Dev.broadcast_latchWr (d : Dev) (idx : Nat) : (d.broadcast idx).latchWr = d.latchWr := rfl
@[simp] theorem Dev.broadcast_core (d : Dev) (idx : Nat) : (d.broadcast idx).core = d.core := rfl
@[simp] theorem Dev.broadcast_hpt (d : Dev) (idx : Nat) : (d.broadcast idx).hpt = d.hpt := rfl
@[simp] theorem Dev.broadcast_rgn (d : Dev) (idx : Nat) : (d.broadcast idx).rgn = d.rgn := rfl
@[simp] theorem Dev.broadcast_mem (d : Dev) (idx : Nat) : (d.broadcast idx).mem = d.mem := rfl
@[simp] theorem Dev.broadcast_dur (d : Dev) (idx : Nat) : (d.broadcast idx).dur = d.dur := rfl
@[simp] theorem Dev.broadcast_tim (d : Dev) (idx : Nat) : (d.broadcast idx).tim = d.tim := rfl
@[simp] theorem Dev.broadcast_twn (d : Dev) (idx : Nat) : (d.broadcast idx).twn = d.twn := rfl
@[simp] theorem Dev.broadcast_fab (d : Dev) (idx : Nat) : (d.broadcast idx).fab = d.fab := rfl
@[simp] theorem Dev.broadcast_mdw (d : Dev) (idx : Nat) : (d.broadcast idx).mdw = d.mdw := rfl
@[simp] theorem Dev.broadcast_hth (d : Dev) (idx : Nat) : (d.broadcast idx).hth = d.hth := rfl
@[simp] theorem Dev.broadcast_cph (d : Dev) (idx : Nat) : (d.broadcast idx).cph = d.cph := rfl
@[simp] theorem Dev.broadcast_ring (d : Dev) (idx : Nat) : (d.broadcast idx).ring = d.ring := rfl
@[simp] theorem Dev.broadcast_cfx (d : Dev) (idx : Nat) : (d.broadcast idx).cfx = d.cfx := rfl
@[simp] theorem Dev.broadcast_store (d : Dev) (idx : Nat) : (d.broadcast idx).store = d.store := rfl
@[simp] theorem Dev.broadcast_sbp (d : Dev) (idx : Nat) : (d.broadcast idx).sbp = d.sbp := rfl
@[simp] theorem Dev.broadcast_pwr (d : Dev) (idx : Nat) : (d.broadcast idx).pwr = d.pwr := rfl
@[simp] theorem Dev.broadcast_age (d : Dev) (idx : Nat) : (d.broadcast idx).age = d.age := rfl
@[simp] theorem Dev.broadcast_fwm (d : Dev) (idx : Nat) : (d.broadcast idx).fwm = d.fwm := rfl
@[simp] theorem Dev.broadcast_evt (d : Dev) (idx : Nat) : (d.broadcast idx).evt = d.evt := rfl
@[simp] theorem Dev.broadcast_pmc (d : Dev) (idx : Nat) : (d.broadcast idx).pmc = d.pmc := rfl

/-! ### `wickTouch` -/

@[simp] theorem Dev.wickTouch_clk (d : Dev) (l : Nat) (e : Nat) : (d.wickTouch l e).clk = d.clk := rfl
@[simp] theorem Dev.wickTouch_free (d : Dev) (l : Nat) (e : Nat) : (d.wickTouch l e).free = d.free := rfl
@[simp] theorem Dev.wickTouch_out (d : Dev) (l : Nat) (e : Nat) : (d.wickTouch l e).out = d.out := rfl
@[simp] theorem Dev.wickTouch_regs (d : Dev) (l : Nat) (e : Nat) : (d.wickTouch l e).regs = d.regs := rfl
@[simp] theorem Dev.wickTouch_latchRd (d : Dev) (l : Nat) (e : Nat) : (d.wickTouch l e).latchRd = d.latchRd := rfl
@[simp] theorem Dev.wickTouch_latchWr (d : Dev) (l : Nat) (e : Nat) : (d.wickTouch l e).latchWr = d.latchWr := rfl
@[simp] theorem Dev.wickTouch_core (d : Dev) (l : Nat) (e : Nat) : (d.wickTouch l e).core = d.core := rfl
@[simp] theorem Dev.wickTouch_hpt (d : Dev) (l : Nat) (e : Nat) : (d.wickTouch l e).hpt = d.hpt := rfl
@[simp] theorem Dev.wickTouch_rgn (d : Dev) (l : Nat) (e : Nat) : (d.wickTouch l e).rgn = d.rgn := rfl
@[simp] theorem Dev.wickTouch_mem (d : Dev) (l : Nat) (e : Nat) : (d.wickTouch l e).mem = d.mem := rfl
@[simp] theorem Dev.wickTouch_dur (d : Dev) (l : Nat) (e : Nat) : (d.wickTouch l e).dur = d.dur := rfl
@[simp] theorem Dev.wickTouch_tim (d : Dev) (l : Nat) (e : Nat) : (d.wickTouch l e).tim = d.tim := rfl
@[simp] theorem Dev.wickTouch_twn (d : Dev) (l : Nat) (e : Nat) : (d.wickTouch l e).twn = d.twn := rfl
@[simp] theorem Dev.wickTouch_fab (d : Dev) (l : Nat) (e : Nat) : (d.wickTouch l e).fab = d.fab := rfl
@[simp] theorem Dev.wickTouch_mdw (d : Dev) (l : Nat) (e : Nat) : (d.wickTouch l e).mdw = d.mdw := rfl
@[simp] theorem Dev.wickTouch_hth (d : Dev) (l : Nat) (e : Nat) : (d.wickTouch l e).hth = d.hth := rfl
@[simp] theorem Dev.wickTouch_cph (d : Dev) (l : Nat) (e : Nat) : (d.wickTouch l e).cph = d.cph := rfl
@[simp] theorem Dev.wickTouch_ring (d : Dev) (l : Nat) (e : Nat) : (d.wickTouch l e).ring = d.ring := rfl
@[simp] theorem Dev.wickTouch_cfx (d : Dev) (l : Nat) (e : Nat) : (d.wickTouch l e).cfx = d.cfx := rfl
@[simp] theorem Dev.wickTouch_store (d : Dev) (l : Nat) (e : Nat) : (d.wickTouch l e).store = d.store := rfl
@[simp] theorem Dev.wickTouch_sbp (d : Dev) (l : Nat) (e : Nat) : (d.wickTouch l e).sbp = d.sbp := rfl
@[simp] theorem Dev.wickTouch_pwr (d : Dev) (l : Nat) (e : Nat) : (d.wickTouch l e).pwr = d.pwr := rfl
@[simp] theorem Dev.wickTouch_age (d : Dev) (l : Nat) (e : Nat) : (d.wickTouch l e).age = d.age := rfl
@[simp] theorem Dev.wickTouch_fwm (d : Dev) (l : Nat) (e : Nat) : (d.wickTouch l e).fwm = d.fwm := rfl
@[simp] theorem Dev.wickTouch_evt (d : Dev) (l : Nat) (e : Nat) : (d.wickTouch l e).evt = d.evt := rfl
@[simp] theorem Dev.wickTouch_pmc (d : Dev) (l : Nat) (e : Nat) : (d.wickTouch l e).pmc = d.pmc := rfl

/-! ### `clearPlot` -/

@[simp] theorem Dev.clearPlot_clk (d : Dev) (loc : Nat) : (d.clearPlot loc).clk = d.clk := rfl
@[simp] theorem Dev.clearPlot_free (d : Dev) (loc : Nat) : (d.clearPlot loc).free = d.free := rfl
@[simp] theorem Dev.clearPlot_out (d : Dev) (loc : Nat) : (d.clearPlot loc).out = d.out := rfl
@[simp] theorem Dev.clearPlot_regs (d : Dev) (loc : Nat) : (d.clearPlot loc).regs = d.regs := rfl
@[simp] theorem Dev.clearPlot_latchRd (d : Dev) (loc : Nat) : (d.clearPlot loc).latchRd = d.latchRd := rfl
@[simp] theorem Dev.clearPlot_latchWr (d : Dev) (loc : Nat) : (d.clearPlot loc).latchWr = d.latchWr := rfl
@[simp] theorem Dev.clearPlot_core (d : Dev) (loc : Nat) : (d.clearPlot loc).core = d.core := rfl
@[simp] theorem Dev.clearPlot_hpt (d : Dev) (loc : Nat) : (d.clearPlot loc).hpt = d.hpt := rfl
@[simp] theorem Dev.clearPlot_rgn (d : Dev) (loc : Nat) : (d.clearPlot loc).rgn = d.rgn := rfl
@[simp] theorem Dev.clearPlot_tier (d : Dev) (loc : Nat) : (d.clearPlot loc).tier = d.tier := rfl
@[simp] theorem Dev.clearPlot_dur (d : Dev) (loc : Nat) : (d.clearPlot loc).dur = d.dur := rfl
@[simp] theorem Dev.clearPlot_tim (d : Dev) (loc : Nat) : (d.clearPlot loc).tim = d.tim := rfl
@[simp] theorem Dev.clearPlot_twn (d : Dev) (loc : Nat) : (d.clearPlot loc).twn = d.twn := rfl
@[simp] theorem Dev.clearPlot_fab (d : Dev) (loc : Nat) : (d.clearPlot loc).fab = d.fab := rfl
@[simp] theorem Dev.clearPlot_mdw (d : Dev) (loc : Nat) : (d.clearPlot loc).mdw = d.mdw := rfl
@[simp] theorem Dev.clearPlot_hth (d : Dev) (loc : Nat) : (d.clearPlot loc).hth = d.hth := rfl
@[simp] theorem Dev.clearPlot_cph (d : Dev) (loc : Nat) : (d.clearPlot loc).cph = d.cph := rfl
@[simp] theorem Dev.clearPlot_ring (d : Dev) (loc : Nat) : (d.clearPlot loc).ring = d.ring := rfl
@[simp] theorem Dev.clearPlot_cfx (d : Dev) (loc : Nat) : (d.clearPlot loc).cfx = d.cfx := rfl
@[simp] theorem Dev.clearPlot_store (d : Dev) (loc : Nat) : (d.clearPlot loc).store = d.store := rfl
@[simp] theorem Dev.clearPlot_sbp (d : Dev) (loc : Nat) : (d.clearPlot loc).sbp = d.sbp := rfl
@[simp] theorem Dev.clearPlot_pwr (d : Dev) (loc : Nat) : (d.clearPlot loc).pwr = d.pwr := rfl
@[simp] theorem Dev.clearPlot_age (d : Dev) (loc : Nat) : (d.clearPlot loc).age = d.age := rfl
@[simp] theorem Dev.clearPlot_fwm (d : Dev) (loc : Nat) : (d.clearPlot loc).fwm = d.fwm := rfl
@[simp] theorem Dev.clearPlot_evt (d : Dev) (loc : Nat) : (d.clearPlot loc).evt = d.evt := rfl
@[simp] theorem Dev.clearPlot_pmc (d : Dev) (loc : Nat) : (d.clearPlot loc).pmc = d.pmc := rfl

/-! ### `candleDrop` -/

@[simp] theorem Dev.candleDrop_clk (d : Dev) (p : Nat → Bool) : (d.candleDrop p).clk = d.clk := rfl
@[simp] theorem Dev.candleDrop_free (d : Dev) (p : Nat → Bool) : (d.candleDrop p).free = d.free := rfl
@[simp] theorem Dev.candleDrop_out (d : Dev) (p : Nat → Bool) : (d.candleDrop p).out = d.out := rfl
@[simp] theorem Dev.candleDrop_regs (d : Dev) (p : Nat → Bool) : (d.candleDrop p).regs = d.regs := rfl
@[simp] theorem Dev.candleDrop_latchRd (d : Dev) (p : Nat → Bool) : (d.candleDrop p).latchRd = d.latchRd := rfl
@[simp] theorem Dev.candleDrop_latchWr (d : Dev) (p : Nat → Bool) : (d.candleDrop p).latchWr = d.latchWr := rfl
@[simp] theorem Dev.candleDrop_core (d : Dev) (p : Nat → Bool) : (d.candleDrop p).core = d.core := rfl
@[simp] theorem Dev.candleDrop_hpt (d : Dev) (p : Nat → Bool) : (d.candleDrop p).hpt = d.hpt := rfl
@[simp] theorem Dev.candleDrop_rgn (d : Dev) (p : Nat → Bool) : (d.candleDrop p).rgn = d.rgn := rfl
@[simp] theorem Dev.candleDrop_mem (d : Dev) (p : Nat → Bool) : (d.candleDrop p).mem = d.mem := rfl
@[simp] theorem Dev.candleDrop_dur (d : Dev) (p : Nat → Bool) : (d.candleDrop p).dur = d.dur := rfl
@[simp] theorem Dev.candleDrop_tim (d : Dev) (p : Nat → Bool) : (d.candleDrop p).tim = d.tim := rfl
@[simp] theorem Dev.candleDrop_twn (d : Dev) (p : Nat → Bool) : (d.candleDrop p).twn = d.twn := rfl
@[simp] theorem Dev.candleDrop_fab (d : Dev) (p : Nat → Bool) : (d.candleDrop p).fab = d.fab := rfl
@[simp] theorem Dev.candleDrop_mdw (d : Dev) (p : Nat → Bool) : (d.candleDrop p).mdw = d.mdw := rfl
@[simp] theorem Dev.candleDrop_hth (d : Dev) (p : Nat → Bool) : (d.candleDrop p).hth = d.hth := rfl
@[simp] theorem Dev.candleDrop_cph (d : Dev) (p : Nat → Bool) : (d.candleDrop p).cph = d.cph := rfl
@[simp] theorem Dev.candleDrop_ring (d : Dev) (p : Nat → Bool) : (d.candleDrop p).ring = d.ring := rfl
@[simp] theorem Dev.candleDrop_cfx (d : Dev) (p : Nat → Bool) : (d.candleDrop p).cfx = d.cfx := rfl
@[simp] theorem Dev.candleDrop_store (d : Dev) (p : Nat → Bool) : (d.candleDrop p).store = d.store := rfl
@[simp] theorem Dev.candleDrop_sbp (d : Dev) (p : Nat → Bool) : (d.candleDrop p).sbp = d.sbp := rfl
@[simp] theorem Dev.candleDrop_pwr (d : Dev) (p : Nat → Bool) : (d.candleDrop p).pwr = d.pwr := rfl
@[simp] theorem Dev.candleDrop_age (d : Dev) (p : Nat → Bool) : (d.candleDrop p).age = d.age := rfl
@[simp] theorem Dev.candleDrop_fwm (d : Dev) (p : Nat → Bool) : (d.candleDrop p).fwm = d.fwm := rfl
@[simp] theorem Dev.candleDrop_evt (d : Dev) (p : Nat → Bool) : (d.candleDrop p).evt = d.evt := rfl
@[simp] theorem Dev.candleDrop_pmc (d : Dev) (p : Nat → Bool) : (d.candleDrop p).pmc = d.pmc := rfl

/-! ### `setMig` -/

@[simp] theorem Dev.setMig_clk (d : Dev) (idx : Nat) (f : Migration → Migration) : (d.setMig idx f).clk = d.clk := rfl
@[simp] theorem Dev.setMig_free (d : Dev) (idx : Nat) (f : Migration → Migration) : (d.setMig idx f).free = d.free := rfl
@[simp] theorem Dev.setMig_out (d : Dev) (idx : Nat) (f : Migration → Migration) : (d.setMig idx f).out = d.out := rfl
@[simp] theorem Dev.setMig_regs (d : Dev) (idx : Nat) (f : Migration → Migration) : (d.setMig idx f).regs = d.regs := rfl
@[simp] theorem Dev.setMig_latchRd (d : Dev) (idx : Nat) (f : Migration → Migration) : (d.setMig idx f).latchRd = d.latchRd := rfl
@[simp] theorem Dev.setMig_latchWr (d : Dev) (idx : Nat) (f : Migration → Migration) : (d.setMig idx f).latchWr = d.latchWr := rfl
@[simp] theorem Dev.setMig_core (d : Dev) (idx : Nat) (f : Migration → Migration) : (d.setMig idx f).core = d.core := rfl
@[simp] theorem Dev.setMig_hpt (d : Dev) (idx : Nat) (f : Migration → Migration) : (d.setMig idx f).hpt = d.hpt := rfl
@[simp] theorem Dev.setMig_rgn (d : Dev) (idx : Nat) (f : Migration → Migration) : (d.setMig idx f).rgn = d.rgn := rfl
@[simp] theorem Dev.setMig_mem (d : Dev) (idx : Nat) (f : Migration → Migration) : (d.setMig idx f).mem = d.mem := rfl
@[simp] theorem Dev.setMig_dur (d : Dev) (idx : Nat) (f : Migration → Migration) : (d.setMig idx f).dur = d.dur := rfl
@[simp] theorem Dev.setMig_tim (d : Dev) (idx : Nat) (f : Migration → Migration) : (d.setMig idx f).tim = d.tim := rfl
@[simp] theorem Dev.setMig_twn (d : Dev) (idx : Nat) (f : Migration → Migration) : (d.setMig idx f).twn = d.twn := rfl
@[simp] theorem Dev.setMig_fab (d : Dev) (idx : Nat) (f : Migration → Migration) : (d.setMig idx f).fab = d.fab := rfl
@[simp] theorem Dev.setMig_mdw (d : Dev) (idx : Nat) (f : Migration → Migration) : (d.setMig idx f).mdw = d.mdw := rfl
@[simp] theorem Dev.setMig_hth (d : Dev) (idx : Nat) (f : Migration → Migration) : (d.setMig idx f).hth = d.hth := rfl
@[simp] theorem Dev.setMig_cph (d : Dev) (idx : Nat) (f : Migration → Migration) : (d.setMig idx f).cph = d.cph := rfl
@[simp] theorem Dev.setMig_ring (d : Dev) (idx : Nat) (f : Migration → Migration) : (d.setMig idx f).ring = d.ring := rfl
@[simp] theorem Dev.setMig_cfx (d : Dev) (idx : Nat) (f : Migration → Migration) : (d.setMig idx f).cfx = d.cfx := rfl
@[simp] theorem Dev.setMig_store (d : Dev) (idx : Nat) (f : Migration → Migration) : (d.setMig idx f).store = d.store := rfl
@[simp] theorem Dev.setMig_sbp (d : Dev) (idx : Nat) (f : Migration → Migration) : (d.setMig idx f).sbp = d.sbp := rfl
@[simp] theorem Dev.setMig_pwr (d : Dev) (idx : Nat) (f : Migration → Migration) : (d.setMig idx f).pwr = d.pwr := rfl
@[simp] theorem Dev.setMig_age (d : Dev) (idx : Nat) (f : Migration → Migration) : (d.setMig idx f).age = d.age := rfl
@[simp] theorem Dev.setMig_fwm (d : Dev) (idx : Nat) (f : Migration → Migration) : (d.setMig idx f).fwm = d.fwm := rfl
@[simp] theorem Dev.setMig_evt (d : Dev) (idx : Nat) (f : Migration → Migration) : (d.setMig idx f).evt = d.evt := rfl
@[simp] theorem Dev.setMig_pmc (d : Dev) (idx : Nat) (f : Migration → Migration) : (d.setMig idx f).pmc = d.pmc := rfl

/-! ### `dropMig` -/

@[simp] theorem Dev.dropMig_clk (d : Dev) (idx : Nat) : (d.dropMig idx).clk = d.clk := rfl
@[simp] theorem Dev.dropMig_free (d : Dev) (idx : Nat) : (d.dropMig idx).free = d.free := rfl
@[simp] theorem Dev.dropMig_out (d : Dev) (idx : Nat) : (d.dropMig idx).out = d.out := rfl
@[simp] theorem Dev.dropMig_regs (d : Dev) (idx : Nat) : (d.dropMig idx).regs = d.regs := rfl
@[simp] theorem Dev.dropMig_latchRd (d : Dev) (idx : Nat) : (d.dropMig idx).latchRd = d.latchRd := rfl
@[simp] theorem Dev.dropMig_latchWr (d : Dev) (idx : Nat) : (d.dropMig idx).latchWr = d.latchWr := rfl
@[simp] theorem Dev.dropMig_core (d : Dev) (idx : Nat) : (d.dropMig idx).core = d.core := rfl
@[simp] theorem Dev.dropMig_hpt (d : Dev) (idx : Nat) : (d.dropMig idx).hpt = d.hpt := rfl
@[simp] theorem Dev.dropMig_rgn (d : Dev) (idx : Nat) : (d.dropMig idx).rgn = d.rgn := rfl
@[simp] theorem Dev.dropMig_mem (d : Dev) (idx : Nat) : (d.dropMig idx).mem = d.mem := rfl
@[simp] theorem Dev.dropMig_dur (d : Dev) (idx : Nat) : (d.dropMig idx).dur = d.dur := rfl
@[simp] theorem Dev.dropMig_tim (d : Dev) (idx : Nat) : (d.dropMig idx).tim = d.tim := rfl
@[simp] theorem Dev.dropMig_twn (d : Dev) (idx : Nat) : (d.dropMig idx).twn = d.twn := rfl
@[simp] theorem Dev.dropMig_fab (d : Dev) (idx : Nat) : (d.dropMig idx).fab = d.fab := rfl
@[simp] theorem Dev.dropMig_mdw (d : Dev) (idx : Nat) : (d.dropMig idx).mdw = d.mdw := rfl
@[simp] theorem Dev.dropMig_hth (d : Dev) (idx : Nat) : (d.dropMig idx).hth = d.hth := rfl
@[simp] theorem Dev.dropMig_cph (d : Dev) (idx : Nat) : (d.dropMig idx).cph = d.cph := rfl
@[simp] theorem Dev.dropMig_ring (d : Dev) (idx : Nat) : (d.dropMig idx).ring = d.ring := rfl
@[simp] theorem Dev.dropMig_cfx (d : Dev) (idx : Nat) : (d.dropMig idx).cfx = d.cfx := rfl
@[simp] theorem Dev.dropMig_store (d : Dev) (idx : Nat) : (d.dropMig idx).store = d.store := rfl
@[simp] theorem Dev.dropMig_sbp (d : Dev) (idx : Nat) : (d.dropMig idx).sbp = d.sbp := rfl
@[simp] theorem Dev.dropMig_pwr (d : Dev) (idx : Nat) : (d.dropMig idx).pwr = d.pwr := rfl
@[simp] theorem Dev.dropMig_age (d : Dev) (idx : Nat) : (d.dropMig idx).age = d.age := rfl
@[simp] theorem Dev.dropMig_fwm (d : Dev) (idx : Nat) : (d.dropMig idx).fwm = d.fwm := rfl
@[simp] theorem Dev.dropMig_evt (d : Dev) (idx : Nat) : (d.dropMig idx).evt = d.evt := rfl
@[simp] theorem Dev.dropMig_pmc (d : Dev) (idx : Nat) : (d.dropMig idx).pmc = d.pmc := rfl

/-! ### `takeAdmission` -/

@[simp] theorem Dev.takeAdmission_clk (d : Dev) (pages : Nat) : (d.takeAdmission pages).clk = d.clk := rfl
@[simp] theorem Dev.takeAdmission_free (d : Dev) (pages : Nat) : (d.takeAdmission pages).free = d.free := rfl
@[simp] theorem Dev.takeAdmission_out (d : Dev) (pages : Nat) : (d.takeAdmission pages).out = d.out := rfl
@[simp] theorem Dev.takeAdmission_regs (d : Dev) (pages : Nat) : (d.takeAdmission pages).regs = d.regs := rfl
@[simp] theorem Dev.takeAdmission_latchRd (d : Dev) (pages : Nat) : (d.takeAdmission pages).latchRd = d.latchRd := rfl
@[simp] theorem Dev.takeAdmission_latchWr (d : Dev) (pages : Nat) : (d.takeAdmission pages).latchWr = d.latchWr := rfl
@[simp] theorem Dev.takeAdmission_core (d : Dev) (pages : Nat) : (d.takeAdmission pages).core = d.core := rfl
@[simp] theorem Dev.takeAdmission_hpt (d : Dev) (pages : Nat) : (d.takeAdmission pages).hpt = d.hpt := rfl
@[simp] theorem Dev.takeAdmission_rgn (d : Dev) (pages : Nat) : (d.takeAdmission pages).rgn = d.rgn := rfl
@[simp] theorem Dev.takeAdmission_tier (d : Dev) (pages : Nat) : (d.takeAdmission pages).tier = d.tier := rfl
@[simp] theorem Dev.takeAdmission_mem (d : Dev) (pages : Nat) : (d.takeAdmission pages).mem = d.mem := rfl
@[simp] theorem Dev.takeAdmission_tim (d : Dev) (pages : Nat) : (d.takeAdmission pages).tim = d.tim := rfl
@[simp] theorem Dev.takeAdmission_twn (d : Dev) (pages : Nat) : (d.takeAdmission pages).twn = d.twn := rfl
@[simp] theorem Dev.takeAdmission_fab (d : Dev) (pages : Nat) : (d.takeAdmission pages).fab = d.fab := rfl
@[simp] theorem Dev.takeAdmission_mdw (d : Dev) (pages : Nat) : (d.takeAdmission pages).mdw = d.mdw := rfl
@[simp] theorem Dev.takeAdmission_hth (d : Dev) (pages : Nat) : (d.takeAdmission pages).hth = d.hth := rfl
@[simp] theorem Dev.takeAdmission_cph (d : Dev) (pages : Nat) : (d.takeAdmission pages).cph = d.cph := rfl
@[simp] theorem Dev.takeAdmission_ring (d : Dev) (pages : Nat) : (d.takeAdmission pages).ring = d.ring := rfl
@[simp] theorem Dev.takeAdmission_cfx (d : Dev) (pages : Nat) : (d.takeAdmission pages).cfx = d.cfx := rfl
@[simp] theorem Dev.takeAdmission_store (d : Dev) (pages : Nat) : (d.takeAdmission pages).store = d.store := rfl
@[simp] theorem Dev.takeAdmission_sbp (d : Dev) (pages : Nat) : (d.takeAdmission pages).sbp = d.sbp := rfl
@[simp] theorem Dev.takeAdmission_pwr (d : Dev) (pages : Nat) : (d.takeAdmission pages).pwr = d.pwr := rfl
@[simp] theorem Dev.takeAdmission_age (d : Dev) (pages : Nat) : (d.takeAdmission pages).age = d.age := rfl
@[simp] theorem Dev.takeAdmission_fwm (d : Dev) (pages : Nat) : (d.takeAdmission pages).fwm = d.fwm := rfl
@[simp] theorem Dev.takeAdmission_evt (d : Dev) (pages : Nat) : (d.takeAdmission pages).evt = d.evt := rfl
@[simp] theorem Dev.takeAdmission_pmc (d : Dev) (pages : Nat) : (d.takeAdmission pages).pmc = d.pmc := rfl

/-! ### `unreserve` -/

@[simp] theorem Dev.unreserve_clk (d : Dev) (pages : Nat) : (d.unreserve pages).clk = d.clk := rfl
@[simp] theorem Dev.unreserve_free (d : Dev) (pages : Nat) : (d.unreserve pages).free = d.free := rfl
@[simp] theorem Dev.unreserve_out (d : Dev) (pages : Nat) : (d.unreserve pages).out = d.out := rfl
@[simp] theorem Dev.unreserve_regs (d : Dev) (pages : Nat) : (d.unreserve pages).regs = d.regs := rfl
@[simp] theorem Dev.unreserve_latchRd (d : Dev) (pages : Nat) : (d.unreserve pages).latchRd = d.latchRd := rfl
@[simp] theorem Dev.unreserve_latchWr (d : Dev) (pages : Nat) : (d.unreserve pages).latchWr = d.latchWr := rfl
@[simp] theorem Dev.unreserve_core (d : Dev) (pages : Nat) : (d.unreserve pages).core = d.core := rfl
@[simp] theorem Dev.unreserve_hpt (d : Dev) (pages : Nat) : (d.unreserve pages).hpt = d.hpt := rfl
@[simp] theorem Dev.unreserve_rgn (d : Dev) (pages : Nat) : (d.unreserve pages).rgn = d.rgn := rfl
@[simp] theorem Dev.unreserve_tier (d : Dev) (pages : Nat) : (d.unreserve pages).tier = d.tier := rfl
@[simp] theorem Dev.unreserve_mem (d : Dev) (pages : Nat) : (d.unreserve pages).mem = d.mem := rfl
@[simp] theorem Dev.unreserve_tim (d : Dev) (pages : Nat) : (d.unreserve pages).tim = d.tim := rfl
@[simp] theorem Dev.unreserve_twn (d : Dev) (pages : Nat) : (d.unreserve pages).twn = d.twn := rfl
@[simp] theorem Dev.unreserve_fab (d : Dev) (pages : Nat) : (d.unreserve pages).fab = d.fab := rfl
@[simp] theorem Dev.unreserve_mdw (d : Dev) (pages : Nat) : (d.unreserve pages).mdw = d.mdw := rfl
@[simp] theorem Dev.unreserve_hth (d : Dev) (pages : Nat) : (d.unreserve pages).hth = d.hth := rfl
@[simp] theorem Dev.unreserve_cph (d : Dev) (pages : Nat) : (d.unreserve pages).cph = d.cph := rfl
@[simp] theorem Dev.unreserve_ring (d : Dev) (pages : Nat) : (d.unreserve pages).ring = d.ring := rfl
@[simp] theorem Dev.unreserve_cfx (d : Dev) (pages : Nat) : (d.unreserve pages).cfx = d.cfx := rfl
@[simp] theorem Dev.unreserve_store (d : Dev) (pages : Nat) : (d.unreserve pages).store = d.store := rfl
@[simp] theorem Dev.unreserve_sbp (d : Dev) (pages : Nat) : (d.unreserve pages).sbp = d.sbp := rfl
@[simp] theorem Dev.unreserve_pwr (d : Dev) (pages : Nat) : (d.unreserve pages).pwr = d.pwr := rfl
@[simp] theorem Dev.unreserve_age (d : Dev) (pages : Nat) : (d.unreserve pages).age = d.age := rfl
@[simp] theorem Dev.unreserve_fwm (d : Dev) (pages : Nat) : (d.unreserve pages).fwm = d.fwm := rfl
@[simp] theorem Dev.unreserve_evt (d : Dev) (pages : Nat) : (d.unreserve pages).evt = d.evt := rfl
@[simp] theorem Dev.unreserve_pmc (d : Dev) (pages : Nat) : (d.unreserve pages).pmc = d.pmc := rfl

/-! ### `setConn` -/

@[simp] theorem Dev.setConn_clk (d : Dev) (c : Nat) (f : Conn → Conn) : (d.setConn c f).clk = d.clk := rfl
@[simp] theorem Dev.setConn_free (d : Dev) (c : Nat) (f : Conn → Conn) : (d.setConn c f).free = d.free := rfl
@[simp] theorem Dev.setConn_out (d : Dev) (c : Nat) (f : Conn → Conn) : (d.setConn c f).out = d.out := rfl
@[simp] theorem Dev.setConn_regs (d : Dev) (c : Nat) (f : Conn → Conn) : (d.setConn c f).regs = d.regs := rfl
@[simp] theorem Dev.setConn_latchRd (d : Dev) (c : Nat) (f : Conn → Conn) : (d.setConn c f).latchRd = d.latchRd := rfl
@[simp] theorem Dev.setConn_latchWr (d : Dev) (c : Nat) (f : Conn → Conn) : (d.setConn c f).latchWr = d.latchWr := rfl
@[simp] theorem Dev.setConn_core (d : Dev) (c : Nat) (f : Conn → Conn) : (d.setConn c f).core = d.core := rfl
@[simp] theorem Dev.setConn_rgn (d : Dev) (c : Nat) (f : Conn → Conn) : (d.setConn c f).rgn = d.rgn := rfl
@[simp] theorem Dev.setConn_tier (d : Dev) (c : Nat) (f : Conn → Conn) : (d.setConn c f).tier = d.tier := rfl
@[simp] theorem Dev.setConn_mem (d : Dev) (c : Nat) (f : Conn → Conn) : (d.setConn c f).mem = d.mem := rfl
@[simp] theorem Dev.setConn_dur (d : Dev) (c : Nat) (f : Conn → Conn) : (d.setConn c f).dur = d.dur := rfl
@[simp] theorem Dev.setConn_tim (d : Dev) (c : Nat) (f : Conn → Conn) : (d.setConn c f).tim = d.tim := rfl
@[simp] theorem Dev.setConn_twn (d : Dev) (c : Nat) (f : Conn → Conn) : (d.setConn c f).twn = d.twn := rfl
@[simp] theorem Dev.setConn_fab (d : Dev) (c : Nat) (f : Conn → Conn) : (d.setConn c f).fab = d.fab := rfl
@[simp] theorem Dev.setConn_mdw (d : Dev) (c : Nat) (f : Conn → Conn) : (d.setConn c f).mdw = d.mdw := rfl
@[simp] theorem Dev.setConn_hth (d : Dev) (c : Nat) (f : Conn → Conn) : (d.setConn c f).hth = d.hth := rfl
@[simp] theorem Dev.setConn_cph (d : Dev) (c : Nat) (f : Conn → Conn) : (d.setConn c f).cph = d.cph := rfl
@[simp] theorem Dev.setConn_ring (d : Dev) (c : Nat) (f : Conn → Conn) : (d.setConn c f).ring = d.ring := rfl
@[simp] theorem Dev.setConn_cfx (d : Dev) (c : Nat) (f : Conn → Conn) : (d.setConn c f).cfx = d.cfx := rfl
@[simp] theorem Dev.setConn_store (d : Dev) (c : Nat) (f : Conn → Conn) : (d.setConn c f).store = d.store := rfl
@[simp] theorem Dev.setConn_sbp (d : Dev) (c : Nat) (f : Conn → Conn) : (d.setConn c f).sbp = d.sbp := rfl
@[simp] theorem Dev.setConn_pwr (d : Dev) (c : Nat) (f : Conn → Conn) : (d.setConn c f).pwr = d.pwr := rfl
@[simp] theorem Dev.setConn_age (d : Dev) (c : Nat) (f : Conn → Conn) : (d.setConn c f).age = d.age := rfl
@[simp] theorem Dev.setConn_fwm (d : Dev) (c : Nat) (f : Conn → Conn) : (d.setConn c f).fwm = d.fwm := rfl
@[simp] theorem Dev.setConn_evt (d : Dev) (c : Nat) (f : Conn → Conn) : (d.setConn c f).evt = d.evt := rfl
@[simp] theorem Dev.setConn_pmc (d : Dev) (c : Nat) (f : Conn → Conn) : (d.setConn c f).pmc = d.pmc := rfl

/-! ### `setOp` -/

@[simp] theorem Dev.setOp_clk (d : Dev) (id : Nat) (f : Op → Op) : (d.setOp id f).clk = d.clk := rfl
@[simp] theorem Dev.setOp_free (d : Dev) (id : Nat) (f : Op → Op) : (d.setOp id f).free = d.free := rfl
@[simp] theorem Dev.setOp_out (d : Dev) (id : Nat) (f : Op → Op) : (d.setOp id f).out = d.out := rfl
@[simp] theorem Dev.setOp_regs (d : Dev) (id : Nat) (f : Op → Op) : (d.setOp id f).regs = d.regs := rfl
@[simp] theorem Dev.setOp_latchRd (d : Dev) (id : Nat) (f : Op → Op) : (d.setOp id f).latchRd = d.latchRd := rfl
@[simp] theorem Dev.setOp_latchWr (d : Dev) (id : Nat) (f : Op → Op) : (d.setOp id f).latchWr = d.latchWr := rfl
@[simp] theorem Dev.setOp_core (d : Dev) (id : Nat) (f : Op → Op) : (d.setOp id f).core = d.core := rfl
@[simp] theorem Dev.setOp_rgn (d : Dev) (id : Nat) (f : Op → Op) : (d.setOp id f).rgn = d.rgn := rfl
@[simp] theorem Dev.setOp_tier (d : Dev) (id : Nat) (f : Op → Op) : (d.setOp id f).tier = d.tier := rfl
@[simp] theorem Dev.setOp_mem (d : Dev) (id : Nat) (f : Op → Op) : (d.setOp id f).mem = d.mem := rfl
@[simp] theorem Dev.setOp_dur (d : Dev) (id : Nat) (f : Op → Op) : (d.setOp id f).dur = d.dur := rfl
@[simp] theorem Dev.setOp_tim (d : Dev) (id : Nat) (f : Op → Op) : (d.setOp id f).tim = d.tim := rfl
@[simp] theorem Dev.setOp_twn (d : Dev) (id : Nat) (f : Op → Op) : (d.setOp id f).twn = d.twn := rfl
@[simp] theorem Dev.setOp_fab (d : Dev) (id : Nat) (f : Op → Op) : (d.setOp id f).fab = d.fab := rfl
@[simp] theorem Dev.setOp_mdw (d : Dev) (id : Nat) (f : Op → Op) : (d.setOp id f).mdw = d.mdw := rfl
@[simp] theorem Dev.setOp_hth (d : Dev) (id : Nat) (f : Op → Op) : (d.setOp id f).hth = d.hth := rfl
@[simp] theorem Dev.setOp_cph (d : Dev) (id : Nat) (f : Op → Op) : (d.setOp id f).cph = d.cph := rfl
@[simp] theorem Dev.setOp_ring (d : Dev) (id : Nat) (f : Op → Op) : (d.setOp id f).ring = d.ring := rfl
@[simp] theorem Dev.setOp_cfx (d : Dev) (id : Nat) (f : Op → Op) : (d.setOp id f).cfx = d.cfx := rfl
@[simp] theorem Dev.setOp_store (d : Dev) (id : Nat) (f : Op → Op) : (d.setOp id f).store = d.store := rfl
@[simp] theorem Dev.setOp_sbp (d : Dev) (id : Nat) (f : Op → Op) : (d.setOp id f).sbp = d.sbp := rfl
@[simp] theorem Dev.setOp_pwr (d : Dev) (id : Nat) (f : Op → Op) : (d.setOp id f).pwr = d.pwr := rfl
@[simp] theorem Dev.setOp_age (d : Dev) (id : Nat) (f : Op → Op) : (d.setOp id f).age = d.age := rfl
@[simp] theorem Dev.setOp_fwm (d : Dev) (id : Nat) (f : Op → Op) : (d.setOp id f).fwm = d.fwm := rfl
@[simp] theorem Dev.setOp_evt (d : Dev) (id : Nat) (f : Op → Op) : (d.setOp id f).evt = d.evt := rfl
@[simp] theorem Dev.setOp_pmc (d : Dev) (id : Nat) (f : Op → Op) : (d.setOp id f).pmc = d.pmc := rfl

/-! ### `setPort` -/

@[simp] theorem Dev.setPort_clk (d : Dev) (p : Nat) (f : Port → Port) : (d.setPort p f).clk = d.clk := rfl
@[simp] theorem Dev.setPort_free (d : Dev) (p : Nat) (f : Port → Port) : (d.setPort p f).free = d.free := rfl
@[simp] theorem Dev.setPort_out (d : Dev) (p : Nat) (f : Port → Port) : (d.setPort p f).out = d.out := rfl
@[simp] theorem Dev.setPort_regs (d : Dev) (p : Nat) (f : Port → Port) : (d.setPort p f).regs = d.regs := rfl
@[simp] theorem Dev.setPort_latchRd (d : Dev) (p : Nat) (f : Port → Port) : (d.setPort p f).latchRd = d.latchRd := rfl
@[simp] theorem Dev.setPort_latchWr (d : Dev) (p : Nat) (f : Port → Port) : (d.setPort p f).latchWr = d.latchWr := rfl
@[simp] theorem Dev.setPort_core (d : Dev) (p : Nat) (f : Port → Port) : (d.setPort p f).core = d.core := rfl
@[simp] theorem Dev.setPort_rgn (d : Dev) (p : Nat) (f : Port → Port) : (d.setPort p f).rgn = d.rgn := rfl
@[simp] theorem Dev.setPort_tier (d : Dev) (p : Nat) (f : Port → Port) : (d.setPort p f).tier = d.tier := rfl
@[simp] theorem Dev.setPort_mem (d : Dev) (p : Nat) (f : Port → Port) : (d.setPort p f).mem = d.mem := rfl
@[simp] theorem Dev.setPort_dur (d : Dev) (p : Nat) (f : Port → Port) : (d.setPort p f).dur = d.dur := rfl
@[simp] theorem Dev.setPort_tim (d : Dev) (p : Nat) (f : Port → Port) : (d.setPort p f).tim = d.tim := rfl
@[simp] theorem Dev.setPort_twn (d : Dev) (p : Nat) (f : Port → Port) : (d.setPort p f).twn = d.twn := rfl
@[simp] theorem Dev.setPort_fab (d : Dev) (p : Nat) (f : Port → Port) : (d.setPort p f).fab = d.fab := rfl
@[simp] theorem Dev.setPort_mdw (d : Dev) (p : Nat) (f : Port → Port) : (d.setPort p f).mdw = d.mdw := rfl
@[simp] theorem Dev.setPort_hth (d : Dev) (p : Nat) (f : Port → Port) : (d.setPort p f).hth = d.hth := rfl
@[simp] theorem Dev.setPort_cph (d : Dev) (p : Nat) (f : Port → Port) : (d.setPort p f).cph = d.cph := rfl
@[simp] theorem Dev.setPort_ring (d : Dev) (p : Nat) (f : Port → Port) : (d.setPort p f).ring = d.ring := rfl
@[simp] theorem Dev.setPort_cfx (d : Dev) (p : Nat) (f : Port → Port) : (d.setPort p f).cfx = d.cfx := rfl
@[simp] theorem Dev.setPort_store (d : Dev) (p : Nat) (f : Port → Port) : (d.setPort p f).store = d.store := rfl
@[simp] theorem Dev.setPort_sbp (d : Dev) (p : Nat) (f : Port → Port) : (d.setPort p f).sbp = d.sbp := rfl
@[simp] theorem Dev.setPort_pwr (d : Dev) (p : Nat) (f : Port → Port) : (d.setPort p f).pwr = d.pwr := rfl
@[simp] theorem Dev.setPort_age (d : Dev) (p : Nat) (f : Port → Port) : (d.setPort p f).age = d.age := rfl
@[simp] theorem Dev.setPort_fwm (d : Dev) (p : Nat) (f : Port → Port) : (d.setPort p f).fwm = d.fwm := rfl
@[simp] theorem Dev.setPort_evt (d : Dev) (p : Nat) (f : Port → Port) : (d.setPort p f).evt = d.evt := rfl
@[simp] theorem Dev.setPort_pmc (d : Dev) (p : Nat) (f : Port → Port) : (d.setPort p f).pmc = d.pmc := rfl

/-! ### `freeTag` -/

@[simp] theorem Dev.freeTag_clk (d : Dev) (id : Nat) : (d.freeTag id).clk = d.clk := rfl
@[simp] theorem Dev.freeTag_free (d : Dev) (id : Nat) : (d.freeTag id).free = d.free := rfl
@[simp] theorem Dev.freeTag_out (d : Dev) (id : Nat) : (d.freeTag id).out = d.out := rfl
@[simp] theorem Dev.freeTag_regs (d : Dev) (id : Nat) : (d.freeTag id).regs = d.regs := rfl
@[simp] theorem Dev.freeTag_latchRd (d : Dev) (id : Nat) : (d.freeTag id).latchRd = d.latchRd := rfl
@[simp] theorem Dev.freeTag_latchWr (d : Dev) (id : Nat) : (d.freeTag id).latchWr = d.latchWr := rfl
@[simp] theorem Dev.freeTag_core (d : Dev) (id : Nat) : (d.freeTag id).core = d.core := rfl
@[simp] theorem Dev.freeTag_rgn (d : Dev) (id : Nat) : (d.freeTag id).rgn = d.rgn := rfl
@[simp] theorem Dev.freeTag_tier (d : Dev) (id : Nat) : (d.freeTag id).tier = d.tier := rfl
@[simp] theorem Dev.freeTag_mem (d : Dev) (id : Nat) : (d.freeTag id).mem = d.mem := rfl
@[simp] theorem Dev.freeTag_dur (d : Dev) (id : Nat) : (d.freeTag id).dur = d.dur := rfl
@[simp] theorem Dev.freeTag_tim (d : Dev) (id : Nat) : (d.freeTag id).tim = d.tim := rfl
@[simp] theorem Dev.freeTag_twn (d : Dev) (id : Nat) : (d.freeTag id).twn = d.twn := rfl
@[simp] theorem Dev.freeTag_fab (d : Dev) (id : Nat) : (d.freeTag id).fab = d.fab := rfl
@[simp] theorem Dev.freeTag_mdw (d : Dev) (id : Nat) : (d.freeTag id).mdw = d.mdw := rfl
@[simp] theorem Dev.freeTag_hth (d : Dev) (id : Nat) : (d.freeTag id).hth = d.hth := rfl
@[simp] theorem Dev.freeTag_cph (d : Dev) (id : Nat) : (d.freeTag id).cph = d.cph := rfl
@[simp] theorem Dev.freeTag_ring (d : Dev) (id : Nat) : (d.freeTag id).ring = d.ring := rfl
@[simp] theorem Dev.freeTag_cfx (d : Dev) (id : Nat) : (d.freeTag id).cfx = d.cfx := rfl
@[simp] theorem Dev.freeTag_store (d : Dev) (id : Nat) : (d.freeTag id).store = d.store := rfl
@[simp] theorem Dev.freeTag_sbp (d : Dev) (id : Nat) : (d.freeTag id).sbp = d.sbp := rfl
@[simp] theorem Dev.freeTag_pwr (d : Dev) (id : Nat) : (d.freeTag id).pwr = d.pwr := rfl
@[simp] theorem Dev.freeTag_age (d : Dev) (id : Nat) : (d.freeTag id).age = d.age := rfl
@[simp] theorem Dev.freeTag_fwm (d : Dev) (id : Nat) : (d.freeTag id).fwm = d.fwm := rfl
@[simp] theorem Dev.freeTag_evt (d : Dev) (id : Nat) : (d.freeTag id).evt = d.evt := rfl
@[simp] theorem Dev.freeTag_pmc (d : Dev) (id : Nat) : (d.freeTag id).pmc = d.pmc := rfl

/-! ### `setRing` -/

@[simp] theorem Dev.setRing_clk (d : Dev) (n : Nat) (f : Ring → Ring) : (d.setRing n f).clk = d.clk := rfl
@[simp] theorem Dev.setRing_free (d : Dev) (n : Nat) (f : Ring → Ring) : (d.setRing n f).free = d.free := rfl
@[simp] theorem Dev.setRing_out (d : Dev) (n : Nat) (f : Ring → Ring) : (d.setRing n f).out = d.out := rfl
@[simp] theorem Dev.setRing_regs (d : Dev) (n : Nat) (f : Ring → Ring) : (d.setRing n f).regs = d.regs := rfl
@[simp] theorem Dev.setRing_latchRd (d : Dev) (n : Nat) (f : Ring → Ring) : (d.setRing n f).latchRd = d.latchRd := rfl
@[simp] theorem Dev.setRing_latchWr (d : Dev) (n : Nat) (f : Ring → Ring) : (d.setRing n f).latchWr = d.latchWr := rfl
@[simp] theorem Dev.setRing_core (d : Dev) (n : Nat) (f : Ring → Ring) : (d.setRing n f).core = d.core := rfl
@[simp] theorem Dev.setRing_hpt (d : Dev) (n : Nat) (f : Ring → Ring) : (d.setRing n f).hpt = d.hpt := rfl
@[simp] theorem Dev.setRing_rgn (d : Dev) (n : Nat) (f : Ring → Ring) : (d.setRing n f).rgn = d.rgn := rfl
@[simp] theorem Dev.setRing_tier (d : Dev) (n : Nat) (f : Ring → Ring) : (d.setRing n f).tier = d.tier := rfl
@[simp] theorem Dev.setRing_mem (d : Dev) (n : Nat) (f : Ring → Ring) : (d.setRing n f).mem = d.mem := rfl
@[simp] theorem Dev.setRing_dur (d : Dev) (n : Nat) (f : Ring → Ring) : (d.setRing n f).dur = d.dur := rfl
@[simp] theorem Dev.setRing_tim (d : Dev) (n : Nat) (f : Ring → Ring) : (d.setRing n f).tim = d.tim := rfl
@[simp] theorem Dev.setRing_twn (d : Dev) (n : Nat) (f : Ring → Ring) : (d.setRing n f).twn = d.twn := rfl
@[simp] theorem Dev.setRing_fab (d : Dev) (n : Nat) (f : Ring → Ring) : (d.setRing n f).fab = d.fab := rfl
@[simp] theorem Dev.setRing_mdw (d : Dev) (n : Nat) (f : Ring → Ring) : (d.setRing n f).mdw = d.mdw := rfl
@[simp] theorem Dev.setRing_hth (d : Dev) (n : Nat) (f : Ring → Ring) : (d.setRing n f).hth = d.hth := rfl
@[simp] theorem Dev.setRing_cph (d : Dev) (n : Nat) (f : Ring → Ring) : (d.setRing n f).cph = d.cph := rfl
@[simp] theorem Dev.setRing_cfx (d : Dev) (n : Nat) (f : Ring → Ring) : (d.setRing n f).cfx = d.cfx := rfl
@[simp] theorem Dev.setRing_store (d : Dev) (n : Nat) (f : Ring → Ring) : (d.setRing n f).store = d.store := rfl
@[simp] theorem Dev.setRing_sbp (d : Dev) (n : Nat) (f : Ring → Ring) : (d.setRing n f).sbp = d.sbp := rfl
@[simp] theorem Dev.setRing_pwr (d : Dev) (n : Nat) (f : Ring → Ring) : (d.setRing n f).pwr = d.pwr := rfl
@[simp] theorem Dev.setRing_age (d : Dev) (n : Nat) (f : Ring → Ring) : (d.setRing n f).age = d.age := rfl
@[simp] theorem Dev.setRing_fwm (d : Dev) (n : Nat) (f : Ring → Ring) : (d.setRing n f).fwm = d.fwm := rfl
@[simp] theorem Dev.setRing_evt (d : Dev) (n : Nat) (f : Ring → Ring) : (d.setRing n f).evt = d.evt := rfl
@[simp] theorem Dev.setRing_pmc (d : Dev) (n : Nat) (f : Ring → Ring) : (d.setRing n f).pmc = d.pmc := rfl

/-! ### `setCmd` -/

@[simp] theorem Dev.setCmd_clk (d : Dev) (id : Nat) (f : Cmd → Cmd) : (d.setCmd id f).clk = d.clk := rfl
@[simp] theorem Dev.setCmd_free (d : Dev) (id : Nat) (f : Cmd → Cmd) : (d.setCmd id f).free = d.free := rfl
@[simp] theorem Dev.setCmd_out (d : Dev) (id : Nat) (f : Cmd → Cmd) : (d.setCmd id f).out = d.out := rfl
@[simp] theorem Dev.setCmd_regs (d : Dev) (id : Nat) (f : Cmd → Cmd) : (d.setCmd id f).regs = d.regs := rfl
@[simp] theorem Dev.setCmd_latchRd (d : Dev) (id : Nat) (f : Cmd → Cmd) : (d.setCmd id f).latchRd = d.latchRd := rfl
@[simp] theorem Dev.setCmd_latchWr (d : Dev) (id : Nat) (f : Cmd → Cmd) : (d.setCmd id f).latchWr = d.latchWr := rfl
@[simp] theorem Dev.setCmd_core (d : Dev) (id : Nat) (f : Cmd → Cmd) : (d.setCmd id f).core = d.core := rfl
@[simp] theorem Dev.setCmd_hpt (d : Dev) (id : Nat) (f : Cmd → Cmd) : (d.setCmd id f).hpt = d.hpt := rfl
@[simp] theorem Dev.setCmd_rgn (d : Dev) (id : Nat) (f : Cmd → Cmd) : (d.setCmd id f).rgn = d.rgn := rfl
@[simp] theorem Dev.setCmd_tier (d : Dev) (id : Nat) (f : Cmd → Cmd) : (d.setCmd id f).tier = d.tier := rfl
@[simp] theorem Dev.setCmd_mem (d : Dev) (id : Nat) (f : Cmd → Cmd) : (d.setCmd id f).mem = d.mem := rfl
@[simp] theorem Dev.setCmd_dur (d : Dev) (id : Nat) (f : Cmd → Cmd) : (d.setCmd id f).dur = d.dur := rfl
@[simp] theorem Dev.setCmd_tim (d : Dev) (id : Nat) (f : Cmd → Cmd) : (d.setCmd id f).tim = d.tim := rfl
@[simp] theorem Dev.setCmd_twn (d : Dev) (id : Nat) (f : Cmd → Cmd) : (d.setCmd id f).twn = d.twn := rfl
@[simp] theorem Dev.setCmd_fab (d : Dev) (id : Nat) (f : Cmd → Cmd) : (d.setCmd id f).fab = d.fab := rfl
@[simp] theorem Dev.setCmd_mdw (d : Dev) (id : Nat) (f : Cmd → Cmd) : (d.setCmd id f).mdw = d.mdw := rfl
@[simp] theorem Dev.setCmd_hth (d : Dev) (id : Nat) (f : Cmd → Cmd) : (d.setCmd id f).hth = d.hth := rfl
@[simp] theorem Dev.setCmd_cph (d : Dev) (id : Nat) (f : Cmd → Cmd) : (d.setCmd id f).cph = d.cph := rfl
@[simp] theorem Dev.setCmd_cfx (d : Dev) (id : Nat) (f : Cmd → Cmd) : (d.setCmd id f).cfx = d.cfx := rfl
@[simp] theorem Dev.setCmd_store (d : Dev) (id : Nat) (f : Cmd → Cmd) : (d.setCmd id f).store = d.store := rfl
@[simp] theorem Dev.setCmd_sbp (d : Dev) (id : Nat) (f : Cmd → Cmd) : (d.setCmd id f).sbp = d.sbp := rfl
@[simp] theorem Dev.setCmd_pwr (d : Dev) (id : Nat) (f : Cmd → Cmd) : (d.setCmd id f).pwr = d.pwr := rfl
@[simp] theorem Dev.setCmd_age (d : Dev) (id : Nat) (f : Cmd → Cmd) : (d.setCmd id f).age = d.age := rfl
@[simp] theorem Dev.setCmd_fwm (d : Dev) (id : Nat) (f : Cmd → Cmd) : (d.setCmd id f).fwm = d.fwm := rfl
@[simp] theorem Dev.setCmd_evt (d : Dev) (id : Nat) (f : Cmd → Cmd) : (d.setCmd id f).evt = d.evt := rfl
@[simp] theorem Dev.setCmd_pmc (d : Dev) (id : Nat) (f : Cmd → Cmd) : (d.setCmd id f).pmc = d.pmc := rfl

/-! ### `dropCmd` -/

@[simp] theorem Dev.dropCmd_clk (d : Dev) (id : Nat) : (d.dropCmd id).clk = d.clk := rfl
@[simp] theorem Dev.dropCmd_free (d : Dev) (id : Nat) : (d.dropCmd id).free = d.free := rfl
@[simp] theorem Dev.dropCmd_out (d : Dev) (id : Nat) : (d.dropCmd id).out = d.out := rfl
@[simp] theorem Dev.dropCmd_regs (d : Dev) (id : Nat) : (d.dropCmd id).regs = d.regs := rfl
@[simp] theorem Dev.dropCmd_latchRd (d : Dev) (id : Nat) : (d.dropCmd id).latchRd = d.latchRd := rfl
@[simp] theorem Dev.dropCmd_latchWr (d : Dev) (id : Nat) : (d.dropCmd id).latchWr = d.latchWr := rfl
@[simp] theorem Dev.dropCmd_core (d : Dev) (id : Nat) : (d.dropCmd id).core = d.core := rfl
@[simp] theorem Dev.dropCmd_hpt (d : Dev) (id : Nat) : (d.dropCmd id).hpt = d.hpt := rfl
@[simp] theorem Dev.dropCmd_rgn (d : Dev) (id : Nat) : (d.dropCmd id).rgn = d.rgn := rfl
@[simp] theorem Dev.dropCmd_tier (d : Dev) (id : Nat) : (d.dropCmd id).tier = d.tier := rfl
@[simp] theorem Dev.dropCmd_mem (d : Dev) (id : Nat) : (d.dropCmd id).mem = d.mem := rfl
@[simp] theorem Dev.dropCmd_dur (d : Dev) (id : Nat) : (d.dropCmd id).dur = d.dur := rfl
@[simp] theorem Dev.dropCmd_tim (d : Dev) (id : Nat) : (d.dropCmd id).tim = d.tim := rfl
@[simp] theorem Dev.dropCmd_twn (d : Dev) (id : Nat) : (d.dropCmd id).twn = d.twn := rfl
@[simp] theorem Dev.dropCmd_fab (d : Dev) (id : Nat) : (d.dropCmd id).fab = d.fab := rfl
@[simp] theorem Dev.dropCmd_mdw (d : Dev) (id : Nat) : (d.dropCmd id).mdw = d.mdw := rfl
@[simp] theorem Dev.dropCmd_hth (d : Dev) (id : Nat) : (d.dropCmd id).hth = d.hth := rfl
@[simp] theorem Dev.dropCmd_cph (d : Dev) (id : Nat) : (d.dropCmd id).cph = d.cph := rfl
@[simp] theorem Dev.dropCmd_cfx (d : Dev) (id : Nat) : (d.dropCmd id).cfx = d.cfx := rfl
@[simp] theorem Dev.dropCmd_store (d : Dev) (id : Nat) : (d.dropCmd id).store = d.store := rfl
@[simp] theorem Dev.dropCmd_sbp (d : Dev) (id : Nat) : (d.dropCmd id).sbp = d.sbp := rfl
@[simp] theorem Dev.dropCmd_pwr (d : Dev) (id : Nat) : (d.dropCmd id).pwr = d.pwr := rfl
@[simp] theorem Dev.dropCmd_age (d : Dev) (id : Nat) : (d.dropCmd id).age = d.age := rfl
@[simp] theorem Dev.dropCmd_fwm (d : Dev) (id : Nat) : (d.dropCmd id).fwm = d.fwm := rfl
@[simp] theorem Dev.dropCmd_evt (d : Dev) (id : Nat) : (d.dropCmd id).evt = d.evt := rfl
@[simp] theorem Dev.dropCmd_pmc (d : Dev) (id : Nat) : (d.dropCmd id).pmc = d.pmc := rfl

/-! ### `setFlink` -/

@[simp] theorem Dev.setFlink_clk (d : Dev) (n : Nat) (f : FabLink → FabLink) : (d.setFlink n f).clk = d.clk := rfl
@[simp] theorem Dev.setFlink_free (d : Dev) (n : Nat) (f : FabLink → FabLink) : (d.setFlink n f).free = d.free := rfl
@[simp] theorem Dev.setFlink_out (d : Dev) (n : Nat) (f : FabLink → FabLink) : (d.setFlink n f).out = d.out := rfl
@[simp] theorem Dev.setFlink_regs (d : Dev) (n : Nat) (f : FabLink → FabLink) : (d.setFlink n f).regs = d.regs := rfl
@[simp] theorem Dev.setFlink_latchRd (d : Dev) (n : Nat) (f : FabLink → FabLink) : (d.setFlink n f).latchRd = d.latchRd := rfl
@[simp] theorem Dev.setFlink_latchWr (d : Dev) (n : Nat) (f : FabLink → FabLink) : (d.setFlink n f).latchWr = d.latchWr := rfl
@[simp] theorem Dev.setFlink_core (d : Dev) (n : Nat) (f : FabLink → FabLink) : (d.setFlink n f).core = d.core := rfl
@[simp] theorem Dev.setFlink_hpt (d : Dev) (n : Nat) (f : FabLink → FabLink) : (d.setFlink n f).hpt = d.hpt := rfl
@[simp] theorem Dev.setFlink_rgn (d : Dev) (n : Nat) (f : FabLink → FabLink) : (d.setFlink n f).rgn = d.rgn := rfl
@[simp] theorem Dev.setFlink_tier (d : Dev) (n : Nat) (f : FabLink → FabLink) : (d.setFlink n f).tier = d.tier := rfl
@[simp] theorem Dev.setFlink_mem (d : Dev) (n : Nat) (f : FabLink → FabLink) : (d.setFlink n f).mem = d.mem := rfl
@[simp] theorem Dev.setFlink_dur (d : Dev) (n : Nat) (f : FabLink → FabLink) : (d.setFlink n f).dur = d.dur := rfl
@[simp] theorem Dev.setFlink_tim (d : Dev) (n : Nat) (f : FabLink → FabLink) : (d.setFlink n f).tim = d.tim := rfl
@[simp] theorem Dev.setFlink_twn (d : Dev) (n : Nat) (f : FabLink → FabLink) : (d.setFlink n f).twn = d.twn := rfl
@[simp] theorem Dev.setFlink_mdw (d : Dev) (n : Nat) (f : FabLink → FabLink) : (d.setFlink n f).mdw = d.mdw := rfl
@[simp] theorem Dev.setFlink_hth (d : Dev) (n : Nat) (f : FabLink → FabLink) : (d.setFlink n f).hth = d.hth := rfl
@[simp] theorem Dev.setFlink_cph (d : Dev) (n : Nat) (f : FabLink → FabLink) : (d.setFlink n f).cph = d.cph := rfl
@[simp] theorem Dev.setFlink_ring (d : Dev) (n : Nat) (f : FabLink → FabLink) : (d.setFlink n f).ring = d.ring := rfl
@[simp] theorem Dev.setFlink_cfx (d : Dev) (n : Nat) (f : FabLink → FabLink) : (d.setFlink n f).cfx = d.cfx := rfl
@[simp] theorem Dev.setFlink_store (d : Dev) (n : Nat) (f : FabLink → FabLink) : (d.setFlink n f).store = d.store := rfl
@[simp] theorem Dev.setFlink_sbp (d : Dev) (n : Nat) (f : FabLink → FabLink) : (d.setFlink n f).sbp = d.sbp := rfl
@[simp] theorem Dev.setFlink_pwr (d : Dev) (n : Nat) (f : FabLink → FabLink) : (d.setFlink n f).pwr = d.pwr := rfl
@[simp] theorem Dev.setFlink_age (d : Dev) (n : Nat) (f : FabLink → FabLink) : (d.setFlink n f).age = d.age := rfl
@[simp] theorem Dev.setFlink_fwm (d : Dev) (n : Nat) (f : FabLink → FabLink) : (d.setFlink n f).fwm = d.fwm := rfl
@[simp] theorem Dev.setFlink_evt (d : Dev) (n : Nat) (f : FabLink → FabLink) : (d.setFlink n f).evt = d.evt := rfl
@[simp] theorem Dev.setFlink_pmc (d : Dev) (n : Nat) (f : FabLink → FabLink) : (d.setFlink n f).pmc = d.pmc := rfl

/-! ### `freeMsg` -/

@[simp] theorem Dev.freeMsg_clk (d : Dev) (p : Sent → Bool) : (d.freeMsg p).clk = d.clk := rfl
@[simp] theorem Dev.freeMsg_free (d : Dev) (p : Sent → Bool) : (d.freeMsg p).free = d.free := rfl
@[simp] theorem Dev.freeMsg_out (d : Dev) (p : Sent → Bool) : (d.freeMsg p).out = d.out := rfl
@[simp] theorem Dev.freeMsg_regs (d : Dev) (p : Sent → Bool) : (d.freeMsg p).regs = d.regs := rfl
@[simp] theorem Dev.freeMsg_latchRd (d : Dev) (p : Sent → Bool) : (d.freeMsg p).latchRd = d.latchRd := rfl
@[simp] theorem Dev.freeMsg_latchWr (d : Dev) (p : Sent → Bool) : (d.freeMsg p).latchWr = d.latchWr := rfl
@[simp] theorem Dev.freeMsg_core (d : Dev) (p : Sent → Bool) : (d.freeMsg p).core = d.core := rfl
@[simp] theorem Dev.freeMsg_hpt (d : Dev) (p : Sent → Bool) : (d.freeMsg p).hpt = d.hpt := rfl
@[simp] theorem Dev.freeMsg_rgn (d : Dev) (p : Sent → Bool) : (d.freeMsg p).rgn = d.rgn := rfl
@[simp] theorem Dev.freeMsg_tier (d : Dev) (p : Sent → Bool) : (d.freeMsg p).tier = d.tier := rfl
@[simp] theorem Dev.freeMsg_mem (d : Dev) (p : Sent → Bool) : (d.freeMsg p).mem = d.mem := rfl
@[simp] theorem Dev.freeMsg_dur (d : Dev) (p : Sent → Bool) : (d.freeMsg p).dur = d.dur := rfl
@[simp] theorem Dev.freeMsg_tim (d : Dev) (p : Sent → Bool) : (d.freeMsg p).tim = d.tim := rfl
@[simp] theorem Dev.freeMsg_twn (d : Dev) (p : Sent → Bool) : (d.freeMsg p).twn = d.twn := rfl
@[simp] theorem Dev.freeMsg_mdw (d : Dev) (p : Sent → Bool) : (d.freeMsg p).mdw = d.mdw := rfl
@[simp] theorem Dev.freeMsg_hth (d : Dev) (p : Sent → Bool) : (d.freeMsg p).hth = d.hth := rfl
@[simp] theorem Dev.freeMsg_cph (d : Dev) (p : Sent → Bool) : (d.freeMsg p).cph = d.cph := rfl
@[simp] theorem Dev.freeMsg_ring (d : Dev) (p : Sent → Bool) : (d.freeMsg p).ring = d.ring := rfl
@[simp] theorem Dev.freeMsg_cfx (d : Dev) (p : Sent → Bool) : (d.freeMsg p).cfx = d.cfx := rfl
@[simp] theorem Dev.freeMsg_store (d : Dev) (p : Sent → Bool) : (d.freeMsg p).store = d.store := rfl
@[simp] theorem Dev.freeMsg_sbp (d : Dev) (p : Sent → Bool) : (d.freeMsg p).sbp = d.sbp := rfl
@[simp] theorem Dev.freeMsg_pwr (d : Dev) (p : Sent → Bool) : (d.freeMsg p).pwr = d.pwr := rfl
@[simp] theorem Dev.freeMsg_age (d : Dev) (p : Sent → Bool) : (d.freeMsg p).age = d.age := rfl
@[simp] theorem Dev.freeMsg_fwm (d : Dev) (p : Sent → Bool) : (d.freeMsg p).fwm = d.fwm := rfl
@[simp] theorem Dev.freeMsg_evt (d : Dev) (p : Sent → Bool) : (d.freeMsg p).evt = d.evt := rfl
@[simp] theorem Dev.freeMsg_pmc (d : Dev) (p : Sent → Bool) : (d.freeMsg p).pmc = d.pmc := rfl

/-! ### `setRole` -/

@[simp] theorem Dev.setRole_clk (d : Dev) (rid : Nat) (west : Bool) : (d.setRole rid west).clk = d.clk := rfl
@[simp] theorem Dev.setRole_free (d : Dev) (rid : Nat) (west : Bool) : (d.setRole rid west).free = d.free := rfl
@[simp] theorem Dev.setRole_out (d : Dev) (rid : Nat) (west : Bool) : (d.setRole rid west).out = d.out := rfl
@[simp] theorem Dev.setRole_regs (d : Dev) (rid : Nat) (west : Bool) : (d.setRole rid west).regs = d.regs := rfl
@[simp] theorem Dev.setRole_latchRd (d : Dev) (rid : Nat) (west : Bool) : (d.setRole rid west).latchRd = d.latchRd := rfl
@[simp] theorem Dev.setRole_latchWr (d : Dev) (rid : Nat) (west : Bool) : (d.setRole rid west).latchWr = d.latchWr := rfl
@[simp] theorem Dev.setRole_core (d : Dev) (rid : Nat) (west : Bool) : (d.setRole rid west).core = d.core := rfl
@[simp] theorem Dev.setRole_hpt (d : Dev) (rid : Nat) (west : Bool) : (d.setRole rid west).hpt = d.hpt := rfl
@[simp] theorem Dev.setRole_rgn (d : Dev) (rid : Nat) (west : Bool) : (d.setRole rid west).rgn = d.rgn := rfl
@[simp] theorem Dev.setRole_tier (d : Dev) (rid : Nat) (west : Bool) : (d.setRole rid west).tier = d.tier := rfl
@[simp] theorem Dev.setRole_mem (d : Dev) (rid : Nat) (west : Bool) : (d.setRole rid west).mem = d.mem := rfl
@[simp] theorem Dev.setRole_dur (d : Dev) (rid : Nat) (west : Bool) : (d.setRole rid west).dur = d.dur := rfl
@[simp] theorem Dev.setRole_tim (d : Dev) (rid : Nat) (west : Bool) : (d.setRole rid west).tim = d.tim := rfl
@[simp] theorem Dev.setRole_fab (d : Dev) (rid : Nat) (west : Bool) : (d.setRole rid west).fab = d.fab := rfl
@[simp] theorem Dev.setRole_mdw (d : Dev) (rid : Nat) (west : Bool) : (d.setRole rid west).mdw = d.mdw := rfl
@[simp] theorem Dev.setRole_hth (d : Dev) (rid : Nat) (west : Bool) : (d.setRole rid west).hth = d.hth := rfl
@[simp] theorem Dev.setRole_cph (d : Dev) (rid : Nat) (west : Bool) : (d.setRole rid west).cph = d.cph := rfl
@[simp] theorem Dev.setRole_ring (d : Dev) (rid : Nat) (west : Bool) : (d.setRole rid west).ring = d.ring := rfl
@[simp] theorem Dev.setRole_cfx (d : Dev) (rid : Nat) (west : Bool) : (d.setRole rid west).cfx = d.cfx := rfl
@[simp] theorem Dev.setRole_store (d : Dev) (rid : Nat) (west : Bool) : (d.setRole rid west).store = d.store := rfl
@[simp] theorem Dev.setRole_sbp (d : Dev) (rid : Nat) (west : Bool) : (d.setRole rid west).sbp = d.sbp := rfl
@[simp] theorem Dev.setRole_pwr (d : Dev) (rid : Nat) (west : Bool) : (d.setRole rid west).pwr = d.pwr := rfl
@[simp] theorem Dev.setRole_age (d : Dev) (rid : Nat) (west : Bool) : (d.setRole rid west).age = d.age := rfl
@[simp] theorem Dev.setRole_fwm (d : Dev) (rid : Nat) (west : Bool) : (d.setRole rid west).fwm = d.fwm := rfl
@[simp] theorem Dev.setRole_evt (d : Dev) (rid : Nat) (west : Bool) : (d.setRole rid west).evt = d.evt := rfl
@[simp] theorem Dev.setRole_pmc (d : Dev) (rid : Nat) (west : Bool) : (d.setRole rid west).pmc = d.pmc := rfl

/-! ### `eraseSlot` -/

@[simp] theorem Dev.eraseSlot_clk (d : Dev) (n : Nat) : (d.eraseSlot n).clk = d.clk := rfl
@[simp] theorem Dev.eraseSlot_free (d : Dev) (n : Nat) : (d.eraseSlot n).free = d.free := rfl
@[simp] theorem Dev.eraseSlot_out (d : Dev) (n : Nat) : (d.eraseSlot n).out = d.out := rfl
@[simp] theorem Dev.eraseSlot_regs (d : Dev) (n : Nat) : (d.eraseSlot n).regs = d.regs := rfl
@[simp] theorem Dev.eraseSlot_latchRd (d : Dev) (n : Nat) : (d.eraseSlot n).latchRd = d.latchRd := rfl
@[simp] theorem Dev.eraseSlot_latchWr (d : Dev) (n : Nat) : (d.eraseSlot n).latchWr = d.latchWr := rfl
@[simp] theorem Dev.eraseSlot_core (d : Dev) (n : Nat) : (d.eraseSlot n).core = d.core := rfl
@[simp] theorem Dev.eraseSlot_hpt (d : Dev) (n : Nat) : (d.eraseSlot n).hpt = d.hpt := rfl
@[simp] theorem Dev.eraseSlot_rgn (d : Dev) (n : Nat) : (d.eraseSlot n).rgn = d.rgn := rfl
@[simp] theorem Dev.eraseSlot_tier (d : Dev) (n : Nat) : (d.eraseSlot n).tier = d.tier := rfl
@[simp] theorem Dev.eraseSlot_mem (d : Dev) (n : Nat) : (d.eraseSlot n).mem = d.mem := rfl
@[simp] theorem Dev.eraseSlot_dur (d : Dev) (n : Nat) : (d.eraseSlot n).dur = d.dur := rfl
@[simp] theorem Dev.eraseSlot_tim (d : Dev) (n : Nat) : (d.eraseSlot n).tim = d.tim := rfl
@[simp] theorem Dev.eraseSlot_twn (d : Dev) (n : Nat) : (d.eraseSlot n).twn = d.twn := rfl
@[simp] theorem Dev.eraseSlot_fab (d : Dev) (n : Nat) : (d.eraseSlot n).fab = d.fab := rfl
@[simp] theorem Dev.eraseSlot_mdw (d : Dev) (n : Nat) : (d.eraseSlot n).mdw = d.mdw := rfl
@[simp] theorem Dev.eraseSlot_hth (d : Dev) (n : Nat) : (d.eraseSlot n).hth = d.hth := rfl
@[simp] theorem Dev.eraseSlot_ring (d : Dev) (n : Nat) : (d.eraseSlot n).ring = d.ring := rfl
@[simp] theorem Dev.eraseSlot_cfx (d : Dev) (n : Nat) : (d.eraseSlot n).cfx = d.cfx := rfl
@[simp] theorem Dev.eraseSlot_store (d : Dev) (n : Nat) : (d.eraseSlot n).store = d.store := rfl
@[simp] theorem Dev.eraseSlot_sbp (d : Dev) (n : Nat) : (d.eraseSlot n).sbp = d.sbp := rfl
@[simp] theorem Dev.eraseSlot_pwr (d : Dev) (n : Nat) : (d.eraseSlot n).pwr = d.pwr := rfl
@[simp] theorem Dev.eraseSlot_age (d : Dev) (n : Nat) : (d.eraseSlot n).age = d.age := rfl
@[simp] theorem Dev.eraseSlot_fwm (d : Dev) (n : Nat) : (d.eraseSlot n).fwm = d.fwm := rfl
@[simp] theorem Dev.eraseSlot_evt (d : Dev) (n : Nat) : (d.eraseSlot n).evt = d.evt := rfl
@[simp] theorem Dev.eraseSlot_pmc (d : Dev) (n : Nat) : (d.eraseSlot n).pmc = d.pmc := rfl

/-! ### `setDie` -/

@[simp] theorem Dev.setDie_clk (d : Dev) (k : Nat) (f : Die → Die) : (d.setDie k f).clk = d.clk := rfl
@[simp] theorem Dev.setDie_free (d : Dev) (k : Nat) (f : Die → Die) : (d.setDie k f).free = d.free := rfl
@[simp] theorem Dev.setDie_out (d : Dev) (k : Nat) (f : Die → Die) : (d.setDie k f).out = d.out := rfl
@[simp] theorem Dev.setDie_regs (d : Dev) (k : Nat) (f : Die → Die) : (d.setDie k f).regs = d.regs := rfl
@[simp] theorem Dev.setDie_latchRd (d : Dev) (k : Nat) (f : Die → Die) : (d.setDie k f).latchRd = d.latchRd := rfl
@[simp] theorem Dev.setDie_latchWr (d : Dev) (k : Nat) (f : Die → Die) : (d.setDie k f).latchWr = d.latchWr := rfl
@[simp] theorem Dev.setDie_core (d : Dev) (k : Nat) (f : Die → Die) : (d.setDie k f).core = d.core := rfl
@[simp] theorem Dev.setDie_hpt (d : Dev) (k : Nat) (f : Die → Die) : (d.setDie k f).hpt = d.hpt := rfl
@[simp] theorem Dev.setDie_rgn (d : Dev) (k : Nat) (f : Die → Die) : (d.setDie k f).rgn = d.rgn := rfl
@[simp] theorem Dev.setDie_tier (d : Dev) (k : Nat) (f : Die → Die) : (d.setDie k f).tier = d.tier := rfl
@[simp] theorem Dev.setDie_mem (d : Dev) (k : Nat) (f : Die → Die) : (d.setDie k f).mem = d.mem := rfl
@[simp] theorem Dev.setDie_dur (d : Dev) (k : Nat) (f : Die → Die) : (d.setDie k f).dur = d.dur := rfl
@[simp] theorem Dev.setDie_tim (d : Dev) (k : Nat) (f : Die → Die) : (d.setDie k f).tim = d.tim := rfl
@[simp] theorem Dev.setDie_twn (d : Dev) (k : Nat) (f : Die → Die) : (d.setDie k f).twn = d.twn := rfl
@[simp] theorem Dev.setDie_fab (d : Dev) (k : Nat) (f : Die → Die) : (d.setDie k f).fab = d.fab := rfl
@[simp] theorem Dev.setDie_mdw (d : Dev) (k : Nat) (f : Die → Die) : (d.setDie k f).mdw = d.mdw := rfl
@[simp] theorem Dev.setDie_cph (d : Dev) (k : Nat) (f : Die → Die) : (d.setDie k f).cph = d.cph := rfl
@[simp] theorem Dev.setDie_ring (d : Dev) (k : Nat) (f : Die → Die) : (d.setDie k f).ring = d.ring := rfl
@[simp] theorem Dev.setDie_cfx (d : Dev) (k : Nat) (f : Die → Die) : (d.setDie k f).cfx = d.cfx := rfl
@[simp] theorem Dev.setDie_store (d : Dev) (k : Nat) (f : Die → Die) : (d.setDie k f).store = d.store := rfl
@[simp] theorem Dev.setDie_sbp (d : Dev) (k : Nat) (f : Die → Die) : (d.setDie k f).sbp = d.sbp := rfl
@[simp] theorem Dev.setDie_pwr (d : Dev) (k : Nat) (f : Die → Die) : (d.setDie k f).pwr = d.pwr := rfl
@[simp] theorem Dev.setDie_age (d : Dev) (k : Nat) (f : Die → Die) : (d.setDie k f).age = d.age := rfl
@[simp] theorem Dev.setDie_fwm (d : Dev) (k : Nat) (f : Die → Die) : (d.setDie k f).fwm = d.fwm := rfl
@[simp] theorem Dev.setDie_evt (d : Dev) (k : Nat) (f : Die → Die) : (d.setDie k f).evt = d.evt := rfl
@[simp] theorem Dev.setDie_pmc (d : Dev) (k : Nat) (f : Die → Die) : (d.setDie k f).pmc = d.pmc := rfl

/-! ### `setRep` -/

@[simp] theorem Dev.setRep_clk (d : Dev) (msgid : Nat) (f : Replica → Replica) : (d.setRep msgid f).clk = d.clk := rfl
@[simp] theorem Dev.setRep_free (d : Dev) (msgid : Nat) (f : Replica → Replica) : (d.setRep msgid f).free = d.free := rfl
@[simp] theorem Dev.setRep_out (d : Dev) (msgid : Nat) (f : Replica → Replica) : (d.setRep msgid f).out = d.out := rfl
@[simp] theorem Dev.setRep_regs (d : Dev) (msgid : Nat) (f : Replica → Replica) : (d.setRep msgid f).regs = d.regs := rfl
@[simp] theorem Dev.setRep_latchRd (d : Dev) (msgid : Nat) (f : Replica → Replica) : (d.setRep msgid f).latchRd = d.latchRd := rfl
@[simp] theorem Dev.setRep_latchWr (d : Dev) (msgid : Nat) (f : Replica → Replica) : (d.setRep msgid f).latchWr = d.latchWr := rfl
@[simp] theorem Dev.setRep_core (d : Dev) (msgid : Nat) (f : Replica → Replica) : (d.setRep msgid f).core = d.core := rfl
@[simp] theorem Dev.setRep_hpt (d : Dev) (msgid : Nat) (f : Replica → Replica) : (d.setRep msgid f).hpt = d.hpt := rfl
@[simp] theorem Dev.setRep_rgn (d : Dev) (msgid : Nat) (f : Replica → Replica) : (d.setRep msgid f).rgn = d.rgn := rfl
@[simp] theorem Dev.setRep_tier (d : Dev) (msgid : Nat) (f : Replica → Replica) : (d.setRep msgid f).tier = d.tier := rfl
@[simp] theorem Dev.setRep_mem (d : Dev) (msgid : Nat) (f : Replica → Replica) : (d.setRep msgid f).mem = d.mem := rfl
@[simp] theorem Dev.setRep_dur (d : Dev) (msgid : Nat) (f : Replica → Replica) : (d.setRep msgid f).dur = d.dur := rfl
@[simp] theorem Dev.setRep_tim (d : Dev) (msgid : Nat) (f : Replica → Replica) : (d.setRep msgid f).tim = d.tim := rfl
@[simp] theorem Dev.setRep_fab (d : Dev) (msgid : Nat) (f : Replica → Replica) : (d.setRep msgid f).fab = d.fab := rfl
@[simp] theorem Dev.setRep_mdw (d : Dev) (msgid : Nat) (f : Replica → Replica) : (d.setRep msgid f).mdw = d.mdw := rfl
@[simp] theorem Dev.setRep_hth (d : Dev) (msgid : Nat) (f : Replica → Replica) : (d.setRep msgid f).hth = d.hth := rfl
@[simp] theorem Dev.setRep_cph (d : Dev) (msgid : Nat) (f : Replica → Replica) : (d.setRep msgid f).cph = d.cph := rfl
@[simp] theorem Dev.setRep_ring (d : Dev) (msgid : Nat) (f : Replica → Replica) : (d.setRep msgid f).ring = d.ring := rfl
@[simp] theorem Dev.setRep_cfx (d : Dev) (msgid : Nat) (f : Replica → Replica) : (d.setRep msgid f).cfx = d.cfx := rfl
@[simp] theorem Dev.setRep_store (d : Dev) (msgid : Nat) (f : Replica → Replica) : (d.setRep msgid f).store = d.store := rfl
@[simp] theorem Dev.setRep_sbp (d : Dev) (msgid : Nat) (f : Replica → Replica) : (d.setRep msgid f).sbp = d.sbp := rfl
@[simp] theorem Dev.setRep_pwr (d : Dev) (msgid : Nat) (f : Replica → Replica) : (d.setRep msgid f).pwr = d.pwr := rfl
@[simp] theorem Dev.setRep_age (d : Dev) (msgid : Nat) (f : Replica → Replica) : (d.setRep msgid f).age = d.age := rfl
@[simp] theorem Dev.setRep_fwm (d : Dev) (msgid : Nat) (f : Replica → Replica) : (d.setRep msgid f).fwm = d.fwm := rfl
@[simp] theorem Dev.setRep_evt (d : Dev) (msgid : Nat) (f : Replica → Replica) : (d.setRep msgid f).evt = d.evt := rfl
@[simp] theorem Dev.setRep_pmc (d : Dev) (msgid : Nat) (f : Replica → Replica) : (d.setRep msgid f).pmc = d.pmc := rfl

/-! ### `dropRep` -/

@[simp] theorem Dev.dropRep_clk (d : Dev) (msgid : Nat) : (d.dropRep msgid).clk = d.clk := rfl
@[simp] theorem Dev.dropRep_free (d : Dev) (msgid : Nat) : (d.dropRep msgid).free = d.free := rfl
@[simp] theorem Dev.dropRep_out (d : Dev) (msgid : Nat) : (d.dropRep msgid).out = d.out := rfl
@[simp] theorem Dev.dropRep_regs (d : Dev) (msgid : Nat) : (d.dropRep msgid).regs = d.regs := rfl
@[simp] theorem Dev.dropRep_latchRd (d : Dev) (msgid : Nat) : (d.dropRep msgid).latchRd = d.latchRd := rfl
@[simp] theorem Dev.dropRep_latchWr (d : Dev) (msgid : Nat) : (d.dropRep msgid).latchWr = d.latchWr := rfl
@[simp] theorem Dev.dropRep_core (d : Dev) (msgid : Nat) : (d.dropRep msgid).core = d.core := rfl
@[simp] theorem Dev.dropRep_hpt (d : Dev) (msgid : Nat) : (d.dropRep msgid).hpt = d.hpt := rfl
@[simp] theorem Dev.dropRep_rgn (d : Dev) (msgid : Nat) : (d.dropRep msgid).rgn = d.rgn := rfl
@[simp] theorem Dev.dropRep_tier (d : Dev) (msgid : Nat) : (d.dropRep msgid).tier = d.tier := rfl
@[simp] theorem Dev.dropRep_mem (d : Dev) (msgid : Nat) : (d.dropRep msgid).mem = d.mem := rfl
@[simp] theorem Dev.dropRep_dur (d : Dev) (msgid : Nat) : (d.dropRep msgid).dur = d.dur := rfl
@[simp] theorem Dev.dropRep_tim (d : Dev) (msgid : Nat) : (d.dropRep msgid).tim = d.tim := rfl
@[simp] theorem Dev.dropRep_fab (d : Dev) (msgid : Nat) : (d.dropRep msgid).fab = d.fab := rfl
@[simp] theorem Dev.dropRep_mdw (d : Dev) (msgid : Nat) : (d.dropRep msgid).mdw = d.mdw := rfl
@[simp] theorem Dev.dropRep_hth (d : Dev) (msgid : Nat) : (d.dropRep msgid).hth = d.hth := rfl
@[simp] theorem Dev.dropRep_cph (d : Dev) (msgid : Nat) : (d.dropRep msgid).cph = d.cph := rfl
@[simp] theorem Dev.dropRep_ring (d : Dev) (msgid : Nat) : (d.dropRep msgid).ring = d.ring := rfl
@[simp] theorem Dev.dropRep_cfx (d : Dev) (msgid : Nat) : (d.dropRep msgid).cfx = d.cfx := rfl
@[simp] theorem Dev.dropRep_store (d : Dev) (msgid : Nat) : (d.dropRep msgid).store = d.store := rfl
@[simp] theorem Dev.dropRep_sbp (d : Dev) (msgid : Nat) : (d.dropRep msgid).sbp = d.sbp := rfl
@[simp] theorem Dev.dropRep_pwr (d : Dev) (msgid : Nat) : (d.dropRep msgid).pwr = d.pwr := rfl
@[simp] theorem Dev.dropRep_age (d : Dev) (msgid : Nat) : (d.dropRep msgid).age = d.age := rfl
@[simp] theorem Dev.dropRep_fwm (d : Dev) (msgid : Nat) : (d.dropRep msgid).fwm = d.fwm := rfl
@[simp] theorem Dev.dropRep_evt (d : Dev) (msgid : Nat) : (d.dropRep msgid).evt = d.evt := rfl
@[simp] theorem Dev.dropRep_pmc (d : Dev) (msgid : Nat) : (d.dropRep msgid).pmc = d.pmc := rfl

/-! ### `setLamp` -/

@[simp] theorem Dev.setLamp_clk (d : Dev) (bay : Nat) (l : Lamp) : (d.setLamp bay l).clk = d.clk := rfl
@[simp] theorem Dev.setLamp_free (d : Dev) (bay : Nat) (l : Lamp) : (d.setLamp bay l).free = d.free := rfl
@[simp] theorem Dev.setLamp_out (d : Dev) (bay : Nat) (l : Lamp) : (d.setLamp bay l).out = d.out := rfl
@[simp] theorem Dev.setLamp_regs (d : Dev) (bay : Nat) (l : Lamp) : (d.setLamp bay l).regs = d.regs := rfl
@[simp] theorem Dev.setLamp_latchRd (d : Dev) (bay : Nat) (l : Lamp) : (d.setLamp bay l).latchRd = d.latchRd := rfl
@[simp] theorem Dev.setLamp_latchWr (d : Dev) (bay : Nat) (l : Lamp) : (d.setLamp bay l).latchWr = d.latchWr := rfl
@[simp] theorem Dev.setLamp_core (d : Dev) (bay : Nat) (l : Lamp) : (d.setLamp bay l).core = d.core := rfl
@[simp] theorem Dev.setLamp_hpt (d : Dev) (bay : Nat) (l : Lamp) : (d.setLamp bay l).hpt = d.hpt := rfl
@[simp] theorem Dev.setLamp_rgn (d : Dev) (bay : Nat) (l : Lamp) : (d.setLamp bay l).rgn = d.rgn := rfl
@[simp] theorem Dev.setLamp_tier (d : Dev) (bay : Nat) (l : Lamp) : (d.setLamp bay l).tier = d.tier := rfl
@[simp] theorem Dev.setLamp_mem (d : Dev) (bay : Nat) (l : Lamp) : (d.setLamp bay l).mem = d.mem := rfl
@[simp] theorem Dev.setLamp_dur (d : Dev) (bay : Nat) (l : Lamp) : (d.setLamp bay l).dur = d.dur := rfl
@[simp] theorem Dev.setLamp_tim (d : Dev) (bay : Nat) (l : Lamp) : (d.setLamp bay l).tim = d.tim := rfl
@[simp] theorem Dev.setLamp_twn (d : Dev) (bay : Nat) (l : Lamp) : (d.setLamp bay l).twn = d.twn := rfl
@[simp] theorem Dev.setLamp_fab (d : Dev) (bay : Nat) (l : Lamp) : (d.setLamp bay l).fab = d.fab := rfl
@[simp] theorem Dev.setLamp_hth (d : Dev) (bay : Nat) (l : Lamp) : (d.setLamp bay l).hth = d.hth := rfl
@[simp] theorem Dev.setLamp_cph (d : Dev) (bay : Nat) (l : Lamp) : (d.setLamp bay l).cph = d.cph := rfl
@[simp] theorem Dev.setLamp_ring (d : Dev) (bay : Nat) (l : Lamp) : (d.setLamp bay l).ring = d.ring := rfl
@[simp] theorem Dev.setLamp_cfx (d : Dev) (bay : Nat) (l : Lamp) : (d.setLamp bay l).cfx = d.cfx := rfl
@[simp] theorem Dev.setLamp_store (d : Dev) (bay : Nat) (l : Lamp) : (d.setLamp bay l).store = d.store := rfl
@[simp] theorem Dev.setLamp_sbp (d : Dev) (bay : Nat) (l : Lamp) : (d.setLamp bay l).sbp = d.sbp := rfl
@[simp] theorem Dev.setLamp_pwr (d : Dev) (bay : Nat) (l : Lamp) : (d.setLamp bay l).pwr = d.pwr := rfl
@[simp] theorem Dev.setLamp_age (d : Dev) (bay : Nat) (l : Lamp) : (d.setLamp bay l).age = d.age := rfl
@[simp] theorem Dev.setLamp_fwm (d : Dev) (bay : Nat) (l : Lamp) : (d.setLamp bay l).fwm = d.fwm := rfl
@[simp] theorem Dev.setLamp_evt (d : Dev) (bay : Nat) (l : Lamp) : (d.setLamp bay l).evt = d.evt := rfl
@[simp] theorem Dev.setLamp_pmc (d : Dev) (bay : Nat) (l : Lamp) : (d.setLamp bay l).pmc = d.pmc := rfl

/-! ### `setTime` -/

@[simp] theorem Dev.setTime_clk (d : Dev) (ext : Nat) : (d.setTime ext).clk = d.clk := rfl
@[simp] theorem Dev.setTime_free (d : Dev) (ext : Nat) : (d.setTime ext).free = d.free := rfl
@[simp] theorem Dev.setTime_out (d : Dev) (ext : Nat) : (d.setTime ext).out = d.out := rfl
@[simp] theorem Dev.setTime_regs (d : Dev) (ext : Nat) : (d.setTime ext).regs = d.regs := rfl
@[simp] theorem Dev.setTime_latchRd (d : Dev) (ext : Nat) : (d.setTime ext).latchRd = d.latchRd := rfl
@[simp] theorem Dev.setTime_latchWr (d : Dev) (ext : Nat) : (d.setTime ext).latchWr = d.latchWr := rfl
@[simp] theorem Dev.setTime_core (d : Dev) (ext : Nat) : (d.setTime ext).core = d.core := rfl
@[simp] theorem Dev.setTime_hpt (d : Dev) (ext : Nat) : (d.setTime ext).hpt = d.hpt := rfl
@[simp] theorem Dev.setTime_rgn (d : Dev) (ext : Nat) : (d.setTime ext).rgn = d.rgn := rfl
@[simp] theorem Dev.setTime_tier (d : Dev) (ext : Nat) : (d.setTime ext).tier = d.tier := rfl
@[simp] theorem Dev.setTime_mem (d : Dev) (ext : Nat) : (d.setTime ext).mem = d.mem := rfl
@[simp] theorem Dev.setTime_dur (d : Dev) (ext : Nat) : (d.setTime ext).dur = d.dur := rfl
@[simp] theorem Dev.setTime_twn (d : Dev) (ext : Nat) : (d.setTime ext).twn = d.twn := rfl
@[simp] theorem Dev.setTime_fab (d : Dev) (ext : Nat) : (d.setTime ext).fab = d.fab := rfl
@[simp] theorem Dev.setTime_mdw (d : Dev) (ext : Nat) : (d.setTime ext).mdw = d.mdw := rfl
@[simp] theorem Dev.setTime_hth (d : Dev) (ext : Nat) : (d.setTime ext).hth = d.hth := rfl
@[simp] theorem Dev.setTime_cph (d : Dev) (ext : Nat) : (d.setTime ext).cph = d.cph := rfl
@[simp] theorem Dev.setTime_ring (d : Dev) (ext : Nat) : (d.setTime ext).ring = d.ring := rfl
@[simp] theorem Dev.setTime_cfx (d : Dev) (ext : Nat) : (d.setTime ext).cfx = d.cfx := rfl
@[simp] theorem Dev.setTime_store (d : Dev) (ext : Nat) : (d.setTime ext).store = d.store := rfl
@[simp] theorem Dev.setTime_sbp (d : Dev) (ext : Nat) : (d.setTime ext).sbp = d.sbp := rfl
@[simp] theorem Dev.setTime_pwr (d : Dev) (ext : Nat) : (d.setTime ext).pwr = d.pwr := rfl
@[simp] theorem Dev.setTime_age (d : Dev) (ext : Nat) : (d.setTime ext).age = d.age := rfl
@[simp] theorem Dev.setTime_fwm (d : Dev) (ext : Nat) : (d.setTime ext).fwm = d.fwm := rfl
@[simp] theorem Dev.setTime_evt (d : Dev) (ext : Nat) : (d.setTime ext).evt = d.evt := rfl
@[simp] theorem Dev.setTime_pmc (d : Dev) (ext : Nat) : (d.setTime ext).pmc = d.pmc := rfl

/-! ### `setSpare` -/

@[simp] theorem Dev.setSpare_clk (d : Dev) (l : Nat) (s : Nat) : (d.setSpare l s).clk = d.clk := rfl
@[simp] theorem Dev.setSpare_free (d : Dev) (l : Nat) (s : Nat) : (d.setSpare l s).free = d.free := rfl
@[simp] theorem Dev.setSpare_out (d : Dev) (l : Nat) (s : Nat) : (d.setSpare l s).out = d.out := rfl
@[simp] theorem Dev.setSpare_regs (d : Dev) (l : Nat) (s : Nat) : (d.setSpare l s).regs = d.regs := rfl
@[simp] theorem Dev.setSpare_latchRd (d : Dev) (l : Nat) (s : Nat) : (d.setSpare l s).latchRd = d.latchRd := rfl
@[simp] theorem Dev.setSpare_latchWr (d : Dev) (l : Nat) (s : Nat) : (d.setSpare l s).latchWr = d.latchWr := rfl
@[simp] theorem Dev.setSpare_core (d : Dev) (l : Nat) (s : Nat) : (d.setSpare l s).core = d.core := rfl
@[simp] theorem Dev.setSpare_hpt (d : Dev) (l : Nat) (s : Nat) : (d.setSpare l s).hpt = d.hpt := rfl
@[simp] theorem Dev.setSpare_rgn (d : Dev) (l : Nat) (s : Nat) : (d.setSpare l s).rgn = d.rgn := rfl
@[simp] theorem Dev.setSpare_tier (d : Dev) (l : Nat) (s : Nat) : (d.setSpare l s).tier = d.tier := rfl
@[simp] theorem Dev.setSpare_mem (d : Dev) (l : Nat) (s : Nat) : (d.setSpare l s).mem = d.mem := rfl
@[simp] theorem Dev.setSpare_dur (d : Dev) (l : Nat) (s : Nat) : (d.setSpare l s).dur = d.dur := rfl
@[simp] theorem Dev.setSpare_tim (d : Dev) (l : Nat) (s : Nat) : (d.setSpare l s).tim = d.tim := rfl
@[simp] theorem Dev.setSpare_twn (d : Dev) (l : Nat) (s : Nat) : (d.setSpare l s).twn = d.twn := rfl
@[simp] theorem Dev.setSpare_fab (d : Dev) (l : Nat) (s : Nat) : (d.setSpare l s).fab = d.fab := rfl
@[simp] theorem Dev.setSpare_mdw (d : Dev) (l : Nat) (s : Nat) : (d.setSpare l s).mdw = d.mdw := rfl
@[simp] theorem Dev.setSpare_hth (d : Dev) (l : Nat) (s : Nat) : (d.setSpare l s).hth = d.hth := rfl
@[simp] theorem Dev.setSpare_cph (d : Dev) (l : Nat) (s : Nat) : (d.setSpare l s).cph = d.cph := rfl
@[simp] theorem Dev.setSpare_ring (d : Dev) (l : Nat) (s : Nat) : (d.setSpare l s).ring = d.ring := rfl
@[simp] theorem Dev.setSpare_cfx (d : Dev) (l : Nat) (s : Nat) : (d.setSpare l s).cfx = d.cfx := rfl
@[simp] theorem Dev.setSpare_store (d : Dev) (l : Nat) (s : Nat) : (d.setSpare l s).store = d.store := rfl
@[simp] theorem Dev.setSpare_sbp (d : Dev) (l : Nat) (s : Nat) : (d.setSpare l s).sbp = d.sbp := rfl
@[simp] theorem Dev.setSpare_pwr (d : Dev) (l : Nat) (s : Nat) : (d.setSpare l s).pwr = d.pwr := rfl
@[simp] theorem Dev.setSpare_fwm (d : Dev) (l : Nat) (s : Nat) : (d.setSpare l s).fwm = d.fwm := rfl
@[simp] theorem Dev.setSpare_evt (d : Dev) (l : Nat) (s : Nat) : (d.setSpare l s).evt = d.evt := rfl
@[simp] theorem Dev.setSpare_pmc (d : Dev) (l : Nat) (s : Nat) : (d.setSpare l s).pmc = d.pmc := rfl

/-! ### `setRoles` -/

@[simp] theorem Dev.setRoles_clk (d : Dev) (l : Nat) (r : List Nat) : (d.setRoles l r).clk = d.clk := rfl
@[simp] theorem Dev.setRoles_free (d : Dev) (l : Nat) (r : List Nat) : (d.setRoles l r).free = d.free := rfl
@[simp] theorem Dev.setRoles_out (d : Dev) (l : Nat) (r : List Nat) : (d.setRoles l r).out = d.out := rfl
@[simp] theorem Dev.setRoles_regs (d : Dev) (l : Nat) (r : List Nat) : (d.setRoles l r).regs = d.regs := rfl
@[simp] theorem Dev.setRoles_latchRd (d : Dev) (l : Nat) (r : List Nat) : (d.setRoles l r).latchRd = d.latchRd := rfl
@[simp] theorem Dev.setRoles_latchWr (d : Dev) (l : Nat) (r : List Nat) : (d.setRoles l r).latchWr = d.latchWr := rfl
@[simp] theorem Dev.setRoles_core (d : Dev) (l : Nat) (r : List Nat) : (d.setRoles l r).core = d.core := rfl
@[simp] theorem Dev.setRoles_hpt (d : Dev) (l : Nat) (r : List Nat) : (d.setRoles l r).hpt = d.hpt := rfl
@[simp] theorem Dev.setRoles_rgn (d : Dev) (l : Nat) (r : List Nat) : (d.setRoles l r).rgn = d.rgn := rfl
@[simp] theorem Dev.setRoles_tier (d : Dev) (l : Nat) (r : List Nat) : (d.setRoles l r).tier = d.tier := rfl
@[simp] theorem Dev.setRoles_mem (d : Dev) (l : Nat) (r : List Nat) : (d.setRoles l r).mem = d.mem := rfl
@[simp] theorem Dev.setRoles_dur (d : Dev) (l : Nat) (r : List Nat) : (d.setRoles l r).dur = d.dur := rfl
@[simp] theorem Dev.setRoles_tim (d : Dev) (l : Nat) (r : List Nat) : (d.setRoles l r).tim = d.tim := rfl
@[simp] theorem Dev.setRoles_twn (d : Dev) (l : Nat) (r : List Nat) : (d.setRoles l r).twn = d.twn := rfl
@[simp] theorem Dev.setRoles_fab (d : Dev) (l : Nat) (r : List Nat) : (d.setRoles l r).fab = d.fab := rfl
@[simp] theorem Dev.setRoles_mdw (d : Dev) (l : Nat) (r : List Nat) : (d.setRoles l r).mdw = d.mdw := rfl
@[simp] theorem Dev.setRoles_hth (d : Dev) (l : Nat) (r : List Nat) : (d.setRoles l r).hth = d.hth := rfl
@[simp] theorem Dev.setRoles_cph (d : Dev) (l : Nat) (r : List Nat) : (d.setRoles l r).cph = d.cph := rfl
@[simp] theorem Dev.setRoles_ring (d : Dev) (l : Nat) (r : List Nat) : (d.setRoles l r).ring = d.ring := rfl
@[simp] theorem Dev.setRoles_cfx (d : Dev) (l : Nat) (r : List Nat) : (d.setRoles l r).cfx = d.cfx := rfl
@[simp] theorem Dev.setRoles_store (d : Dev) (l : Nat) (r : List Nat) : (d.setRoles l r).store = d.store := rfl
@[simp] theorem Dev.setRoles_sbp (d : Dev) (l : Nat) (r : List Nat) : (d.setRoles l r).sbp = d.sbp := rfl
@[simp] theorem Dev.setRoles_pwr (d : Dev) (l : Nat) (r : List Nat) : (d.setRoles l r).pwr = d.pwr := rfl
@[simp] theorem Dev.setRoles_fwm (d : Dev) (l : Nat) (r : List Nat) : (d.setRoles l r).fwm = d.fwm := rfl
@[simp] theorem Dev.setRoles_evt (d : Dev) (l : Nat) (r : List Nat) : (d.setRoles l r).evt = d.evt := rfl
@[simp] theorem Dev.setRoles_pmc (d : Dev) (l : Nat) (r : List Nat) : (d.setRoles l r).pmc = d.pmc := rfl

end Sys2Proof.Machine
end

