-- ==== Sys2Proof/Laws/Events.lean ====
section
/-! SUPPORT. What events, counts and messages leave alone: an event changes the recorder, the side-band messages and what the
device has sent; a count changes the counters and what it has sent. -/

namespace Sys2Proof.Machine

theorem Dev.sendAll_eq (os : List Out) (d : Dev) : ∃ o, d.sendAll os = { d with out := o } := by
  unfold Dev.sendAll
  induction os generalizing d with
  | nil => exact ⟨d.out, rfl⟩
  | cons x r ih =>
    obtain ⟨o, h⟩ := ih (d.send x)
    exact ⟨o, by rw [List.foldl_cons, h]; rfl⟩

theorem Dev.count_eq (d : Dev) (ev inst n : Nat) (x : SampleOf) : ∃ p o, d.count ev inst n x = { d with pmc := p, out := o } := by
  unfold Dev.count
  split
  · exact ⟨d.pmc, d.out, rfl⟩
  · split
    next ss os k _ =>
    extract_lets c
    obtain ⟨o, h⟩ := Dev.sendAll_eq os { d with pmc := { d.pmc with cnts := c, samplers := ss, sampSkip := satAdd 32 d.pmc.sampSkip k } }
    exact ⟨_, o, h⟩

theorem Dev.inBand_eq (d : Dev) : ∃ o, d.inBand = { d with out := o } := by
  unfold Dev.inBand
  split
  · exact ⟨_, rfl⟩
  · exact ⟨d.out, rfl⟩

theorem Dev.signalMsix_eq (d : Dev) (s : Nat) : ∃ e o, d.signalMsix s = { d with evt := e, out := o } := by
  unfold Dev.signalMsix Dev.postVector
  split
  · exact ⟨d.evt, d.out, rfl⟩
  · dsimp only
    split
    · split
      · exact ⟨_, _, rfl⟩
      · exact ⟨_, d.out, rfl⟩
    · exact ⟨_, d.out, rfl⟩

theorem Dev.signalIbi_eq (d : Dev) (s : Nat) (r : Record) : ∃ b e o, d.signalIbi s r = { d with sbp := b, evt := e, out := o } := by
  unfold Dev.signalIbi
  split
  · exact ⟨d.sbp, d.evt, d.out, rfl⟩
  · split
    · obtain ⟨o, h⟩ := Dev.inBand_eq { d with sbp := { d.sbp with notify := d.sbp.notify ++ [r.bytes] } }
      exact ⟨_, d.evt, o, h⟩
    · exact ⟨d.sbp, _, d.out, rfl⟩

theorem Dev.raise_eq (d : Dev) (s sev code inst arg : Nat) (detail : List (BitVec 32)) :
    ∃ b e o, d.raise s sev code inst arg detail = { d with sbp := b, evt := e, out := o } := by
  unfold Dev.raise
  extract_lets r f
  obtain ⟨e, o, h⟩ : ∃ e o, (if f.coreOn then f.signalMsix s else f) = { d with evt := e, out := o } := by
    split
    · obtain ⟨e, o, h⟩ := f.signalMsix_eq s
      exact ⟨e, o, h⟩
    · exact ⟨_, d.out, rfl⟩
  obtain ⟨b, e', o', h'⟩ := Dev.signalIbi_eq { d with evt := e, out := o } s r
  exact ⟨b, e', o', by rw [h]; exact h'⟩

/-! ### Field by field -/

@[simp] theorem Dev.count_clk (d : Dev) (ev inst n : Nat) (x : SampleOf) : (d.count ev inst n x).clk = d.clk := by
  obtain ⟨_, _, h⟩ := d.count_eq ev inst n x
  rw [h]

@[simp] theorem Dev.count_free (d : Dev) (ev inst n : Nat) (x : SampleOf) : (d.count ev inst n x).free = d.free := by
  obtain ⟨_, _, h⟩ := d.count_eq ev inst n x
  rw [h]

@[simp] theorem Dev.count_regs (d : Dev) (ev inst n : Nat) (x : SampleOf) : (d.count ev inst n x).regs = d.regs := by
  obtain ⟨_, _, h⟩ := d.count_eq ev inst n x
  rw [h]

@[simp] theorem Dev.count_latchRd (d : Dev) (ev inst n : Nat) (x : SampleOf) : (d.count ev inst n x).latchRd = d.latchRd := by
  obtain ⟨_, _, h⟩ := d.count_eq ev inst n x
  rw [h]

@[simp] theorem Dev.count_latchWr (d : Dev) (ev inst n : Nat) (x : SampleOf) : (d.count ev inst n x).latchWr = d.latchWr := by
  obtain ⟨_, _, h⟩ := d.count_eq ev inst n x
  rw [h]

@[simp] theorem Dev.count_core (d : Dev) (ev inst n : Nat) (x : SampleOf) : (d.count ev inst n x).core = d.core := by
  obtain ⟨_, _, h⟩ := d.count_eq ev inst n x
  rw [h]

@[simp] theorem Dev.count_hpt (d : Dev) (ev inst n : Nat) (x : SampleOf) : (d.count ev inst n x).hpt = d.hpt := by
  obtain ⟨_, _, h⟩ := d.count_eq ev inst n x
  rw [h]

@[simp] theorem Dev.count_rgn (d : Dev) (ev inst n : Nat) (x : SampleOf) : (d.count ev inst n x).rgn = d.rgn := by
  obtain ⟨_, _, h⟩ := d.count_eq ev inst n x
  rw [h]

@[simp] theorem Dev.count_tier (d : Dev) (ev inst n : Nat) (x : SampleOf) : (d.count ev inst n x).tier = d.tier := by
  obtain ⟨_, _, h⟩ := d.count_eq ev inst n x
  rw [h]

@[simp] theorem Dev.count_mem (d : Dev) (ev inst n : Nat) (x : SampleOf) : (d.count ev inst n x).mem = d.mem := by
  obtain ⟨_, _, h⟩ := d.count_eq ev inst n x
  rw [h]

@[simp] theorem Dev.count_dur (d : Dev) (ev inst n : Nat) (x : SampleOf) : (d.count ev inst n x).dur = d.dur := by
  obtain ⟨_, _, h⟩ := d.count_eq ev inst n x
  rw [h]

@[simp] theorem Dev.count_tim (d : Dev) (ev inst n : Nat) (x : SampleOf) : (d.count ev inst n x).tim = d.tim := by
  obtain ⟨_, _, h⟩ := d.count_eq ev inst n x
  rw [h]

@[simp] theorem Dev.count_twn (d : Dev) (ev inst n : Nat) (x : SampleOf) : (d.count ev inst n x).twn = d.twn := by
  obtain ⟨_, _, h⟩ := d.count_eq ev inst n x
  rw [h]

@[simp] theorem Dev.count_fab (d : Dev) (ev inst n : Nat) (x : SampleOf) : (d.count ev inst n x).fab = d.fab := by
  obtain ⟨_, _, h⟩ := d.count_eq ev inst n x
  rw [h]

@[simp] theorem Dev.count_mdw (d : Dev) (ev inst n : Nat) (x : SampleOf) : (d.count ev inst n x).mdw = d.mdw := by
  obtain ⟨_, _, h⟩ := d.count_eq ev inst n x
  rw [h]

@[simp] theorem Dev.count_hth (d : Dev) (ev inst n : Nat) (x : SampleOf) : (d.count ev inst n x).hth = d.hth := by
  obtain ⟨_, _, h⟩ := d.count_eq ev inst n x
  rw [h]

@[simp] theorem Dev.count_cph (d : Dev) (ev inst n : Nat) (x : SampleOf) : (d.count ev inst n x).cph = d.cph := by
  obtain ⟨_, _, h⟩ := d.count_eq ev inst n x
  rw [h]

@[simp] theorem Dev.count_ring (d : Dev) (ev inst n : Nat) (x : SampleOf) : (d.count ev inst n x).ring = d.ring := by
  obtain ⟨_, _, h⟩ := d.count_eq ev inst n x
  rw [h]

@[simp] theorem Dev.count_cfx (d : Dev) (ev inst n : Nat) (x : SampleOf) : (d.count ev inst n x).cfx = d.cfx := by
  obtain ⟨_, _, h⟩ := d.count_eq ev inst n x
  rw [h]

@[simp] theorem Dev.count_store (d : Dev) (ev inst n : Nat) (x : SampleOf) : (d.count ev inst n x).store = d.store := by
  obtain ⟨_, _, h⟩ := d.count_eq ev inst n x
  rw [h]

@[simp] theorem Dev.count_sbp (d : Dev) (ev inst n : Nat) (x : SampleOf) : (d.count ev inst n x).sbp = d.sbp := by
  obtain ⟨_, _, h⟩ := d.count_eq ev inst n x
  rw [h]

@[simp] theorem Dev.count_pwr (d : Dev) (ev inst n : Nat) (x : SampleOf) : (d.count ev inst n x).pwr = d.pwr := by
  obtain ⟨_, _, h⟩ := d.count_eq ev inst n x
  rw [h]

@[simp] theorem Dev.count_age (d : Dev) (ev inst n : Nat) (x : SampleOf) : (d.count ev inst n x).age = d.age := by
  obtain ⟨_, _, h⟩ := d.count_eq ev inst n x
  rw [h]

@[simp] theorem Dev.count_fwm (d : Dev) (ev inst n : Nat) (x : SampleOf) : (d.count ev inst n x).fwm = d.fwm := by
  obtain ⟨_, _, h⟩ := d.count_eq ev inst n x
  rw [h]

@[simp] theorem Dev.count_evt (d : Dev) (ev inst n : Nat) (x : SampleOf) : (d.count ev inst n x).evt = d.evt := by
  obtain ⟨_, _, h⟩ := d.count_eq ev inst n x
  rw [h]

@[simp] theorem Dev.signalMsix_clk (d : Dev) (s : Nat) : (d.signalMsix s).clk = d.clk := by
  obtain ⟨_, _, h⟩ := d.signalMsix_eq s
  rw [h]

@[simp] theorem Dev.signalMsix_free (d : Dev) (s : Nat) : (d.signalMsix s).free = d.free := by
  obtain ⟨_, _, h⟩ := d.signalMsix_eq s
  rw [h]

@[simp] theorem Dev.signalMsix_regs (d : Dev) (s : Nat) : (d.signalMsix s).regs = d.regs := by
  obtain ⟨_, _, h⟩ := d.signalMsix_eq s
  rw [h]

@[simp] theorem Dev.signalMsix_latchRd (d : Dev) (s : Nat) : (d.signalMsix s).latchRd = d.latchRd := by
  obtain ⟨_, _, h⟩ := d.signalMsix_eq s
  rw [h]

@[simp] theorem Dev.signalMsix_latchWr (d : Dev) (s : Nat) : (d.signalMsix s).latchWr = d.latchWr := by
  obtain ⟨_, _, h⟩ := d.signalMsix_eq s
  rw [h]

@[simp] theorem Dev.signalMsix_core (d : Dev) (s : Nat) : (d.signalMsix s).core = d.core := by
  obtain ⟨_, _, h⟩ := d.signalMsix_eq s
  rw [h]

@[simp] theorem Dev.signalMsix_hpt (d : Dev) (s : Nat) : (d.signalMsix s).hpt = d.hpt := by
  obtain ⟨_, _, h⟩ := d.signalMsix_eq s
  rw [h]

@[simp] theorem Dev.signalMsix_rgn (d : Dev) (s : Nat) : (d.signalMsix s).rgn = d.rgn := by
  obtain ⟨_, _, h⟩ := d.signalMsix_eq s
  rw [h]

@[simp] theorem Dev.signalMsix_tier (d : Dev) (s : Nat) : (d.signalMsix s).tier = d.tier := by
  obtain ⟨_, _, h⟩ := d.signalMsix_eq s
  rw [h]

@[simp] theorem Dev.signalMsix_mem (d : Dev) (s : Nat) : (d.signalMsix s).mem = d.mem := by
  obtain ⟨_, _, h⟩ := d.signalMsix_eq s
  rw [h]

@[simp] theorem Dev.signalMsix_dur (d : Dev) (s : Nat) : (d.signalMsix s).dur = d.dur := by
  obtain ⟨_, _, h⟩ := d.signalMsix_eq s
  rw [h]

@[simp] theorem Dev.signalMsix_tim (d : Dev) (s : Nat) : (d.signalMsix s).tim = d.tim := by
  obtain ⟨_, _, h⟩ := d.signalMsix_eq s
  rw [h]

@[simp] theorem Dev.signalMsix_twn (d : Dev) (s : Nat) : (d.signalMsix s).twn = d.twn := by
  obtain ⟨_, _, h⟩ := d.signalMsix_eq s
  rw [h]

@[simp] theorem Dev.signalMsix_fab (d : Dev) (s : Nat) : (d.signalMsix s).fab = d.fab := by
  obtain ⟨_, _, h⟩ := d.signalMsix_eq s
  rw [h]

@[simp] theorem Dev.signalMsix_mdw (d : Dev) (s : Nat) : (d.signalMsix s).mdw = d.mdw := by
  obtain ⟨_, _, h⟩ := d.signalMsix_eq s
  rw [h]

@[simp] theorem Dev.signalMsix_hth (d : Dev) (s : Nat) : (d.signalMsix s).hth = d.hth := by
  obtain ⟨_, _, h⟩ := d.signalMsix_eq s
  rw [h]

@[simp] theorem Dev.signalMsix_cph (d : Dev) (s : Nat) : (d.signalMsix s).cph = d.cph := by
  obtain ⟨_, _, h⟩ := d.signalMsix_eq s
  rw [h]

@[simp] theorem Dev.signalMsix_ring (d : Dev) (s : Nat) : (d.signalMsix s).ring = d.ring := by
  obtain ⟨_, _, h⟩ := d.signalMsix_eq s
  rw [h]

@[simp] theorem Dev.signalMsix_cfx (d : Dev) (s : Nat) : (d.signalMsix s).cfx = d.cfx := by
  obtain ⟨_, _, h⟩ := d.signalMsix_eq s
  rw [h]

@[simp] theorem Dev.signalMsix_store (d : Dev) (s : Nat) : (d.signalMsix s).store = d.store := by
  obtain ⟨_, _, h⟩ := d.signalMsix_eq s
  rw [h]

@[simp] theorem Dev.signalMsix_sbp (d : Dev) (s : Nat) : (d.signalMsix s).sbp = d.sbp := by
  obtain ⟨_, _, h⟩ := d.signalMsix_eq s
  rw [h]

@[simp] theorem Dev.signalMsix_pwr (d : Dev) (s : Nat) : (d.signalMsix s).pwr = d.pwr := by
  obtain ⟨_, _, h⟩ := d.signalMsix_eq s
  rw [h]

@[simp] theorem Dev.signalMsix_age (d : Dev) (s : Nat) : (d.signalMsix s).age = d.age := by
  obtain ⟨_, _, h⟩ := d.signalMsix_eq s
  rw [h]

@[simp] theorem Dev.signalMsix_fwm (d : Dev) (s : Nat) : (d.signalMsix s).fwm = d.fwm := by
  obtain ⟨_, _, h⟩ := d.signalMsix_eq s
  rw [h]

@[simp] theorem Dev.signalMsix_pmc (d : Dev) (s : Nat) : (d.signalMsix s).pmc = d.pmc := by
  obtain ⟨_, _, h⟩ := d.signalMsix_eq s
  rw [h]

@[simp] theorem Dev.raise_clk (d : Dev) (s sev code inst arg : Nat) (detail : List (BitVec 32)) : (d.raise s sev code inst arg detail).clk = d.clk := by
  obtain ⟨_, _, _, h⟩ := d.raise_eq s sev code inst arg detail
  rw [h]

@[simp] theorem Dev.raise_free (d : Dev) (s sev code inst arg : Nat) (detail : List (BitVec 32)) : (d.raise s sev code inst arg detail).free = d.free := by
  obtain ⟨_, _, _, h⟩ := d.raise_eq s sev code inst arg detail
  rw [h]

@[simp] theorem Dev.raise_regs (d : Dev) (s sev code inst arg : Nat) (detail : List (BitVec 32)) : (d.raise s sev code inst arg detail).regs = d.regs := by
  obtain ⟨_, _, _, h⟩ := d.raise_eq s sev code inst arg detail
  rw [h]

@[simp] theorem Dev.raise_latchRd (d : Dev) (s sev code inst arg : Nat) (detail : List (BitVec 32)) : (d.raise s sev code inst arg detail).latchRd = d.latchRd := by
  obtain ⟨_, _, _, h⟩ := d.raise_eq s sev code inst arg detail
  rw [h]

@[simp] theorem Dev.raise_latchWr (d : Dev) (s sev code inst arg : Nat) (detail : List (BitVec 32)) : (d.raise s sev code inst arg detail).latchWr = d.latchWr := by
  obtain ⟨_, _, _, h⟩ := d.raise_eq s sev code inst arg detail
  rw [h]

@[simp] theorem Dev.raise_core (d : Dev) (s sev code inst arg : Nat) (detail : List (BitVec 32)) : (d.raise s sev code inst arg detail).core = d.core := by
  obtain ⟨_, _, _, h⟩ := d.raise_eq s sev code inst arg detail
  rw [h]

@[simp] theorem Dev.raise_hpt (d : Dev) (s sev code inst arg : Nat) (detail : List (BitVec 32)) : (d.raise s sev code inst arg detail).hpt = d.hpt := by
  obtain ⟨_, _, _, h⟩ := d.raise_eq s sev code inst arg detail
  rw [h]

@[simp] theorem Dev.raise_rgn (d : Dev) (s sev code inst arg : Nat) (detail : List (BitVec 32)) : (d.raise s sev code inst arg detail).rgn = d.rgn := by
  obtain ⟨_, _, _, h⟩ := d.raise_eq s sev code inst arg detail
  rw [h]

@[simp] theorem Dev.raise_tier (d : Dev) (s sev code inst arg : Nat) (detail : List (BitVec 32)) : (d.raise s sev code inst arg detail).tier = d.tier := by
  obtain ⟨_, _, _, h⟩ := d.raise_eq s sev code inst arg detail
  rw [h]

@[simp] theorem Dev.raise_mem (d : Dev) (s sev code inst arg : Nat) (detail : List (BitVec 32)) : (d.raise s sev code inst arg detail).mem = d.mem := by
  obtain ⟨_, _, _, h⟩ := d.raise_eq s sev code inst arg detail
  rw [h]

@[simp] theorem Dev.raise_dur (d : Dev) (s sev code inst arg : Nat) (detail : List (BitVec 32)) : (d.raise s sev code inst arg detail).dur = d.dur := by
  obtain ⟨_, _, _, h⟩ := d.raise_eq s sev code inst arg detail
  rw [h]

@[simp] theorem Dev.raise_tim (d : Dev) (s sev code inst arg : Nat) (detail : List (BitVec 32)) : (d.raise s sev code inst arg detail).tim = d.tim := by
  obtain ⟨_, _, _, h⟩ := d.raise_eq s sev code inst arg detail
  rw [h]

@[simp] theorem Dev.raise_twn (d : Dev) (s sev code inst arg : Nat) (detail : List (BitVec 32)) : (d.raise s sev code inst arg detail).twn = d.twn := by
  obtain ⟨_, _, _, h⟩ := d.raise_eq s sev code inst arg detail
  rw [h]

@[simp] theorem Dev.raise_fab (d : Dev) (s sev code inst arg : Nat) (detail : List (BitVec 32)) : (d.raise s sev code inst arg detail).fab = d.fab := by
  obtain ⟨_, _, _, h⟩ := d.raise_eq s sev code inst arg detail
  rw [h]

@[simp] theorem Dev.raise_mdw (d : Dev) (s sev code inst arg : Nat) (detail : List (BitVec 32)) : (d.raise s sev code inst arg detail).mdw = d.mdw := by
  obtain ⟨_, _, _, h⟩ := d.raise_eq s sev code inst arg detail
  rw [h]

@[simp] theorem Dev.raise_hth (d : Dev) (s sev code inst arg : Nat) (detail : List (BitVec 32)) : (d.raise s sev code inst arg detail).hth = d.hth := by
  obtain ⟨_, _, _, h⟩ := d.raise_eq s sev code inst arg detail
  rw [h]

@[simp] theorem Dev.raise_cph (d : Dev) (s sev code inst arg : Nat) (detail : List (BitVec 32)) : (d.raise s sev code inst arg detail).cph = d.cph := by
  obtain ⟨_, _, _, h⟩ := d.raise_eq s sev code inst arg detail
  rw [h]

@[simp] theorem Dev.raise_ring (d : Dev) (s sev code inst arg : Nat) (detail : List (BitVec 32)) : (d.raise s sev code inst arg detail).ring = d.ring := by
  obtain ⟨_, _, _, h⟩ := d.raise_eq s sev code inst arg detail
  rw [h]

@[simp] theorem Dev.raise_cfx (d : Dev) (s sev code inst arg : Nat) (detail : List (BitVec 32)) : (d.raise s sev code inst arg detail).cfx = d.cfx := by
  obtain ⟨_, _, _, h⟩ := d.raise_eq s sev code inst arg detail
  rw [h]

@[simp] theorem Dev.raise_store (d : Dev) (s sev code inst arg : Nat) (detail : List (BitVec 32)) : (d.raise s sev code inst arg detail).store = d.store := by
  obtain ⟨_, _, _, h⟩ := d.raise_eq s sev code inst arg detail
  rw [h]

@[simp] theorem Dev.raise_pwr (d : Dev) (s sev code inst arg : Nat) (detail : List (BitVec 32)) : (d.raise s sev code inst arg detail).pwr = d.pwr := by
  obtain ⟨_, _, _, h⟩ := d.raise_eq s sev code inst arg detail
  rw [h]

@[simp] theorem Dev.raise_age (d : Dev) (s sev code inst arg : Nat) (detail : List (BitVec 32)) : (d.raise s sev code inst arg detail).age = d.age := by
  obtain ⟨_, _, _, h⟩ := d.raise_eq s sev code inst arg detail
  rw [h]

@[simp] theorem Dev.raise_fwm (d : Dev) (s sev code inst arg : Nat) (detail : List (BitVec 32)) : (d.raise s sev code inst arg detail).fwm = d.fwm := by
  obtain ⟨_, _, _, h⟩ := d.raise_eq s sev code inst arg detail
  rw [h]

@[simp] theorem Dev.raise_pmc (d : Dev) (s sev code inst arg : Nat) (detail : List (BitVec 32)) : (d.raise s sev code inst arg detail).pmc = d.pmc := by
  obtain ⟨_, _, _, h⟩ := d.raise_eq s sev code inst arg detail
  rw [h]

end Sys2Proof.Machine
end

