-- ==== Sys2Proof/Laws/Sound1.lean ====
section
/-! SUPPORT. What every shared operation keeps: the time-base count and, where the device is sound, the invariant `Dev.Ok`. One
lemma per operation, which later proofs cite instead of unfolding it. -/

set_option Elab.async false

namespace Sys2Proof.Machine

/-- The time-base count is `ck` and, if `I`, the invariant holds. With `I` a truth it is the invariant, with `q` a falsehood the
count alone. -/
structure Dev.Sound (I : Prop) (ck : Nat) (d : Dev) : Prop where
  clk : d.clk = ck
  ok : I → d.Ok

variable {I : Prop} {ck : Nat}

/-- A change of other parts of the device. -/
theorem Dev.Sound.upd {clk free out regs lr lw core hpt rgn tier dur tim twn fab mdw hth cph ring cfx store sbp pwr age fwm evt pmc}
    {d : Dev} (h : d.Sound I ck) (hc : clk = d.clk := by rfl) (hs : dur.snaps = d.dur.snaps := by rfl)
    (hn : sbp.notify = d.sbp.notify := by rfl) (h1 : evt.recs = d.evt.recs := by rfl)
    (h2 : evt.mirror = d.evt.mirror := by rfl) (h3 : evt.dark = d.evt.dark := by rfl) :
    (Dev.mk clk free out regs lr lw core hpt rgn tier d.mem dur tim twn fab mdw hth cph ring cfx store sbp pwr age fwm evt
      pmc).Sound I ck :=
  ⟨hc.trans h.clk, fun hq => ⟨by simpa [hs] using (h.ok hq).mem, by simpa [h1, h2, h3] using (h.ok hq).recs,
    by simpa [hn] using (h.ok hq).ibi⟩⟩

theorem Dev.Sound.ite {p : Prop} [Decidable p] {a b : Dev} (ha : a.Sound I ck) (hb : b.Sound I ck) :
    (if p then a else b).Sound I ck := by split <;> assumption

theorem Dev.Sound.foldl {α : Type} {f : Dev → α → Dev} {l : List α} {d : Dev} (h : d.Sound I ck)
    (hf : ∀ d x, d.Sound I ck → (f d x).Sound I ck) : (l.foldl f d).Sound I ck := by
  induction l generalizing d with
  | nil => exact h
  | cons x r ih => exact ih (hf d x h)

theorem Dev.Sound.fst {β : Type} {p : Dev × β} {a : Dev} {b : β} (e : p = (a, b)) (h : p.1.Sound I ck) : a.Sound I ck := by
  subst e; exact h

theorem Dev.Sound.snd {β : Type} {p : β × Dev} {a : Dev} {b : β} (e : p = (b, a)) (h : p.2.Sound I ck) : a.Sound I ck := by
  subst e; exact h

theorem Dev.Sound.getD {o : Option Dev} {d : Dev} (h : d.Sound I ck) (ho : ∀ x, o = some x → x.Sound I ck) :
    (o.getD d).Sound I ck := by
  cases o with
  | none => exact h
  | some x => exact ho x rfl

/-- A change of memory that keeps its canonical form. -/
theorem Dev.Sound.setMem {d : Dev} {m : MemSt} (h : d.Sound I ck)
    (hm : d.Ok → memsOk m.meadow m.heath d.dur.snaps) : ({ d with mem := m } : Dev).Sound I ck :=
  ⟨h.clk, fun hq => ⟨hm (h.ok hq), (h.ok hq).recs, (h.ok hq).ibi⟩⟩

theorem Dev.Sound.setMeadow {d : Dev} {m : List Host.Cell} {u : List Nat} (h : d.Sound I ck)
    (hm : Memory.wf d.mem.meadow → Memory.wf m) :
    ({ d with mem := { heath := d.mem.heath, meadow := m, unrestored := u } } : Dev).Sound I ck :=
  h.setMem fun o => ⟨hm o.mem.1, o.mem.2⟩

theorem Dev.Sound.setHeath {d : Dev} {m : List Host.Cell} {u : List Nat} (h : d.Sound I ck)
    (hm : Memory.wf d.mem.heath → Memory.wf m) :
    ({ d with mem := { meadow := d.mem.meadow, heath := m, unrestored := u } } : Dev).Sound I ck :=
  h.setMem fun o => ⟨o.mem.1, hm o.mem.2.1, o.mem.2.2⟩

/-- A change of what the save area holds that keeps the canonical form of its memories. -/
theorem Dev.Sound.setDur {d : Dev} {u : DurSt} (h : d.Sound I ck)
    (hs : d.Ok → ∀ s ∈ u.snaps, Memory.wf s.meadow ∧ Memory.wf s.heath) : ({ d with dur := u } : Dev).Sound I ck :=
  ⟨h.clk, fun hq => ⟨⟨(h.ok hq).mem.1, (h.ok hq).mem.2.1, hs (h.ok hq)⟩, (h.ok hq).recs, (h.ok hq).ibi⟩⟩

/-- A change of the recorder that keeps its bounds. -/
theorem Dev.Sound.setEvt {d : Dev} {e : EvtSt} (h : d.Sound I ck) (he : d.Ok → recsOk e.recs e.mirror e.dark) :
    ({ d with evt := e } : Dev).Sound I ck :=
  ⟨h.clk, fun hq => ⟨(h.ok hq).mem, he (h.ok hq), (h.ok hq).ibi⟩⟩

/-- A change of the side-band port that keeps the bound of its messages. -/
theorem Dev.Sound.setSbp {d : Dev} {b : SbpSt} (h : d.Sound I ck) (hb : d.Ok → b.notify.length ≤ 16) :
    ({ d with sbp := b } : Dev).Sound I ck :=
  ⟨h.clk, fun hq => ⟨(h.ok hq).mem, (h.ok hq).recs, hb (h.ok hq)⟩⟩

/-! ### The recorder -/

theorem EvtSt.place_recs (e : EvtSt) (r : Record) (h : e.recs.length ≤ 4096) :
    (e.place r).recs.length ≤ 4096 ∧ (e.place r).mirror = e.mirror ∧ (e.place r).dark = e.dark := by
  unfold EvtSt.place
  split
  · exact ⟨by simp; omega, rfl, rfl⟩
  · split
    · next o ho =>
      refine ⟨?_, rfl, rfl⟩
      have hm : o ∈ e.recs := List.mem_of_find?_eq_some ho
      have := List.length_filter_lt_length_iff_exists (l := e.recs) (p := fun x => x.seq != o.seq) |>.2 ⟨o, hm, by simp⟩
      simp only [List.length_append, List.length_cons, List.length_nil]
      omega
    · exact ⟨h, rfl, rfl⟩

theorem EvtSt.record_recs (e : EvtSt) (r : Record) (m c : Nat) (h : e.recs.length ≤ 4096) :
    (e.record r m c).recs.length ≤ 4096 ∧ (e.record r m c).mirror = e.mirror ∧ (e.record r m c).dark = e.dark := by
  unfold EvtSt.record
  split
  · exact ⟨h, rfl, rfl⟩
  · split
    · next n hn =>
      split
      · refine ⟨?_, rfl, rfl⟩
        simp only [List.length_append, List.length_dropLast, List.length_cons, List.length_nil]
        have : 0 < e.recs.length := by
          cases hr : e.recs with
          | nil => simp [hr] at hn
          | cons => simp
        omega
      · exact e.place_recs r h
    · exact e.place_recs r h

theorem EvtSt.recordDark_recs (e : EvtSt) (r : Record) (h : e.dark.length ≤ 16) :
    (e.recordDark r).recs = e.recs ∧ (e.recordDark r).mirror = e.mirror ∧ (e.recordDark r).dark.length ≤ 16 := by
  unfold EvtSt.recordDark
  split
  · exact ⟨rfl, rfl, by simp; omega⟩
  · exact ⟨rfl, rfl, h⟩

theorem EvtSt.join_recs (l : List Record) (e : EvtSt) (h : e.recs.length ≤ 4096) :
    (l.foldl EvtSt.join e).recs.length ≤ 4096 ∧ (l.foldl EvtSt.join e).mirror = e.mirror ∧
      (l.foldl EvtSt.join e).dark = e.dark := by
  induction l generalizing e with
  | nil => exact ⟨h, rfl, rfl⟩
  | cons x r ih =>
    have p := e.place_recs { x with seq := e.nextSeq } h
    have i := ih (e.join x) p.1
    exact ⟨i.1, i.2.1.trans p.2.1, i.2.2.trans p.2.2⟩


theorem Dev.fset_sound {d : Dev} {x : Fld} {v : Nat} (hd : d.Sound I ck) : (d.fset x v).Sound I ck := by
  unfold Dev.fset
  exact .upd hd

theorem Dev.finc_sound {d : Dev} {x : Fld} {n : Nat} (hd : d.Sound I ck) : (d.finc x n).Sound I ck := by
  unfold Dev.finc
  exact Dev.fset_sound hd

theorem Dev.resetRegs_sound {d : Dev} {cls : List ResetClass} (hd : d.Sound I ck) : (d.resetRegs cls).Sound I ck := by
  unfold Dev.resetRegs
  exact .upd hd

theorem Dev.tick_sound {d : Dev} {t : Nat} (hd : d.Sound I ck) : (d.tick t).Sound I (max ck t) := by
  exact ⟨by simp [Dev.tick, hd.clk], fun h => ⟨(hd.ok h).mem, (hd.ok h).recs, (hd.ok h).ibi⟩⟩

theorem Dev.send_sound {d : Dev} {o : Out} (hd : d.Sound I ck) : (d.send o).Sound I ck := by
  unfold Dev.send
  exact .upd hd

theorem Dev.sendAll_sound {d : Dev} {os : List Out} (hd : d.Sound I ck) : (d.sendAll os).Sound I ck := by
  unfold Dev.sendAll
  exact .foldl hd fun _ _ h1 => (Dev.send_sound h1)

theorem Dev.used_sound {d : Dev} (hd : d.Sound I ck) : (d.used).Sound I ck := by
  unfold Dev.used
  exact .upd hd

theorem Dev.postVector_sound {d : Dev} {v : Nat} (hd : d.Sound I ck) : (d.postVector v).Sound I ck := by
  unfold Dev.postVector
  exact .ite (Dev.send_sound hd) (.upd hd)

theorem Dev.signalMsix_sound {d : Dev} {s : Nat} (hd : d.Sound I ck) : (d.signalMsix s).Sound I ck := by
  unfold Dev.signalMsix
  exact .ite hd (.ite (Dev.postVector_sound (.upd hd)) (.upd hd))

theorem Dev.inBand_sound {d : Dev} (hd : d.Sound I ck) : (d.inBand).Sound I ck := by
  unfold Dev.inBand
  exact .ite (Dev.send_sound hd) hd

theorem Dev.signalIbi_sound {d : Dev} {s : Nat} {r : Record} (hd : d.Sound I ck) : (d.signalIbi s r).Sound I ck := by
  unfold Dev.signalIbi
  split
  · exact hd
  · split
    · next hl => exact Dev.inBand_sound (hd.setSbp fun _ => by simp; omega)
    · exact .upd hd

theorem Dev.writeMirror_sound {d : Dev} (hd : d.Sound I ck) : (d.writeMirror).Sound I ck := by
  unfold Dev.writeMirror
  exact hd.setEvt fun o => ⟨o.recs.1, o.recs.1, o.recs.2.2⟩

theorem Dev.raise_sound {d : Dev} {s : Nat} {sev : Nat} {code : Nat} {inst : Nat} {arg : Nat} {detail : List (BitVec 32)} (hd :
    d.Sound I ck) : (d.raise s sev code inst arg detail).Sound I ck := by
  unfold Dev.raise
  extract_lets r d1
  have h1 : d1.Sound I ck := hd.setEvt fun o => by
    split
    · have p := d.evt.record_recs r (d.f EVR_CTL.MIN_SEV) d.clk o.recs.1
      exact ⟨p.1, p.2.1 ▸ o.recs.2.1, p.2.2 ▸ o.recs.2.2⟩
    · split
      · have p := d.evt.recordDark_recs r o.recs.2.2
        exact ⟨p.1 ▸ o.recs.1, p.2.1 ▸ o.recs.2.1, p.2.2⟩
      · exact o.recs
  exact Dev.signalIbi_sound (.ite (Dev.signalMsix_sound h1) h1)

theorem Dev.illegal_sound {d : Dev} {kind : Nat} {loc : Nat} {inst : Nat} (hd : d.Sound I ck) : (d.illegal kind loc inst).Sound
    I ck := by
  unfold Dev.illegal
  exact Dev.raise_sound (Dev.finc_sound (Dev.fset_sound (Dev.fset_sound hd)))

theorem Dev.count_sound {d : Dev} {ev : Nat} {inst : Nat} {n : Nat} {x : SampleOf} (hd : d.Sound I ck) : (d.count ev inst n
    x).Sound I ck := by
  unfold Dev.count
  refine .ite ?_ ?_
  · exact hd
  · extract_lets +onlyGivenNames x1
    split
    exact Dev.sendAll_sound (.upd hd)

theorem Dev.setChan_sound {d : Dev} {n : Nat} {f : Chan → Chan} (hd : d.Sound I ck) : (d.setChan n f).Sound I ck := by
  unfold Dev.setChan
  exact .upd hd

theorem Dev.dirtyPage_sound {d : Dev} {page : Nat} {epoch : Nat} (hd : d.Sound I ck) : (d.dirtyPage page epoch).Sound I ck := by
  unfold Dev.dirtyPage
  exact .upd hd

theorem Dev.setRegion_sound {d : Dev} {rid : Nat} {r : Region} (hd : d.Sound I ck) : (d.setRegion rid r).Sound I ck := by
  unfold Dev.setRegion
  exact Dev.dirtyPage_sound (.upd hd)

theorem Dev.setEntry_sound {d : Dev} {idx : Nat} {e : HomeEntry} (hd : d.Sound I ck) : (d.setEntry idx e).Sound I ck := by
  unfold Dev.setEntry
  exact Dev.dirtyPage_sound (.upd hd)

theorem Dev.broadcast_sound {d : Dev} {idx : Nat} (hd : d.Sound I ck) : (d.broadcast idx).Sound I ck := by
  unfold Dev.broadcast
  exact .upd hd

theorem Dev.broadcastRun_sound {d : Dev} {base : Nat} {n : Nat} (hd : d.Sound I ck) : (d.broadcastRun base n).Sound I ck := by
  unfold Dev.broadcastRun
  exact .upd hd

theorem Dev.homeChange_sound {d : Dev} {idx : Nat} {t : Tier} {loc : Nat} {st : PlotState} (hd : d.Sound I ck) : (d.homeChange
    idx t loc st).Sound I ck := by
  unfold Dev.homeChange
  exact Dev.broadcast_sound (Dev.setEntry_sound hd)

theorem Dev.setPlotState_sound {d : Dev} {idx : Nat} {st : PlotState} (hd : d.Sound I ck) : (d.setPlotState idx st).Sound I ck
    := by
  unfold Dev.setPlotState
  exact Dev.broadcast_sound (Dev.setEntry_sound hd)

theorem Dev.setPin_sound {d : Dev} {idx : Nat} {p : Bool} (hd : d.Sound I ck) : (d.setPin idx p).Sound I ck := by
  unfold Dev.setPin
  exact Dev.broadcast_sound (Dev.setEntry_sound hd)

theorem Dev.addHeat_sound {d : Dev} {idx : Nat} {n : Nat} (hd : d.Sound I ck) : (d.addHeat idx n).Sound I ck := by
  unfold Dev.addHeat
  exact .ite hd (.upd (Dev.setEntry_sound hd))

theorem Dev.sample_sound {d : Dev} {lantern : Nat} {idx : Nat} {inc : Nat} (hd : d.Sound I ck) : (d.sample lantern idx
    inc).Sound I ck := by
  unfold Dev.sample
  exact .ite (.upd (Dev.addHeat_sound (.upd hd))) (.upd hd)

theorem Dev.wickTouch_sound {d : Dev} {l : Nat} {e : Nat} (hd : d.Sound I ck) : (d.wickTouch l e).Sound I ck := by
  unfold Dev.wickTouch
  exact .upd hd

theorem Dev.wickLookup_sound {d : Dev} {l : Nat} {idx : Nat} (hd : d.Sound I ck) : (d.wickLookup l idx).Sound I ck := by
  unfold Dev.wickLookup
  extract_lets +onlyGivenNames d1
  have h1 : d1.Sound I ck := Dev.count_sound hd
  split
  · exact Dev.count_sound (Dev.wickTouch_sound (Dev.finc_sound h1))
  · exact .ite (Dev.count_sound (Dev.finc_sound h1)) (.upd (Dev.count_sound (Dev.finc_sound h1)))

theorem Dev.clearPlot_sound {d : Dev} {loc : Nat} (hd : d.Sound I ck) : (d.clearPlot loc).Sound I ck := by
  exact hd.setMeadow (memClear_wf _ _)

theorem Dev.firstWrite_sound {d : Dev} {l : Nat} {idx : Nat} {st : PlotState} (hd : d.Sound I ck) : ∀ d₁, d.firstWrite l idx st
    = some d₁ → d₁.Sound I ck := by
  intro d₁ e
  unfold Dev.firstWrite at e
  split at e
  · simp at e
  · obtain rfl := Option.some.inj e
    exact Dev.homeChange_sound (Dev.clearPlot_sound (.upd hd))

theorem Dev.refill_sound {d : Dev} {l : Nat} {a1 : Nat} (hd : d.Sound I ck) : (d.refill l a1).Sound I ck := by
  unfold Dev.refill
  split
  · exact hd
  · exact .ite hd (Dev.refill_sound (.upd hd))

theorem Dev.journalLine_sound {d : Dev} {epoch : Nat} {line : Nat} (hd : d.Sound I ck) : (d.journalLine epoch line).Sound I ck
    := by
  unfold Dev.journalLine
  split
  · exact hd
  · exact .ite hd (.upd hd)

theorem Dev.dirtyLines_sound {d : Dev} {lines : List Nat} {epoch : Nat} (hd : d.Sound I ck) : (d.dirtyLines lines epoch).Sound I
    ck := by
  unfold Dev.dirtyLines
  exact .foldl (.foldl hd fun _ _ h1 => (Dev.journalLine_sound h1)) fun _ _ h2 => (Dev.dirtyPage_sound h2)

theorem Dev.pokeMeadow_sound {d : Dev} {a : Nat} {bs : List Byte} (hd : d.Sound I ck) : (d.pokeMeadow a bs).Sound I ck := by
  exact hd.setMeadow (memWrite_wf _ _)

theorem Dev.writeMeadow_sound {d : Dev} {a : Nat} {bs : List Byte} {epoch : Nat} (hd : d.Sound I ck) : (d.writeMeadow a bs
    epoch).Sound I ck := by
  unfold Dev.writeMeadow
  exact Dev.pokeMeadow_sound (Dev.dirtyLines_sound hd)

theorem Dev.candleTouch_sound {d : Dev} {idx : Nat} (hd : d.Sound I ck) : (d.candleTouch idx).Sound I ck := by
  unfold Dev.candleTouch
  split
  · exact hd
  · exact .upd hd

theorem Dev.candleDrop_sound {d : Dev} {p : Nat → Bool} (hd : d.Sound I ck) : (d.candleDrop p).Sound I ck := by
  unfold Dev.candleDrop
  exact .upd hd

theorem Dev.candleAdd_sound {d : Dev} {idx : Nat} (hd : d.Sound I ck) : (d.candleAdd idx).Sound I ck := by
  unfold Dev.candleAdd
  split
  · exact hd
  · extract_lets +onlyGivenNames d1
    have h1 : d1.Sound I ck := by
      unfold d1
      split
      · exact Dev.candleDrop_sound hd
      · exact hd
    split
    · exact h1
    · next k _ =>
      have h2 : ({ d1 with tier := { d1.tier with candle := d1.tier.candle ++ [(idx, candlePlot k)] } } : Dev).Sound I ck := .upd h1
      exact h2.setMeadow fun w => memWrite_wf _ _ (memClear_wf _ _ w)

theorem Dev.releaseHome_sound {d : Dev} {t : Tier} {loc : Nat} (hd : d.Sound I ck) : (d.releaseHome t loc).Sound I ck := by
  unfold Dev.releaseHome
  split
  · exact hd
  · exact .ite (.upd hd) hd
  · exact .upd hd
  · exact .upd hd

theorem Dev.setMig_sound {d : Dev} {idx : Nat} {f : Migration → Migration} (hd : d.Sound I ck) : (d.setMig idx f).Sound I ck :=
    by
  unfold Dev.setMig
  exact .upd hd

theorem Dev.dropMig_sound {d : Dev} {idx : Nat} (hd : d.Sound I ck) : (d.dropMig idx).Sound I ck := by
  unfold Dev.dropMig
  exact .upd hd

theorem Dev.takeDest_sound {d : Dev} {t : Tier} (hd : d.Sound I ck) : ∀ p d₁, d.takeDest t = some (p, d₁) → d₁.Sound I ck := by
  intro p d₁ e
  unfold Dev.takeDest at e
  split at e
  · simp at e
  · split at e
    · simp at e
    · obtain ⟨-, rfl⟩ := Prod.mk.inj (Option.some.inj e)
      exact .upd hd
  all_goals
    split at e
    · simp at e
    · obtain ⟨-, rfl⟩ := Prod.mk.inj (Option.some.inj e)
      exact .upd hd

theorem Dev.formCaps_sound {d : Dev} (hd : d.Sound I ck) : (d.formCaps).Sound I ck := by
  unfold Dev.formCaps
  exact Dev.fset_sound (Dev.fset_sound hd)

theorem Dev.cancelMig_sound {d : Dev} {idx : Nat} (hd : d.Sound I ck) : (d.cancelMig idx).Sound I ck := by
  unfold Dev.cancelMig
  split
  · exact hd
  · extract_lets +onlyGivenNames d1
    have h1 : d1.Sound I ck := Dev.dropMig_sound hd
    extract_lets +onlyGivenNames d2
    have h2 : d2.Sound I ck := .ite h1 (Dev.setPlotState_sound h1)
    exact Dev.finc_sound (Dev.releaseHome_sound (.upd h2))

theorem Dev.makeRoom_sound {d : Dev} {l : Nat} (hd : d.Sound I ck) : (d.makeRoom l).Sound I ck := by
  unfold Dev.makeRoom
  refine .ite ?_ ?_
  · exact hd
  · split
    · exact Dev.cancelMig_sound hd
    · exact hd

theorem Dev.beginMig_sound {d : Dev} {idx : Nat} {kind : MigKind} {t : Tier} {loc : Nat} {lantern : Nat} (hd : d.Sound I ck) :
    (d.beginMig idx kind t loc lantern).Sound I ck := by
  unfold Dev.beginMig
  exact .ite (Dev.broadcast_sound (.upd (.upd hd))) (Dev.setPlotState_sound (.upd (.upd hd)))

theorem Dev.unqueue_sound {d : Dev} {idx : Nat} {w : MigKind × Tier} (hd : d.Sound I ck) : (d.unqueue idx w).Sound I ck := by
  unfold Dev.unqueue
  exact .upd hd

theorem Dev.queueMig_sound {d : Dev} {idx : Nat} {kind : MigKind} {t : Tier} (hd : d.Sound I ck) : (d.queueMig idx kind t).Sound
    I ck := by
  unfold Dev.queueMig
  exact .ite hd (.ite hd (.ite hd (.upd hd)))

theorem Dev.issueMig_sound {d : Dev} {idx : Nat} (hd : d.Sound I ck) : (d.issueMig idx).Sound I ck := by
  unfold Dev.issueMig
  split
  · extract_lets +onlyGivenNames x1
    extract_lets +onlyGivenNames d2
    have h2 : d2.Sound I ck := Dev.unqueue_sound hd
    refine .ite ?_ ?_
    · exact h2
    · refine .ite ?_ ?_
      · exact hd
      · extract_lets +onlyGivenNames x3
        refine .ite ?_ ?_
        · exact hd
        · extract_lets +onlyGivenNames d4
          have h4 : d4.Sound I ck := .ite (Dev.makeRoom_sound hd) hd
          split
          · exact .ite h2 h4
          · rename_i x5 x6 d7 e8
            have hd7 : d7.Sound I ck := Dev.takeDest_sound h4 _ _ e8
            exact .ite h4 (Dev.unqueue_sound (Dev.beginMig_sound hd7))
  · exact hd

theorem Dev.startMig_sound {d : Dev} {idx : Nat} {kind : MigKind} {t : Tier} (hd : d.Sound I ck) : (d.startMig idx kind t).Sound
    I ck := by
  unfold Dev.startMig
  split
  · exact Dev.queueMig_sound hd
  · exact .ite (Dev.queueMig_sound hd) (.ite (Dev.setMig_sound hd) (Dev.queueMig_sound (Dev.cancelMig_sound hd)))

theorem Dev.evacuate_sound {d : Dev} {idx : Nat} (hd : d.Sound I ck) : (d.evacuate idx).Sound I ck := by
  unfold Dev.evacuate
  exact Dev.startMig_sound hd

theorem Dev.demand_sound {d : Dev} {idx : Nat} (hd : d.Sound I ck) : (d.demand idx).Sound I ck := by
  unfold Dev.demand
  exact Dev.startMig_sound hd

theorem Dev.witness_sound {d : Dev} {idx : Nat} {off : Nat} {n : Nat} (hd : d.Sound I ck) : (d.witness idx off n).Sound I ck :=
    by
  unfold Dev.witness
  split
  · exact hd
  · exact .ite (Dev.setMig_sound hd) (.ite (Dev.cancelMig_sound hd) hd)

theorem Dev.placePlot_sound {d : Dev} {idx : Nat} (hd : d.Sound I ck) : (d.placePlot idx).Sound I ck := by
  unfold Dev.placePlot
  split
  · exact hd
  · extract_lets +onlyGivenNames x1
    extract_lets +onlyGivenNames x2
    clear_value x2
    split
    · exact hd
    · exact .ite hd (.ite (.ite hd (Dev.candleAdd_sound hd)) (.ite (Dev.startMig_sound hd) (Dev.startMig_sound hd)))

theorem Dev.copyPlot_sound {d : Dev} {m : Migration} (hd : d.Sound I ck) : (d.copyPlot m).Sound I ck := by
  unfold Dev.copyPlot
  refine .ite hd ?_
  extract_lets src bs
  refine .ite (Dev.writeMeadow_sound (hd.setMeadow (memClear_wf _ _))) ?_
  exact hd.setHeath fun w => memWrite_wf _ _ (memClear_wf _ _ w)

theorem Dev.refuseMig_sound {d : Dev} {idx : Nat} (hd : d.Sound I ck) : (d.refuseMig idx).Sound I ck := by
  unfold Dev.refuseMig
  split
  · exact hd
  · exact .ite (.upd (Dev.cancelMig_sound (Dev.count_sound (Dev.finc_sound (Dev.setMig_sound hd))))) (Dev.count_sound (Dev.finc_sound (Dev.setMig_sound hd)))

theorem Dev.commitMig_sound {d : Dev} {idx : Nat} (hd : d.Sound I ck) : (d.commitMig idx).Sound I ck := by
  unfold Dev.commitMig
  split
  · exact hd
  · exact .ite (Dev.cancelMig_sound hd) (Dev.count_sound (Dev.finc_sound (Dev.dropMig_sound (Dev.releaseHome_sound (.upd (Dev.homeChange_sound hd))))))

theorem Dev.setOver_sound {d : Dev} (hd : d.Sound I ck) : (d.setOver).Sound I ck := by
  unfold Dev.setOver
  exact .ite hd (Dev.raise_sound (Dev.fset_sound (Dev.fset_sound hd)))

theorem Dev.writeThrough_sound {d : Dev} (hd : d.Sound I ck) : (d.writeThrough).Sound I ck := by
  unfold Dev.writeThrough
  exact .ite hd (.ite (.ite (.upd (Dev.fset_sound hd)) (Dev.raise_sound (Dev.setOver_sound (.upd (Dev.fset_sound hd))))) (.upd (Dev.fset_sound hd)))

theorem Dev.rebudget_sound {d : Dev} (hd : d.Sound I ck) : (d.rebudget).Sound I ck := by
  unfold Dev.rebudget
  exact .ite (.ite (Dev.setOver_sound (.upd (Dev.writeThrough_sound (Dev.fset_sound hd)))) (.upd (Dev.writeThrough_sound (Dev.fset_sound hd)))) (.ite (.upd (Dev.writeThrough_sound (Dev.fset_sound hd))) (.upd (Dev.writeThrough_sound (Dev.fset_sound hd))))

theorem Dev.takeAdmission_sound {d : Dev} {pages : Nat} {mirrored : Bool} (hd : d.Sound I ck) : (d.takeAdmission pages
    mirrored).Sound I ck := by
  unfold Dev.takeAdmission
  exact .upd hd

theorem Dev.unreserve_sound {d : Dev} {pages : Nat} (hd : d.Sound I ck) : (d.unreserve pages).Sound I ck := by
  unfold Dev.unreserve
  exact .upd hd

theorem Dev.setConn_sound {d : Dev} {c : Nat} {f : Conn → Conn} (hd : d.Sound I ck) : (d.setConn c f).Sound I ck := by
  unfold Dev.setConn
  exact .upd hd

theorem Dev.setOp_sound {d : Dev} {id : Nat} {f : Op → Op} (hd : d.Sound I ck) : (d.setOp id f).Sound I ck := by
  unfold Dev.setOp
  exact .upd hd

theorem Dev.setPort_sound {d : Dev} {p : Nat} {f : Port → Port} (hd : d.Sound I ck) : (d.setPort p f).Sound I ck := by
  unfold Dev.setPort
  exact .upd hd

theorem Dev.freeTag_sound {d : Dev} {id : Nat} (hd : d.Sound I ck) : (d.freeTag id).Sound I ck := by
  unfold Dev.freeTag
  exact .upd hd

theorem Dev.freeTags_sound {d : Dev} {tags : List Nat} (hd : d.Sound I ck) : (d.freeTags tags).Sound I ck := by
  unfold Dev.freeTags
  exact .foldl hd fun _ _ h1 => (Dev.freeTag_sound h1)

theorem Dev.egress_sound {d : Dev} {port : Nat} {h : Held} (hd : d.Sound I ck) : (d.egress port h).Sound I ck := by
  unfold Dev.egress
  exact .ite (Dev.freeTags_sound hd) (.ite (Dev.setPort_sound hd) (Dev.freeTags_sound (Dev.sendAll_sound hd)))

theorem Dev.emit_sound {d : Dev} {r : Resp} {tag : Option Nat} (hd : d.Sound I ck) : (d.emit r tag).Sound I ck := by
  unfold Dev.emit
  exact Dev.egress_sound hd

theorem Dev.letOut_sound {d : Dev} {p : Nat} (hd : d.Sound I ck) : (d.letOut p).Sound I ck := by
  unfold Dev.letOut
  exact .ite hd (Dev.freeTags_sound (Dev.sendAll_sound (Dev.setPort_sound hd)))

theorem Dev.takeTag_sound {d : Dev} {l : Nat} {slot : Nat} (hd : d.Sound I ck) : (d.takeTag l slot).2.Sound I ck := by
  unfold Dev.takeTag
  exact .upd hd

theorem Dev.putBack_sound {d : Dev} {journal : List (Nat × Byte)} {lines : List Nat} (hd : d.Sound I ck) : (d.putBack journal
    lines).Sound I ck := by
  unfold Dev.putBack
  refine .foldl (hd.setMeadow (memPuts_wf (fun _ c => c) _)) fun _ _ h => ?_
  split
  · exact Dev.witness_sound h
  · exact h

theorem Dev.rollback_sound {d : Dev} {o : Op} (hd : d.Sound I ck) : (d.rollback o).Sound I ck := by
  unfold Dev.rollback
  exact Dev.putBack_sound hd

theorem Dev.unlist_sound {d : Dev} {o : Op} (hd : d.Sound I ck) : (d.unlist o).Sound I ck := by
  unfold Dev.unlist
  exact .ite (.upd (Dev.unreserve_sound hd)) (Dev.setConn_sound (.upd (Dev.unreserve_sound hd)))

theorem Dev.retire_sound {d : Dev} {o : Op} (hd : d.Sound I ck) : (d.retire o).Sound I ck := by
  unfold Dev.retire
  exact .ite (Dev.freeTag_sound (Dev.unlist_sound hd)) (Dev.unlist_sound hd)

theorem Dev.defer_sound {d : Dev} {conn : Nat} {rid : Nat} {psn : Nat} (hd : d.Sound I ck) : (d.defer conn rid psn).Sound I ck
    := by
  unfold Dev.defer
  exact Dev.raise_sound (Dev.setConn_sound hd)

theorem Dev.restoreNow_sound {d : Dev} {ts : List Touch} (hd : d.Sound I ck) : (d.restoreNow ts).Sound I ck := by
  unfold Dev.restoreNow
  exact hd.setMeadow id

theorem Dev.setRing_sound {d : Dev} {n : Nat} {f : Ring → Ring} (hd : d.Sound I ck) : (d.setRing n f).Sound I ck := by
  unfold Dev.setRing
  exact .upd hd

theorem Dev.cqWrite_sound {d : Dev} {n : Nat} {e : BitVec 128} (hd : d.Sound I ck) : (d.cqWrite n e).Sound I ck := by
  unfold Dev.cqWrite
  exact .ite (Dev.fset_sound (Dev.fset_sound (Dev.send_sound hd))) (Dev.fset_sound (Dev.send_sound hd))

theorem Dev.postCompletion_sound {d : Dev} {c : Cmd} {e : BitVec 128} (hd : d.Sound I ck) : (d.postCompletion c e).Sound I ck :=
    by
  unfold Dev.postCompletion
  extract_lets +onlyGivenNames x1
  refine .ite ?_ ?_
  · exact Dev.fset_sound (Dev.setRing_sound hd)
  · extract_lets +onlyGivenNames d2
    have h2 : d2.Sound I ck := Dev.fset_sound (Dev.cqWrite_sound hd)
    extract_lets +onlyGivenNames d3
    have h3 : d3.Sound I ck := .ite (Dev.fset_sound h2) h2
    exact .ite (Dev.postVector_sound h3) h3

theorem Dev.releaseHeld_sound {d : Dev} {n : Nat} {a1 : Nat} (hd : d.Sound I ck) : (d.releaseHeld n a1).Sound I ck := by
  unfold Dev.releaseHeld
  split
  · exact hd
  · split
    · refine .ite ?_ ?_
      · exact hd
      · extract_lets +onlyGivenNames x1
        extract_lets +onlyGivenNames d2
        have h2 : d2.Sound I ck := Dev.cqWrite_sound (Dev.setRing_sound hd)
        extract_lets +onlyGivenNames d3
        have h3 : d3.Sound I ck := Dev.fset_sound h2
        extract_lets +onlyGivenNames d4
        have h4 : d4.Sound I ck := .ite (Dev.postVector_sound h3) h3
        exact Dev.releaseHeld_sound h4
    · exact .ite hd (Dev.fset_sound hd)

theorem Dev.setCmd_sound {d : Dev} {id : Nat} {f : Cmd → Cmd} (hd : d.Sound I ck) : (d.setCmd id f).Sound I ck := by
  unfold Dev.setCmd
  exact .upd hd

theorem Dev.dropCmd_sound {d : Dev} {id : Nat} (hd : d.Sound I ck) : (d.dropCmd id).Sound I ck := by
  unfold Dev.dropCmd
  exact .upd hd

theorem Dev.answerSide_sound {d : Dev} {c : Cmd} {status : Nat} {res0 : Nat} {res1 : Nat} (hd : d.Sound I ck) : (d.answerSide c
    status res0 res1).Sound I ck := by
  unfold Dev.answerSide
  exact .ite (Dev.send_sound hd) (.ite (Dev.send_sound hd) (.ite (Dev.send_sound hd) (.ite (Dev.send_sound hd) (Dev.send_sound hd))))

theorem Dev.answerDark_sound {d : Dev} {c : Cmd} (hd : d.Sound I ck) : (d.answerDark c).Sound I ck := by
  unfold Dev.answerDark
  exact .ite (Dev.send_sound (Dev.finc_sound hd)) (Dev.send_sound (Dev.finc_sound hd))

theorem Dev.finish_sound {d : Dev} {c : Cmd} {status : Nat} {res0 : Nat} {res1 : Nat} (hd : d.Sound I ck) : (d.finish c status
    res0 res1).Sound I ck := by
  unfold Dev.finish
  exact .ite (Dev.answerSide_sound (Dev.dropCmd_sound hd)) (.ite (Dev.raise_sound (Dev.dropCmd_sound hd)) (.upd (Dev.postCompletion_sound (Dev.dropCmd_sound hd))))

theorem Dev.settleWaits_sound {d : Dev} {a1 : Nat} (hd : d.Sound I ck) : (d.settleWaits a1).Sound I ck := by
  unfold Dev.settleWaits
  split
  · exact hd
  · split
    · exact hd
    · split
      · exact Dev.settleWaits_sound (Dev.finish_sound hd)
      · exact hd

theorem Dev.complete_sound {d : Dev} {c : Cmd} {status : Nat} {res0 : Nat} {res1 : Nat} (hd : d.Sound I ck) : (d.complete c
    status res0 res1).Sound I ck := by
  unfold Dev.complete
  exact Dev.settleWaits_sound (Dev.finish_sound hd)

theorem Dev.notifyImm_sound {d : Dev} {qpn : Nat} {imm : Nat} {rid : Nat} {epoch : Nat} (hd : d.Sound I ck) : (d.notifyImm qpn
    imm rid epoch).Sound I ck := by
  unfold Dev.notifyImm
  exact .ite hd (.ite (.upd (Dev.finc_sound hd)) (.upd (Dev.cqWrite_sound hd)))

theorem Dev.twinNonce_sound {d : Dev} (hd : d.Sound I ck) : (d.twinNonce).Sound I ck := by
  unfold Dev.twinNonce
  exact .ite (.upd hd) (.upd (.upd hd))

theorem Dev.twinPut_sound {d : Dev} {f : TxFrame} (hd : d.Sound I ck) : (d.twinPut f).Sound I ck := by
  unfold Dev.twinPut
  exact Dev.send_sound (Dev.twinNonce_sound hd)

theorem Dev.twinPhase_sound {d : Dev} {next : Nat} (hd : d.Sound I ck) : (d.twinPhase next).Sound I ck := by
  unfold Dev.twinPhase
  exact .upd (Dev.fset_sound hd)

theorem Dev.twinTransmit_sound {d : Dev} {f : TxFrame} (hd : d.Sound I ck) : (d.twinTransmit f).Sound I ck := by
  unfold Dev.twinTransmit
  exact .ite (Dev.twinPhase_sound (Dev.count_sound (Dev.twinPut_sound (.upd hd)))) (Dev.count_sound (Dev.twinPut_sound (.upd hd)))

theorem Dev.twinQueue_sound {d : Dev} {f : TxFrame} (hd : d.Sound I ck) : (d.twinQueue f).Sound I ck := by
  unfold Dev.twinQueue
  exact .ite hd (.ite (.upd hd) (Dev.twinTransmit_sound hd))

theorem Dev.twinRekey_sound {d : Dev} (hd : d.Sound I ck) : (d.twinRekey).Sound I ck := by
  unfold Dev.twinRekey
  exact .ite (.ite (Dev.twinQueue_sound (.upd (Dev.fset_sound hd))) (Dev.twinPhase_sound (.upd (Dev.fset_sound hd)))) (.upd hd)

theorem Dev.twinRenew_sound {d : Dev} (hd : d.Sound I ck) : (d.twinRenew).Sound I ck := by
  unfold Dev.twinRenew
  exact .ite (Dev.twinRekey_sound hd) hd

theorem Dev.twinSend_sound {d : Dev} {mtype : Nat} {msgid : Nat} {args : List Nat} {data : List Byte} (hd : d.Sound I ck) :
    (d.twinSend mtype msgid args data).Sound I ck := by
  unfold Dev.twinSend
  exact Dev.twinRenew_sound (Dev.twinQueue_sound hd)

theorem Dev.twinNow_sound {d : Dev} {mtype : Nat} {args : List Nat} (hd : d.Sound I ck) : (d.twinNow mtype args).Sound I ck :=
    by
  unfold Dev.twinNow
  exact .ite hd (Dev.count_sound (Dev.twinPut_sound hd))

theorem Dev.twinDrain_sound {d : Dev} {a1 : Nat} (hd : d.Sound I ck) : (d.twinDrain a1).Sound I ck := by
  unfold Dev.twinDrain
  split
  · exact hd
  · split
    · exact hd
    · exact .ite hd (Dev.twinDrain_sound (Dev.twinTransmit_sound (.upd hd)))

theorem Dev.twinAck_sound {d : Dev} {ack : Nat} (hd : d.Sound I ck) : (d.twinAck ack).Sound I ck := by
  unfold Dev.twinAck
  exact Dev.twinDrain_sound (.upd hd)

theorem Dev.twinResend_sound {d : Dev} {first : Nat} (hd : d.Sound I ck) : (d.twinResend first).Sound I ck := by
  unfold Dev.twinResend
  exact .upd (.foldl hd fun _ _ h2 => (Dev.count_sound (Dev.finc_sound (Dev.twinPut_sound h2))))

theorem Dev.twinDown_sound {d : Dev} (hd : d.Sound I ck) : (d.twinDown).Sound I ck := by
  unfold Dev.twinDown
  exact .ite hd (Dev.finc_sound (Dev.fset_sound (Dev.fset_sound (.upd hd))))

theorem Dev.twinTagFail_sound {d : Dev} (hd : d.Sound I ck) : (d.twinTagFail).Sound I ck := by
  unfold Dev.twinTagFail
  exact .ite (Dev.raise_sound (Dev.twinDown_sound (Dev.finc_sound (.upd hd)))) (Dev.finc_sound (.upd hd))

theorem Dev.twinLife_sound {d : Dev} {h : TwHdr} (hd : d.Sound I ck) : (d.twinLife h).Sound I ck := by
  unfold Dev.twinLife
  extract_lets +onlyGivenNames d1
  have h1 : d1.Sound I ck := .ite (Dev.fset_sound hd) hd
  exact .upd h1

theorem Dev.twinRx_sound {d : Dev} {h : TwHdr} {free : Bool} {act : Dev → Dev} (hd : d.Sound I ck) (hact : ∀ (d₀ : Dev),
    d₀.Sound I ck → Dev.Sound I ck (act d₀)) : (d.twinRx h free act).Sound I ck := by
  unfold Dev.twinRx
  exact .ite hd (.ite (Dev.twinTagFail_sound hd) (.ite (Dev.finc_sound hd) (.ite (hact _ (Dev.twinAck_sound (Dev.twinLife_sound hd))) (.ite (hact _ (.upd (Dev.twinAck_sound (Dev.twinLife_sound hd)))) (.ite (Dev.twinAck_sound (Dev.twinLife_sound hd)) (Dev.twinNow_sound (Dev.twinAck_sound (Dev.twinLife_sound hd))))))))

theorem Dev.setFlink_sound {d : Dev} {n : Nat} {f : FabLink → FabLink} (hd : d.Sound I ck) : (d.setFlink n f).Sound I ck := by
  unfold Dev.setFlink
  exact .upd hd

theorem Dev.fabNonce_sound {d : Dev} {n : Nat} (hd : d.Sound I ck) : (d.fabNonce n).Sound I ck := by
  unfold Dev.fabNonce
  exact .ite (.upd (Dev.setFlink_sound hd)) (Dev.setFlink_sound hd)

theorem Dev.fabPut_sound {d : Dev} {n : Nat} {f : TxFrame} (hd : d.Sound I ck) : (d.fabPut n f).Sound I ck := by
  unfold Dev.fabPut
  exact Dev.send_sound (Dev.fabNonce_sound hd)

theorem Dev.fabTransmit_sound {d : Dev} {n : Nat} {f : TxFrame} (hd : d.Sound I ck) : (d.fabTransmit n f).Sound I ck := by
  unfold Dev.fabTransmit
  exact Dev.fabPut_sound (Dev.setFlink_sound hd)

theorem Dev.fabDrain_sound {d : Dev} {n : Nat} {a1 : Nat} (hd : d.Sound I ck) : (d.fabDrain n a1).Sound I ck := by
  unfold Dev.fabDrain
  split
  · exact hd
  · split
    · exact hd
    · exact Dev.fabDrain_sound (Dev.fabTransmit_sound (Dev.setFlink_sound hd))

theorem Dev.fabFrame_sound {d : Dev} {n : Nat} {f : TxFrame} (hd : d.Sound I ck) : (d.fabFrame n f).Sound I ck := by
  unfold Dev.fabFrame
  exact Dev.fabDrain_sound (Dev.setFlink_sound hd)

theorem Dev.fabNow_sound {d : Dev} {n : Nat} {ftype : Nat} {args : List Nat} (hd : d.Sound I ck) : (d.fabNow n ftype args).Sound
    I ck := by
  unfold Dev.fabNow
  exact Dev.fabFrame_sound hd

theorem Dev.fabAskAgain_sound {d : Dev} {n : Nat} (hd : d.Sound I ck) : (d.fabAskAgain n).Sound I ck := by
  unfold Dev.fabAskAgain
  exact Dev.fabPut_sound hd

theorem Dev.fabAck_sound {d : Dev} {n : Nat} {ack : Nat} (hd : d.Sound I ck) : (d.fabAck n ack).Sound I ck := by
  unfold Dev.fabAck
  exact Dev.fabDrain_sound (Dev.setFlink_sound hd)

theorem Dev.fabResend_sound {d : Dev} {n : Nat} {first : Nat} (hd : d.Sound I ck) : (d.fabResend n first).Sound I ck := by
  unfold Dev.fabResend
  exact Dev.setFlink_sound (.foldl hd fun _ _ h2 => (Dev.fabPut_sound h2))

theorem Dev.fabRekey_sound {d : Dev} (hd : d.Sound I ck) : (d.fabRekey).Sound I ck := by
  unfold Dev.fabRekey
  exact .ite (.upd (Dev.fset_sound (Dev.fset_sound (.foldl hd fun _ _ h3 => (Dev.fabNow_sound h3))))) (.upd hd)

theorem Dev.fabRenew_sound {d : Dev} (hd : d.Sound I ck) : (d.fabRenew).Sound I ck := by
  unfold Dev.fabRenew
  exact .ite (Dev.fabRekey_sound hd) hd

theorem Dev.takeMidx_sound {d : Dev} (hd : d.Sound I ck) : ∀ p q d₁, d.takeMidx = some (p, q, d₁) → d₁.Sound I ck := by
  intro i g d₁ e
  unfold Dev.takeMidx at e
  simp only at e
  split at e
  · simp at e
  · next j x hx =>
    have hp : x.Sound I ck := by
      split at hx
      · obtain ⟨-, rfl⟩ := Prod.mk.inj (Option.some.inj hx)
        exact .upd hd
      · split at hx
        · obtain ⟨-, rfl⟩ := Prod.mk.inj (Option.some.inj hx)
          exact .upd hd
        · simp at hx
    obtain ⟨-, rfl⟩ := Prod.mk.inj (Prod.mk.inj (Option.some.inj e)).2
    exact .upd hp

theorem Dev.sendSegs_sound {d : Dev} {r : Route} {f : TxFrame} {data : List Byte} {a1 : Nat} (hd : d.Sound I ck) : (d.sendSegs r
    f data a1).Sound I ck := by
  unfold Dev.sendSegs
  split
  · exact hd
  · exact .ite (Dev.count_sound (Dev.fabFrame_sound (.upd hd))) (Dev.sendSegs_sound (Dev.count_sound (Dev.fabFrame_sound (.upd hd))))

theorem Dev.fabSend_sound {d : Dev} {dst : Nat} {mtype : Nat} {args : List Nat} {data : List Byte} {stamp : Option Nat} (hd :
    d.Sound I ck) : (d.fabSend dst mtype args data stamp).Sound I ck := by
  unfold Dev.fabSend
  refine .ite ?_ ?_
  · exact hd
  · split
    · exact hd
    · refine .ite ?_ ?_
      · exact hd
      · split
        · exact hd
        · rename_i x1 x2 x3 d4 e5
          have hd4 : d4.Sound I ck := Dev.takeMidx_sound hd _ _ _ e5
          exact .upd (Dev.fabRenew_sound (Dev.sendSegs_sound (Dev.send_sound hd4)))

theorem Dev.freeMsg_sound {d : Dev} {p : Sent → Bool} (hd : d.Sound I ck) : (d.freeMsg p).Sound I ck := by
  unfold Dev.freeMsg
  exact .upd hd

theorem Dev.setFbit_sound {d : Dev} {x : Fld} {i : Nat} {b : Bool} (hd : d.Sound I ck) : (d.setFbit x i b).Sound I ck := by
  unfold Dev.setFbit
  exact .ite hd (Dev.fset_sound hd)

theorem Dev.wake_sound {d : Dev} {u : Nat} (hd : d.Sound I ck) : (d.wake u).Sound I ck := by
  unfold Dev.wake
  exact .ite (.upd hd) hd

theorem Dev.allAwake_sound {d : Dev} (hd : d.Sound I ck) : (d.allAwake).Sound I ck := by
  unfold Dev.allAwake
  exact .foldl hd fun _ _ h1 => (Dev.fset_sound h1)

theorem Dev.addBlock_sound {d : Dev} {o : Op} (hd : d.Sound I ck) : (d.addBlock o).Sound I ck := by
  unfold Dev.addBlock
  exact .upd hd

theorem Dev.writeBlock_sound {d : Dev} {c : Cmd} {data : List Byte} (hd : d.Sound I ck) : (d.writeBlock c data).Sound I ck := by
  unfold Dev.writeBlock
  extract_lets +onlyGivenNames x1
  split
  · exact Dev.complete_sound hd
  · split
    · exact Dev.complete_sound hd
    · extract_lets +onlyGivenNames x2
      extract_lets +onlyGivenNames x3
      extract_lets +onlyGivenNames x4
      refine .ite ?_ ?_
      · exact hd
      · extract_lets +onlyGivenNames d5
        have h5 : d5.Sound I ck := .ite hd (Dev.takeAdmission_sound hd)
        extract_lets +onlyGivenNames x6
        extract_lets +onlyGivenNames y7_0 d7
        have h7 : d7.Sound I ck := .ite (.upd h5) h5
        exact Dev.addBlock_sound h7

theorem Dev.readBlock_sound {d : Dev} {c : Cmd} (hd : d.Sound I ck) : (d.readBlock c).Sound I ck := by
  unfold Dev.readBlock
  split
  · exact Dev.complete_sound hd
  · split
    · exact Dev.complete_sound hd
    · exact Dev.addBlock_sound hd

theorem Dev.healPlots_sound {d : Dev} {c : Cmd} (hd : d.Sound I ck) : (d.healPlots c).Sound I ck := by
  unfold Dev.healPlots
  split
  · exact hd
  · exact .ite hd (.foldl hd fun _ _ h1 => (Dev.setPlotState_sound h1))

theorem Dev.stepJob_sound {d : Dev} {id : Nat} (hd : d.Sound I ck) : (d.stepJob id).Sound I ck := by
  unfold Dev.stepJob
  split
  · exact hd
  · exact .ite hd (.ite (.ite hd (Dev.complete_sound (.ite (Dev.healPlots_sound hd) hd))) (.ite (Dev.writeBlock_sound hd) (Dev.readBlock_sound hd)))

theorem Dev.replyBlock_sound {d : Dev} {o : Op} {a : Answer} (hd : d.Sound I ck) : (d.replyBlock o a).Sound I ck := by
  unfold Dev.replyBlock
  split
  · exact hd
  · exact .ite hd (.ite (Dev.complete_sound hd) (.ite (Dev.writeBlock_sound hd) (Dev.setCmd_sound hd)))

theorem Dev.fillHome_sound {d : Dev} {o : Op} {r : Region} {t : Touch} (hd : d.Sound I ck) : (d.fillHome o r t).Sound I ck := by
  unfold Dev.fillHome
  extract_lets +onlyGivenNames x1
  refine .ite ?_ ?_
  · exact hd
  · extract_lets +onlyGivenNames x2
    extract_lets +onlyGivenNames d3
    have h3 : d3.Sound I ck := .ite hd (Dev.setEntry_sound (Dev.releaseHome_sound hd))
    exact .getD h3 (Dev.firstWrite_sound h3)

theorem Dev.settleJseq_sound {d : Dev} {origin : Nat} {jseq : Nat} {refused : Option Nat} (hd : d.Sound I ck) : (d.settleJseq
    origin jseq refused).Sound I ck := by
  unfold Dev.settleJseq
  exact .upd hd

theorem Dev.undo_sound {d : Dev} {o : Op} (hd : d.Sound I ck) : (d.undo o).Sound I ck := by
  unfold Dev.undo
  exact .ite (Dev.twinSend_sound (.upd (.upd (Dev.rollback_sound hd)))) (.upd (Dev.rollback_sound hd))

theorem Dev.abandon_sound {d : Dev} {o : Op} (hd : d.Sound I ck) : (d.abandon o).Sound I ck := by
  unfold Dev.abandon
  exact Dev.retire_sound (Dev.undo_sound hd)

theorem Dev.dropAfter_sound {d : Dev} {c : Nat} {psn : Nat} (hd : d.Sound I ck) : (d.dropAfter c psn).Sound I ck := by
  unfold Dev.dropAfter
  exact .foldl (.upd hd) fun _ _ h1 => (Dev.abandon_sound h1)

theorem Dev.sendVerdict_sound {d : Dev} {dst : Nat} {jseq : Nat} {origin : Nat} {st : Nat} {arg : Nat} {h : Nat} {other : Nat}
    (hd : d.Sound I ck) : (d.sendVerdict dst jseq origin st arg h other).Sound I ck := by
  unfold Dev.sendVerdict
  exact Dev.fabSend_sound hd

theorem Dev.replyFwd_sound {d : Dev} {o : Op} {a : Answer} (hd : d.Sound I ck) : (d.replyFwd o a).Sound I ck := by
  unfold Dev.replyFwd
  extract_lets +onlyGivenNames x1
  refine .ite ?_ ?_
  · exact Dev.fabSend_sound hd
  · extract_lets +onlyGivenNames x2
    extract_lets +onlyGivenNames d3
    have h3 : d3.Sound I ck := .ite (Dev.settleJseq_sound hd) (.ite hd (Dev.settleJseq_sound hd))
    exact .ite (.upd (.foldl (Dev.sendVerdict_sound h3) fun _ _ h5 => (Dev.abandon_sound h5))) (Dev.sendVerdict_sound h3)

theorem Dev.reply_sound {d : Dev} {o : Op} {a : Answer} {tag : Option Nat} (hd : d.Sound I ck) : (d.reply o a tag).Sound I ck :=
    by
  unfold Dev.reply
  refine .ite ?_ ?_
  · exact Dev.replyFwd_sound hd
  · refine .ite ?_ ?_
    · exact Dev.replyBlock_sound hd
    · extract_lets +onlyGivenNames x1
      split
      extract_lets +onlyGivenNames d2
      have h2 : d2.Sound I ck := Dev.setConn_sound hd
      extract_lets +onlyGivenNames d3
      have h3 : d3.Sound I ck := .ite (Dev.count_sound (.ite h2 (Dev.dropAfter_sound h2))) h2
      exact .ite (Dev.emit_sound h3) (Dev.emit_sound (Dev.freeTags_sound h3))

theorem Dev.answer_sound {d : Dev} {o : Op} {a : Answer} (hd : d.Sound I ck) : (d.answer o a).Sound I ck := by
  unfold Dev.answer
  exact Dev.reply_sound (Dev.unlist_sound hd)

theorem Dev.rsMark_sound {d : Dev} {rid : Nat} {r : Region} {off : Nat} {n : Nat} (hd : d.Sound I ck) : (d.rsMark rid r off
    n).Sound I ck := by
  unfold Dev.rsMark
  exact .ite (.upd hd) hd

theorem Dev.readyPlot_sound {d : Dev} {lantern : Nat} {idx : Nat} (hd : d.Sound I ck) : (d.readyPlot lantern idx).1.Sound I ck
    := by
  unfold Dev.readyPlot
  extract_lets +onlyGivenNames x1
  split
  · split
    · rename_i x2 d3 e4
      have hd3 : d3.Sound I ck := Dev.firstWrite_sound hd _ e4
      exact hd3
    · exact hd
  · exact Dev.demand_sound hd
  · exact Dev.demand_sound hd
  · split
    · exact hd
    · split
      · split
        · exact hd
        · exact Dev.refuseMig_sound hd
      · exact hd

theorem Dev.readyAll_sound {d : Dev} {lantern : Nat} {a1 : List Touch} (hd : d.Sound I ck) : (d.readyAll lantern a1).1.Sound I
    ck := by
  unfold Dev.readyAll
  split
  · exact hd
  · split
    rename_i x1 d2 x3 e4
    have hd2 : d2.Sound I ck := .fst e4 (Dev.readyPlot_sound hd)
    split
    rename_i x5 d6 x7 e8
    have hd6 : d6.Sound I ck := .fst e8 (Dev.readyAll_sound hd2)
    exact hd6

theorem Dev.lookUp_sound {d : Dev} {o : Op} {l : Nat} {ts : List Touch} (hd : d.Sound I ck) : (d.lookUp o l ts).Sound I ck := by
  unfold Dev.lookUp
  exact .ite hd (Dev.setOp_sound (.foldl hd fun _ _ h1 => (Dev.wickLookup_sound h1)))

theorem Dev.leg_sound {d : Dev} {o : Op} {off : Nat} {pos : Nat} {bs : List Byte} (hd : d.Sound I ck) : (d.leg o off pos
    bs).Sound I ck := by
  unfold Dev.leg
  exact Dev.twinSend_sound hd

theorem Dev.applyTouch_sound {d : Dev} {o : Op} {t : Touch} {bs : List Byte} (hd : d.Sound I ck) : (d.applyTouch o t bs).Sound I
    ck := by
  unfold Dev.applyTouch
  extract_lets +onlyGivenNames x1
  extract_lets +onlyGivenNames x2
  extract_lets +onlyGivenNames x3
  extract_lets +onlyGivenNames x4
  extract_lets +onlyGivenNames d5
  have h5 : d5.Sound I ck := Dev.witness_sound (Dev.pokeMeadow_sound hd)
  extract_lets +onlyGivenNames y6_0 d6
  have h6 : d6.Sound I ck := .upd h5
  extract_lets +onlyGivenNames d7
  have h7 : d7.Sound I ck := .ite h6 (Dev.sample_sound h6)
  exact Dev.setOp_sound h7

theorem Dev.applyTouches_sound {d : Dev} {id : Nat} {data : List Byte} {a1 : List Touch} (hd : d.Sound I ck) : (d.applyTouches
    id data a1).Sound I ck := by
  unfold Dev.applyTouches
  split
  · exact hd
  · split
    · exact hd
    · exact Dev.applyTouches_sound (Dev.applyTouch_sound hd)

theorem Dev.snapWrite_sound {d : Dev} {epoch : Nat} {journal : List (Nat × Byte)} (hd : d.Sound I ck) : (d.snapWrite epoch
    journal).Sound I ck := by
  unfold Dev.snapWrite
  extract_lets late
  refine hd.setDur fun o s hs => ?_
  obtain ⟨s', hs', rfl⟩ := List.mem_map.1 hs
  have w := o.mem.2.2 s' hs'
  unfold late
  split
  · exact ⟨memPuts_wf (fun _ (c : Nat × Byte) => (c.1, memGet d.mem.meadow c.1)) _ w.1, w.2⟩
  · exact w

theorem Dev.acceptOp_sound {d : Dev} {id : Nat} (hd : d.Sound I ck) : (d.acceptOp id).Sound I ck := by
  unfold Dev.acceptOp
  split
  · exact hd
  · exact .ite hd (.ite (.upd (Dev.twinSend_sound (Dev.snapWrite_sound (Dev.dirtyLines_sound (Dev.unreserve_sound (Dev.setOp_sound hd)))))) (Dev.snapWrite_sound (Dev.dirtyLines_sound (Dev.unreserve_sound (Dev.setOp_sound hd)))))

theorem Dev.holdRefusal_sound {d : Dev} {o : Op} {st : Status} (hd : d.Sound I ck) : (d.holdRefusal o st).Sound I ck := by
  unfold Dev.holdRefusal
  exact Dev.setConn_sound hd

theorem Dev.refuse_sound {d : Dev} {o : Op} {a : Answer} (hd : d.Sound I ck) : (d.refuse o a).Sound I ck := by
  unfold Dev.refuse
  exact .ite (Dev.holdRefusal_sound (Dev.retire_sound (Dev.undo_sound hd))) (Dev.answer_sound (Dev.undo_sound hd))

theorem Dev.takeCseq_sound {d : Dev} {conn : Nat} {home : Nat} (hd : d.Sound I ck) : (d.takeCseq conn home).2.Sound I ck := by
  unfold Dev.takeCseq
  exact .upd hd

theorem Dev.fjSend_sound {d : Dev} {f : Fj} (hd : d.Sound I ck) : (d.fjSend f).Sound I ck := by
  unfold Dev.fjSend
  exact .ite hd (Dev.fabSend_sound (.upd hd))

theorem Dev.fjPost_sound {d : Dev} {o : Op} {p : Piece} {home : Nat} (hd : d.Sound I ck) : (d.fjPost o p home).Sound I ck := by
  unfold Dev.fjPost
  extract_lets +onlyGivenNames x1
  split
  rename_i x2 x3 d4 e5
  have hd4 : d4.Sound I ck := .snd e5 (Dev.takeCseq_sound hd)
  exact .ite (Dev.twinSend_sound (Dev.count_sound (.upd (Dev.setOp_sound (.foldl hd4 fun _ _ h9 => (Dev.dirtyPage_sound h9)))))) (Dev.count_sound (.upd (Dev.setOp_sound (.foldl hd4 fun _ _ h10 => (Dev.dirtyPage_sound h10)))))

theorem Dev.sendPosted_sound {d : Dev} {o : Op} (hd : d.Sound I ck) : (d.sendPosted o).Sound I ck := by
  unfold Dev.sendPosted
  exact .foldl hd fun _ _ h1 => (Dev.fjSend_sound h1)

theorem Dev.fwdPost_sound {d : Dev} {o : Op} {p : Piece} {home : Nat} (hd : d.Sound I ck) : (d.fwdPost o p home).Sound I ck :=
    by
  unfold Dev.fwdPost
  split
  rename_i x1 x2 d3 e4
  have hd3 : d3.Sound I ck := .snd e4 (Dev.takeCseq_sound hd)
  exact Dev.fabSend_sound (.upd hd3)

theorem Dev.readHeat_sound {d : Dev} {lantern : Nat} {ts : List Touch} (hd : d.Sound I ck) : (d.readHeat lantern ts).Sound I ck
    := by
  unfold Dev.readHeat
  exact .foldl hd fun _ _ h1 => (.ite (Dev.placePlot_sound (Dev.candleTouch_sound (Dev.sample_sound h1))) (Dev.candleTouch_sound (Dev.sample_sound h1)))

theorem Dev.wakeUnder_sound {d : Dev} {ts : List Touch} (hd : d.Sound I ck) : (d.wakeUnder ts).1.Sound I ck := by
  unfold Dev.wakeUnder
  exact .foldl hd fun _ _ h1 => (Dev.wake_sound h1)

theorem Dev.countDone_sound {d : Dev} {o : Op} (hd : d.Sound I ck) : (d.countDone o).Sound I ck := by
  unfold Dev.countDone
  refine .ite ?_ ?_
  · exact hd
  · extract_lets +onlyGivenNames x1
    extract_lets +onlyGivenNames x2
    split
    · exact Dev.count_sound hd
    · exact Dev.count_sound hd
    · exact Dev.count_sound hd
    · exact Dev.count_sound hd
    · exact Dev.count_sound hd
    · exact hd
    · exact hd
    · exact hd
    · exact hd

theorem Dev.finishRead_sound {d : Dev} {o : Op} {ts : List Touch} {data : List Byte} (hd : d.Sound I ck) : (d.finishRead o ts
    data).Sound I ck := by
  unfold Dev.finishRead
  extract_lets +onlyGivenNames d1
  have h1 : d1.Sound I ck := .ite hd (Dev.readHeat_sound hd)
  exact Dev.answer_sound (Dev.countDone_sound h1)

theorem Dev.finishFence_sound {d : Dev} {o : Op} (hd : d.Sound I ck) : (d.finishFence o).Sound I ck := by
  unfold Dev.finishFence
  exact Dev.answer_sound hd

theorem Dev.finishFlush_sound {d : Dev} {o : Op} (hd : d.Sound I ck) : (d.finishFlush o).Sound I ck := by
  unfold Dev.finishFlush
  exact Dev.answer_sound hd

theorem Dev.stepRead_sound {d : Dev} {o : Op} {r : Region} (hd : d.Sound I ck) : (d.stepRead o r).Sound I ck := by
  unfold Dev.stepRead
  extract_lets +onlyGivenNames x1
  extract_lets +onlyGivenNames x2
  extract_lets +onlyGivenNames x3
  refine .ite ?_ ?_
  · exact Dev.finishRead_sound hd
  · split
    · exact Dev.answer_sound hd
    · refine .ite ?_ ?_
      · exact Dev.answer_sound hd
      · split
        · exact Dev.answer_sound hd
        · split
          rename_i x4 d5 x6 e7
          have hd5 : d5.Sound I ck := .fst e7 (Dev.wakeUnder_sound hd)
          refine .ite ?_ ?_
          · exact hd5
          · refine .ite ?_ ?_
            · exact hd5
            · extract_lets +onlyGivenNames d11
              have h11 : d11.Sound I ck := Dev.lookUp_sound (Dev.restoreNow_sound hd5)
              refine .ite ?_ ?_
              · extract_lets +onlyGivenNames d14
                have h14 : d14.Sound I ck := Dev.setOp_sound h11
                refine .foldl ?_ ?_
                · exact h14
                · intro d16 x17 h18
                  split
                  · exact Dev.fwdPost_sound h18
                  · exact h18
              · split
                · exact Dev.finishRead_sound h11
                · exact Dev.setOp_sound (.upd h11)

theorem Dev.postWrite_sound {d : Dev} {o : Op} {away : List Piece} (hd : d.Sound I ck) : (d.postWrite o away).Sound I ck := by
  unfold Dev.postWrite
  refine .ite ?_ ?_
  · exact hd
  · extract_lets +onlyGivenNames x3
    extract_lets +onlyGivenNames d5
    have h5 : d5.Sound I ck := by
      unfold d5
      refine .foldl ?_ ?_
      · exact hd
      · intro d9 x10 h11
        split
        · exact Dev.fjPost_sound h11
        · exact h11
    exact Dev.setOp_sound (Dev.acceptOp_sound h5)

theorem Dev.legs_sound {d : Dev} {o : Op} {r : Region} {off : Nat} {first : Bool} {last : Bool} {bs : List Byte} (hd : d.Sound I
    ck) : (d.legs o r off first last bs).Sound I ck := by
  unfold Dev.legs
  exact .ite hd (.foldl hd fun _ _ h1 => (Dev.leg_sound h1))

theorem Dev.stepWrite_sound {d : Dev} {o : Op} {r : Region} (hd : d.Sound I ck) : (d.stepWrite o r).Sound I ck := by
  unfold Dev.stepWrite
  extract_lets +onlyGivenNames x1
  extract_lets +onlyGivenNames x2
  split
  · exact Dev.refuse_sound hd
  · refine .ite ?_ ?_
    · exact Dev.refuse_sound hd
    · refine .ite ?_ ?_
      · extract_lets +onlyGivenNames d6
        have h6 : d6.Sound I ck := Dev.setOp_sound hd
        refine .foldl ?_ ?_
        · exact h6
        · intro d8 x9 h10
          split
          · exact Dev.fwdPost_sound h10
          · exact h10
      · extract_lets +onlyGivenNames x11
        extract_lets +onlyGivenNames x12
        split
        · exact Dev.refuse_sound hd
        · split
          rename_i x13 d14 x15 e16
          have hd14 : d14.Sound I ck := .fst e16 (Dev.wakeUnder_sound hd)
          refine .ite ?_ ?_
          · exact hd14
          · split
            rename_i x17 d18 x19 e20
            have hd18 : d18.Sound I ck := .fst e20 (Dev.readyAll_sound (Dev.lookUp_sound (Dev.restoreNow_sound (.foldl hd14 fun _ _ h21 => (Dev.fillHome_sound h21)))))
            refine .ite ?_ ?_
            · exact hd18
            · split
              · refine .ite ?_ ?_
                · exact hd18
                · extract_lets +onlyGivenNames x22
                  split
                  · extract_lets +onlyGivenNames d23
                    have h23 : d23.Sound I ck := .ite hd18 (.foldl hd18 fun _ _ h24 => (Dev.sample_sound h24))
                    exact Dev.answer_sound (Dev.countDone_sound (.upd h23))
                  · exact .ite (Dev.acceptOp_sound (Dev.legs_sound (Dev.rsMark_sound (Dev.applyTouches_sound (Dev.setOp_sound hd18))))) (Dev.postWrite_sound (Dev.legs_sound (Dev.rsMark_sound (Dev.applyTouches_sound (Dev.setOp_sound hd18)))))
              · refine .ite ?_ ?_
                · exact hd18
                · extract_lets +onlyGivenNames x25
                  split
                  · extract_lets +onlyGivenNames d26
                    have h26 : d26.Sound I ck := .ite hd18 (.foldl hd18 fun _ _ h27 => (Dev.sample_sound h27))
                    exact Dev.answer_sound (Dev.countDone_sound (.upd h26))
                  · exact .ite (Dev.acceptOp_sound (Dev.legs_sound (Dev.rsMark_sound (Dev.applyTouches_sound (Dev.setOp_sound hd18))))) (Dev.postWrite_sound (Dev.legs_sound (Dev.rsMark_sound (Dev.applyTouches_sound (Dev.setOp_sound hd18)))))
              · refine .ite ?_ ?_
                · exact hd18
                · extract_lets +onlyGivenNames x28
                  split
                  · extract_lets +onlyGivenNames d29
                    have h29 : d29.Sound I ck := .ite hd18 (.foldl hd18 fun _ _ h30 => (Dev.sample_sound h30))
                    exact Dev.answer_sound (Dev.countDone_sound (.upd h29))
                  · exact .ite (Dev.acceptOp_sound (Dev.legs_sound (Dev.rsMark_sound (Dev.applyTouches_sound (Dev.setOp_sound hd18))))) (Dev.postWrite_sound (Dev.legs_sound (Dev.rsMark_sound (Dev.applyTouches_sound (Dev.setOp_sound hd18)))))
              · extract_lets +onlyGivenNames x31
                extract_lets +onlyGivenNames x32
                extract_lets +onlyGivenNames d33
                have h33 : d33.Sound I ck := Dev.applyTouches_sound hd18
                extract_lets +onlyGivenNames d34
                have h34 : d34.Sound I ck := Dev.rsMark_sound (Dev.setOp_sound h33)
                extract_lets +onlyGivenNames d35
                have h35 : d35.Sound I ck := .ite h34 (Dev.legs_sound h34)
                exact .ite (Dev.acceptOp_sound h35) (Dev.postWrite_sound h35)

theorem Dev.stepEmpty_sound {d : Dev} {o : Op} (hd : d.Sound I ck) : (d.stepEmpty o).Sound I ck := by
  unfold Dev.stepEmpty
  exact .ite (Dev.answer_sound hd) (Dev.acceptOp_sound hd)

theorem Dev.stepOp_sound {d : Dev} {o : Op} (hd : d.Sound I ck) : (d.stepOp o).Sound I ck := by
  unfold Dev.stepOp
  refine .ite ?_ ?_
  · exact hd
  · split
    · exact Dev.answer_sound hd
    · exact .ite (Dev.finishFence_sound hd) (Dev.setOp_sound hd)
    · exact .ite (Dev.finishFlush_sound hd) hd
    · split
      · exact Dev.answer_sound hd
      · split
        · exact Dev.answer_sound hd
        · exact Dev.answer_sound hd
    · refine .ite ?_ ?_
      · exact hd
      · refine .ite ?_ ?_
        · exact Dev.stepEmpty_sound hd
        · split
          · exact Dev.answer_sound hd
          · exact .ite (Dev.stepRead_sound hd) (Dev.stepWrite_sound hd)
    · refine .ite ?_ ?_
      · exact hd
      · refine .ite ?_ ?_
        · exact Dev.stepEmpty_sound hd
        · split
          · exact Dev.answer_sound hd
          · exact .ite (Dev.stepRead_sound hd) (Dev.stepWrite_sound hd)
    · refine .ite ?_ ?_
      · exact hd
      · refine .ite ?_ ?_
        · exact Dev.stepEmpty_sound hd
        · split
          · exact Dev.answer_sound hd
          · exact .ite (Dev.stepRead_sound hd) (Dev.stepWrite_sound hd)
    · refine .ite ?_ ?_
      · exact hd
      · refine .ite ?_ ?_
        · exact Dev.stepEmpty_sound hd
        · split
          · exact Dev.answer_sound hd
          · exact .ite (Dev.stepRead_sound hd) (Dev.stepWrite_sound hd)
    · refine .ite ?_ ?_
      · exact hd
      · refine .ite ?_ ?_
        · exact Dev.stepEmpty_sound hd
        · split
          · exact Dev.answer_sound hd
          · exact .ite (Dev.stepRead_sound hd) (Dev.stepWrite_sound hd)

theorem Dev.tryOp_sound {d : Dev} {id : Nat} (hd : d.Sound I ck) : (d.tryOp id).Sound I ck := by
  unfold Dev.tryOp
  split
  · exact hd
  · exact .ite hd (.ite (Dev.wake_sound hd) (Dev.stepOp_sound hd))

theorem Dev.closeMsg_sound {d : Dev} {c : Nat} (hd : d.Sound I ck) : (d.closeMsg c).Sound I ck := by
  unfold Dev.closeMsg
  split
  · exact hd
  · exact Dev.setConn_sound (.foldl (.upd hd) fun _ _ h1 => (Dev.abandon_sound h1))

theorem Dev.closeOpen_sound {d : Dev} (hd : d.Sound I ck) : (d.closeOpen).Sound I ck := by
  unfold Dev.closeOpen
  exact .foldl hd fun _ _ h1 => (Dev.closeMsg_sound h1)

theorem Dev.countRefusal_sound {d : Dev} {a : Answer} (hd : d.Sound I ck) : (d.countRefusal a).Sound I ck := by
  unfold Dev.countRefusal
  exact .ite (Dev.count_sound hd) hd

theorem Dev.countAdmitted_sound {d : Dev} {o : Op} (hd : d.Sound I ck) : (d.countAdmitted o).Sound I ck := by
  unfold Dev.countAdmitted
  exact Dev.count_sound (Dev.used_sound hd)

theorem Dev.enter_sound {d : Dev} {o : Op} {slot : Nat} {pages : Nat} (hd : d.Sound I ck) : (d.enter o slot pages).Sound I ck :=
    by
  unfold Dev.enter
  split
  rename_i x1 x2 d3 e4
  have hd3 : d3.Sound I ck := .snd e4 (Dev.takeTag_sound hd)
  extract_lets +onlyGivenNames x5
  extract_lets +onlyGivenNames d6
  have h6 : d6.Sound I ck := .ite hd3 (Dev.takeAdmission_sound hd3)
  extract_lets +onlyGivenNames x7
  extract_lets +onlyGivenNames y8_0 d8
  have h8 : d8.Sound I ck := .ite (.upd h6) h6
  exact Dev.setConn_sound (Dev.countAdmitted_sound (.upd h8))

theorem Dev.admitRequest_sound {d : Dev} {o : Op} {verdict : Option Status} (hd : d.Sound I ck) : (d.admitRequest o
    verdict).Sound I ck := by
  unfold Dev.admitRequest
  extract_lets +onlyGivenNames x1
  split
  · exact Dev.reply_sound (Dev.raise_sound hd)
  · split
    · exact Dev.enter_sound hd
    · exact .ite (Dev.holdRefusal_sound (Dev.countRefusal_sound hd)) (Dev.reply_sound (Dev.countRefusal_sound hd))

theorem Dev.admitMore_sound {d : Dev} {e : IngPkt} (hd : d.Sound I ck) : (d.admitMore e).Sound I ck := by
  unfold Dev.admitMore
  extract_lets +onlyGivenNames x1
  split
  · exact hd
  · extract_lets +onlyGivenNames d2
    have h2 : d2.Sound I ck := .ite (Dev.setConn_sound hd) hd
    split
    · exact .ite (Dev.reply_sound h2) h2
    · extract_lets +onlyGivenNames x3
      extract_lets +onlyGivenNames d4
      have h4 : d4.Sound I ck := Dev.setOp_sound (Dev.setConn_sound h2)
      split
      · exact .ite (Dev.refuse_sound h4) h4
      · exact h4

theorem Dev.takeIngress_sound {d : Dev} {e : IngPkt} (hd : d.Sound I ck) : (d.takeIngress e).Sound I ck := by
  unfold Dev.takeIngress
  exact .ite (Dev.admitMore_sound (.upd hd)) (Dev.admitRequest_sound (.upd hd))

theorem Dev.serveIngress_sound {d : Dev} {a1 : Nat} (hd : d.Sound I ck) : (d.serveIngress a1).Sound I ck := by
  unfold Dev.serveIngress
  split
  · exact hd
  · split
    · exact hd
    · exact Dev.serveIngress_sound (Dev.takeIngress_sound hd)

theorem Dev.pushIngress_sound {d : Dev} {e : IngPkt} (hd : d.Sound I ck) : (d.pushIngress e).Sound I ck := by
  unfold Dev.pushIngress
  exact .upd hd

theorem Dev.wakeIngress_sound {d : Dev} (hd : d.Sound I ck) : (d.wakeIngress).Sound I ck := by
  unfold Dev.wakeIngress
  exact .foldl hd fun _ _ h1 => (.ite (Dev.wake_sound h1) h1)

theorem Dev.sendEoes_sound {d : Dev} {a1 : List Nat} (hd : d.Sound I ck) : (d.sendEoes a1).Sound I ck := by
  induction a1 generalizing d with
  | nil => exact hd
  | cons k r ih =>
    unfold Dev.sendEoes
    extract_lets e
    have h1 : e.Sound I ck := Dev.twinSend_sound hd
    clear_value e
    exact .ite hd (ih (.upd h1))

theorem Dev.settleSeals_sound {d : Dev} (hd : d.Sound I ck) : (d.settleSeals).Sound I ck := by
  unfold Dev.settleSeals
  exact .foldl hd fun _ _ h1 => (Dev.setRegion_sound h1)

theorem Dev.setRole_sound {d : Dev} {rid : Nat} {west : Bool} (hd : d.Sound I ck) : (d.setRole rid west).Sound I ck := by
  unfold Dev.setRole
  exact .upd hd

theorem Dev.nextRoleVer_sound {d : Dev} (hd : d.Sound I ck) : (d.nextRoleVer).Sound I ck := by
  unfold Dev.nextRoleVer
  exact Dev.fset_sound hd

theorem Dev.endSwap_sound {d : Dev} {result : Nat} (hd : d.Sound I ck) : (d.endSwap result).Sound I ck := by
  unfold Dev.endSwap
  extract_lets +onlyGivenNames d1
  have h1 : d1.Sound I ck := .ite (Dev.fset_sound (Dev.fset_sound hd)) hd
  exact .upd h1

theorem Dev.settleSwap_sound {d : Dev} (hd : d.Sound I ck) : (d.settleSwap).Sound I ck := by
  unfold Dev.settleSwap
  exact .ite hd (.ite hd (Dev.endSwap_sound (Dev.nextRoleVer_sound (.foldl (Dev.twinSend_sound (Dev.twinSend_sound hd)) fun _ _ h1 => (Dev.setRole_sound h1)))))

theorem Dev.releaseRun_sound {d : Dev} {base : Nat} {n : Nat} (hd : d.Sound I ck) : (d.releaseRun base n).Sound I ck := by
  unfold Dev.releaseRun
  exact .foldl (.upd hd) fun _ _ h1 => (Dev.broadcast_sound (Dev.setEntry_sound (Dev.releaseHome_sound (Dev.candleDrop_sound (Dev.cancelMig_sound h1)))))

theorem Dev.eraseSlot_sound {d : Dev} {n : Nat} (hd : d.Sound I ck) : (d.eraseSlot n).Sound I ck := by
  unfold Dev.eraseSlot
  exact .upd hd

theorem Dev.settleDestroys_sound {d : Dev} (hd : d.Sound I ck) : (d.settleDestroys).Sound I ck := by
  unfold Dev.settleDestroys
  extract_lets +onlyGivenNames x2
  refine .foldl ?_ ?_
  · exact hd
  · intro d4 x5 h6
    extract_lets +onlyGivenNames d7
    have h7 : d7.Sound I ck := Dev.releaseRun_sound h6
    extract_lets +onlyGivenNames d8
    have h8 : d8.Sound I ck := by
      unfold d8
      split
      · exact Dev.eraseSlot_sound h7
      · exact h7
    exact .upd h8

theorem Dev.setRep_sound {d : Dev} {msgid : Nat} {f : Replica → Replica} (hd : d.Sound I ck) : (d.setRep msgid f).Sound I ck :=
    by
  unfold Dev.setRep
  exact .upd hd

theorem Dev.dropRep_sound {d : Dev} {msgid : Nat} (hd : d.Sound I ck) : (d.dropRep msgid).Sound I ck := by
  unfold Dev.dropRep
  exact .upd hd

theorem Dev.acceptRep_sound {d : Dev} {r : Replica} {stamp : Nat} (hd : d.Sound I ck) : (d.acceptRep r stamp).Sound I ck := by
  unfold Dev.acceptRep
  exact .upd (Dev.snapWrite_sound (Dev.dirtyLines_sound (Dev.setRep_sound hd)))

theorem Dev.confirm_sound {d : Dev} {msgid : Nat} (hd : d.Sound I ck) : (d.confirm msgid).Sound I ck := by
  unfold Dev.confirm
  split
  · exact hd
  · split
    · exact .ite (Dev.twinSend_sound (Dev.acceptRep_sound hd)) hd
    · exact hd

theorem Dev.undoRep_sound {d : Dev} {r : Replica} (hd : d.Sound I ck) : (d.undoRep r).Sound I ck := by
  exact Dev.dropRep_sound (Dev.putBack_sound hd)

theorem Dev.giveHome_sound {d : Dev} {idx : Nat} {st : PlotState} (hd : d.Sound I ck) : ∀ d₁, d.giveHome idx st = some d₁ →
    d₁.Sound I ck := by
  unfold Dev.giveHome
  exact Dev.firstWrite_sound hd

theorem Dev.readyLeg_sound {d : Dev} {a1 : List Touch} (hd : d.Sound I ck) : (d.readyLeg a1).1.Sound I ck := by
  induction a1 generalizing d with
  | nil => exact hd
  | cons t r ih =>
    unfold Dev.readyLeg
    dsimp only
    refine ih ?_
    split
    · split
      · next d' e => exact Dev.giveHome_sound hd d' e
      · exact hd
    · exact Dev.readyPlot_sound hd

theorem Dev.applyRep_sound {d : Dev} {msgid : Nat} {t : Touch} {bs : List Byte} (hd : d.Sound I ck) : (d.applyRep msgid t
    bs).Sound I ck := by
  unfold Dev.applyRep
  split
  · exact hd
  · extract_lets +onlyGivenNames x1
    extract_lets +onlyGivenNames x2
    extract_lets +onlyGivenNames x3
    extract_lets +onlyGivenNames x4
    extract_lets +onlyGivenNames d5
    have h5 : d5.Sound I ck := Dev.witness_sound (Dev.pokeMeadow_sound hd)
    extract_lets +onlyGivenNames y6_0 d6
    have h6 : d6.Sound I ck := .upd h5
    extract_lets +onlyGivenNames d7
    have h7 : d7.Sound I ck := Dev.sample_sound (Dev.wickLookup_sound h6)
    extract_lets +onlyGivenNames y8_0 d8
    have h8 : d8.Sound I ck := .ite (.upd h7) h7
    exact Dev.setRep_sound h8

theorem Dev.copyEntries_sound {d : Dev} {r : Region} {l : LegIn} (hd : d.Sound I ck) : (d.copyEntries r l).Sound I ck := by
  unfold Dev.copyEntries
  exact .foldl hd fun _ _ h1 => (.upd h1)

theorem Dev.applyLeg_sound {d : Dev} {l : LegIn} (hd : d.Sound I ck) : (d.applyLeg l).1.Sound I ck := by
  unfold Dev.applyLeg
  split
  · exact hd
  · extract_lets +onlyGivenNames x1
    split
    · exact hd
    · split
      rename_i x2 d3 x4 e5
      have hd3 : d3.Sound I ck := .fst e5 (Dev.readyLeg_sound hd)
      split
      · exact hd3
      · exact Dev.confirm_sound (Dev.setRep_sound (Dev.copyEntries_sound (.foldl hd3 fun _ _ h6 => (Dev.applyRep_sound h6))))

theorem Dev.legPump_sound {d : Dev} {a1 : Nat} (hd : d.Sound I ck) : (d.legPump a1).Sound I ck := by
  unfold Dev.legPump
  split
  · exact hd
  · split
    · exact hd
    · split
      rename_i x1 d2 x3 e4
      have hd2 : d2.Sound I ck := .fst e4 (Dev.applyLeg_sound hd)
      exact .ite (Dev.legPump_sound (.upd hd2)) hd2

theorem Dev.serveAll_sound {d : Dev} {a1 : Nat} (hd : d.Sound I ck) : (d.serveAll a1).Sound I ck := by
  unfold Dev.serveAll
  split
  · exact hd
  · exact .ite (Dev.serveIngress_sound (Dev.closeOpen_sound (.foldl (Dev.closeOpen_sound hd) fun _ _ h3 => (Dev.tryOp_sound h3)))) (Dev.serveAll_sound (Dev.serveIngress_sound (Dev.closeOpen_sound (.foldl (Dev.closeOpen_sound hd) fun _ _ h4 => (Dev.tryOp_sound h4)))))

theorem Dev.pump_sound {d : Dev} (hd : d.Sound I ck) : (d.pump).Sound I ck := by
  unfold Dev.pump
  extract_lets +onlyGivenNames d3
  have h3 : d3.Sound I ck := Dev.wakeIngress_sound (.foldl (Dev.legPump_sound hd) fun _ _ h4 => (Dev.stepJob_sound h4))
  extract_lets +onlyGivenNames d5
  have h5 : d5.Sound I ck := Dev.serveAll_sound h3
  extract_lets +onlyGivenNames d6
  have h6 : d6.Sound I ck := .ite (Dev.serveAll_sound h5) h5
  exact Dev.settleSwap_sound (Dev.settleDestroys_sound (Dev.settleSeals_sound (.foldl (Dev.sendEoes_sound h6) fun _ _ h7 => (Dev.letOut_sound h7))))

theorem Dev.countLate_sound {d : Dev} {o : Op} (hd : d.Sound I ck) : (d.countLate o).Sound I ck := by
  unfold Dev.countLate
  exact .ite (Dev.count_sound (Dev.finc_sound hd)) hd

theorem Dev.makeDurable_sound {d : Dev} {o : Op} (hd : d.Sound I ck) : (d.makeDurable o).Sound I ck := by
  unfold Dev.makeDurable
  extract_lets +onlyGivenNames x1
  extract_lets +onlyGivenNames d2
  have h2 : d2.Sound I ck := Dev.setOp_sound hd
  extract_lets +onlyGivenNames y3_0 y3_1 y3_2 y3_3 d3
  have h3 : d3.Sound I ck := .ite (Dev.twinSend_sound (.upd (.upd h2))) (.upd h2)
  extract_lets +onlyGivenNames d4
  have h4 : d4.Sound I ck := .ite h3 (Dev.countLate_sound h3)
  extract_lets +onlyGivenNames y5_0 d5
  have h5 : d5.Sound I ck := .ite h4 (.ite (Dev.sendPosted_sound h4) (Dev.sendPosted_sound (Dev.countDone_sound (Dev.setConn_sound (.upd h4)))))
  extract_lets +onlyGivenNames d6
  have h6 : d6.Sound I ck := by
    unfold d6
    split
    · exact Dev.notifyImm_sound h5
    · exact h5
  exact .ite (Dev.retire_sound h6) (Dev.answer_sound h6)

end Sys2Proof.Machine
end

