-- ==== Sys2Proof/Laws/Sound2.lean ====
section
/-! SUPPORT. What the shared operations keep, continued. -/

set_option Elab.async false

namespace Sys2Proof.Machine

variable {I : Prop} {ck : Nat}

theorem Dev.setDie_sound {d : Dev} {k : Nat} {f : Die → Die} (hd : d.Sound I ck) : (d.setDie k f).Sound I ck := by
  unfold Dev.setDie
  exact .upd hd

theorem Dev.issueProgram_sound {d : Dev} {idx : Nat} (hd : d.Sound I ck) : (d.issueProgram idx).Sound I ck := by
  unfold Dev.issueProgram
  split
  · exact hd
  · exact .ite (Dev.count_sound (Dev.setMig_sound (Dev.setDie_sound hd))) hd

theorem Dev.issueRefresh_sound {d : Dev} {loc : Nat} (hd : d.Sound I ck) : (d.issueRefresh loc).Sound I ck := by
  unfold Dev.issueRefresh
  exact .ite (Dev.count_sound (Dev.setDie_sound hd)) hd

theorem Dev.pumpDies_sound {d : Dev} (hd : d.Sound I ck) : (d.pumpDies).Sound I ck := by
  unfold Dev.pumpDies
  exact .foldl (.foldl hd fun _ _ h2 => (Dev.issueProgram_sound h2)) fun _ _ h3 => (Dev.issueRefresh_sound h3)

theorem Dev.wantRefresh_sound {d : Dev} {loc : Nat} {bits : Nat} (hd : d.Sound I ck) : (d.wantRefresh loc bits).Sound I ck := by
  unfold Dev.wantRefresh
  exact .ite (.upd hd) hd

theorem Dev.countImages_sound {d : Dev} (hd : d.Sound I ck) : (d.countImages).Sound I ck := by
  unfold Dev.countImages
  exact Dev.rebudget_sound (Dev.fset_sound (.upd hd))

theorem Dev.addImage_sound {d : Dev} {x : ImageRec} (hd : d.Sound I ck) : (d.addImage x).Sound I ck := by
  unfold Dev.addImage
  exact .upd hd

theorem Dev.imaged_sound {d : Dev} {window : Bool} {mod : Nat} {blk : Nat} {v : Version} (hd : d.Sound I ck) : (d.imaged window
    mod blk v).Sound I ck := by
  unfold Dev.imaged
  exact .upd (Dev.addImage_sound hd)

theorem Dev.closeGroup_sound {d : Dev} {n : Nat} {mod : Nat} {blk : Nat} (hd : d.Sound I ck) : (d.closeGroup n mod blk).Sound I
    ck := by
  unfold Dev.closeGroup
  exact .ite (.foldl (.foldl hd fun _ _ h4 => (Dev.imaged_sound h4)) fun _ _ h5 => (Dev.addImage_sound h5)) (.upd (.foldl (.foldl hd fun _ _ h6 => (Dev.imaged_sound h6)) fun _ _ h7 => (Dev.addImage_sound h7)))

theorem Dev.leaveDuty_sound {d : Dev} {m : Nat} (hd : d.Sound I ck) : (d.leaveDuty m).Sound I ck := by
  unfold Dev.leaveDuty
  exact .ite (.foldl (Dev.fset_sound hd) fun _ _ h1 => (Dev.evacuate_sound h1)) (Dev.fset_sound hd)

theorem Dev.settleOver_sound {d : Dev} (hd : d.Sound I ck) : (d.settleOver).Sound I ck := by
  unfold Dev.settleOver
  refine .ite ?_ ?_
  · exact hd
  · extract_lets +onlyGivenNames d1
    have h1 : d1.Sound I ck := .ite (Dev.fset_sound hd) hd
    exact .foldl h1 fun _ _ h2 => (.ite (Dev.leaveDuty_sound h2) h2)

theorem Dev.settleSealNow_sound {d : Dev} (hd : d.Sound I ck) : (d.settleSealNow).Sound I ck := by
  unfold Dev.settleSealNow
  extract_lets +onlyGivenNames x2
  extract_lets +onlyGivenNames x4
  extract_lets +onlyGivenNames y6_0 d6
  have h6 : d6.Sound I ck := .upd hd
  refine .foldl ?_ ?_
  · exact h6
  · intro d8 x9 h10
    split
    · exact h10
    · exact Dev.complete_sound h10

theorem Dev.raiseHorizon_sound {d : Dev} {h : Nat} (hd : d.Sound I ck) : (d.raiseHorizon h).Sound I ck := by
  unfold Dev.raiseHorizon
  exact .ite hd (Dev.countImages_sound (.upd (Dev.fset_sound hd)))

theorem Dev.takeReport_sound {d : Dev} {id : Nat} {r : EpochReport} (hd : d.Sound I ck) : (d.takeReport id r).Sound I ck := by
  unfold Dev.takeReport
  exact .upd hd

theorem Dev.toMembers_sound {d : Dev} {mtype : Nat} {args : List Nat} (hd : d.Sound I ck) : (d.toMembers mtype args).Sound I ck
    := by
  unfold Dev.toMembers
  exact .foldl hd fun _ _ h1 => (Dev.fabSend_sound h1)

theorem Dev.stewardHorizon_sound {d : Dev} (hd : d.Sound I ck) : (d.stewardHorizon).Sound I ck := by
  unfold Dev.stewardHorizon
  refine .ite ?_ ?_
  · exact hd
  · split
    · exact hd
    · exact .ite hd (Dev.toMembers_sound (Dev.raiseHorizon_sound hd))

theorem Dev.settleHorizon_sound {d : Dev} (hd : d.Sound I ck) : (d.settleHorizon).Sound I ck := by
  unfold Dev.settleHorizon
  extract_lets +onlyGivenNames x1
  refine .ite ?_ ?_
  · exact Dev.raiseHorizon_sound hd
  · refine .ite ?_ ?_
    · exact Dev.stewardHorizon_sound hd
    · refine .ite ?_ ?_
      · exact hd
      · refine .ite ?_ ?_
        · exact Dev.raiseHorizon_sound hd
        · split
          · exact Dev.raiseHorizon_sound hd
          · exact hd

theorem Dev.sendReport_sound {d : Dev} {r : EpochReport} (hd : d.Sound I ck) : (d.sendReport r).Sound I ck := by
  unfold Dev.sendReport
  exact .ite hd (.ite (.ite (Dev.takeReport_sound hd) (Dev.fabSend_sound hd)) (Dev.twinSend_sound hd))

theorem Dev.report_sound {d : Dev} (hd : d.Sound I ck) : (d.report).Sound I ck := by
  unfold Dev.report
  exact Dev.sendReport_sound hd

theorem Dev.reportRestore_sound {d : Dev} (hd : d.Sound I ck) : (d.reportRestore).Sound I ck := by
  unfold Dev.reportRestore
  exact Dev.sendReport_sound hd

theorem Dev.nameLost_sound {d : Dev} {a : Nat} {b : Nat} (hd : d.Sound I ck) : (d.nameLost a b).Sound I ck := by
  unfold Dev.nameLost
  exact Dev.raise_sound hd

theorem Dev.judgeHorizon_sound {d : Dev} {epoch : Nat} (hd : d.Sound I ck) : (d.judgeHorizon epoch).Sound I ck := by
  unfold Dev.judgeHorizon
  exact .ite hd (Dev.nameLost_sound (.upd hd))

theorem Dev.writeSeal_sound {d : Dev} {k : Nat} {mods : List Nat} (hd : d.Sound I ck) : (d.writeSeal k mods).Sound I ck := by
  unfold Dev.writeSeal
  exact .upd hd

theorem Dev.completeEpoch_sound {d : Dev} {k : Nat} (hd : d.Sound I ck) : (d.completeEpoch k).Sound I ck := by
  unfold Dev.completeEpoch
  exact Dev.settleSealNow_sound (Dev.countImages_sound (Dev.settleHorizon_sound (Dev.report_sound (Dev.fset_sound (.upd hd)))))

theorem Dev.sealEpoch_sound {d : Dev} {k : Nat} (hd : d.Sound I ck) : (d.sealEpoch k).Sound I ck := by
  unfold Dev.sealEpoch
  exact Dev.completeEpoch_sound (Dev.writeSeal_sound hd)

theorem memBacks_wf (l : List (List (Nat × Byte))) {m : List Host.Cell} (h : Memory.wf m) :
    Memory.wf (l.foldl (fun m j => j.foldl (fun m c => memPut m c.1 c.2) m) m) := by
  induction l generalizing m with
  | nil => exact h
  | cons j r ih => exact ih (memPuts_wf (fun _ c => c) j h)

/-- The state the save area takes of an epoch has canonical memories. -/
theorem Dev.snapNow_wf (d : Dev) (k : Nat) (o : d.Ok) : Memory.wf (d.snapNow k).meadow ∧ Memory.wf (d.snapNow k).heath :=
  ⟨memBacks_wf _ (memBacks_wf _ o.mem.1), o.mem.2.1⟩

theorem Dev.shutEpoch_sound {d : Dev} (hd : d.Sound I ck) : (d.shutEpoch).Sound I ck := by
  unfold Dev.shutEpoch
  extract_lets k u d1
  have h1 : d1.Sound I ck := hd.setDur fun o s hs => by
    rcases List.mem_append.1 hs with hs | hs
    · exact o.mem.2.2 s hs
    · obtain rfl := List.mem_singleton.1 hs
      exact d.snapNow_wf k o
  exact .ite (.upd h1) h1

theorem Dev.openEpoch_sound {d : Dev} (hd : d.Sound I ck) : (d.openEpoch).Sound I ck := by
  unfold Dev.openEpoch
  exact .upd hd

theorem Dev.reserveRegion_sound {d : Dev} {m : RegionMsg} (hd : d.Sound I ck) : (d.reserveRegion m).Sound I ck := by
  unfold Dev.reserveRegion
  exact Dev.setRegion_sound hd

theorem Dev.markRun_sound {d : Dev} {r : Region} (hd : d.Sound I ck) : (d.markRun r).Sound I ck := by
  unfold Dev.markRun
  exact .upd hd

theorem Dev.cancelRegion_sound {d : Dev} {r : Region} (hd : d.Sound I ck) : (d.cancelRegion r).Sound I ck := by
  unfold Dev.cancelRegion
  exact .upd (.foldl hd fun _ _ h2 => (Dev.cancelMig_sound h2))

theorem Dev.grow_sound {d : Dev} {rid : Nat} {r : Region} {size : Nat} {run : Nat} {cmd : Option Nat} (hd : d.Sound I ck) :
    (d.grow rid r size run cmd).1.Sound I ck := by
  unfold Dev.grow
  extract_lets +onlyGivenNames x1
  split
  · exact Dev.setRegion_sound hd
  · exact .upd (Dev.cancelRegion_sound hd)

theorem Dev.moveEntry_sound {d : Dev} {old : Nat} {new : Nat} {e : Nat × HomeEntry} (hd : d.Sound I ck) : (d.moveEntry old new
    e).Sound I ck := by
  unfold Dev.moveEntry
  exact Dev.broadcast_sound (Dev.setEntry_sound (Dev.setEntry_sound hd))

theorem Dev.endGrow_sound {d : Dev} {g : GrowMove} {r : Region} (hd : d.Sound I ck) : (d.endGrow g r).Sound I ck := by
  unfold Dev.endGrow
  exact Dev.setRegion_sound (.upd (Dev.broadcastRun_sound (.foldl hd fun _ _ h3 => (Dev.moveEntry_sound h3))))

theorem Dev.destroy_sound {d : Dev} {rid : Nat} {r : Region} (hd : d.Sound I ck) : (d.destroy rid r).Sound I ck := by
  unfold Dev.destroy
  exact .upd (.upd (Dev.setRegion_sound hd))

theorem Dev.stopForbidden_sound {d : Dev} {r : Region} (hd : d.Sound I ck) : (d.stopForbidden r).Sound I ck := by
  unfold Dev.stopForbidden
  exact .upd (.foldl hd fun _ _ h2 => (Dev.cancelMig_sound h2))

theorem Dev.modify_sound {d : Dev} {rid : Nat} {r : Region} {m : RegionMsg} (hd : d.Sound I ck) : (d.modify rid r m).Sound I ck
    := by
  unfold Dev.modify
  exact .ite (Dev.markRun_sound (Dev.stopForbidden_sound (Dev.setRegion_sound hd))) (Dev.stopForbidden_sound (Dev.setRegion_sound hd))

theorem Dev.changeRegion_sound {d : Dev} {m : RegionMsg} {r : Region} {at_ : Nat} {cmd : Option Nat} (hd : d.Sound I ck) :
    (d.changeRegion m r at_ cmd).1.Sound I ck := by
  unfold Dev.changeRegion
  split
  · exact Dev.setRegion_sound hd
  · split
    · exact Dev.modify_sound hd
    · split
      · exact Dev.setRegion_sound hd
      · split
        · exact Dev.setRegion_sound hd
        · split
          · split
            · exact Dev.grow_sound hd
            · exact Dev.grow_sound hd
          · split
            · exact Dev.destroy_sound hd
            · split
              · exact .upd hd
              · exact hd

theorem Dev.applyMsg_sound {d : Dev} {m : RegionMsg} {at_ : Nat} {cmd : Option Nat} (hd : d.Sound I ck) : (d.applyMsg m at_
    cmd).1.Sound I ck := by
  unfold Dev.applyMsg
  split
  · exact Dev.changeRegion_sound hd
  · split
    · exact Dev.setRegion_sound hd
    · split
      · exact Dev.setRegion_sound hd
      · exact hd

theorem Dev.completeChange_sound {d : Dev} {m : RegionMsg} {at_ : Nat} {cmd : Option Nat} (hd : d.Sound I ck) :
    (d.completeChange m at_ cmd).Sound I ck := by
  unfold Dev.completeChange
  split
  · exact Dev.complete_sound hd
  · exact hd

theorem Dev.finishChange_sound {d : Dev} {m : RegionMsg} {at_ : Nat} {cmd : Option Nat} (hd : d.Sound I ck) : (d.finishChange m
    at_ cmd).Sound I ck := by
  unfold Dev.finishChange
  split
  rename_i x1 d2 x3 e4
  have hd2 : d2.Sound I ck := .fst e4 (Dev.applyMsg_sound hd)
  exact .ite (Dev.completeChange_sound hd2) hd2

theorem Dev.unreserveRegion_sound {d : Dev} {m : RegionMsg} (hd : d.Sound I ck) : (d.unreserveRegion m).Sound I ck := by
  unfold Dev.unreserveRegion
  split
  · exact hd
  · exact .ite (.upd hd) (.ite (Dev.setRegion_sound hd) hd)

theorem Dev.refuseChange_sound {d : Dev} {m : RegionMsg} {cmd : Option Nat} {reason : Nat} (hd : d.Sound I ck) : (d.refuseChange
    m cmd reason).Sound I ck := by
  unfold Dev.refuseChange
  extract_lets +onlyGivenNames d1
  have h1 : d1.Sound I ck := Dev.unreserveRegion_sound hd
  split
  · exact Dev.complete_sound h1
  · exact h1

theorem Dev.holdChange_sound {d : Dev} {m : RegionMsg} (hd : d.Sound I ck) : (d.holdChange m).Sound I ck := by
  unfold Dev.holdChange
  refine .ite ?_ ?_
  · exact Dev.reserveRegion_sound hd
  · refine .ite ?_ ?_
    · split
      · exact Dev.setRegion_sound hd
      · exact hd
    · exact hd

theorem Dev.askPeer_sound {d : Dev} {m : RegionMsg} {cmd : Option Nat} (hd : d.Sound I ck) : (d.askPeer m cmd).Sound I ck := by
  unfold Dev.askPeer
  exact .ite (Dev.refuseChange_sound hd) (Dev.twinSend_sound (.upd hd))

theorem Dev.agreed_sound {d : Dev} {p : PeerId} (hd : d.Sound I ck) : (d.agreed p).Sound I ck := by
  unfold Dev.agreed
  exact .ite (.upd hd) (Dev.finishChange_sound hd)

theorem Dev.applyAgreed_sound {d : Dev} {at_ : Nat} (hd : d.Sound I ck) : (d.applyAgreed at_).Sound I ck := by
  unfold Dev.applyAgreed
  exact .foldl (.upd hd) fun _ _ h1 => (Dev.finishChange_sound h1)

theorem Dev.takePend_sound {d : Dev} {rid : Nat} {func : Nat} (hd : d.Sound I ck) : (d.takePend rid func).2.Sound I ck := by
  unfold Dev.takePend
  exact .upd hd

theorem Dev.agreeAlone_sound {d : Dev} (hd : d.Sound I ck) : (d.agreeAlone).Sound I ck := by
  unfold Dev.agreeAlone
  exact .foldl (.upd hd) fun _ _ h1 => (Dev.agreed_sound h1)

theorem Dev.settleSpan_sound {d : Dev} {m : RegionMsg} {ok : Bool} (hd : d.Sound I ck) : (d.settleSpan m ok).Sound I ck := by
  unfold Dev.settleSpan
  exact .ite (Dev.refuseChange_sound (.upd hd)) (.ite (Dev.finishChange_sound (.upd hd)) (.upd (.upd hd)))

theorem Dev.endSpan_sound {d : Dev} {x : SpanTxn} (hd : d.Sound I ck) : (d.endSpan x).Sound I ck := by
  unfold Dev.endSpan
  exact Dev.settleSpan_sound (Dev.toMembers_sound (.upd hd))

theorem Dev.startSpan_sound {d : Dev} {m : RegionMsg} {origin : Nat} (hd : d.Sound I ck) : (d.startSpan m origin).Sound I ck :=
    by
  unfold Dev.startSpan
  extract_lets +onlyGivenNames x1
  extract_lets +onlyGivenNames y2_0 y2_1 d2
  have h2 : d2.Sound I ck := .ite (.upd (Dev.holdChange_sound hd)) hd
  exact .ite (Dev.endSpan_sound h2) (Dev.toMembers_sound (.upd h2))

theorem Dev.askSpan_sound {d : Dev} {m : RegionMsg} {cmd : Option Nat} (hd : d.Sound I ck) : (d.askSpan m cmd).Sound I ck := by
  unfold Dev.askSpan
  exact .ite (Dev.startSpan_sound (.upd hd)) (Dev.fabSend_sound (.upd hd))

theorem Dev.submitChange_sound {d : Dev} {m : RegionMsg} {cmd : Option Nat} (hd : d.Sound I ck) : (d.submitChange m cmd).Sound I
    ck := by
  unfold Dev.submitChange
  extract_lets +onlyGivenNames x1
  extract_lets +onlyGivenNames x2
  extract_lets +onlyGivenNames x3
  refine .ite ?_ ?_
  · exact Dev.askSpan_sound hd
  · extract_lets +onlyGivenNames d4
    have h4 : d4.Sound I ck := Dev.holdChange_sound hd
    refine .ite ?_ ?_
    · exact Dev.finishChange_sound h4
    · refine .ite ?_ ?_
      · exact Dev.askPeer_sound h4
      · extract_lets +onlyGivenNames d5
        have h5 : d5.Sound I ck := .ite (Dev.twinSend_sound h4) h4
        exact Dev.finishChange_sound h5

theorem Dev.setStatus_sound {d : Dev} {p : PathStatus} (hd : d.Sound I ck) : (d.setStatus p).Sound I ck := by
  unfold Dev.setStatus
  exact .ite (Dev.send_sound (.upd hd)) (.upd hd)

theorem Dev.heartbeat_sound {d : Dev} (hd : d.Sound I ck) : (d.heartbeat).Sound I ck := by
  unfold Dev.heartbeat
  exact Dev.twinNow_sound hd

theorem Dev.sendHello_sound {d : Dev} (hd : d.Sound I ck) : (d.sendHello).Sound I ck := by
  unfold Dev.sendHello
  exact Dev.twinSend_sound hd

theorem Dev.resendMsg_sound {d : Dev} {m : TwinMsg} (hd : d.Sound I ck) : (d.resendMsg m).Sound I ck := by
  unfold Dev.resendMsg
  split
  · exact hd
  · refine .ite ?_ ?_
    · exact hd
    · extract_lets +onlyGivenNames x1
      extract_lets +onlyGivenNames d2
      have h2 : d2.Sound I ck := by
        unfold d2
        split
        · exact Dev.legs_sound hd
        · exact hd
      exact .ite (Dev.twinSend_sound (.foldl h2 fun _ _ h4 => (Dev.twinSend_sound h4))) (.foldl h2 fun _ _ h5 => (Dev.twinSend_sound h5))

theorem Dev.resumeMirror_sound {d : Dev} (hd : d.Sound I ck) : (d.resumeMirror).Sound I ck := by
  unfold Dev.resumeMirror
  exact .foldl (.foldl (.foldl hd fun _ _ h4 => (Dev.undoRep_sound h4)) fun _ _ h5 => (Dev.resendMsg_sound h5)) fun _ _ h6 => (Dev.twinSend_sound h6)

theorem Dev.takeRoles_sound {d : Dev} {m : HelloMsg} (hd : d.Sound I ck) : (d.takeRoles m).Sound I ck := by
  unfold Dev.takeRoles
  exact .ite (.upd (Dev.fset_sound hd)) hd

theorem Dev.join_sound {d : Dev} (hd : d.Sound I ck) : (d.join).Sound I ck := by
  unfold Dev.join
  exact .foldl (Dev.fset_sound (Dev.fset_sound (Dev.fset_sound (.upd hd)))) fun _ _ h1 => (.ite (Dev.twinSend_sound (.foldl (Dev.twinSend_sound h1) fun _ _ h3 => (Dev.twinSend_sound h3))) (.foldl (Dev.twinSend_sound h1) fun _ _ h4 => (Dev.twinSend_sound h4)))

theorem Dev.sendHeld_sound {d : Dev} (hd : d.Sound I ck) : (d.sendHeld).Sound I ck := by
  unfold Dev.sendHeld
  exact .foldl hd fun _ _ h1 => (Dev.twinSend_sound h1)

theorem Dev.settleRoles_sound {d : Dev} {m : HelloMsg} (hd : d.Sound I ck) : (d.settleRoles m).Sound I ck := by
  unfold Dev.settleRoles
  exact .ite (Dev.join_sound (.upd hd)) (Dev.fset_sound (.upd (.upd hd)))

theorem Dev.acceptHello_sound {d : Dev} {m : HelloMsg} (hd : d.Sound I ck) : (d.acceptHello m).Sound I ck := by
  unfold Dev.acceptHello
  extract_lets +onlyGivenNames y2_0 d2
  have h2 : d2.Sound I ck := .upd hd
  extract_lets +onlyGivenNames d4
  have h4 : d4.Sound I ck := .foldl h2 fun _ _ h5 => (Dev.fset_sound h5)
  extract_lets +onlyGivenNames d6
  have h6 : d6.Sound I ck := .ite (Dev.settleRoles_sound h4) (.ite (Dev.join_sound (Dev.takeRoles_sound h4)) (.ite (Dev.takeRoles_sound h4) (Dev.fset_sound (Dev.takeRoles_sound h4))))
  exact Dev.sendHeld_sound h6

theorem Dev.gapPause_sound {d : Dev} {on : Bool} {port : Nat} (hd : d.Sound I ck) : (d.gapPause on port).Sound I ck := by
  unfold Dev.gapPause
  exact .foldl hd fun _ _ h1 => (Dev.setPort_sound (Dev.count_sound (Dev.send_sound h1)))

theorem Dev.endGap_sound {d : Dev} (hd : d.Sound I ck) : (d.endGap).Sound I ck := by
  unfold Dev.endGap
  exact .ite hd (.foldl (.upd hd) fun _ _ h1 => (Dev.gapPause_sound h1))

theorem Dev.snuf_sound {d : Dev} {on : Bool} (hd : d.Sound I ck) : (d.snuf on).Sound I ck := by
  unfold Dev.snuf
  exact Dev.send_sound (Dev.fset_sound (.upd hd))

theorem Dev.startClaim_sound {d : Dev} (hd : d.Sound I ck) : (d.startClaim).Sound I ck := by
  unfold Dev.startClaim
  exact .ite (Dev.fset_sound (Dev.snuf_sound hd)) hd

theorem Dev.abandonSwap_sound {d : Dev} (hd : d.Sound I ck) : (d.abandonSwap).Sound I ck := by
  unfold Dev.abandonSwap
  exact .ite (Dev.endSwap_sound hd) hd

theorem Dev.reportFailed_sound {d : Dev} (hd : d.Sound I ck) : (d.reportFailed).Sound I ck := by
  unfold Dev.reportFailed
  exact .ite hd (.ite (Dev.stewardHorizon_sound (Dev.toMembers_sound (.upd hd))) (Dev.fabSend_sound hd))

theorem Dev.declare_sound {d : Dev} (hd : d.Sound I ck) : (d.declare).Sound I ck := by
  unfold Dev.declare
  refine .ite ?_ ?_
  · exact hd
  · extract_lets +onlyGivenNames y1_0 d1
    have h1 : d1.Sound I ck := .upd hd
    extract_lets +onlyGivenNames d2
    have h2 : d2.Sound I ck := Dev.raise_sound (Dev.abandonSwap_sound (Dev.fset_sound h1))
    extract_lets +onlyGivenNames y3_0 d3
    have h3 : d3.Sound I ck := .upd h2
    extract_lets +onlyGivenNames d4
    have h4 : d4.Sound I ck := .ite (.foldl h3 fun _ _ h5 => (Dev.gapPause_sound h5)) h3
    exact Dev.pump_sound (Dev.settleHorizon_sound (Dev.agreeAlone_sound (Dev.startClaim_sound (Dev.reportFailed_sound h4))))

theorem Dev.isolate_sound {d : Dev} (hd : d.Sound I ck) : (d.isolate).Sound I ck := by
  unfold Dev.isolate
  exact .ite hd (Dev.pump_sound (Dev.startClaim_sound (Dev.raise_sound (Dev.abandonSwap_sound (Dev.fset_sound (.upd hd))))))

theorem Dev.adopt_sound {d : Dev} {i : Nat} (hd : d.Sound I ck) : (d.adopt i).Sound I ck := by
  unfold Dev.adopt
  exact .ite hd (.upd (Dev.send_sound (Dev.fset_sound hd)))

theorem Dev.durableAlone_sound {d : Dev} {id : Nat} (hd : d.Sound I ck) : (d.durableAlone id).Sound I ck := by
  unfold Dev.durableAlone
  split
  · exact hd
  · exact .ite (Dev.makeDurable_sound hd) hd

theorem Dev.judgeFaults_sound {d : Dev} (hd : d.Sound I ck) : (d.judgeFaults).Sound I ck := by
  unfold Dev.judgeFaults
  exact .ite (Dev.declare_sound hd) hd

theorem Dev.promote_sound {d : Dev} (hd : d.Sound I ck) : (d.promote).Sound I ck := by
  unfold Dev.promote
  extract_lets +onlyGivenNames d12
  have h12 : d12.Sound I ck := Dev.fset_sound hd
  extract_lets +onlyGivenNames y24_0 y24_1 d24
  have h24 : d24.Sound I ck := .upd h12
  extract_lets +onlyGivenNames d36
  have h36 : d36.Sound I ck := Dev.nextRoleVer_sound (.foldl h24 fun _ _ h37 => (Dev.setRole_sound h37))
  extract_lets +onlyGivenNames d44
  have h44 : d44.Sound I ck := .foldl h36 fun _ _ h45 => (Dev.undoRep_sound h45)
  extract_lets +onlyGivenNames y48_0 d48
  have h48 : d48.Sound I ck := .upd h44
  extract_lets +onlyGivenNames d51
  have h51 : d51.Sound I ck := .foldl h48 fun _ _ h52 => (Dev.durableAlone_sound h52)
  extract_lets +onlyGivenNames y53_0 d53
  have h53 : d53.Sound I ck := .upd h51
  extract_lets +onlyGivenNames y54_0 y54_1 d54
  have h54 : d54.Sound I ck := .ite (Dev.endGap_sound (.upd (.foldl h53 fun _ _ h55 => (Dev.adopt_sound h55)))) h53
  exact Dev.pump_sound (Dev.settleHorizon_sound (Dev.agreeAlone_sound (.foldl h54 fun _ _ h57 => (Dev.fjSend_sound h57))))

theorem Dev.sendPlot_sound {d : Dev} {rid : Nat} {r : Region} {plot : Nat} (hd : d.Sound I ck) : (d.sendPlot rid r plot).Sound I
    ck := by
  unfold Dev.sendPlot
  exact .ite (Dev.twinSend_sound hd) (.ite hd (.foldl hd fun _ _ h1 => (Dev.twinSend_sound h1)))

theorem Dev.sendBulk_sound {d : Dev} (hd : d.Sound I ck) : (d.sendBulk).Sound I ck := by
  unfold Dev.sendBulk
  exact .foldl hd fun _ _ h1 => (.foldl h1 fun _ _ h2 => (Dev.sendPlot_sound h2))

theorem Dev.sendPages_sound {d : Dev} (hd : d.Sound I ck) : (d.sendPages).Sound I ck := by
  unfold Dev.sendPages
  extract_lets +onlyGivenNames x2
  refine .foldl ?_ ?_
  · exact .upd hd
  · intro d4 x5 h6
    extract_lets +onlyGivenNames x7
    extract_lets +onlyGivenNames x8
    split
    · exact h6
    · exact Dev.twinSend_sound h6

theorem Dev.resyncHome_sound {d : Dev} {idx : Nat} (hd : d.Sound I ck) : ∀ d₁, d.resyncHome idx = some d₁ → d₁.Sound I ck := by
  intro d₁ e
  unfold Dev.resyncHome at e
  extract_lets en at e
  split at e
  · obtain rfl := Option.some.inj e
    exact hd
  · exact Dev.giveHome_sound hd d₁ e
  all_goals
    obtain ⟨x, hx, rfl⟩ := Option.map_eq_some_iff.1 e
    have h1 : x.Sound I ck := Dev.giveHome_sound (Dev.cancelMig_sound hd) x hx
    exact Dev.releaseHome_sound (Dev.writeMeadow_sound h1)

theorem Dev.resyncWrite_sound {d : Dev} {idx : Nat} {off : Nat} {bs : List Byte} (hd : d.Sound I ck) : (d.resyncWrite idx off
    bs).Sound I ck := by
  unfold Dev.resyncWrite
  split
  · exact hd
  · rename_i x1 d2 e3
    have hd2 : d2.Sound I ck := Dev.resyncHome_sound hd _ e3
    exact Dev.witness_sound (Dev.writeMeadow_sound (Dev.wickLookup_sound hd2))

theorem Dev.fabDown_sound {d : Dev} {n : Nat} (hd : d.Sound I ck) : (d.fabDown n).Sound I ck := by
  unfold Dev.fabDown
  exact Dev.setFlink_sound (Dev.fset_sound (Dev.fset_sound hd))

theorem Dev.fabTagFail_sound {d : Dev} {n : Nat} (hd : d.Sound I ck) : (d.fabTagFail n).Sound I ck := by
  unfold Dev.fabTagFail
  exact .ite (Dev.raise_sound (Dev.fabDown_sound (Dev.finc_sound (Dev.setFlink_sound hd)))) (Dev.finc_sound (Dev.setFlink_sound hd))

theorem Dev.fabRx_sound {d : Dev} {h : FabHdr} {free : Bool} {early : Bool} {act : Dev → Dev} (hd : d.Sound I ck) (hact : ∀ (d₀
    : Dev), d₀.Sound I ck → Dev.Sound I ck (act d₀)) : (d.fabRx h free early act).Sound I ck := by
  unfold Dev.fabRx
  exact .ite hd (.ite (Dev.fabTagFail_sound hd) (.ite (Dev.finc_sound hd) (.ite hd (.ite (hact _ (Dev.fabAck_sound (Dev.setFlink_sound hd))) (.ite (hact _ (Dev.setFlink_sound (Dev.fabAck_sound (Dev.setFlink_sound hd)))) (.ite (Dev.fabAck_sound (Dev.setFlink_sound hd)) (Dev.fabAskAgain_sound (Dev.fabAck_sound (Dev.setFlink_sound hd)))))))))

theorem Dev.floodLsa_sound {d : Dev} {l : Lsa} {except : Option Nat} (hd : d.Sound I ck) : (d.floodLsa l except).Sound I ck :=
    by
  unfold Dev.floodLsa
  exact .foldl hd fun _ _ h1 => (Dev.fabNow_sound h1)

theorem Dev.nameSteward_sound {d : Dev} (hd : d.Sound I ck) : (d.nameSteward).Sound I ck := by
  unfold Dev.nameSteward
  extract_lets +onlyGivenNames d1
  have h1 : d1.Sound I ck := by
    unfold d1
    split
    · exact Dev.fset_sound hd
    · exact hd
  exact .ite (Dev.raise_sound (.upd h1)) (.upd h1)

theorem Dev.ownLsa_sound {d : Dev} (hd : d.Sound I ck) : (d.ownLsa).Sound I ck := by
  unfold Dev.ownLsa
  exact Dev.fabRenew_sound (Dev.nameSteward_sound (Dev.floodLsa_sound (.upd hd)))

theorem Dev.takeId_sound {d : Dev} {i : Nat} {src : Nat} (hd : d.Sound I ck) : (d.takeId i src).Sound I ck := by
  unfold Dev.takeId
  exact Dev.ownLsa_sound (.foldl (Dev.fset_sound (Dev.fset_sound (Dev.fset_sound hd))) fun _ _ h2 => (.ite h2 (Dev.fset_sound h2)))

theorem Dev.takeGrant_sound {d : Dev} {i : Nat} (hd : d.Sound I ck) : (d.takeGrant i).Sound I ck := by
  unfold Dev.takeGrant
  exact Dev.takeId_sound (Dev.fset_sound hd)

theorem Dev.askId_sound {d : Dev} (hd : d.Sound I ck) : (d.askId).Sound I ck := by
  unfold Dev.askId
  refine .ite ?_ ?_
  · exact hd
  · refine .ite ?_ ?_
    · split
      · exact .upd (Dev.takeGrant_sound hd)
      · exact hd
    · exact Dev.send_sound hd

theorem Dev.settleFabric_sound {d : Dev} (hd : d.Sound I ck) : (d.settleFabric).Sound I ck := by
  unfold Dev.settleFabric
  exact .ite (Dev.fset_sound (Dev.fset_sound (Dev.fset_sound (.foldl hd fun _ _ h2 => (.ite h2 (Dev.fabDown_sound h2)))))) (.ite hd (.ite (Dev.takeId_sound hd) (Dev.askId_sound (Dev.ownLsa_sound hd))))

theorem Dev.loseId_sound {d : Dev} (hd : d.Sound I ck) : (d.loseId).Sound I ck := by
  unfold Dev.loseId
  exact Dev.askId_sound (.foldl (Dev.fset_sound (Dev.raise_sound hd)) fun _ _ h2 => (.ite (Dev.fset_sound h2) h2))

theorem Dev.computeRoutes_sound {d : Dev} (hd : d.Sound I ck) : (d.computeRoutes).Sound I ck := by
  unfold Dev.computeRoutes
  exact .upd hd

theorem Dev.forwardTransit_sound {d : Dev} {x : Transit} (hd : d.Sound I ck) : (d.forwardTransit x).Sound I ck := by
  unfold Dev.forwardTransit
  split
  · exact .ite (.upd hd) (Dev.fabFrame_sound (.upd hd))
  · exact .upd hd

theorem Dev.drainTransit_sound {d : Dev} (hd : d.Sound I ck) : (d.drainTransit).Sound I ck := by
  unfold Dev.drainTransit
  exact .foldl (.upd hd) fun _ _ h1 => (Dev.forwardTransit_sound h1)

theorem Dev.enlist_sound {d : Dev} {i : Nat} (hd : d.Sound I ck) : (d.enlist i).Sound I ck := by
  unfold Dev.enlist
  exact .ite hd (.ite (Dev.toMembers_sound (.upd hd)) (Dev.fabSend_sound (Dev.toMembers_sound (.upd hd))))

theorem Dev.joinMembers_sound {d : Dev} (hd : d.Sound I ck) : (d.joinMembers).Sound I ck := by
  unfold Dev.joinMembers
  exact .ite (.upd hd) (Dev.stewardHorizon_sound (.upd hd))

theorem Dev.settleSteward_sound {d : Dev} {was : Bool} (hd : d.Sound I ck) : (d.settleSteward was).Sound I ck := by
  unfold Dev.settleSteward
  exact .ite (.upd hd) hd

theorem Dev.startFwd_sound {d : Dev} {m : FwdIn} (hd : d.Sound I ck) : (d.startFwd m).Sound I ck := by
  unfold Dev.startFwd
  extract_lets +onlyGivenNames x1
  split
  · exact Dev.replyFwd_sound hd
  · split
    · exact Dev.replyFwd_sound hd
    · extract_lets +onlyGivenNames x2
      extract_lets +onlyGivenNames x3
      split
      · exact Dev.replyFwd_sound hd
      · extract_lets +onlyGivenNames d4
        have h4 : d4.Sound I ck := .ite hd (Dev.takeAdmission_sound hd)
        extract_lets +onlyGivenNames x5
        extract_lets +onlyGivenNames y6_0 d6
        have h6 : d6.Sound I ck := .ite (.upd h4) h4
        exact .upd h6

theorem Dev.fwdDrain_sound {d : Dev} {a1 : Nat} (hd : d.Sound I ck) : (d.fwdDrain a1).Sound I ck := by
  unfold Dev.fwdDrain
  split
  · exact hd
  · split
    · exact hd
    · extract_lets +onlyGivenNames x1
      extract_lets +onlyGivenNames y2_0 d2
      have h2 : d2.Sound I ck := .upd hd
      extract_lets +onlyGivenNames y3_0 d3
      have h3 : d3.Sound I ck := .ite (.upd h2) h2
      exact Dev.fwdDrain_sound (Dev.startFwd_sound h3)

theorem Dev.takeFwd_sound {d : Dev} {m : FwdIn} (hd : d.Sound I ck) : (d.takeFwd m).Sound I ck := by
  unfold Dev.takeFwd
  split
  · exact Dev.sendVerdict_sound hd
  · exact hd
  · exact Dev.pump_sound (Dev.fwdDrain_sound (.upd hd))

theorem Dev.fwdDeadlines_sound {d : Dev} (hd : d.Sound I ck) : (d.fwdDeadlines).Sound I ck := by
  unfold Dev.fwdDeadlines
  exact .foldl hd fun _ _ h1 => (.ite (Dev.answer_sound h1) (Dev.answer_sound h1))

theorem Dev.fjFail_sound {d : Dev} {f : Fj} {status : Nat} (hd : d.Sound I ck) : (d.fjFail f status).Sound I ck := by
  unfold Dev.fjFail
  extract_lets +onlyGivenNames y1_0 d1
  have h1 : d1.Sound I ck := .upd hd
  extract_lets +onlyGivenNames d2
  have h2 : d2.Sound I ck := Dev.raise_sound (Dev.finc_sound h1)
  extract_lets +onlyGivenNames x3
  extract_lets +onlyGivenNames x4
  refine .ite ?_ ?_
  · clear_value x4
    split
    · exact Dev.complete_sound h2
    · exact h2
  · exact .ite (Dev.setConn_sound h2) (.upd (Dev.fset_sound (Dev.fset_sound (Dev.fset_sound (Dev.fset_sound (Dev.fset_sound h2))))))

theorem Dev.fjWindow_sound {d : Dev} (hd : d.Sound I ck) : (d.fjWindow).Sound I ck := by
  unfold Dev.fjWindow
  exact .foldl hd fun _ _ h1 => (Dev.fjSend_sound h1)

theorem Dev.turnCur_sound {d : Dev} {rid : Nat} {old : Nat} {new : Nat} (hd : d.Sound I ck) : (d.turnCur rid old new).Sound I ck
    := by
  unfold Dev.turnCur
  split
  · exact hd
  · exact Dev.setRegion_sound hd

theorem Dev.fjMove_sound {d : Dev} {f : Fj} {other : Nat} (hd : d.Sound I ck) : (d.fjMove f other).Sound I ck := by
  unfold Dev.fjMove
  extract_lets +onlyGivenNames d1
  have h1 : d1.Sound I ck := Dev.turnCur_sound (Dev.finc_sound hd)
  extract_lets +onlyGivenNames x2
  extract_lets +onlyGivenNames x3
  split
  rename_i x4 x5 d6 e7
  have hd6 : d6.Sound I ck := .snd e7 (Dev.takeCseq_sound h1)
  exact Dev.fjSend_sound (.upd hd6)

theorem Dev.fwdAgain_sound {d : Dev} {o : Op} {x : FwdOut} {other : Nat} (hd : d.Sound I ck) : (d.fwdAgain o x other).Sound I ck
    := by
  unfold Dev.fwdAgain
  exact Dev.fwdPost_sound (.upd hd)

end Sys2Proof.Machine
end

