-- ==== Sys2Proof/Laws/Sound3.lean ====
section
/-! SUPPORT. What the shared operations keep, continued. -/

set_option Elab.async false

namespace Sys2Proof.Machine

variable {I : Prop} {ck : Nat}

theorem Dev.poolNow_sound {d : Dev} (hd : d.Sound I ck) : (d.poolNow).Sound I ck := by
  unfold Dev.poolNow
  exact .upd hd

theorem Dev.returnPlots_sound {d : Dev} {s : Nat} (hd : d.Sound I ck) : (d.returnPlots s).Sound I ck := by
  unfold Dev.returnPlots
  exact .upd hd

theorem Dev.setLamp_sound {d : Dev} {bay : Nat} {l : Lamp} (hd : d.Sound I ck) : (d.setLamp bay l).Sound I ck := by
  unfold Dev.setLamp
  exact .upd hd

theorem Dev.toChan_sound {d : Dev} {n : Nat} {st : Nat} (hd : d.Sound I ck) : (d.toChan n st).Sound I ck := by
  unfold Dev.toChan
  exact .ite hd (Dev.setLamp_sound (Dev.poolNow_sound (Dev.formCaps_sound (Dev.fset_sound (Dev.fset_sound hd)))))

theorem Dev.toChanEvent_sound {d : Dev} {n : Nat} {st : Nat} (hd : d.Sound I ck) : (d.toChanEvent n st).Sound I ck := by
  unfold Dev.toChanEvent
  exact .ite hd (Dev.raise_sound (Dev.toChan_sound hd))

theorem Dev.logCe_sound {d : Dev} {e : LineErr} (hd : d.Sound I ck) : (d.logCe e).1.Sound I ck := by
  unfold Dev.logCe
  extract_lets +onlyGivenNames x1
  extract_lets +onlyGivenNames x2
  split
  · exact Dev.fset_sound (Dev.finc_sound hd)
  · split
    · exact Dev.fset_sound (Dev.fset_sound (Dev.fset_sound (Dev.fset_sound (Dev.fset_sound (Dev.fset_sound (Dev.fset_sound hd))))))
    · exact Dev.finc_sound hd

theorem Dev.remap_sound {d : Dev} {n : Nat} {line : Nat} (hd : d.Sound I ck) : (d.remap n line).Sound I ck := by
  unfold Dev.remap
  refine .ite ?_ ?_
  · exact hd
  · split
    · exact .upd (Dev.finc_sound (Dev.fset_sound (Dev.fset_sound hd)))
    · exact Dev.raise_sound hd

theorem Dev.corrected_sound {d : Dev} {e : LineErr} (hd : d.Sound I ck) : (d.corrected e).Sound I ck := by
  unfold Dev.corrected
  refine .ite ?_ ?_
  · exact hd
  · split
    rename_i x1 d2 x3 e4
    have hd2 : d2.Sound I ck := .fst e4 (Dev.logCe_sound (Dev.count_sound (Dev.finc_sound hd)))
    refine .ite ?_ ?_
    · exact hd2
    · extract_lets +onlyGivenNames d5
      have h5 : d5.Sound I ck := by
        unfold d5
        split
        · exact Dev.fset_sound hd2
        · exact hd2
      exact Dev.remap_sound h5

theorem Dev.clearCe_sound {d : Dev} {n : Nat} (hd : d.Sound I ck) : (d.clearCe n).Sound I ck := by
  unfold Dev.clearCe
  exact .foldl (Dev.fset_sound (Dev.fset_sound hd)) fun _ _ h1 => (.ite (Dev.fset_sound h1) h1)

theorem Dev.loadRemap_sound {d : Dev} {n : Nat} {serials : List Nat} (hd : d.Sound I ck) : (d.loadRemap n serials).Sound I ck :=
    by
  unfold Dev.loadRemap
  extract_lets +onlyGivenNames y1_0 y1_1 y1_2 d1
  have h1 : d1.Sound I ck := .ite hd (.upd (Dev.setChan_sound (.foldl hd fun _ _ h2 => (.ite (Dev.fset_sound h2) h2))))
  exact Dev.fset_sound h1

theorem Dev.refetch_sound {d : Dev} {idx : Nat} (hd : d.Sound I ck) : (d.refetch idx).Sound I ck := by
  unfold Dev.refetch
  split
  · refine .ite ?_ ?_
    · extract_lets +onlyGivenNames y1_0 d1
      have h1 : d1.Sound I ck := .upd hd
      extract_lets +onlyGivenNames d2
      have h2 : d2.Sound I ck := .ite (.getD h1 (Dev.giveHome_sound h1)) h1
      exact Dev.twinSend_sound h2
    · exact hd
  · exact hd

theorem Dev.poison_sound {d : Dev} {idx : Nat} (hd : d.Sound I ck) : (d.poison idx).Sound I ck := by
  unfold Dev.poison
  exact Dev.refetch_sound (Dev.setPlotState_sound hd)

theorem Dev.rebuildLine_sound {d : Dev} {line : Nat} (hd : d.Sound I ck) : (d.rebuildLine line).Sound I ck := by
  unfold Dev.rebuildLine
  exact .foldl hd fun _ _ h1 => (Dev.refetch_sound (Dev.broadcast_sound (Dev.setEntry_sound (Dev.releaseHome_sound (Dev.candleDrop_sound (Dev.cancelMig_sound h1))))))

theorem Dev.captureUe_sound {d : Dev} {e : LineErr} (hd : d.Sound I ck) : (d.captureUe e).Sound I ck := by
  unfold Dev.captureUe
  exact Dev.fset_sound (Dev.fset_sound (Dev.fset_sound (Dev.fset_sound (Dev.fset_sound (Dev.fset_sound (Dev.fset_sound (Dev.fset_sound (Dev.fset_sound hd))))))))

theorem Dev.freezeMig_sound {d : Dev} {n : Nat} {m : Migration} (hd : d.Sound I ck) : (d.freezeMig n m).Sound I ck := by
  unfold Dev.freezeMig
  exact .ite (.ite (Dev.queueMig_sound (Dev.cancelMig_sound hd)) (Dev.cancelMig_sound hd)) (.ite (Dev.setMig_sound hd) hd)

theorem Dev.freezeOps_sound {d : Dev} {n : Nat} (hd : d.Sound I ck) : (d.freezeOps n).Sound I ck := by
  unfold Dev.freezeOps
  exact .foldl hd fun _ _ h1 => (Dev.refuse_sound h1)

theorem Dev.freeze_sound {d : Dev} {n : Nat} {cause : Nat} (hd : d.Sound I ck) : (d.freeze n cause).Sound I ck := by
  unfold Dev.freeze
  exact Dev.pump_sound (Dev.freezeOps_sound (.foldl (Dev.raise_sound (Dev.fset_sound (Dev.toChan_sound (Dev.fset_sound hd)))) fun _ _ h2 => (Dev.freezeMig_sound h2)))

theorem Dev.thawFloor_sound {d : Dev} {n : Nat} (hd : d.Sound I ck) : (d.thawFloor n).Sound I ck := by
  unfold Dev.thawFloor
  split
  · exact hd
  · exact .upd hd

theorem Dev.endFreeze_sound {d : Dev} {n : Nat} (hd : d.Sound I ck) : (d.endFreeze n).Sound I ck := by
  unfold Dev.endFreeze
  exact Dev.pump_sound (Dev.returnPlots_sound (Dev.thawFloor_sound (.upd hd)))

theorem Dev.evacChannel_sound {d : Dev} {n : Nat} (hd : d.Sound I ck) : (d.evacChannel n).Sound I ck := by
  unfold Dev.evacChannel
  refine .ite ?_ ?_
  · exact hd
  · extract_lets +onlyGivenNames x1
    extract_lets +onlyGivenNames d2
    have h2 : d2.Sound I ck := Dev.setChan_sound hd
    extract_lets +onlyGivenNames d3
    have h3 : d3.Sound I ck := .ite (Dev.fset_sound (Dev.fset_sound h2)) h2
    extract_lets +onlyGivenNames x4
    extract_lets +onlyGivenNames y5_0 d5
    have h5 : d5.Sound I ck := .ite (.upd h3) h3
    exact Dev.pump_sound (.foldl (Dev.toChanEvent_sound h5) fun _ _ h6 => (Dev.evacuate_sound h6))

theorem Dev.dropDuty_sound {d : Dev} {m : Nat} (hd : d.Sound I ck) : (d.dropDuty m).Sound I ck := by
  unfold Dev.dropDuty
  exact .ite hd (Dev.rebudget_sound (Dev.fset_sound hd))

theorem Dev.toMod_sound {d : Dev} {m : Nat} {st : Nat} (hd : d.Sound I ck) : (d.toMod m st).Sound I ck := by
  unfold Dev.toMod
  refine .ite ?_ ?_
  · exact hd
  · extract_lets +onlyGivenNames d1
    have h1 : d1.Sound I ck := Dev.fset_sound hd
    extract_lets +onlyGivenNames d2
    have h2 : d2.Sound I ck := .ite (Dev.dropDuty_sound h1) h1
    exact Dev.raise_sound (Dev.setLamp_sound (Dev.formCaps_sound h2))

theorem Dev.countDies_sound {d : Dev} {m : Nat} (hd : d.Sound I ck) : (d.countDies m).Sound I ck := by
  unfold Dev.countDies
  exact .ite (Dev.rebudget_sound (Dev.fset_sound (Dev.fset_sound (Dev.fset_sound hd)))) (Dev.fset_sound (Dev.fset_sound hd))

theorem Dev.dropDie_sound {d : Dev} {k : Nat} (hd : d.Sound I ck) : (d.dropDie k).Sound I ck := by
  unfold Dev.dropDie
  exact .ite (Dev.toMod_sound (Dev.raise_sound (.upd (Dev.countDies_sound (Dev.fset_sound hd))))) (Dev.raise_sound (.upd (Dev.countDies_sound (Dev.fset_sound hd))))

theorem Dev.retireDie_sound {d : Dev} {k : Nat} (hd : d.Sound I ck) : (d.retireDie k).Sound I ck := by
  unfold Dev.retireDie
  extract_lets +onlyGivenNames x1
  extract_lets +onlyGivenNames x2
  split
  · exact Dev.dropDie_sound hd
  · exact .upd (Dev.dropDie_sound hd)

theorem Dev.failedProgram_sound {d : Dev} {k : Nat} (hd : d.Sound I ck) : (d.failedProgram k).Sound I ck := by
  unfold Dev.failedProgram
  extract_lets +onlyGivenNames x1
  extract_lets +onlyGivenNames x2
  extract_lets +onlyGivenNames x3
  extract_lets +onlyGivenNames d4
  have h4 : d4.Sound I ck := Dev.raise_sound (Dev.fset_sound (Dev.finc_sound hd))
  extract_lets +onlyGivenNames d5
  have h5 : d5.Sound I ck := .ite (Dev.raise_sound h4) h4
  exact .ite (Dev.retireDie_sound h5) h5

theorem Dev.dropRead_sound {d : Dev} {k : Nat} {id : Nat} (hd : d.Sound I ck) : (d.dropRead k id).Sound I ck := by
  unfold Dev.dropRead
  exact Dev.setDie_sound hd

theorem Dev.countRead_sound {d : Dev} {ch : Nat} {r : ReadResult} (hd : d.Sound I ck) : (d.countRead ch r).Sound I ck := by
  unfold Dev.countRead
  extract_lets +onlyGivenNames x1
  extract_lets +onlyGivenNames y2_0 d2
  have h2 : d2.Sound I ck := .upd hd
  extract_lets +onlyGivenNames d3
  have h3 : d3.Sound I ck := Dev.count_sound (Dev.finc_sound h2)
  extract_lets +onlyGivenNames d4
  have h4 : d4.Sound I ck := .ite h3 (Dev.count_sound (Dev.finc_sound h3))
  extract_lets +onlyGivenNames d5
  have h5 : d5.Sound I ck := .ite (Dev.finc_sound h4) h4
  exact .ite (Dev.finc_sound h5) h5

theorem Dev.failRead_sound {d : Dev} {o : Op} {idx : Nat} {ch : Nat} (hd : d.Sound I ck) : (d.failRead o idx ch).Sound I ck :=
    by
  unfold Dev.failRead
  exact Dev.answer_sound (.upd (Dev.raise_sound (Dev.poison_sound hd)))

theorem Dev.toWindow_sound {d : Dev} {m : Nat} {w : Nat} (hd : d.Sound I ck) : (d.toWindow m w).Sound I ck := by
  unfold Dev.toWindow
  exact .ite hd (Dev.pumpDies_sound (.ite (Dev.dropDuty_sound (.upd (Dev.fset_sound (Dev.fset_sound hd)))) (.upd (Dev.fset_sound (Dev.fset_sound hd)))))

theorem Dev.evacModule_sound {d : Dev} {m : Nat} (hd : d.Sound I ck) : (d.evacModule m).Sound I ck := by
  unfold Dev.evacModule
  extract_lets +onlyGivenNames d1
  have h1 : d1.Sound I ck := Dev.toMod_sound hd
  extract_lets +onlyGivenNames d2
  have h2 : d2.Sound I ck := .ite (Dev.rebudget_sound (Dev.fset_sound h1)) (Dev.leaveDuty_sound h1)
  exact Dev.pump_sound (Dev.settleOver_sound h2)

theorem Dev.startCmd_sound {d : Dev} {id : Nat} {op : Nat} {fits : Cmd → Bool} {act : Dev → Cmd → Dev} (hd : d.Sound I ck) (hact
    : ∀ (d₀ : Dev) (x0 : Cmd), d₀.Sound I ck → Dev.Sound I ck (act d₀ x0)) : (d.startCmd id op fits act).Sound I ck := by
  unfold Dev.startCmd
  split
  · exact hd
  · refine .ite ?_ ?_
    · exact hd
    · split
      · exact Dev.complete_sound hd
      · exact .ite (Dev.complete_sound hd) (hact _ _ (Dev.setCmd_sound hd))

theorem Dev.closeCfx_sound {d : Dev} (hd : d.Sound I ck) : (d.closeCfx).Sound I ck := by
  unfold Dev.closeCfx
  exact .upd (Dev.fset_sound (Dev.fset_sound hd))

theorem Dev.discardCfx_sound {d : Dev} (hd : d.Sound I ck) : (d.discardCfx).Sound I ck := by
  unfold Dev.discardCfx
  refine .ite ?_ ?_
  · exact hd
  · extract_lets +onlyGivenNames x1
    extract_lets +onlyGivenNames d2
    have h2 : d2.Sound I ck := Dev.fset_sound (Dev.closeCfx_sound hd)
    clear_value x1
    split
    · exact Dev.complete_sound h2
    · exact h2

theorem Dev.scrubCounts_sound {d : Dev} {c : Cmd} {counts : List Nat} (hd : d.Sound I ck) : (d.scrubCounts c counts).Sound I ck
    := by
  unfold Dev.scrubCounts
  exact Dev.send_sound hd

theorem Dev.stopCmd_sound {d : Dev} {c : Cmd} (hd : d.Sound I ck) : (d.stopCmd c).Sound I ck := by
  unfold Dev.stopCmd
  exact .ite (Dev.discardCfx_sound hd) (.ite (Dev.complete_sound (.upd hd)) (.ite (Dev.complete_sound (.upd hd)) (.ite (Dev.complete_sound (Dev.scrubCounts_sound (Dev.used_sound (Dev.used_sound hd)))) (.ite (Dev.complete_sound (.upd (Dev.used_sound hd))) (.ite (Dev.complete_sound (.foldl hd fun _ _ h1 => (Dev.abandon_sound h1))) (Dev.complete_sound hd))))))

theorem Dev.setAuthority_sound {d : Dev} (hd : d.Sound I ck) : (d.setAuthority).Sound I ck := by
  unfold Dev.setAuthority
  exact Dev.fset_sound hd

theorem Dev.dropSideBank_sound {d : Dev} (hd : d.Sound I ck) : (d.dropSideBank).Sound I ck := by
  unfold Dev.dropSideBank
  exact .ite (Dev.discardCfx_sound hd) hd

theorem Dev.mainAbsent_sound {d : Dev} (hd : d.Sound I ck) : (d.mainAbsent).Sound I ck := by
  unfold Dev.mainAbsent
  exact .ite hd (Dev.inBand_sound (Dev.raise_sound (Dev.setAuthority_sound (Dev.fset_sound hd))))

theorem Dev.mainPresent_sound {d : Dev} (hd : d.Sound I ck) : (d.mainPresent).Sound I ck := by
  unfold Dev.mainPresent
  exact .ite hd (Dev.dropSideBank_sound (Dev.inBand_sound (Dev.raise_sound (Dev.setAuthority_sound (Dev.fset_sound hd)))))

theorem Dev.rngUsed_sound {d : Dev} (hd : d.Sound I ck) : (d.rngUsed).Sound I ck := by
  unfold Dev.rngUsed
  exact .upd (Dev.used_sound hd)

theorem Dev.drew_sound {d : Dev} (hd : d.Sound I ck) : (d.drew).Sound I ck := by
  unfold Dev.drew
  exact .ite (Dev.rngUsed_sound hd) (.upd hd)

theorem Dev.writeStore_sound {d : Dev} (hd : d.Sound I ck) : (d.writeStore).Sound I ck := by
  unfold Dev.writeStore
  exact .upd (Dev.fset_sound (Dev.fset_sound hd))

theorem Dev.allOffline_sound {d : Dev} (hd : d.Sound I ck) : (d.allOffline).Sound I ck := by
  unfold Dev.allOffline
  exact .upd hd

theorem Dev.regionsBack_sound {d : Dev} {n : Nat} (hd : d.Sound I ck) : (d.regionsBack n).Sound I ck := by
  unfold Dev.regionsBack
  exact .ite hd (.upd hd)

theorem Dev.keylessOffline_sound {d : Dev} (hd : d.Sound I ck) : (d.keylessOffline).Sound I ck := by
  unfold Dev.keylessOffline
  exact .upd hd

theorem Dev.copyAuth_sound {d : Dev} (hd : d.Sound I ck) : (d.copyAuth).Sound I ck := by
  unfold Dev.copyAuth
  exact .upd hd

theorem Dev.loadSlot_sound {d : Dev} {n : Nat} {k : Slot} (hd : d.Sound I ck) : (d.loadSlot n k).Sound I ck := by
  unfold Dev.loadSlot
  extract_lets +onlyGivenNames x1
  extract_lets +onlyGivenNames x2
  extract_lets +onlyGivenNames y3_0 x3
  extract_lets +onlyGivenNames d4
  have h4 : d4.Sound I ck := .upd hd
  extract_lets +onlyGivenNames d5
  have h5 : d5.Sound I ck := .ite (Dev.writeStore_sound h4) h4
  extract_lets +onlyGivenNames d6
  have h6 : d6.Sound I ck := Dev.regionsBack_sound (.ite (Dev.copyAuth_sound h5) h5)
  extract_lets +onlyGivenNames d7
  have h7 : d7.Sound I ck := .ite (Dev.twinRekey_sound h6) h6
  extract_lets +onlyGivenNames d8
  have h8 : d8.Sound I ck := .ite (Dev.fabRekey_sound h7) h7
  exact Dev.pump_sound h8

theorem Dev.clearKeyData_sound {d : Dev} (hd : d.Sound I ck) : (d.clearKeyData).Sound I ck := by
  unfold Dev.clearKeyData
  exact .foldl hd fun _ _ h1 => (Dev.fset_sound h1)

theorem Dev.keyFields_sound {d : Dev} {v : Nat} (hd : d.Sound I ck) : (d.keyFields v).Sound I ck := by
  unfold Dev.keyFields
  exact Dev.fset_sound (Dev.fset_sound (Dev.fset_sound (Dev.fset_sound hd)))

theorem Dev.keyLoad_sound {d : Dev} (hd : d.Sound I ck) : (d.keyLoad).Sound I ck := by
  unfold Dev.keyLoad
  exact .ite (Dev.illegal_sound hd) (.ite (Dev.fset_sound (Dev.clearKeyData_sound hd)) (.ite (Dev.fset_sound (Dev.clearKeyData_sound hd)) (Dev.loadSlot_sound (Dev.fset_sound (Dev.clearKeyData_sound hd)))))

theorem Dev.keyErase_sound {d : Dev} (hd : d.Sound I ck) : (d.keyErase).Sound I ck := by
  unfold Dev.keyErase
  extract_lets +onlyGivenNames x1
  refine .ite ?_ ?_
  · exact Dev.illegal_sound hd
  · extract_lets +onlyGivenNames x2
    extract_lets +onlyGivenNames d3
    have h3 : d3.Sound I ck := Dev.eraseSlot_sound (Dev.fset_sound hd)
    extract_lets +onlyGivenNames d4
    have h4 : d4.Sound I ck := .ite (Dev.writeStore_sound h3) h3
    exact .ite (Dev.copyAuth_sound h4) h4

theorem Dev.writeKeyLoad_sound {d : Dev} {v : Nat} (hd : d.Sound I ck) : (d.writeKeyLoad v).Sound I ck := by
  unfold Dev.writeKeyLoad
  exact .ite (Dev.illegal_sound hd) (.ite (Dev.keyFields_sound hd) (.ite (Dev.keyLoad_sound (Dev.keyFields_sound hd)) (.ite (Dev.keyErase_sound (Dev.keyFields_sound hd)) (Dev.keyFields_sound hd))))

theorem Dev.unwrap_sound {d : Dev} {b : Blob} (hd : d.Sound I ck) : (d.unwrap b).1.Sound I ck := by
  unfold Dev.unwrap
  split
  · exact hd
  · split
    · exact Dev.finc_sound hd
    · split
      · exact hd
      · dsimp only
        exact Dev.loadSlot_sound hd

theorem Dev.eraseKeys_sound {d : Dev} (hd : d.Sound I ck) : (d.eraseKeys).Sound I ck := by
  unfold Dev.eraseKeys
  exact .upd (Dev.fset_sound hd)

theorem Dev.dropJobs_sound {d : Dev} (hd : d.Sound I ck) : (d.dropJobs).Sound I ck := by
  unfold Dev.dropJobs
  extract_lets +onlyGivenNames x2
  extract_lets +onlyGivenNames y4_0 d4
  have h4 : d4.Sound I ck := .upd hd
  refine .foldl ?_ ?_
  · exact h4
  · intro d6 x7 h8
    split
    · exact Dev.complete_sound h8
    · exact h8

theorem Dev.alarm_sound {d : Dev} {cause : Nat} (hd : d.Sound I ck) : (d.alarm cause).Sound I ck := by
  unfold Dev.alarm
  exact .ite (Dev.raise_sound (Dev.eraseKeys_sound (Dev.fset_sound hd))) (Dev.pump_sound (Dev.allOffline_sound (Dev.fset_sound (.foldl (.ite (Dev.twinDown_sound (Dev.heartbeat_sound (Dev.setStatus_sound (Dev.dropJobs_sound (Dev.raise_sound (Dev.eraseKeys_sound (Dev.fset_sound hd))))))) (Dev.heartbeat_sound (Dev.setStatus_sound (Dev.dropJobs_sound (Dev.raise_sound (Dev.eraseKeys_sound (Dev.fset_sound hd))))))) fun _ _ h2 => (Dev.fabDown_sound h2)))))

theorem Dev.runJob_sound {d : Dev} {c : Cmd} {src : List Byte} {aux : List Byte} (hd : d.Sound I ck) : (d.runJob c src
    aux).Sound I ck := by
  unfold Dev.runJob
  extract_lets +onlyGivenNames x1
  extract_lets +onlyGivenNames x2
  extract_lets +onlyGivenNames x3
  extract_lets +onlyGivenNames x4
  extract_lets +onlyGivenNames x5
  extract_lets +onlyGivenNames x6
  extract_lets +onlyGivenNames d7
  have h7 : d7.Sound I ck := Dev.count_sound (Dev.count_sound hd)
  refine .ite ?_ ?_
  · exact Dev.complete_sound h7
  · refine .ite ?_ ?_
    · exact Dev.complete_sound h7
    · extract_lets +onlyGivenNames d8
      have h8 : d8.Sound I ck := Dev.finc_sound h7
      refine .ite ?_ ?_
      · exact Dev.complete_sound (Dev.finc_sound h8)
      · extract_lets +onlyGivenNames x9
        extract_lets +onlyGivenNames d10
        have h10 : d10.Sound I ck := .ite h8 (Dev.send_sound h8)
        extract_lets +onlyGivenNames d11
        have h11 : d11.Sound I ck := .ite h10 (Dev.send_sound h10)
        exact Dev.complete_sound h11

theorem Dev.runRegion_sound {d : Dev} {c : Cmd} {stripes : List (BitVec 32)} (hd : d.Sound I ck) : (d.runRegion c stripes).Sound
    I ck := by
  unfold Dev.runRegion
  refine .ite ?_ ?_
  · exact Dev.complete_sound hd
  · refine .ite ?_ ?_
    · extract_lets +onlyGivenNames x1
      extract_lets +onlyGivenNames d2
      have h2 : d2.Sound I ck := Dev.rngUsed_sound hd
      split
      · exact Dev.complete_sound h2
      · exact .ite (Dev.complete_sound h2) (.ite (Dev.complete_sound h2) (Dev.pump_sound (Dev.submitChange_sound h2)))
    · refine .ite ?_ ?_
      · exact Dev.complete_sound hd
      · split
        · exact Dev.complete_sound hd
        · extract_lets +onlyGivenNames x3
          extract_lets +onlyGivenNames d4
          have h4 : d4.Sound I ck := .ite (Dev.rngUsed_sound hd) hd
          refine .ite ?_ ?_
          · exact Dev.finishChange_sound h4
          · refine .ite ?_ ?_
            · exact Dev.complete_sound h4
            · split
              · exact Dev.complete_sound h4
              · exact Dev.complete_sound h4
              · exact Dev.pump_sound (Dev.submitChange_sound h4)

theorem Dev.startRegion_sound {d : Dev} {id : Nat} {func : Nat} {stripes : List (BitVec 32)} (hd : d.Sound I ck) :
    (d.startRegion id func stripes).Sound I ck := by
  unfold Dev.startRegion
  exact Dev.startCmd_sound hd (fun _ _ h1 => (Dev.runRegion_sound h1))

theorem Dev.actEvacuate_sound {d : Dev} {c : Cmd} (hd : d.Sound I ck) : (d.actEvacuate c).Sound I ck := by
  unfold Dev.actEvacuate
  exact .ite (.ite (Dev.complete_sound hd) (Dev.complete_sound (Dev.evacChannel_sound hd))) (.ite (Dev.complete_sound hd) (Dev.complete_sound (Dev.evacModule_sound hd)))

theorem Dev.ingress_sound {d : Dev} {port : Nat} {pri : Nat} {occ : Nat} (hd : d.Sound I ck) : (d.ingress port pri occ).Sound I
    ck := by
  unfold Dev.ingress
  exact .ite (Dev.setPort_sound (Dev.count_sound (Dev.send_sound (Dev.setPort_sound hd)))) (.ite (Dev.setPort_sound (Dev.count_sound (Dev.send_sound (Dev.setPort_sound hd)))) (Dev.setPort_sound hd))

theorem Dev.dropStale_sound {d : Dev} (hd : d.Sound I ck) : (d.dropStale).Sound I ck := by
  unfold Dev.dropStale
  exact Dev.finc_sound hd

theorem Dev.lostPacket_sound {d : Dev} {port : Nat} {pri : Nat} (hd : d.Sound I ck) : (d.lostPacket port pri).Sound I ck := by
  unfold Dev.lostPacket
  exact .ite (Dev.raise_sound (Dev.setPort_sound hd)) hd

theorem Dev.notify_sound {d : Dev} {c : Nat} {pri : Nat} (hd : d.Sound I ck) : (d.notify c pri).Sound I ck := by
  unfold Dev.notify
  exact .ite (Dev.setConn_sound (Dev.count_sound (Dev.egress_sound hd))) hd

theorem Dev.nakInvalidReq_sound {d : Dev} {o : Op} (hd : d.Sound I ck) : (d.nakInvalidReq o).Sound I ck := by
  unfold Dev.nakInvalidReq
  extract_lets +onlyGivenNames d1
  have h1 : d1.Sound I ck := .ite (Dev.raise_sound hd) hd
  exact Dev.reply_sound h1

theorem Dev.duplicate_sound {d : Dev} {o : Op} {a : Ask} (hd : d.Sound I ck) : (d.duplicate o a).Sound I ck := by
  unfold Dev.duplicate
  extract_lets +onlyGivenNames x1
  extract_lets +onlyGivenNames x2
  split
  · clear_value x2
    split
    · exact hd
    · exact Dev.emit_sound hd
  · clear_value x2
    split
    · exact hd
    · exact Dev.emit_sound hd
  · split
    · exact Dev.emit_sound hd
    · exact .ite hd (Dev.dropStale_sound hd)
  · split
    · exact Dev.emit_sound hd
    · exact .ite hd (Dev.dropStale_sound hd)
  · exact Dev.pushIngress_sound hd
  · exact Dev.pushIngress_sound hd
  · exact Dev.pushIngress_sound hd
  · exact Dev.pushIngress_sound hd
  · exact Dev.pushIngress_sound hd

theorem Dev.advance_sound {d : Dev} {o : Op} (hd : d.Sound I ck) : (d.advance o).Sound I ck := by
  unfold Dev.advance
  exact Dev.setConn_sound hd

theorem Dev.beyond_sound {d : Dev} {o : Op} (hd : d.Sound I ck) : (d.beyond o).Sound I ck := by
  unfold Dev.beyond
  exact .ite hd (Dev.emit_sound (Dev.setConn_sound hd))

theorem Dev.madeReady_sound {d : Dev} {c : Nat} (hd : d.Sound I ck) : (d.madeReady c).Sound I ck := by
  unfold Dev.madeReady
  exact Dev.setConn_sound hd

theorem Dev.expected_sound {d : Dev} {o : Op} {q : Req} {a : Ask} {v : Option (Option Status)} (hd : d.Sound I ck) : (d.expected
    o q a v).Sound I ck := by
  unfold Dev.expected
  extract_lets +onlyGivenNames x1
  extract_lets +onlyGivenNames x2
  refine .ite ?_ ?_
  · exact Dev.nakInvalidReq_sound (Dev.advance_sound hd)
  · extract_lets +onlyGivenNames d3
    have h3 : d3.Sound I ck := Dev.advance_sound (Dev.madeReady_sound hd)
    clear_value x1
    split
    · exact Dev.setConn_sound (Dev.pushIngress_sound h3)
    · exact .ite (Dev.setConn_sound (Dev.pushIngress_sound h3)) (Dev.pushIngress_sound h3)

theorem Dev.packet_sound {d : Dev} {p : ColdPkt} (hd : d.Sound I ck) : (d.packet p).Sound I ck := by
  unfold Dev.packet
  extract_lets +onlyGivenNames x1
  split
  · exact .ite (Dev.expected_sound hd) (.ite (Dev.duplicate_sound hd) (Dev.beyond_sound hd))
  · exact .ite (Dev.nakInvalidReq_sound (Dev.advance_sound hd)) (.ite hd (Dev.beyond_sound hd))

theorem Dev.arrive_sound {d : Dev} {q : Req} {a : Option Ask} (hd : d.Sound I ck) : (d.arrive q a).Sound I ck := by
  unfold Dev.arrive
  exact .ite (Dev.dropStale_sound hd) (.ite hd (.ite (Dev.lostPacket_sound hd) (.ite (Dev.count_sound (Dev.dropStale_sound (Dev.ingress_sound hd))) (.ite (Dev.pump_sound (Dev.packet_sound (Dev.setConn_sound (.ite (Dev.notify_sound (Dev.ingress_sound hd)) (Dev.ingress_sound hd))))) (.upd (Dev.wake_sound (Dev.setConn_sound (.ite (Dev.notify_sound (Dev.ingress_sound hd)) (Dev.ingress_sound hd)))))))))

theorem Dev.pauseTest_sound {d : Dev} (hd : d.Sound I ck) : (d.pauseTest).Sound I ck := by
  unfold Dev.pauseTest
  exact .ite (.upd hd) hd

theorem Dev.request_sound {d : Dev} {q : Req} {a : Ask} (hd : d.Sound I ck) : (d.request q a).Sound I ck := by
  unfold Dev.request
  exact Dev.arrive_sound (Dev.pauseTest_sound hd)

theorem Dev.cancelReads_sound {d : Dev} {id : Nat} (hd : d.Sound I ck) : (d.cancelReads id).Sound I ck := by
  unfold Dev.cancelReads
  exact .upd hd

theorem Dev.countExpired_sound {d : Dev} {c : Nat} (hd : d.Sound I ck) : (d.countExpired c).Sound I ck := by
  unfold Dev.countExpired
  exact Dev.count_sound (Dev.finc_sound hd)

theorem Dev.expire_sound {d : Dev} {o : Op} {est : Option Nat} (hd : d.Sound I ck) : (d.expire o est).Sound I ck := by
  unfold Dev.expire
  exact .ite (Dev.makeDurable_sound hd) (.ite (Dev.finishFence_sound hd) (.ite (Dev.setOp_sound hd) (.ite hd (.ite hd (Dev.answer_sound (.ite (Dev.undo_sound (Dev.cancelReads_sound (Dev.countExpired_sound hd))) (Dev.cancelReads_sound (Dev.countExpired_sound hd))))))))

theorem Dev.expireWaiting_sound {d : Dev} {e : IngPkt} {est : Option Nat} (hd : d.Sound I ck) : (d.expireWaiting e est).Sound I
    ck := by
  unfold Dev.expireWaiting
  exact Dev.reply_sound (.upd (Dev.countExpired_sound hd))

theorem Dev.staleTag_sound {d : Dev} (hd : d.Sound I ck) : (d.staleTag).Sound I ck := by
  unfold Dev.staleTag
  exact Dev.finc_sound hd

theorem Dev.thawPackets_sound {d : Dev} {c : Nat} (hd : d.Sound I ck) : (d.thawPackets c).Sound I ck := by
  unfold Dev.thawPackets
  exact .foldl (.upd hd) fun _ _ h1 => (.ite (Dev.dropStale_sound h1) (Dev.packet_sound h1))

theorem Dev.loadCold_sound {d : Dev} {c : Nat} (hd : d.Sound I ck) : (d.loadCold c).Sound I ck := by
  unfold Dev.loadCold
  exact Dev.pump_sound (Dev.thawPackets_sound (Dev.count_sound (Dev.setConn_sound hd)))

end Sys2Proof.Machine
end

