-- ==== Sys2Proof/Laws/Sound4.lean ====
section
/-! SUPPORT. What the shared operations keep, continued. -/

set_option Elab.async false

namespace Sys2Proof.Machine

variable {I : Prop} {ck : Nat}

theorem Dev.takeIndex_sound {d : Dev} {i : Nat} (hd : d.Sound I ck) : (d.takeIndex i).Sound I ck := by
  unfold Dev.takeIndex
  exact .ite (.upd hd) (.upd hd)

theorem Dev.sendCm_sound {d : Dev} {port : Nat} {pri : Nat} {kind : CmKind} {fields : List Nat} {priv : List Byte} (hd : d.Sound
    I ck) : (d.sendCm port pri kind fields priv).Sound I ck := by
  unfold Dev.sendCm
  exact Dev.egress_sound hd

theorem Dev.acceptReq_sound {d : Dev} {r : CmReq} {i : Nat} (hd : d.Sound I ck) : (d.acceptReq r i).Sound I ck := by
  unfold Dev.acceptReq
  exact Dev.sendCm_sound (.upd (Dev.drew_sound (Dev.takeIndex_sound hd)))

theorem Dev.answerReq_sound {d : Dev} {r : CmReq} {ahead : Nat} (hd : d.Sound I ck) : (d.answerReq r ahead).Sound I ck := by
  unfold Dev.answerReq
  split
  · exact Dev.acceptReq_sound hd
  · exact Dev.sendCm_sound hd
  · exact Dev.sendCm_sound hd

theorem Dev.serveReq_sound {d : Dev} {p : PendReq} (hd : d.Sound I ck) : (d.serveReq p).Sound I ck := by
  unfold Dev.serveReq
  exact Dev.answerReq_sound (.upd hd)

theorem Dev.serveReqs_sound {d : Dev} (hd : d.Sound I ck) : (d.serveReqs).Sound I ck := by
  unfold Dev.serveReqs
  exact .foldl hd fun _ _ h1 => (Dev.serveReq_sound h1)

theorem Dev.setState_sound {d : Dev} {c : Nat} {st : ConnState} (hd : d.Sound I ck) : (d.setState c st).Sound I ck := by
  unfold Dev.setState
  exact Dev.setConn_sound hd

theorem Dev.quarantine_sound {d : Dev} {c : Nat} (hd : d.Sound I ck) : (d.quarantine c).Sound I ck := by
  unfold Dev.quarantine
  exact Dev.thawPackets_sound (Dev.setConn_sound (Dev.setState_sound hd))

theorem Dev.sendDreq_sound {d : Dev} {c : Nat} (hd : d.Sound I ck) : (d.sendDreq c).Sound I ck := by
  unfold Dev.sendDreq
  exact Dev.setConn_sound (Dev.sendCm_sound hd)

theorem Dev.sendLldp_sound {d : Dev} {port : Nat} (hd : d.Sound I ck) : (d.sendLldp port).Sound I ck := by
  unfold Dev.sendLldp
  exact Dev.send_sound hd

theorem Dev.portDown_sound {d : Dev} {port : Nat} (hd : d.Sound I ck) : (d.portDown port).Sound I ck := by
  unfold Dev.portDown
  exact .ite hd (Dev.raise_sound (Dev.freeTags_sound (Dev.setPort_sound hd)))

theorem Dev.refreshPri_sound {d : Dev} {port : Nat} {occ : Nat} {pri : Nat} (hd : d.Sound I ck) : (d.refreshPri port occ
    pri).Sound I ck := by
  unfold Dev.refreshPri
  split
  · exact hd
  · exact .ite (Dev.setPort_sound (Dev.count_sound (Dev.send_sound hd))) (.ite (Dev.setPort_sound (Dev.count_sound (Dev.send_sound hd))) hd)

theorem Dev.openCfx_sound {d : Dev} {holder : Nat} (hd : d.Sound I ck) : (d.openCfx holder).Sound I ck := by
  unfold Dev.openCfx
  exact .upd (Dev.fset_sound (Dev.fset_sound hd))

theorem Dev.takeBank_sound {d : Dev} (hd : d.Sound I ck) : (d.takeBank).Sound I ck := by
  unfold Dev.takeBank
  exact .upd hd

theorem Dev.layOut_sound {d : Dev} (hd : d.Sound I ck) : (d.layOut).Sound I ck := by
  unfold Dev.layOut
  exact .foldl (Dev.fset_sound (Dev.fset_sound (Dev.formCaps_sound (Dev.fset_sound (Dev.fset_sound (.upd hd)))))) fun _ _ h1 => (Dev.returnPlots_sound h1)

theorem Dev.retrainOctets_sound {d : Dev} {was : Dev} (hd : d.Sound I ck) : (d.retrainOctets was).Sound I ck := by
  unfold Dev.retrainOctets
  exact .foldl hd fun _ _ h1 => (.foldl h1 fun _ _ h2 => (Dev.portDown_sound h2))

theorem Dev.macsGone_sound {d : Dev} (hd : d.Sound I ck) : (d.macsGone).Sound I ck := by
  unfold Dev.macsGone
  exact .foldl hd fun _ _ h1 => (Dev.portDown_sound h1)

theorem Dev.enablesNow_sound {d : Dev} (hd : d.Sound I ck) : (d.enablesNow).Sound I ck := by
  unfold Dev.enablesNow
  exact .foldl (.foldl hd fun _ _ h1 => (.ite (Dev.toChanEvent_sound h1) (.ite (Dev.toChanEvent_sound h1) h1))) fun _ _ h2 => (.ite (.ite h2 (Dev.toMod_sound h2)) h2)

theorem Dev.modulesOn_sound {d : Dev} {was : Dev} (hd : d.Sound I ck) : (d.modulesOn was).Sound I ck := by
  unfold Dev.modulesOn
  exact .foldl hd fun _ _ h1 => (Dev.toMod_sound h1)

theorem Dev.renumber_sound {d : Dev} {was : Dev} (hd : d.Sound I ck) : (d.renumber was).Sound I ck := by
  unfold Dev.renumber
  exact .ite hd (.upd hd)

theorem Dev.sourceNow_sound {d : Dev} {was : Dev} (hd : d.Sound I ck) : (d.sourceNow was).Sound I ck := by
  unfold Dev.sourceNow
  exact .ite (.upd (Dev.fset_sound hd)) (.ite (.upd (Dev.fset_sound hd)) hd)

theorem Dev.candleNow_sound {d : Dev} (hd : d.Sound I ck) : (d.candleNow).Sound I ck := by
  unfold Dev.candleNow
  exact .upd hd

theorem Dev.reservesNow_sound {d : Dev} (hd : d.Sound I ck) : (d.reservesNow).Sound I ck := by
  unfold Dev.reservesNow
  exact Dev.formCaps_sound (Dev.fset_sound (Dev.fset_sound (Dev.fset_sound hd)))

theorem Dev.linksNow_sound {d : Dev} {was : Dev} (hd : d.Sound I ck) : (d.linksNow was).Sound I ck := by
  unfold Dev.linksNow
  extract_lets +onlyGivenNames d1
  have h1 : d1.Sound I ck := .ite hd (Dev.twinDown_sound hd)
  exact .ite (Dev.ownLsa_sound (.foldl (Dev.settleFabric_sound h1) fun _ _ h3 => (.ite h3 (Dev.fabDown_sound h3)))) (.foldl (Dev.settleFabric_sound h1) fun _ _ h4 => (.ite h4 (Dev.fabDown_sound h4)))

theorem Dev.writeEeprom_sound {d : Dev} (hd : d.Sound I ck) : (d.writeEeprom).Sound I ck := by
  unfold Dev.writeEeprom
  exact .upd hd

theorem Dev.testHoldup_sound {d : Dev} {was : Dev} (hd : d.Sound I ck) : (d.testHoldup was).Sound I ck := by
  unfold Dev.testHoldup
  exact .ite (.upd hd) hd

theorem Dev.sweepsNow_sound {d : Dev} {was : Dev} (hd : d.Sound I ck) : (d.sweepsNow was).Sound I ck := by
  unfold Dev.sweepsNow
  exact .ite hd (.upd hd)

theorem Dev.bankActs_sound {d : Dev} {was : Dev} {relay : Bool} (hd : d.Sound I ck) : (d.bankActs was relay).Sound I ck := by
  unfold Dev.bankActs
  extract_lets +onlyGivenNames d1
  have h1 : d1.Sound I ck := Dev.testHoldup_sound hd
  extract_lets +onlyGivenNames d2
  have h2 : d2.Sound I ck := .ite (Dev.layOut_sound h1) h1
  exact Dev.writeEeprom_sound (Dev.copyAuth_sound (Dev.sweepsNow_sound (Dev.linksNow_sound (Dev.rebudget_sound (Dev.reservesNow_sound (Dev.candleNow_sound (Dev.sourceNow_sound (Dev.renumber_sound (Dev.modulesOn_sound (Dev.enablesNow_sound (Dev.macsGone_sound (Dev.retrainOctets_sound h2))))))))))))

theorem Dev.applyCfx_sound {d : Dev} (hd : d.Sound I ck) : (d.applyCfx).Sound I ck := by
  unfold Dev.applyCfx
  extract_lets +onlyGivenNames x1
  extract_lets +onlyGivenNames x2
  extract_lets +onlyGivenNames d3
  have h3 : d3.Sound I ck := Dev.closeCfx_sound (Dev.bankActs_sound (Dev.takeBank_sound hd))
  extract_lets +onlyGivenNames d4
  have h4 : d4.Sound I ck := Dev.fset_sound (Dev.fset_sound (Dev.fset_sound h3))
  extract_lets +onlyGivenNames y5_0 d5
  have h5 : d5.Sound I ck := Dev.writeStore_sound (.upd h4)
  extract_lets +onlyGivenNames d6
  have h6 : d6.Sound I ck := by
    unfold d6
    clear_value x1
    split
    · exact Dev.complete_sound h5
    · exact h5
  exact Dev.pump_sound h6

theorem Dev.applyDue_sound {d : Dev} (hd : d.Sound I ck) : (d.applyDue).Sound I ck := by
  unfold Dev.applyDue
  exact .ite (Dev.applyCfx_sound hd) hd

theorem Dev.acceptCommit_sound {d : Dev} {cmdId : Option Nat} {when : Nat} {time : Nat} (hd : d.Sound I ck) : (d.acceptCommit
    cmdId when time).Sound I ck := by
  unfold Dev.acceptCommit
  exact .upd (Dev.fset_sound hd)

theorem Dev.refuseCommit_sound {d : Dev} {check : Nat} {place : Nat} (hd : d.Sound I ck) : (d.refuseCommit check place).Sound I
    ck := by
  unfold Dev.refuseCommit
  extract_lets +onlyGivenNames x1
  extract_lets +onlyGivenNames y2_0 y2_1 d2
  have h2 : d2.Sound I ck := .upd (Dev.fset_sound hd)
  extract_lets +onlyGivenNames d3
  have h3 : d3.Sound I ck := Dev.fset_sound (Dev.fset_sound (Dev.fset_sound h2))
  clear_value x1
  split
  · exact Dev.complete_sound h3
  · exact h3

theorem Dev.timeGone_sound {d : Dev} (hd : d.Sound I ck) : (d.timeGone).Sound I ck := by
  unfold Dev.timeGone
  exact .ite (Dev.discardCfx_sound hd) hd

theorem Dev.enterHold_sound {d : Dev} {form : Nat} (hd : d.Sound I ck) : (d.enterHold form).Sound I ck := by
  unfold Dev.enterHold
  refine .ite ?_ ?_
  · exact hd
  · extract_lets +onlyGivenNames d1
    have h1 : d1.Sound I ck := Dev.setStatus_sound (Dev.raise_sound (Dev.fset_sound hd))
    extract_lets +onlyGivenNames d2
    have h2 : d2.Sound I ck := .ite (Dev.heartbeat_sound h1) h1
    exact .ite (Dev.allOffline_sound h2) h2

theorem Dev.leaveHold_sound {d : Dev} (hd : d.Sound I ck) : (d.leaveHold).Sound I ck := by
  unfold Dev.leaveHold
  exact .ite hd (Dev.setStatus_sound (Dev.raise_sound (Dev.fset_sound hd)))

theorem Dev.setSpare_sound {d : Dev} {l : Nat} {s : Nat} (hd : d.Sound I ck) : (d.setSpare l s).Sound I ck := by
  unfold Dev.setSpare
  exact .upd hd

theorem Dev.setRoles_sound {d : Dev} {l : Nat} {r : List Nat} (hd : d.Sound I ck) : (d.setRoles l r).Sound I ck := by
  unfold Dev.setRoles
  exact .upd hd

theorem Dev.judgeLantern_sound {d : Dev} {l : Nat} (hd : d.Sound I ck) : (d.judgeLantern l).Sound I ck := by
  unfold Dev.judgeLantern
  exact .ite (Dev.enterHold_sound hd) hd

theorem Dev.removeEngine_sound {d : Dev} {p : Nat} {retire : Bool} (hd : d.Sound I ck) : (d.removeEngine p retire).Sound I ck :=
    by
  unfold Dev.removeEngine
  extract_lets +onlyGivenNames x1
  extract_lets +onlyGivenNames x2
  refine .ite ?_ ?_
  · exact hd
  · extract_lets +onlyGivenNames y3_0 d3
    have h3 : d3.Sound I ck := .upd hd
    extract_lets +onlyGivenNames y4_0 y4_1 d4
    have h4 : d4.Sound I ck := .ite (.upd (Dev.setFbit_sound h3)) h3
    extract_lets +onlyGivenNames x5
    extract_lets +onlyGivenNames y6_0 d6
    have h6 : d6.Sound I ck := .ite (Dev.setSpare_sound h4) (.ite (.ite (Dev.raise_sound (Dev.setRoles_sound h4)) (Dev.setSpare_sound (.upd h4))) h4)
    exact Dev.judgeLantern_sound h6

theorem Dev.endSubstitution_sound {d : Dev} {l : Nat} (hd : d.Sound I ck) : (d.endSubstitution l).Sound I ck := by
  unfold Dev.endSubstitution
  split
  · exact hd
  · extract_lets +onlyGivenNames y1_0 d1
    have h1 : d1.Sound I ck := .upd hd
    split
    · exact Dev.raise_sound (Dev.setRoles_sound h1)
    · exact Dev.raise_sound (Dev.setRoles_sound h1)

theorem Dev.returnEngine_sound {d : Dev} {p : Nat} (hd : d.Sound I ck) : (d.returnEngine p).Sound I ck := by
  unfold Dev.returnEngine
  exact .ite (Dev.setSpare_sound (.upd hd)) (.upd hd)

theorem Dev.formPlan_sound {d : Dev} {p : Plan} (hd : d.Sound I ck) : (d.formPlan p).Sound I ck := by
  unfold Dev.formPlan
  exact .ite (Dev.raise_sound (Dev.fset_sound (.upd (.upd hd)))) (.ite (Dev.raise_sound (.upd hd)) (.upd hd))

theorem Dev.setFloor_sound {d : Dev} {x : Nat × Nat} (hd : d.Sound I ck) : (d.setFloor x).Sound I ck := by
  unfold Dev.setFloor
  exact .ite (.upd hd) (.upd hd)

theorem Dev.planActs_sound {d : Dev} {p : Plan} (hd : d.Sound I ck) : (d.planActs p).Sound I ck := by
  unfold Dev.planActs
  exact .upd (.foldl (.upd hd) fun _ _ h2 => (Dev.setFloor_sound h2))

theorem Dev.applyPlan_sound {d : Dev} {k : Nat} (hd : d.Sound I ck) : (d.applyPlan k).Sound I ck := by
  unfold Dev.applyPlan
  split
  · exact hd
  · extract_lets +onlyGivenNames x1
    refine .ite ?_ ?_
    · exact Dev.fset_sound hd
    · refine .ite ?_ ?_
      · exact hd
      · extract_lets +onlyGivenNames d2
        have h2 : d2.Sound I ck := Dev.planActs_sound hd
        extract_lets +onlyGivenNames y3_0 y3_1 d3
        have h3 : d3.Sound I ck := .ite (.upd (Dev.send_sound h2)) h2
        exact Dev.raise_sound (Dev.writeStore_sound (.upd (Dev.fset_sound (Dev.finc_sound (Dev.fset_sound h3)))))

theorem Dev.removeGroup_sound {d : Dev} {g : Nat} (hd : d.Sound I ck) : (d.removeGroup g).Sound I ck := by
  unfold Dev.removeGroup
  refine .ite ?_ ?_
  · exact hd
  · extract_lets +onlyGivenNames y1_0 d1
    have h1 : d1.Sound I ck := .upd hd
    refine .ite ?_ ?_
    · exact h1
    · extract_lets +onlyGivenNames d2
      have h2 : d2.Sound I ck := Dev.raise_sound (Dev.fset_sound h1)
      refine .ite ?_ ?_
      · exact Dev.twinDown_sound h2
      · split
        · exact Dev.twinResend_sound h2
        · exact h2

theorem Dev.laneFails_sound {d : Dev} {kind : Nat} {lane : Nat} (hd : d.Sound I ck) : (d.laneFails kind lane).Sound I ck := by
  unfold Dev.laneFails
  exact .ite (Dev.removeGroup_sound hd) (.ite (.ite hd (Dev.ownLsa_sound (Dev.fabDown_sound hd))) (.ite (Dev.portDown_sound hd) hd))

theorem Dev.moveRole_sound {d : Dev} {l : Nat} {k : Nat} (hd : d.Sound I ck) : (d.moveRole l k).Sound I ck := by
  unfold Dev.moveRole
  extract_lets +onlyGivenNames x1
  split
  · exact hd
  · exact .ite hd (Dev.setSpare_sound (Dev.setRoles_sound hd))

theorem Dev.endBarrier_sound {d : Dev} (hd : d.Sound I ck) : (d.endBarrier).Sound I ck := by
  unfold Dev.endBarrier
  exact .upd hd

theorem Dev.activated_sound {d : Dev} {reads : Bool} (hd : d.Sound I ck) : (d.activated reads).Sound I ck := by
  unfold Dev.activated
  extract_lets +onlyGivenNames x1
  extract_lets +onlyGivenNames x2
  extract_lets +onlyGivenNames d3
  have h3 : d3.Sound I ck := Dev.fset_sound (Dev.fset_sound (Dev.fset_sound hd))
  extract_lets +onlyGivenNames d4
  have h4 : d4.Sound I ck := Dev.raise_sound (Dev.endBarrier_sound (Dev.fset_sound h3))
  extract_lets +onlyGivenNames y5_0 d5
  have h5 : d5.Sound I ck := .upd h4
  extract_lets +onlyGivenNames y6_0 d6
  have h6 : d6.Sound I ck := .ite (.upd h5) (Dev.enterHold_sound h5)
  clear_value x1
  split
  · exact h6
  · exact .ite (Dev.complete_sound h6) (Dev.complete_sound h6)

theorem Dev.rolledBack_sound {d : Dev} (hd : d.Sound I ck) : (d.rolledBack).Sound I ck := by
  unfold Dev.rolledBack
  exact .ite (Dev.leaveHold_sound (.upd (Dev.raise_sound (Dev.endBarrier_sound (Dev.fset_sound (Dev.fset_sound (Dev.fset_sound (Dev.fset_sound hd)))))))) (.upd (Dev.raise_sound (Dev.endBarrier_sound (Dev.fset_sound (Dev.fset_sound (Dev.fset_sound (Dev.fset_sound hd)))))))

theorem Dev.rotate_sound {d : Dev} {reads : Bool} (hd : d.Sound I ck) : (d.rotate reads).Sound I ck := by
  unfold Dev.rotate
  exact .ite (.upd (Dev.moveRole_sound hd)) (.ite (.upd (Dev.setFbit_sound (Dev.moveRole_sound hd))) (.ite (Dev.rolledBack_sound (Dev.setFbit_sound (Dev.moveRole_sound hd))) (Dev.activated_sound (Dev.setFbit_sound (Dev.moveRole_sound hd)))))

theorem Dev.startRollback_sound {d : Dev} (hd : d.Sound I ck) : (d.startRollback).Sound I ck := by
  unfold Dev.startRollback
  exact .ite hd (.upd (Dev.fset_sound hd))

theorem Dev.confirmImage_sound {d : Dev} (hd : d.Sound I ck) : (d.confirmImage).Sound I ck := by
  unfold Dev.confirmImage
  exact Dev.raise_sound (Dev.writeStore_sound (.upd (Dev.fset_sound (Dev.fset_sound hd))))

theorem Dev.startTest_sound {d : Dev} {c : Cmd} (hd : d.Sound I ck) : (d.startTest c).Sound I ck := by
  unfold Dev.startTest
  exact .ite (Dev.complete_sound hd) (.upd hd)

theorem Dev.failedItem_sound {d : Dev} {item : Nat} (hd : d.Sound I ck) : (d.failedItem item).Sound I ck := by
  unfold Dev.failedItem
  exact .ite (.ite (.upd (.foldl hd fun _ _ h3 => (Dev.setFbit_sound h3))) (Dev.removeEngine_sound (.upd (.foldl hd fun _ _ h4 => (Dev.setFbit_sound h4))))) (.ite (Dev.alarm_sound hd) hd)

theorem Dev.countEye_sound {d : Dev} {key : Nat} {margin : Nat} (hd : d.Sound I ck) : (d.countEye key margin).Sound I ck := by
  unfold Dev.countEye
  exact .upd hd

theorem Dev.hostOpen_sound {d : Dev} (hd : d.Sound I ck) : (d.hostOpen).Sound I ck := by
  unfold Dev.hostOpen
  exact .ite (Dev.illegal_sound hd) (Dev.openCfx_sound hd)

theorem Dev.hostDiscard_sound {d : Dev} (hd : d.Sound I ck) : (d.hostDiscard).Sound I ck := by
  unfold Dev.hostDiscard
  exact .ite (Dev.discardCfx_sound hd) hd

theorem Dev.writeGrant_sound {d : Dev} {on : Bool} (hd : d.Sound I ck) : (d.writeGrant on).Sound I ck := by
  unfold Dev.writeGrant
  exact .ite (Dev.dropSideBank_sound (Dev.setAuthority_sound (Dev.fset_sound hd))) (Dev.setAuthority_sound (Dev.fset_sound hd))

theorem Dev.startCommit_sound {d : Dev} {c : Cmd} (hd : d.Sound I ck) : (d.startCommit c).Sound I ck := by
  unfold Dev.startCommit
  exact .ite (Dev.complete_sound hd) (.ite (Dev.settleWaits_sound (Dev.dropCmd_sound (Dev.illegal_sound hd))) (.ite (Dev.complete_sound hd) (.ite (Dev.complete_sound (Dev.fset_sound (Dev.fset_sound (Dev.fset_sound hd)))) (.ite (Dev.complete_sound hd) (Dev.acceptCommit_sound hd)))))

theorem Dev.answerPwr_sound {d : Dev} {r : PwrReq} {result : Nat} (hd : d.Sound I ck) : (d.answerPwr r result).Sound I ck := by
  unfold Dev.answerPwr
  exact .ite (Dev.fset_sound (Dev.fset_sound hd)) (.ite (Dev.send_sound hd) hd)

theorem Dev.leaveMig_sound {d : Dev} {m : Migration} (hd : d.Sound I ck) : (d.leaveMig m).Sound I ck := by
  unfold Dev.leaveMig
  exact Dev.finc_sound (Dev.releaseHome_sound (.upd (Dev.dropMig_sound hd)))

theorem Dev.stopMigs_sound {d : Dev} (hd : d.Sound I ck) : (d.stopMigs).Sound I ck := by
  unfold Dev.stopMigs
  exact .upd (.foldl hd fun _ _ h2 => (Dev.leaveMig_sound h2))

theorem Dev.applyRest_sound {d : Dev} (hd : d.Sound I ck) : (d.applyRest).Sound I ck := by
  unfold Dev.applyRest
  exact Dev.pump_sound (.foldl (Dev.allAwake_sound hd) fun _ _ h1 => (Dev.refill_sound h1))

theorem Dev.settleOps_sound {d : Dev} (hd : d.Sound I ck) : (d.settleOps).Sound I ck := by
  unfold Dev.settleOps
  exact .foldl (.foldl (Dev.applyRest_sound (.upd (.foldl (.foldl (.upd hd) fun _ _ h9 => (Dev.abandon_sound h9)) fun _ _ h10 => (Dev.undoRep_sound h10)))) fun _ _ h11 => (Dev.makeDurable_sound h11)) fun _ _ h12 => (Dev.abandon_sound h12)

theorem Dev.endCmds_sound {d : Dev} (hd : d.Sound I ck) : (d.endCmds).Sound I ck := by
  unfold Dev.endCmds
  extract_lets +onlyGivenNames x2
  extract_lets +onlyGivenNames y4_0 d4
  have h4 : d4.Sound I ck := .upd hd
  extract_lets +onlyGivenNames d6
  have h6 : d6.Sound I ck := by
    unfold d6
    refine .foldl ?_ ?_
    · exact h4
    · intro d10 x11 h12
      split
      · exact Dev.complete_sound h12
      · exact h12
  exact .foldl (.upd h6) fun _ _ h13 => (Dev.answerDark_sound h13)

theorem Dev.linksOff_sound {d : Dev} (hd : d.Sound I ck) : (d.linksOff).Sound I ck := by
  unfold Dev.linksOff
  exact Dev.mainAbsent_sound (.foldl (.foldl hd fun _ _ h2 => (Dev.portDown_sound h2)) fun _ _ h3 => (Dev.fabDown_sound h3))

theorem Dev.endBankEntry_sound {d : Dev} (hd : d.Sound I ck) : (d.endBankEntry).Sound I ck := by
  unfold Dev.endBankEntry
  exact .ite hd (.foldl (.upd (Dev.fset_sound hd)) fun _ _ h1 => (Dev.answerPwr_sound h1))

theorem Dev.beginSave_sound {d : Dev} {why : Nat} (hd : d.Sound I ck) : (d.beginSave why).Sound I ck := by
  unfold Dev.beginSave
  refine .ite hd ?_
  extract_lets d1 ws u v d2 d3 d4 d5
  have h1 : d1.Sound I ck := Dev.raise_sound (Dev.endBankEntry_sound hd)
  have h2 : d2.Sound I ck := .upd h1
  have h3 : d3.Sound I ck := Dev.heartbeat_sound (Dev.setStatus_sound h2)
  have h4 : d4.Sound I ck := Dev.linksOff_sound (Dev.endCmds_sound (Dev.discardCfx_sound (Dev.stopMigs_sound
    (Dev.settleOps_sound h3))))
  have h5 : d5.Sound I ck := .ite (Dev.shutEpoch_sound h4) h4
  clear_value d5
  exact .upd h5

theorem Dev.poisonSnaps_sound {d : Dev} {x : Nat × Nat} (hd : d.Sound I ck) : (d.poisonSnaps x).Sound I ck := by
  unfold Dev.poisonSnaps
  extract_lets mark
  refine hd.setDur fun o s hs => ?_
  obtain ⟨s', hs', rfl⟩ := List.mem_map.1 hs
  have w := o.mem.2.2 s' hs'
  unfold mark
  split <;> exact w

theorem Dev.imageAll_sound {d : Dev} (hd : d.Sound I ck) : (d.imageAll).Sound I ck := by
  unfold Dev.imageAll
  exact .foldl hd fun _ _ h1 => (Dev.imaged_sound h1)

theorem Dev.sealAll_sound {d : Dev} (hd : d.Sound I ck) : (d.sealAll).Sound I ck := by
  unfold Dev.sealAll
  exact .foldl hd fun _ _ h1 => (Dev.sealEpoch_sound h1)

theorem Dev.logSave_sound {d : Dev} {result : Nat} {pages : Nat} (hd : d.Sound I ck) : (d.logSave result pages).Sound I ck := by
  unfold Dev.logSave
  exact Dev.fset_sound (Dev.fset_sound (Dev.fset_sound (Dev.fset_sound hd)))

theorem Dev.saveDone_sound {d : Dev} {badLines : List (Nat × Nat)} (hd : d.Sound I ck) : (d.saveDone badLines).Sound I ck := by
  unfold Dev.saveDone
  extract_lets +onlyGivenNames x3
  extract_lets +onlyGivenNames d6
  have h6 : d6.Sound I ck := Dev.sealAll_sound (.foldl (Dev.countImages_sound (Dev.imageAll_sound hd)) fun _ _ h7 => (Dev.poisonSnaps_sound h7))
  extract_lets +onlyGivenNames d8
  have h8 : d8.Sound I ck := Dev.writeMirror_sound h6
  extract_lets +onlyGivenNames d9
  have h9 : d9.Sound I ck := .ite (Dev.writeStore_sound h8) h8
  exact Dev.logSave_sound h9

theorem Dev.saveCut_sound {d : Dev} (hd : d.Sound I ck) : (d.saveCut).Sound I ck := by
  unfold Dev.saveCut
  exact Dev.logSave_sound hd

theorem Dev.darken_sound {d : Dev} (hd : d.Sound I ck) : (d.darken).Sound I ck := by
  unfold Dev.darken
  extract_lets next
  have h1 := Dev.fset_sound (x := DUR_TIME_STAT.STATE) (v := timeInvalid) hd
  exact ⟨h1.clk, fun hi =>
    ⟨⟨rfl, (hd.ok hi).mem.2⟩, ⟨by simp, (hd.ok hi).recs.2⟩, (hd.ok hi).ibi⟩⟩

theorem Dev.resetFor_sound {d : Dev} {cls : List ResetClass} (hd : d.Sound I ck) : (d.resetFor cls).Sound I ck := by
  unfold Dev.resetFor
  exact .upd (Dev.resetRegs_sound hd)

theorem Dev.takeStraps_sound {d : Dev} {s : Straps} (hd : d.Sound I ck) : (d.takeStraps s).Sound I ck := by
  unfold Dev.takeStraps
  exact .upd (Dev.fset_sound (Dev.fset_sound hd))

theorem Dev.ownClaim_sound {d : Dev} (hd : d.Sound I ck) : (d.ownClaim).Sound I ck := by
  unfold Dev.ownClaim
  exact .ite (.upd (Dev.fset_sound hd)) (.ite (.upd hd) (Dev.fset_sound hd))

theorem Dev.restart_sound {d : Dev} {s : Straps} {cold : Bool} (hd : d.Sound I ck) : (d.restart s cold).Sound I ck := by
  unfold Dev.restart
  exact Dev.ownClaim_sound (.upd (Dev.takeStraps_sound (Dev.resetFor_sound hd)))

theorem Dev.drawKey_sound {d : Dev} {a1 : Nat} (hd : d.Sound I ck) : (d.drawKey a1).2.Sound I ck := by
  unfold Dev.drawKey
  split
  · exact hd
  · extract_lets +onlyGivenNames x1
    split
    rename_i x2 x3 d4 e5
    have hd4 : d4.Sound I ck := .snd e5 (Dev.drawKey_sound (Dev.rngUsed_sound hd))
    exact hd4

theorem Dev.makeKey_sound {d : Dev} {slot : Nat} {usage : Nat} {words : Nat} (hd : d.Sound I ck) : (d.makeKey slot usage
    words).Sound I ck := by
  unfold Dev.makeKey
  split
  rename_i x1 x2 d3 e4
  have hd3 : d3.Sound I ck := .snd e4 (Dev.drawKey_sound hd)
  exact Dev.loadSlot_sound hd3

theorem Dev.commission_sound {d : Dev} (hd : d.Sound I ck) : (d.commission).Sound I ck := by
  unfold Dev.commission
  exact .ite hd (Dev.makeKey_sound (Dev.makeKey_sound (Dev.makeKey_sound hd)))

theorem Dev.stageAt_sound {d : Dev} {k : Nat} (hd : d.Sound I ck) : (d.stageAt k).Sound I ck := by
  unfold Dev.stageAt
  exact Dev.raise_sound (.upd hd)

theorem Dev.loadRecorder_sound {d : Dev} (hd : d.Sound I ck) : (d.loadRecorder).Sound I ck := by
  unfold Dev.loadRecorder
  extract_lets n u e held
  have h1 : ({ d with pwr := { d.pwr with lastGasp := none } } : Dev).Sound I ck := .upd hd
  refine h1.setEvt fun o => ?_
  have p := EvtSt.join_recs held e o.recs.2.1
  exact ⟨p.1, p.2.1 ▸ o.recs.2.1, p.2.2 ▸ by simp [e]⟩

theorem Dev.owedEvents_sound {d : Dev} {gasp : Bool} (hd : d.Sound I ck) : (d.owedEvents gasp).Sound I ck := by
  unfold Dev.owedEvents
  extract_lets +onlyGivenNames y1_0 d1
  have h1 : d1.Sound I ck := by
    unfold d1
    split
    · exact Dev.raise_sound (.upd hd)
    · exact hd
  exact .ite (Dev.raise_sound h1) h1

theorem Dev.bootFrom_sound {d : Dev} {a : Nat} {n : Nat} (hd : d.Sound I ck) : (d.bootFrom a n).Sound I ck := by
  unfold Dev.bootFrom
  extract_lets +onlyGivenNames d1
  have h1 : d1.Sound I ck := .ite hd (Dev.fset_sound (Dev.fset_sound hd))
  extract_lets +onlyGivenNames d2
  have h2 : d2.Sound I ck := .ite (Dev.fset_sound h1) h1
  exact .upd (Dev.fset_sound (Dev.fset_sound h2))

theorem Dev.openWindow_sound {d : Dev} (hd : d.Sound I ck) : (d.openWindow).Sound I ck := by
  unfold Dev.openWindow
  exact .ite hd (.upd hd)

theorem Dev.standingBank_sound {d : Dev} (hd : d.Sound I ck) : (d.standingBank).Sound I ck := by
  unfold Dev.standingBank
  exact .ite (Dev.linksNow_sound hd) (Dev.writeEeprom_sound (Dev.copyAuth_sound (Dev.rebudget_sound (Dev.reservesNow_sound (Dev.candleNow_sound (Dev.linksNow_sound (.upd (Dev.takeBank_sound (.upd hd)))))))))

theorem Dev.standingPlan_sound {d : Dev} (hd : d.Sound I ck) : (d.standingPlan).Sound I ck := by
  unfold Dev.standingPlan
  extract_lets +onlyGivenNames d1
  have h1 : d1.Sound I ck := Dev.fset_sound hd
  split
  · exact h1
  · extract_lets +onlyGivenNames d2
    have h2 : d2.Sound I ck := .ite h1 (Dev.send_sound h1)
    exact Dev.fset_sound (Dev.planActs_sound h2)

theorem Dev.unwrapAll_sound {d : Dev} (hd : d.Sound I ck) : (d.unwrapAll).Sound I ck := by
  unfold Dev.unwrapAll
  exact .ite hd (Dev.copyAuth_sound (.upd hd))

theorem Dev.startUnits_sound {d : Dev} (hd : d.Sound I ck) : (d.startUnits).Sound I ck := by
  unfold Dev.startUnits
  exact .foldl (.foldl hd fun _ _ h2 => (Dev.toChanEvent_sound h2)) fun _ _ h3 => (Dev.toMod_sound h3)

theorem Dev.startTime_sound {d : Dev} (hd : d.Sound I ck) : (d.startTime).Sound I ck := by
  unfold Dev.startTime
  exact .ite (.upd hd) (.upd (Dev.fset_sound hd))

theorem Dev.readStore_sound {d : Dev} (hd : d.Sound I ck) : (d.readStore).Sound I ck := by
  unfold Dev.readStore
  exact .ite (Dev.standingBank_sound hd) (.ite (Dev.enterHold_sound (Dev.linksNow_sound hd)) (Dev.commission_sound (Dev.linksNow_sound hd)))

theorem Dev.openStore_sound {d : Dev} (hd : d.Sound I ck) : (d.openStore).Sound I ck := by
  unfold Dev.openStore
  exact .upd (Dev.unwrapAll_sound hd)

theorem Dev.showStatus_sound {d : Dev} (hd : d.Sound I ck) : (d.showStatus).Sound I ck := by
  unfold Dev.showStatus
  exact .ite (Dev.setStatus_sound hd) hd

theorem Dev.bootCore_sound {d : Dev} {a : Nat} {n : Nat} (hd : d.Sound I ck) : (d.bootCore a n).Sound I ck := by
  unfold Dev.bootCore
  exact Dev.showStatus_sound (Dev.startTime_sound (Dev.fset_sound (Dev.stageAt_sound (Dev.startUnits_sound (Dev.openStore_sound (Dev.stageAt_sound (Dev.openWindow_sound (Dev.standingPlan_sound (Dev.readStore_sound (Dev.stageAt_sound (Dev.owedEvents_sound (Dev.bootFrom_sound (Dev.loadRecorder_sound (.upd hd))))))))))))))

theorem Dev.kill_sound {d : Dev} (hd : d.Sound I ck) : (d.kill).Sound I ck := by
  unfold Dev.kill
  extract_lets r
  have h1 : ({ d with core := { d.core with killed := true } } : Dev).Sound I ck := .upd hd
  refine Dev.signalIbi_sound (h1.setEvt fun o => ?_)
  have p := d.evt.recordDark_recs r o.recs.2.2
  exact ⟨p.1 ▸ o.recs.1, p.2.1 ▸ o.recs.2.1, p.2.2⟩

/-- The state a restore takes has canonical memories. -/
theorem Dev.snapFor_wf (d : Dev) (e : Nat) (o : d.Ok) : Memory.wf (d.snapFor e).meadow ∧ Memory.wf (d.snapFor e).heath := by
  unfold Dev.snapFor
  cases h : (d.dur.snaps.filter (fun s => decide (s.epoch ≤ e))).getLast? with
  | none => exact ⟨rfl, rfl⟩
  | some s => exact o.mem.2.2 s (List.mem_filter.1 (List.mem_of_getLast? h)).1

theorem Dev.takeSnap_sound {d : Dev} {s : EpochSnap} (hd : d.Sound I ck) (hs : I → Memory.wf s.meadow ∧ Memory.wf s.heath) :
    (d.takeSnap s).Sound I ck := by
  unfold Dev.takeSnap
  extract_lets home isHome table u v w d1
  have h1 : d1.Sound I ck := ⟨hd.clk, fun hi => ⟨⟨(hs hi).1, (hs hi).2, (hd.ok hi).mem.2.2⟩, (hd.ok hi).recs, (hd.ok hi).ibi⟩⟩
  exact .upd h1

theorem Dev.badPage_sound {d : Dev} {page : Nat} (hd : d.Sound I ck) : (d.badPage page).Sound I ck := by
  unfold Dev.badPage
  split
  · exact hd
  · exact .ite (Dev.raise_sound hd) (Dev.finc_sound (Dev.setPlotState_sound (Dev.raise_sound hd)))

theorem Dev.dropAbove_sound {d : Dev} {e : Nat} (hd : d.Sound I ck) : (d.dropAbove e).Sound I ck := by
  unfold Dev.dropAbove
  exact hd.setDur fun o s hs => o.mem.2.2 s (List.mem_filter.1 hs).1

theorem Dev.poolAgain_sound {d : Dev} (hd : d.Sound I ck) : (d.poolAgain).Sound I ck := by
  unfold Dev.poolAgain
  exact .ite (Dev.layOut_sound hd) (.foldl (Dev.formCaps_sound (.upd hd)) fun _ _ h1 => (Dev.returnPlots_sound h1))

theorem Dev.moveOff_sound {d : Dev} {idx : Nat} (hd : d.Sound I ck) : (d.moveOff idx).Sound I ck := by
  unfold Dev.moveOff
  extract_lets e bytes
  split
  · next p r _ =>
    have h1 : ({ d with tier := { d.tier with freePlots := r } } : Dev).Sound I ck := .upd hd
    exact Dev.writeMeadow_sound (Dev.homeChange_sound (h1.setMeadow id))
  · split
    · exact hd
    · next l d' hx =>
      exact Dev.homeChange_sound ((Dev.takeDest_sound hd l d' hx).setHeath (memWrite_wf _ _))

theorem Dev.moveAllOff_sound {d : Dev} (hd : d.Sound I ck) : (d.moveAllOff).Sound I ck := by
  unfold Dev.moveAllOff
  exact .foldl hd fun _ _ h1 => (Dev.moveOff_sound h1)

theorem memClears_wf (l : List Nat) {m : List Host.Cell} (h : Memory.wf m) :
    Memory.wf (l.foldl (fun m l => memClear m (l * plotBytes) plotBytes) m) := by
  induction l generalizing m with
  | nil => exact h
  | cons j r ih => exact ih (memClear_wf _ _ h)

theorem Dev.readOpenBlocks_sound {d : Dev} {bad : List Nat} (hd : d.Sound I ck) : (d.readOpenBlocks bad).Sound I ck := by
  unfold Dev.readOpenBlocks
  extract_lets homed lost
  have h1 : ({ d with mem := { d.mem with heath := lost.foldl (fun m l => memClear m (l * plotBytes) plotBytes) d.mem.heath } }
    : Dev).Sound I ck := hd.setHeath (memClears_wf lost)
  exact .upd h1

theorem Dev.sizeSaveArea_sound {d : Dev} (hd : d.Sound I ck) : (d.sizeSaveArea).Sound I ck := by
  unfold Dev.sizeSaveArea
  exact Dev.countImages_sound (Dev.formCaps_sound (Dev.fset_sound hd))

theorem Dev.judgeShort_sound {d : Dev} {e : Nat} (hd : d.Sound I ck) : (d.judgeShort e).Sound I ck := by
  unfold Dev.judgeShort
  exact .upd hd

theorem Dev.horizonToCut_sound {d : Dev} {c : Nat} (hd : d.Sound I ck) : (d.horizonToCut c).Sound I ck := by
  unfold Dev.horizonToCut
  exact .ite (Dev.countImages_sound (Dev.fset_sound hd)) (Dev.raiseHorizon_sound hd)

theorem Dev.restoreTo_sound {d : Dev} {e : Nat} {r : RestoreIn} (hd : d.Sound I ck) : (d.restoreTo e r).Sound I ck := by
  unfold Dev.restoreTo
  extract_lets d1 d2 u d3 d4 w d5 v d6 bad d7
  have h1 : d1.Sound I ck := by
    unfold d1
    split
    · exact hd
    · exact Dev.takeSnap_sound hd fun hi => d.snapFor_wf e (hd.ok hi)
  have h2 : d2.Sound I ck := Dev.readOpenBlocks_sound (Dev.dropAbove_sound (Dev.judgeShort_sound h1))
  have h3 : d3.Sound I ck := .upd h2
  have h4 : d4.Sound I ck := Dev.fset_sound (Dev.fset_sound h3)
  have h5 : d5.Sound I ck := by
    unfold d5
    split
    · exact Dev.horizonToCut_sound (.upd h4)
    · exact h4
  have h6 : d6.Sound I ck := h5.setMeadow id
  have h7 : d7.Sound I ck := .foldl (.ite (Dev.raise_sound h6) h6) fun _ _ h => Dev.badPage_sound h
  exact Dev.sizeSaveArea_sound (Dev.moveAllOff_sound (Dev.poolAgain_sound h7))

theorem Dev.mayOpen_sound {d : Dev} (hd : d.Sound I ck) : (d.mayOpen).Sound I ck := by
  unfold Dev.mayOpen
  exact .ite (Dev.openEpoch_sound hd) hd

theorem Dev.phaseAEnd_sound {d : Dev} (hd : d.Sound I ck) : (d.phaseAEnd).Sound I ck := by
  unfold Dev.phaseAEnd
  exact Dev.settleHorizon_sound (Dev.reportRestore_sound (Dev.mayOpen_sound (Dev.stageAt_sound (.upd (Dev.fset_sound (Dev.keylessOffline_sound hd))))))

end Sys2Proof.Machine
end

