-- ==== Sys2Proof/Laws/Sound5.lean ====
section
/-! SUPPORT. What the shared operations keep, continued. -/

set_option Elab.async false

namespace Sys2Proof.Machine

variable {I : Prop} {ck : Nat}

theorem Dev.actBlob_sound {b : Blob} {d : Dev} {c : Cmd} (hd : d.Sound I ck) : (Dev.actBlob b d c).Sound I ck := by
  unfold Dev.actBlob
  split
  rename_i x1 d2 x3 e4
  have hd2 : d2.Sound I ck := .fst e4 (Dev.unwrap_sound hd)
  exact .ite (Dev.complete_sound hd2) (Dev.complete_sound hd2)

theorem Dev.setDevice_sound {d : Dev} {v : Nat} (hd : d.Sound I ck) : (d.setDevice v).Sound I ck := by
  unfold Dev.setDevice
  exact .ite hd (Dev.raise_sound (Dev.fset_sound hd))

theorem Dev.switchRail_sound {d : Dev} {on : Bool} {n : Nat} (hd : d.Sound I ck) : (d.switchRail on n).Sound I ck := by
  unfold Dev.switchRail
  exact .upd (Dev.setFbit_sound hd)

theorem Dev.beginSlot_sound {d : Dev} {q : Seq} {s : Nat} (hd : d.Sound I ck) : (d.beginSlot q s).Sound I ck := by
  unfold Dev.beginSlot
  exact .foldl hd fun _ _ h1 => (Dev.switchRail_sound h1)

theorem Dev.startSeq_sound {d : Dev} {q : Seq} (hd : d.Sound I ck) : (d.startSeq q).Sound I ck := by
  unfold Dev.startSeq
  exact Dev.beginSlot_sound (.upd (Dev.send_sound (.foldl (.foldl hd fun _ _ h8 => (Dev.send_sound h8)) fun _ _ h9 => (Dev.send_sound h9))))

theorem Dev.nextSeq_sound {d : Dev} (hd : d.Sound I ck) : (d.nextSeq).Sound I ck := by
  unfold Dev.nextSeq
  refine .ite ?_ ?_
  · exact hd
  · split
    · exact hd
    · exact .ite hd (Dev.startSeq_sound (.upd hd))

theorem Dev.bayLamp_sound {d : Dev} {q : Seq} (hd : d.Sound I ck) : (d.bayLamp q).Sound I ck := by
  unfold Dev.bayLamp
  exact .ite (Dev.setLamp_sound hd) hd

theorem Dev.askSeq_sound {d : Dev} {q : Seq} (hd : d.Sound I ck) : (d.askSeq q).Sound I ck := by
  unfold Dev.askSeq
  exact .ite (.upd hd) (.ite (.upd hd) (Dev.nextSeq_sound (.upd (Dev.bayLamp_sound hd))))

theorem Dev.askOff_sound {d : Dev} {q : Seq} {result : Nat} (hd : d.Sound I ck) : (d.askOff q result).Sound I ck := by
  unfold Dev.askOff
  extract_lets +onlyGivenNames x2
  extract_lets +onlyGivenNames x4
  extract_lets +onlyGivenNames y6_0 d6
  have h6 : d6.Sound I ck := .upd hd
  extract_lets +onlyGivenNames d8
  have h8 : d8.Sound I ck := .foldl h6 fun _ _ h9 => (Dev.answerPwr_sound h9)
  split
  · exact .ite (.upd (.foldl h8 fun _ _ h11 => (Dev.answerPwr_sound h11))) (.ite (.upd h8) (Dev.askSeq_sound h8))
  · exact Dev.askSeq_sound h8

theorem Dev.bayUp_sound {d : Dev} {q : Seq} (hd : d.Sound I ck) : (d.bayUp q).Sound I ck := by
  unfold Dev.bayUp
  extract_lets +onlyGivenNames d2
  have h2 : d2.Sound I ck := .foldl hd fun _ _ h3 => (Dev.send_sound h3)
  extract_lets +onlyGivenNames y4_0 d4
  have h4 : d4.Sound I ck := .ite (.upd h2) h2
  exact .ite h4 (.ite (.ite (Dev.toChanEvent_sound (Dev.raise_sound h4)) (Dev.raise_sound h4)) (.ite (Dev.toMod_sound (Dev.raise_sound h4)) (Dev.raise_sound h4)))

theorem Dev.bayDown_sound {d : Dev} {bay : Nat} (hd : d.Sound I ck) : (d.bayDown bay).Sound I ck := by
  unfold Dev.bayDown
  extract_lets +onlyGivenNames d1
  have h1 : d1.Sound I ck := .ite hd (.ite (Dev.toChanEvent_sound hd) (Dev.toMod_sound hd))
  exact Dev.setLamp_sound h1

theorem Dev.seqEffect_sound {d : Dev} {q : Seq} {agree : Bool} (hd : d.Sound I ck) : (d.seqEffect q agree).Sound I ck := by
  unfold Dev.seqEffect
  exact .ite (.ite (.upd hd) (.ite (Dev.setDevice_sound (.upd hd)) (.upd hd))) (.ite (.ite (Dev.bayUp_sound hd) (Dev.bayDown_sound hd)) (Dev.bayDown_sound hd))

theorem Dev.endSeq_sound {d : Dev} {q : Seq} {agree : Bool} (hd : d.Sound I ck) : (d.endSeq q agree).Sound I ck := by
  unfold Dev.endSeq
  exact Dev.nextSeq_sound (.foldl (Dev.seqEffect_sound (.upd (.foldl (Dev.send_sound hd) fun _ _ h6 => (Dev.send_sound h6)))) fun _ _ h7 => (Dev.answerPwr_sound h7))

theorem Dev.turnSeq_sound {d : Dev} {q : Seq} (hd : d.Sound I ck) : (d.turnSeq q).Sound I ck := by
  unfold Dev.turnSeq
  exact Dev.startSeq_sound (.upd hd)

theorem Dev.sealNowAll_sound {d : Dev} (hd : d.Sound I ck) : (d.sealNowAll).Sound I ck := by
  unfold Dev.sealNowAll
  extract_lets +onlyGivenNames d1
  have h1 : d1.Sound I ck := .ite (Dev.shutEpoch_sound hd) hd
  exact .foldl h1 fun _ _ h2 => (Dev.sealEpoch_sound h2)

theorem Dev.boardDown_sound {d : Dev} {reqs : List PwrReq} (hd : d.Sound I ck) : (d.boardDown reqs).Sound I ck := by
  unfold Dev.boardDown
  extract_lets +onlyGivenNames d1
  have h1 : d1.Sound I ck := .ite (Dev.darken_sound hd) hd
  exact Dev.askOff_sound (.upd h1)

theorem Dev.settleOff_sound {d : Dev} (hd : d.Sound I ck) : (d.settleOff).Sound I ck := by
  unfold Dev.settleOff
  refine .ite ?_ ?_
  · exact hd
  · extract_lets +onlyGivenNames d1
    have h1 : d1.Sound I ck := Dev.sealNowAll_sound (Dev.linksOff_sound hd)
    extract_lets +onlyGivenNames d2
    have h2 : d2.Sound I ck := Dev.writeMirror_sound h1
    extract_lets +onlyGivenNames d3
    have h3 : d3.Sound I ck := .ite (Dev.writeStore_sound h2) h2
    exact Dev.boardDown_sound h3

theorem Dev.askBoardOff_sound {d : Dev} {r : PwrReq} (hd : d.Sound I ck) : (d.askBoardOff r).Sound I ck := by
  unfold Dev.askBoardOff
  refine .ite ?_ ?_
  · exact .upd hd
  · refine .ite ?_ ?_
    · exact Dev.settleOff_sound (.upd hd)
    · extract_lets +onlyGivenNames d1
      have h1 : d1.Sound I ck := .ite hd (Dev.setDevice_sound (Dev.darken_sound hd))
      exact Dev.boardDown_sound h1

theorem Dev.bankStep2_sound {d : Dev} (hd : d.Sound I ck) : (d.bankStep2).Sound I ck := by
  unfold Dev.bankStep2
  exact .foldl (.upd (Dev.fset_sound hd)) fun _ _ h1 => (Dev.sendDreq_sound h1)

theorem Dev.enterBank_sound {d : Dev} {reqs : List PwrReq} (hd : d.Sound I ck) : (d.enterBank reqs).Sound I ck := by
  unfold Dev.enterBank
  exact .ite (Dev.heartbeat_sound (Dev.setStatus_sound (.upd (Dev.setDevice_sound hd)))) (Dev.bankStep2_sound (.upd (Dev.setDevice_sound hd)))

theorem Dev.bankGoesOn_sound {d : Dev} (hd : d.Sound I ck) : (d.bankGoesOn).Sound I ck := by
  unfold Dev.bankGoesOn
  exact .ite (Dev.bankStep2_sound hd) hd

theorem Dev.bankDown_sound {d : Dev} (hd : d.Sound I ck) : (d.bankDown).Sound I ck := by
  unfold Dev.bankDown
  extract_lets d1 d2 d3 d4 d5 reqs u1 u2 u3 u4 u5 d6
  have h5 : d5.Sound I ck := Dev.allAwake_sound (Dev.fset_sound (Dev.fset_sound (Dev.writeStore_sound (Dev.writeMirror_sound
    (Dev.sealNowAll_sound (Dev.discardCfx_sound (Dev.linksOff_sound hd)))))))
  clear_value d5
  have h6 : d6.Sound I ck := ⟨h5.clk, fun hi => ⟨(h5.ok hi).mem, ⟨by simp [d6], (h5.ok hi).recs.2⟩, (h5.ok hi).ibi⟩⟩
  exact Dev.askOff_sound h6

theorem Dev.boardUp_sound {d : Dev} {r : PwrReq} (hd : d.Sound I ck) : (d.boardUp r).Sound I ck := by
  unfold Dev.boardUp
  refine .ite ?_ ?_
  · exact Dev.answerPwr_sound hd
  · extract_lets +onlyGivenNames x1
    extract_lets +onlyGivenNames y2_0 d2
    have h2 : d2.Sound I ck := .ite (Dev.restart_sound hd) (.upd hd)
    exact Dev.askSeq_sound h2

theorem Dev.powerReq_sound {d : Dev} {r : PwrReq} (hd : d.Sound I ck) : (d.powerReq r).Sound I ck := by
  unfold Dev.powerReq
  exact .ite (Dev.boardUp_sound hd) (.ite (Dev.askBoardOff_sound hd) (.ite (.ite (Dev.enterBank_sound hd) (Dev.answerPwr_sound hd)) (.ite (.ite (Dev.answerPwr_sound hd) (Dev.askSeq_sound (.upd (Dev.setDevice_sound hd)))) (.ite (.ite (Dev.askSeq_sound hd) (Dev.answerPwr_sound hd)) (.ite (.ite (Dev.askOff_sound hd) (Dev.answerPwr_sound hd)) (Dev.answerPwr_sound hd))))))

theorem Dev.startUp_sound {d : Dev} {s : Straps} {cold : Bool} (hd : d.Sound I ck) : (d.startUp s cold).Sound I ck := by
  unfold Dev.startUp
  exact .ite (Dev.askSeq_sound (Dev.restart_sound hd)) (Dev.restart_sound hd)

theorem Dev.leaveReset_sound {d : Dev} (hd : d.Sound I ck) : (d.leaveReset).Sound I ck := by
  unfold Dev.leaveReset
  exact .ite (Dev.startUp_sound hd) hd

theorem Dev.stopped_sound {d : Dev} {why : Nat} (hd : d.Sound I ck) : (d.stopped why).Sound I ck := by
  unfold Dev.stopped
  exact .ite (Dev.leaveReset_sound (Dev.boardDown_sound (.upd (Dev.darken_sound hd)))) (Dev.leaveReset_sound (.upd (Dev.darken_sound hd)))

theorem Dev.saveOrStop_sound {d : Dev} {why : Nat} (hd : d.Sound I ck) : (d.saveOrStop why).Sound I ck := by
  unfold Dev.saveOrStop
  exact .ite (Dev.beginSave_sound hd) (.ite (Dev.stopped_sound (Dev.linksOff_sound hd)) hd)

theorem Dev.faultTurns_sound {d : Dev} {n : Nat} (hd : d.Sound I ck) : (d.faultTurns n).Sound I ck := by
  unfold Dev.faultTurns
  split
  · exact .ite (Dev.askOff_sound hd) hd
  · exact hd

theorem Dev.railFault_sound {d : Dev} {n : Nat} (hd : d.Sound I ck) : (d.railFault n).Sound I ck := by
  unfold Dev.railFault
  refine .ite ?_ ?_
  · exact hd
  · extract_lets +onlyGivenNames x1
    extract_lets +onlyGivenNames x2
    extract_lets +onlyGivenNames d3
    have h3 : d3.Sound I ck := Dev.raise_sound (Dev.setFbit_sound hd)
    extract_lets +onlyGivenNames d4
    have h4 : d4.Sound I ck := .ite (Dev.askOff_sound h3) h3
    exact Dev.faultTurns_sound (.ite (Dev.saveOrStop_sound h4) h4)

theorem Dev.govern_sound {d : Dev} (hd : d.Sound I ck) : (d.govern).Sound I ck := by
  unfold Dev.govern
  exact .ite (.upd (Dev.fset_sound hd)) (Dev.fset_sound hd)

theorem Dev.takeRate_sound {d : Dev} {rate : Nat} (hd : d.Sound I ck) : (d.takeRate rate).Sound I ck := by
  unfold Dev.takeRate
  exact .upd hd

theorem Dev.clearLog_sound {d : Dev} {inst : Nat} (hd : d.Sound I ck) : (d.clearLog inst).Sound I ck := by
  unfold Dev.clearLog
  extract_lets n lost u d1 s w r v d2
  have h1 : d1.Sound I ck := hd.setEvt fun o => ⟨by simp, by simp, o.recs.2.2⟩
  have h2 : d2.Sound I ck := h1.setEvt fun o => ⟨by simp, o.recs.2⟩
  exact Dev.signalIbi_sound (Dev.signalMsix_sound h2)

theorem Dev.clearPending_sound {d : Dev} {group : Nat} {mask : Nat} (hd : d.Sound I ck) : (d.clearPending group mask).Sound I ck
    := by
  unfold Dev.clearPending
  exact .upd hd

theorem Dev.sampleEngine_sound {d : Dev} {p : PmcSel} {n : Nat} (hd : d.Sound I ck) : (d.sampleEngine p n).Sound I ck := by
  unfold Dev.sampleEngine
  extract_lets +onlyGivenNames x1
  extract_lets +onlyGivenNames x2
  extract_lets +onlyGivenNames x3
  extract_lets +onlyGivenNames d4
  have h4 : d4.Sound I ck := Dev.used_sound hd
  extract_lets +onlyGivenNames x5
  extract_lets +onlyGivenNames d6
  have h6 : d6.Sound I ck := Dev.used_sound (Dev.used_sound (Dev.used_sound h4))
  split
  · exact h6
  · split
    exact Dev.sendAll_sound (.upd h6)

theorem Dev.latchCounter_sound {d : Dev} {p : PmcSel} (hd : d.Sound I ck) : (d.latchCounter p).Sound I ck := by
  unfold Dev.latchCounter
  exact .ite hd (.ite (Dev.sampleEngine_sound (.upd (Dev.used_sound hd))) (.upd (Dev.used_sound hd)))

theorem Dev.latchAll_sound {d : Dev} {at_ : Nat} (hd : d.Sound I ck) : (d.latchAll at_).Sound I ck := by
  unfold Dev.latchAll
  exact .upd (.foldl hd fun _ _ h2 => (Dev.latchCounter_sound h2))

theorem Dev.measurePort_sound {d : Dev} {p : Nat} (hd : d.Sound I ck) : (d.measurePort p).Sound I ck := by
  unfold Dev.measurePort
  exact .ite (Dev.used_sound (Dev.used_sound (Dev.fset_sound (Dev.fset_sound hd)))) (Dev.fset_sound (Dev.fset_sound hd))

theorem Dev.lifeNow_sound {d : Dev} (hd : d.Sound I ck) : (d.lifeNow).Sound I ck := by
  unfold Dev.lifeNow
  exact .ite (Dev.raise_sound (Dev.fset_sound (Dev.fset_sound (Dev.fset_sound hd)))) (Dev.fset_sound (Dev.fset_sound (Dev.fset_sound hd)))

theorem Dev.countHeat_sound {d : Dev} (hd : d.Sound I ck) : (d.countHeat).Sound I ck := by
  unfold Dev.countHeat
  exact .ite (.upd (Dev.fset_sound (.upd hd))) (Dev.fset_sound (.upd hd))

theorem Dev.endCtx_sound {d : Dev} {src : Nat} {msgid : Nat} (hd : d.Sound I ck) : (d.endCtx src msgid).Sound I ck := by
  unfold Dev.endCtx
  exact .upd hd

theorem Dev.fillCtx_sound {d : Dev} {c : Ctx} {off : Nat} {data : List Byte} (hd : d.Sound I ck) : (d.fillCtx c off data).Sound
    I ck := by
  unfold Dev.fillCtx
  exact .ite (.upd hd) (Dev.endCtx_sound (.upd hd))

theorem Dev.takeSeg_sound {d : Dev} {h : FabHdr} {mtype : Nat} {msglen : Nat} {off : Nat} {data : List Byte} (hd : d.Sound I ck)
    : (d.takeSeg h mtype msglen off data).Sound I ck := by
  unfold Dev.takeSeg
  exact .ite (Dev.finc_sound hd) (.ite (Dev.finc_sound hd) (.ite (Dev.finc_sound hd) (Dev.fillCtx_sound hd)))

theorem Dev.sendRange_sound {d : Dev} {r : Route} {x : Sent} {off : Nat} {n : Nat} {a1 : Nat} (hd : d.Sound I ck) : (d.sendRange
    r x off n a1).Sound I ck := by
  unfold Dev.sendRange
  split
  · exact hd
  · exact .ite hd (Dev.sendRange_sound (Dev.fabFrame_sound (.upd hd)))

theorem Dev.takePart_sound {d : Dev} {o : Op} {x : FwdOut} {a : FwdAnswer} (hd : d.Sound I ck) : (d.takePart o x a).Sound I ck
    := by
  unfold Dev.takePart
  extract_lets +onlyGivenNames x1
  split
  · exact .ite (Dev.setOp_sound (.upd hd)) (.upd hd)
  · exact .ite (Dev.fwdAgain_sound hd) (Dev.answer_sound hd)
  · exact Dev.answer_sound hd
  · exact Dev.answer_sound hd

theorem Dev.takeAtomic_sound {d : Dev} {o : Op} {x : FwdOut} {a : FwdAnswer} (hd : d.Sound I ck) : (d.takeAtomic o x a).Sound I
    ck := by
  unfold Dev.takeAtomic
  extract_lets +onlyGivenNames x1
  split
  · exact Dev.answer_sound (Dev.countDone_sound hd)
  · exact .ite (Dev.answer_sound hd) (.ite (Dev.fwdAgain_sound hd) (Dev.answer_sound hd))
  · exact Dev.answer_sound hd
  · exact Dev.answer_sound hd

theorem Dev.takeVerdict_sound {d : Dev} {f : Fj} {a : FwdVerdict} (hd : d.Sound I ck) : (d.takeVerdict f a).Sound I ck := by
  unfold Dev.takeVerdict
  extract_lets +onlyGivenNames y1_0 x1
  split
  · exact .ite (.upd hd) (.upd hd)
  · exact Dev.fjMove_sound hd
  · exact .upd hd
  · exact Dev.fjFail_sound hd

theorem Dev.removeMember_sound {d : Dev} {id : Nat} (hd : d.Sound I ck) : (d.removeMember id).Sound I ck := by
  unfold Dev.removeMember
  exact .ite (Dev.stewardHorizon_sound (.upd (Dev.toMembers_sound hd))) (.upd hd)

theorem Dev.expel_sound {d : Dev} {id : Nat} (hd : d.Sound I ck) : (d.expel id).Sound I ck := by
  unfold Dev.expel
  exact .ite (Dev.fset_sound hd) (.ite (Dev.removeMember_sound (Dev.fset_sound hd)) (Dev.fabSend_sound (Dev.fset_sound hd)))

theorem Dev.stageChunk_sound {d : Dev} {i : Image} {final : Bool} (hd : d.Sound I ck) : (d.stageChunk i final).Sound I ck := by
  unfold Dev.stageChunk
  exact .ite (Dev.fset_sound hd) (.ite (Dev.fset_sound hd) (Dev.fset_sound (Dev.fset_sound (Dev.fset_sound (Dev.fset_sound hd)))))

theorem Dev.actActivate_sound {d : Dev} {c : Cmd} (hd : d.Sound I ck) : (d.actActivate c).Sound I ck := by
  unfold Dev.actActivate
  exact .ite (.upd (Dev.complete_sound hd)) (.upd (Dev.fset_sound hd))

theorem Dev.actConfirm_sound {d : Dev} {c : Cmd} (hd : d.Sound I ck) : (d.actConfirm c).Sound I ck := by
  unfold Dev.actConfirm
  exact .ite (Dev.complete_sound hd) (Dev.complete_sound (Dev.confirmImage_sound hd))

theorem Dev.writeRollback_sound {d : Dev} (hd : d.Sound I ck) : (d.writeRollback).Sound I ck := by
  unfold Dev.writeRollback
  exact .ite (Dev.startRollback_sound hd) (Dev.illegal_sound hd)

theorem Dev.programPassed_sound {d : Dev} {k : Nat} {native : Bool} (hd : d.Sound I ck) : (d.programPassed k native).Sound I ck
    := by
  unfold Dev.programPassed
  extract_lets +onlyGivenNames x1
  extract_lets +onlyGivenNames x2
  extract_lets +onlyGivenNames d3
  have h3 : d3.Sound I ck := .ite (Dev.setMig_sound hd) hd
  extract_lets +onlyGivenNames y4_0 d4
  have h4 : d4.Sound I ck := .ite (.upd h3) h3
  exact Dev.setDie_sound h4

theorem Dev.failDieReads_sound {d : Dev} {k : Nat} (hd : d.Sound I ck) : (d.failDieReads k).Sound I ck := by
  unfold Dev.failDieReads
  refine .foldl ?_ ?_
  · exact hd
  · intro d2 x3 h4
    split
    · exact h4
    · split
      · exact h4
      · split
        · exact Dev.failRead_sound h4
        · exact h4

theorem Dev.layModule_sound {d : Dev} {m : Nat} {r : ModuleResult} (hd : d.Sound I ck) : (d.layModule m r).Sound I ck := by
  unfold Dev.layModule
  exact .upd hd

theorem Dev.noteModule_sound {d : Dev} {m : Nat} {r : ModuleResult} (hd : d.Sound I ck) : (d.noteModule m r).Sound I ck := by
  unfold Dev.noteModule
  exact .upd (Dev.fset_sound (Dev.fset_sound (Dev.fset_sound (.foldl hd fun _ _ h5 => (.foldl (Dev.fset_sound (Dev.fset_sound h5)) fun _ _ h6 => (Dev.fset_sound (Dev.fset_sound (Dev.fset_sound h6))))))))

theorem Dev.noteTraining_sound {d : Dev} {ch : Nat} {r : TrainResult} (hd : d.Sound I ck) : (d.noteTraining ch r).Sound I ck :=
    by
  unfold Dev.noteTraining
  exact Dev.setChan_sound (Dev.fset_sound (Dev.fset_sound (Dev.fset_sound (Dev.fset_sound (Dev.fset_sound hd)))))

theorem Dev.writeFreeze_sound {d : Dev} {ch : Nat} (hd : d.Sound I ck) : (d.writeFreeze ch).Sound I ck := by
  unfold Dev.writeFreeze
  exact .ite (Dev.illegal_sound hd) (Dev.freeze_sound (Dev.setChan_sound hd))

theorem Dev.thaw_sound {d : Dev} {ch : Nat} (hd : d.Sound I ck) : (d.thaw ch).1.Sound I ck := by
  unfold Dev.thaw
  split
  · exact hd
  · split
    · exact hd
    · exact Dev.fset_sound (Dev.fset_sound hd)

theorem Dev.writeThaw_sound {d : Dev} {ch : Nat} {inst : Nat} (hd : d.Sound I ck) : (d.writeThaw ch inst).Sound I ck := by
  unfold Dev.writeThaw
  exact .ite (Dev.thaw_sound hd) (Dev.illegal_sound hd)

theorem Dev.thawLost_sound {d : Dev} {ch : Nat} (hd : d.Sound I ck) : (d.thawLost ch).Sound I ck := by
  unfold Dev.thawLost
  refine .ite ?_ ?_
  · exact hd
  · split
    · exact Dev.rebuildLine_sound hd
    · split
      · exact Dev.poison_sound hd
      · exact hd

theorem Dev.writeCeClear_sound {d : Dev} {ch : Nat} (hd : d.Sound I ck) : (d.writeCeClear ch).Sound I ck := by
  unfold Dev.writeCeClear
  exact .ite (Dev.illegal_sound hd) (Dev.clearCe_sound hd)

theorem Dev.writeCeLog_sound {d : Dev} {ch : Nat} {k : Nat} (hd : d.Sound I ck) : (d.writeCeLog ch k).Sound I ck := by
  unfold Dev.writeCeLog
  exact .ite (Dev.illegal_sound hd) (Dev.fset_sound hd)

theorem Dev.checkerGo_sound {d : Dev} {ch : Nat} {verdict : Nat} {devmask : Nat} (hd : d.Sound I ck) : (d.checkerGo ch verdict
    devmask).Sound I ck := by
  unfold Dev.checkerGo
  refine .ite ?_ ?_
  · exact hd
  · extract_lets +onlyGivenNames x1
    refine .ite ?_ ?_
    · exact Dev.setChan_sound hd
    · extract_lets +onlyGivenNames x2
      extract_lets +onlyGivenNames x3
      extract_lets +onlyGivenNames d4
      have h4 : d4.Sound I ck := .ite hd (.upd hd)
      exact Dev.fset_sound (Dev.fset_sound (Dev.fset_sound (.foldl h4 fun _ _ h6 => (Dev.fset_sound h6))))

theorem Dev.readTherm_sound {d : Dev} {x : Nat × Nat} (hd : d.Sound I ck) : (d.readTherm x).Sound I ck := by
  unfold Dev.readTherm
  extract_lets +onlyGivenNames x1
  extract_lets +onlyGivenNames x2
  refine .ite ?_ ?_
  · exact .ite (.upd hd) (Dev.raise_sound (Dev.fset_sound (Dev.fset_sound (.upd hd))))
  · extract_lets +onlyGivenNames x3
    extract_lets +onlyGivenNames y4_0 y4_1 y4_2 d4
    have h4 : d4.Sound I ck := .ite hd (.ite (.upd hd) (.upd (Dev.fset_sound (Dev.fset_sound hd))))
    exact .ite (Dev.fset_sound h4) (.ite (Dev.raise_sound (Dev.fset_sound h4)) (Dev.fset_sound h4))

theorem Dev.noteCode_sound {d : Dev} {x : Nat × Nat} (hd : d.Sound I ck) : (d.noteCode x).Sound I ck := by
  unfold Dev.noteCode
  exact Dev.fset_sound (Dev.fset_sound hd)

theorem Dev.readHoldup_sound {d : Dev} {code : Nat} (hd : d.Sound I ck) : (d.readHoldup code).Sound I ck := by
  unfold Dev.readHoldup
  exact Dev.rebudget_sound (.ite (Dev.raise_sound (.upd hd)) (.upd hd))

theorem Dev.readMain_sound {d : Dev} {code : Nat} (hd : d.Sound I ck) : (d.readMain code).Sound I ck := by
  unfold Dev.readMain
  exact .ite hd (Dev.saveOrStop_sound (Dev.raise_sound (.upd hd)))

theorem Dev.readRail_sound {d : Dev} {codes : List Nat} {n : Nat} (hd : d.Sound I ck) : (d.readRail codes n).Sound I ck := by
  unfold Dev.readRail
  exact .ite (Dev.railFault_sound hd) hd

theorem Dev.markChanges_sound {d : Dev} {temps : List Int} {i : Nat} (hd : d.Sound I ck) : (d.markChanges temps i).1.Sound I ck
    := by
  unfold Dev.markChanges
  extract_lets +onlyGivenNames x1
  extract_lets +onlyGivenNames x2
  extract_lets +onlyGivenNames x3
  split
  · exact .upd hd
  · exact .upd hd

theorem Dev.flipMark_sound {d : Dev} {i : Nat} (hd : d.Sound I ck) : (d.flipMark i).Sound I ck := by
  unfold Dev.flipMark
  exact .upd (Dev.raise_sound (Dev.fset_sound hd))

theorem Dev.judgeSensors_sound {d : Dev} {temps : List Int} (hd : d.Sound I ck) : (d.judgeSensors temps).Sound I ck := by
  unfold Dev.judgeSensors
  extract_lets was
  have key : ∀ (l : List Nat) (x : Dev × List Nat), x.1.Sound I ck → (l.foldl (fun (x : Dev × List Nat) i =>
      let (e, c) := x.1.markChanges temps i
      (e, if c then x.2 ++ [i] else x.2)) x).1.Sound I ck := by
    intro l
    induction l with
    | nil => intro x h; exact h
    | cons i r ih => intro x h; exact ih _ (Dev.markChanges_sound h)
  split
  next d1 flips hx =>
  have h1 : d1.Sound I ck := .fst hx (key _ _ hd)
  extract_lets d2 n d3
  have h2 : d2.Sound I ck := .foldl h1 fun _ _ h => Dev.flipMark_sound h
  have h3 : d3.Sound I ck := Dev.fset_sound h2
  exact .ite (Dev.raise_sound h3) h3

theorem Dev.trip_sound {d : Dev} (hd : d.Sound I ck) : (d.trip).Sound I ck := by
  unfold Dev.trip
  exact .ite (Dev.saveOrStop_sound (.upd hd)) (.ite (Dev.boardDown_sound (.upd hd)) (.upd hd))

theorem Dev.judgeHeat_sound {d : Dev} {temps : List Int} (hd : d.Sound I ck) : (d.judgeHeat temps).Sound I ck := by
  unfold Dev.judgeHeat
  extract_lets +onlyGivenNames x1
  extract_lets +onlyGivenNames x2
  extract_lets +onlyGivenNames x3
  extract_lets +onlyGivenNames d4
  have h4 : d4.Sound I ck := Dev.fset_sound (Dev.fset_sound hd)
  extract_lets +onlyGivenNames x5
  extract_lets +onlyGivenNames d6
  have h6 : d6.Sound I ck := .ite (Dev.alarm_sound h4) h4
  extract_lets +onlyGivenNames y7_0 d7
  have h7 : d7.Sound I ck := .upd h6
  extract_lets +onlyGivenNames x8
  extract_lets +onlyGivenNames x9
  extract_lets +onlyGivenNames d10
  have h10 : d10.Sound I ck := .ite h7 (Dev.raise_sound (Dev.fset_sound h7))
  exact .ite (Dev.trip_sound h10) h10

theorem Dev.hkAbsent_sound {d : Dev} (hd : d.Sound I ck) : (d.hkAbsent).Sound I ck := by
  unfold Dev.hkAbsent
  exact .ite hd (Dev.raise_sound (.upd hd))

theorem Dev.hkRound_sound {d : Dev} {codes : List Nat} {temps : List Int} (hd : d.Sound I ck) : (d.hkRound codes temps).Sound I
    ck := by
  unfold Dev.hkRound
  exact Dev.bankGoesOn_sound (.foldl (Dev.readMain_sound (Dev.readHoldup_sound (Dev.judgeHeat_sound (Dev.judgeSensors_sound (.foldl (.foldl (.foldl (.upd hd) fun _ _ h13 => (Dev.noteCode_sound h13)) fun _ _ h14 => (Dev.readTherm_sound h14)) fun _ _ h15 => (Dev.fset_sound h15)))))) fun _ _ h16 => (Dev.readRail_sound h16))

end Sys2Proof.Machine
end

