-- ==== Sys2Proof/Laws/Sound6.lean ====
section
/-! SUPPORT. What the shared operations keep, continued. -/

set_option Elab.async false

namespace Sys2Proof.Machine

variable {I : Prop} {ck : Nat}

theorem Dev.ctlPower_sound {d : Dev} {op : Nat} {bay : Nat} (hd : d.Sound I ck) : (d.ctlPower op bay).Sound I ck := by
  unfold Dev.ctlPower
  exact .ite (Dev.powerReq_sound hd) (.ite (Dev.illegal_sound hd) (Dev.powerReq_sound (Dev.fset_sound (Dev.fset_sound (Dev.fset_sound hd)))))

theorem Dev.slotEdge_sound {d : Dev} {agree : Bool} (hd : d.Sound I ck) : (d.slotEdge agree).Sound I ck := by
  unfold Dev.slotEdge
  split
  · exact Dev.nextSeq_sound hd
  · exact .ite hd (.ite (Dev.turnSeq_sound hd) (.ite (Dev.endSeq_sound hd) (.upd (Dev.beginSlot_sound (Dev.send_sound hd)))))

theorem Dev.selfRefresh_sound {d : Dev} {u : Nat} {on : Bool} (hd : d.Sound I ck) : (d.selfRefresh u on).Sound I ck := by
  unfold Dev.selfRefresh
  exact .ite hd (.foldl hd fun _ _ h1 => (Dev.fset_sound h1))

theorem Dev.clearLantern_sound {d : Dev} {u : Nat} (hd : d.Sound I ck) : (d.clearLantern u).Sound I ck := by
  unfold Dev.clearLantern
  exact .upd hd

theorem Dev.bankedRegs_sound {d : Dev} (hd : d.Sound I ck) : (d.bankedRegs).Sound I ck := by
  unfold Dev.bankedRegs
  exact .upd (Dev.takeBank_sound (.upd (.upd (Dev.resetFor_sound hd))))

theorem Dev.halve_sound {d : Dev} {idx : Nat} (hd : d.Sound I ck) : (d.halve idx).Sound I ck := by
  unfold Dev.halve
  exact .ite hd (Dev.setEntry_sound hd)

theorem Dev.sweepLine_sound {d : Dev} {line : Nat} (hd : d.Sound I ck) : (d.sweepLine line).Sound I ck := by
  unfold Dev.sweepLine
  exact .upd (.foldl hd fun _ _ h2 => (Dev.placePlot_sound (Dev.halve_sound h2)))

theorem Dev.sweepSeals_sound {d : Dev} (hd : d.Sound I ck) : (d.sweepSeals).Sound I ck := by
  unfold Dev.sweepSeals
  exact .foldl hd fun _ _ h1 => (Dev.setPlotState_sound h1)

theorem Dev.forceDown_sound {d : Dev} {a1 : Nat} (hd : d.Sound I ck) : (d.forceDown a1).Sound I ck := by
  unfold Dev.forceDown
  split
  · exact hd
  · refine .ite ?_ ?_
    · split
      · exact hd
      · exact Dev.forceDown_sound (Dev.startMig_sound hd)
    · exact hd

theorem Dev.relieveHeath_sound {d : Dev} {a1 : Nat} (hd : d.Sound I ck) : (d.relieveHeath a1).Sound I ck := by
  unfold Dev.relieveHeath
  split
  · exact hd
  · refine .ite ?_ ?_
    · exact hd
    · extract_lets +onlyGivenNames x1
      split
      · exact hd
      · exact Dev.relieveHeath_sound (Dev.startMig_sound hd)

theorem Dev.sweep_sound {d : Dev} (hd : d.Sound I ck) : (d.sweep).Sound I ck := by
  unfold Dev.sweep
  exact Dev.relieveHeath_sound (Dev.forceDown_sound (.foldl (Dev.sweepSeals_sound (.upd hd)) fun _ _ h2 => (Dev.sweepLine_sound h2)))

theorem Dev.wickFill_sound {d : Dev} {l : Nat} {idx : Nat} (hd : d.Sound I ck) : (d.wickFill l idx).Sound I ck := by
  unfold Dev.wickFill
  exact Dev.wickTouch_sound (.upd hd)

theorem Dev.wickRange_sound {d : Dev} {first : Nat} {count : Nat} {lmask : Nat} (hd : d.Sound I ck) : (d.wickRange first count
    lmask).Sound I ck := by
  unfold Dev.wickRange
  exact .ite (Dev.illegal_sound hd) (.upd (Dev.fset_sound (Dev.fset_sound (Dev.fset_sound (Dev.fset_sound hd)))))

theorem Dev.copyFailed_sound {d : Dev} {m : Migration} (hd : d.Sound I ck) : (d.copyFailed m).Sound I ck := by
  unfold Dev.copyFailed
  exact .ite (Dev.setMig_sound (Dev.copyPlot_sound (Dev.setPlotState_sound hd))) (Dev.raise_sound (Dev.cancelMig_sound hd))

theorem Dev.copied_sound {d : Dev} {m : Migration} (hd : d.Sound I ck) : (d.copied m).Sound I ck := by
  unfold Dev.copied
  exact Dev.pumpDies_sound (Dev.setMig_sound (Dev.unreserve_sound (Dev.copyPlot_sound hd)))

theorem Dev.quiesce_sound {d : Dev} {idx : Nat} (hd : d.Sound I ck) : (d.quiesce idx).Sound I ck := by
  unfold Dev.quiesce
  exact Dev.setMig_sound (Dev.broadcast_sound hd)

theorem Dev.lampFault_sound {d : Dev} {status : PathStatus} {periods : List (Nat × Nat)} (hd : d.Sound I ck) : (d.lampFault
    status periods).Sound I ck := by
  unfold Dev.lampFault
  exact .upd (Dev.fset_sound hd)

theorem Dev.fenceOps_sound {d : Dev} (hd : d.Sound I ck) : (d.fenceOps).Sound I ck := by
  unfold Dev.fenceOps
  exact .foldl hd fun _ _ h1 => (Dev.reply_sound (Dev.setOp_sound (Dev.countLate_sound h1)))

theorem Dev.swapGo_sound {d : Dev} {region : Nat} {all : Bool} (hd : d.Sound I ck) : (d.swapGo region all).Sound I ck := by
  unfold Dev.swapGo
  exact .ite (Dev.illegal_sound hd) (.ite (Dev.fset_sound (.upd (Dev.fset_sound (Dev.fset_sound hd)))) (.ite (Dev.fset_sound (.upd (Dev.fset_sound (Dev.fset_sound hd)))) (Dev.pump_sound (Dev.twinSend_sound (.upd (Dev.fset_sound (Dev.fset_sound (.upd (Dev.fset_sound (Dev.fset_sound hd))))))))))

theorem Dev.giveBack_sound {d : Dev} (hd : d.Sound I ck) : (d.giveBack).Sound I ck := by
  unfold Dev.giveBack
  exact .ite (Dev.illegal_sound hd) (.foldl (.upd (.foldl hd fun _ _ h3 => (Dev.fset_sound h3))) fun _ _ h4 => (Dev.sendDreq_sound h4))

theorem Dev.rejoin_sound {d : Dev} (hd : d.Sound I ck) : (d.rejoin).Sound I ck := by
  unfold Dev.rejoin
  exact .ite (.upd hd) hd

theorem Dev.readDoorbell_sound {d : Dev} (hd : d.Sound I ck) : (d.readDoorbell).Sound I ck := by
  unfold Dev.readDoorbell
  exact Dev.send_sound (.upd hd)

theorem Dev.kick_sound {d : Dev} (hd : d.Sound I ck) : (d.kick).Sound I ck := by
  unfold Dev.kick
  extract_lets +onlyGivenNames d1
  have h1 : d1.Sound I ck := .ite (Dev.wake_sound hd) hd
  exact .ite (Dev.readDoorbell_sound h1) h1

theorem Dev.takeTail_sound {d : Dev} {n : Nat} {tail : Nat} (hd : d.Sound I ck) : (d.takeTail n tail).Sound I ck := by
  unfold Dev.takeTail
  exact .ite hd (.ite (Dev.illegal_sound hd) (Dev.setRing_sound hd))

theorem Dev.takeHead_sound {d : Dev} {n : Nat} {head : Nat} (hd : d.Sound I ck) : (d.takeHead n head).Sound I ck := by
  unfold Dev.takeHead
  exact .ite hd (.ite (Dev.illegal_sound hd) (Dev.releaseHeld_sound (Dev.setRing_sound hd)))

theorem Dev.fetchRing_sound {d : Dev} {n : Nat} (hd : d.Sound I ck) : (d.fetchRing n).Sound I ck := by
  unfold Dev.fetchRing
  exact .ite hd (Dev.send_sound (.upd hd))

theorem Dev.takeHeartbeat_sound {d : Dev} {hb : BitVec 64} (hd : d.Sound I ck) : (d.takeHeartbeat hb).Sound I ck := by
  unfold Dev.takeHeartbeat
  exact .ite hd (Dev.mainPresent_sound (.upd hd))

theorem Dev.takeDescs_sound {d : Dev} {n : Nat} {a1 : List (List (BitVec 64))} (hd : d.Sound I ck) : (d.takeDescs n a1).Sound I
    ck := by
  unfold Dev.takeDescs
  split
  · exact hd
  · exact .ite hd (.ite (Dev.takeDescs_sound (Dev.illegal_sound (Dev.fset_sound hd))) (.ite (Dev.takeDescs_sound (Dev.complete_sound (.upd (Dev.fset_sound hd)))) (Dev.takeDescs_sound (.upd (.upd (Dev.fset_sound hd))))))

theorem Dev.beginWait_sound {d : Dev} (hd : d.Sound I ck) : (d.beginWait).Sound I ck := by
  unfold Dev.beginWait
  exact Dev.settleWaits_sound hd

theorem Dev.toShadow_sound {d : Dev} {p : Carried} (hd : d.Sound I ck) : (d.toShadow p).Sound I ck := by
  unfold Dev.toShadow
  exact .upd hd

theorem Dev.storeDirty_sound {d : Dev} (hd : d.Sound I ck) : (d.storeDirty).Sound I ck := by
  unfold Dev.storeDirty
  exact .upd hd

theorem Dev.writeField_sound {p : Carried} {d : Dev} {x : Fld} (hd : d.Sound I ck) : (Dev.writeField p d x).Sound I ck := by
  unfold Dev.writeField
  refine .ite ?_ ?_
  · exact hd
  · split
    · exact Dev.fset_sound hd
    · exact Dev.fset_sound hd
    · exact .ite hd (Dev.storeDirty_sound (Dev.fset_sound hd))
    · exact Dev.fset_sound hd
    · exact hd
    · exact hd
    · exact hd

theorem Dev.ringOn_sound {d : Dev} {was : Dev} {p : Carried} (hd : d.Sound I ck) : (d.ringOn was p).Sound I ck := by
  unfold Dev.ringOn
  exact .ite (.ite (Dev.setRing_sound (Dev.fset_sound (Dev.fset_sound hd))) hd) (.ite (Dev.setRing_sound (Dev.fset_sound (Dev.fset_sound hd))) hd)

theorem Dev.writeCfxCtl_sound {d : Dev} {p : Carried} (hd : d.Sound I ck) : (d.writeCfxCtl p).Sound I ck := by
  unfold Dev.writeCfxCtl
  refine .ite ?_ ?_
  · exact hd
  · extract_lets +onlyGivenNames d1
    have h1 : d1.Sound I ck := .ite (Dev.writeGrant_sound hd) hd
    extract_lets +onlyGivenNames d2
    have h2 : d2.Sound I ck := .ite (Dev.hostDiscard_sound h1) h1
    exact .ite (Dev.hostOpen_sound h2) h2

theorem Dev.writeTwnCtl_sound {d : Dev} {p : Carried} (hd : d.Sound I ck) : (d.writeTwnCtl p).Sound I ck := by
  unfold Dev.writeTwnCtl
  extract_lets +onlyGivenNames d1
  have h1 : d1.Sound I ck := .ite (Dev.giveBack_sound hd) hd
  extract_lets +onlyGivenNames d2
  have h2 : d2.Sound I ck := .ite (Dev.declare_sound h1) h1
  exact .ite (Dev.swapGo_sound h2) h2

theorem Dev.writeChkGo_sound {d : Dev} {ch : Nat} (hd : d.Sound I ck) : (d.writeChkGo ch).Sound I ck := by
  unfold Dev.writeChkGo
  exact .ite (Dev.checkerGo_sound hd) (Dev.checkerGo_sound (Dev.used_sound (Dev.used_sound hd)))

theorem Dev.startBits_sound {d : Dev} {p : Carried} (hd : d.Sound I ck) : (d.startBits p).Sound I ck := by
  unfold Dev.startBits
  exact .ite (.ite (Dev.wickRange_sound hd) hd) (.ite (Dev.writeTwnCtl_sound hd) (.ite (.ite (Dev.twinRekey_sound hd) hd) (.ite (.ite (Dev.fabRekey_sound hd) hd) (.ite (.ite (Dev.expel_sound hd) hd) (.ite (.ite (Dev.writeFreeze_sound hd) (.ite (Dev.writeThaw_sound hd) hd)) (.ite (.ite (Dev.writeCeClear_sound hd) hd) (.ite (.ite (Dev.fset_sound hd) hd) (.ite (.ite (Dev.writeChkGo_sound hd) hd) (.ite (.ite (Dev.writeKeyLoad_sound hd) hd) (.ite (.ite (Dev.ctlPower_sound hd) hd) (.ite (.ite (Dev.writeRollback_sound hd) hd) (.ite (Dev.clearPending_sound hd) (.ite (.ite (Dev.kick_sound hd) hd) hd)))))))))))))

theorem Dev.writePart_sound {d : Dev} {p : Carried} (hd : d.Sound I ck) : (d.writePart p).Sound I ck := by
  unfold Dev.writePart
  refine .ite ?_ ?_
  · exact Dev.writeCfxCtl_sound hd
  · extract_lets +onlyGivenNames d1
    have h1 : d1.Sound I ck := hd
    extract_lets +onlyGivenNames d2
    have h2 : d2.Sound I ck := .ite (Dev.toShadow_sound hd) hd
    exact .ite (Dev.ringOn_sound (.foldl h2 fun _ _ h4 => (Dev.writeField_sound h4))) (Dev.startBits_sound (.foldl h2 fun _ _ h5 => (Dev.writeField_sound h5)))

theorem Dev.latchLow_sound {d : Dev} {p : Carried} (hd : d.Sound I ck) : (d.latchLow p).Sound I ck := by
  unfold Dev.latchLow
  exact .upd hd

theorem Dev.takeCarried_sound {d : Dev} {p : Carried} (hd : d.Sound I ck) : (d.takeCarried p).Sound I ck := by
  unfold Dev.takeCarried
  exact .ite (Dev.latchLow_sound hd) (Dev.writePart_sound hd)

theorem Dev.writeBar0_sound {d : Dev} {off : Nat} {size : Nat} {v : Nat} (hd : d.Sound I ck) : (d.writeBar0 off size v).Sound I
    ck := by
  unfold Dev.writeBar0
  refine .ite ?_ ?_
  · exact Dev.illegal_sound hd
  · extract_lets +onlyGivenNames x1
    split
    · exact Dev.illegal_sound hd
    · exact .foldl hd fun _ _ h2 => (Dev.takeCarried_sound h2)

theorem Dev.loadEeprom_sound {d : Dev} {e : Eeprom} (hd : d.Sound I ck) : (d.loadEeprom e).Sound I ck := by
  unfold Dev.loadEeprom
  exact .ite (Dev.raise_sound (.upd hd)) (.upd hd)

theorem Dev.coldState_sound {d : Dev} (hd : d.Sound I ck) : (d.coldState).Sound I ck := by
  unfold Dev.coldState
  extract_lets d1 d2 d3
  have h1 : d1.Sound I ck := .ite (Dev.snuf_sound hd) hd
  have h3 : d3.Sound I ck := Dev.fset_sound (Dev.fset_sound (Dev.darken_sound h1))
  exact ⟨h3.clk, fun hi => ⟨(h3.ok hi).mem, ⟨by simp, (h3.ok hi).recs.2.1, by simp⟩, by simp⟩⟩

theorem Dev.restoreFails_sound {d : Dev} (hd : d.Sound I ck) : (d.restoreFails).Sound I ck := by
  unfold Dev.restoreFails
  exact Dev.enterHold_sound (Dev.raise_sound (Dev.fset_sound hd))

theorem Dev.softRegs_sound {d : Dev} {ring : Bool} (hd : d.Sound I ck) : (d.softRegs ring).Sound I ck := by
  unfold Dev.softRegs
  exact .upd hd

theorem Dev.stopOne_sound {d : Dev} {id : Nat} (hd : d.Sound I ck) : (d.stopOne id).Sound I ck := by
  unfold Dev.stopOne
  split
  · exact hd
  · exact .ite (.ite (Dev.stopCmd_sound hd) hd) (.ite hd (Dev.complete_sound hd))

theorem Dev.stopRing_sound {d : Dev} {pcie : Bool} (hd : d.Sound I ck) : (d.stopRing pcie).Sound I ck := by
  unfold Dev.stopRing
  exact .foldl (Dev.discardCfx_sound (.upd hd)) fun _ _ h1 => (Dev.stopOne_sound h1)

theorem Dev.endDrain_sound {d : Dev} (hd : d.Sound I ck) : (d.endDrain).Sound I ck := by
  unfold Dev.endDrain
  extract_lets mute u ring v evt w
  have h1 := Dev.softRegs_sound (ring := true) hd
  refine ⟨h1.clk, fun hi => ⟨(h1.ok hi).mem, ?_, (h1.ok hi).ibi⟩⟩
  show recsOk evt.recs evt.mirror evt.dark
  unfold evt
  split <;> exact (hd.ok hi).recs

theorem Dev.settleDrain_sound {d : Dev} (hd : d.Sound I ck) : (d.settleDrain).Sound I ck := by
  unfold Dev.settleDrain
  split
  · exact hd
  · exact .ite (Dev.endDrain_sound hd) hd

theorem Dev.softParts_sound {d : Dev} {pcie : Bool} (hd : d.Sound I ck) : (d.softParts pcie).Sound I ck := by
  unfold Dev.softParts
  exact Dev.settleDrain_sound (Dev.setAuthority_sound (.upd (Dev.softRegs_sound (Dev.stopRing_sound hd))))

theorem Dev.reloadEngines_sound {d : Dev} {l : Nat} (hd : d.Sound I ck) : (d.reloadEngines l).Sound I ck := by
  unfold Dev.reloadEngines
  exact Dev.setSpare_sound (Dev.setRoles_sound (.upd hd))

theorem Dev.loseHot_sound {d : Dev} {c : Nat} (hd : d.Sound I ck) : (d.loseHot c).Sound I ck := by
  unfold Dev.loseHot
  exact .foldl (Dev.setConn_sound hd) fun _ _ h1 => (Dev.abandon_sound (Dev.cancelReads_sound h1))

theorem Dev.restartHost_sound {d : Dev} {l : Nat} (hd : d.Sound I ck) : (d.restartHost l).Sound I ck := by
  unfold Dev.restartHost
  exact Dev.fset_sound (Dev.fset_sound (.upd (.foldl hd fun _ _ h2 => (Dev.loseHot_sound h2))))

theorem Dev.restartTier_sound {d : Dev} {l : Nat} (hd : d.Sound I ck) : (d.restartTier l).Sound I ck := by
  unfold Dev.restartTier
  exact .foldl (Dev.fset_sound (Dev.fset_sound (Dev.fset_sound (.foldl hd fun _ _ h3 => (Dev.cancelMig_sound h3))))) fun _ _ h4 => (.ite (Dev.queueMig_sound h4) h4)

theorem Dev.restartTwin_sound {d : Dev} (hd : d.Sound I ck) : (d.restartTwin).Sound I ck := by
  unfold Dev.restartTwin
  exact Dev.twinDown_sound (Dev.setStatus_sound hd)

theorem Dev.restartFabric_sound {d : Dev} (hd : d.Sound I ck) : (d.restartFabric).Sound I ck := by
  unfold Dev.restartFabric
  exact .ite hd (Dev.ownLsa_sound (.foldl hd fun _ _ h1 => (Dev.fabDown_sound h1)))

theorem Dev.restartControl_sound {d : Dev} (hd : d.Sound I ck) : (d.restartControl).Sound I ck := by
  unfold Dev.restartControl
  exact Dev.softParts_sound (.foldl hd fun _ _ h2 => (Dev.answerDark_sound (Dev.dropCmd_sound h2)))

theorem Dev.restartRole_sound {d : Dev} {l : Nat} (hd : d.Sound I ck) : (d.restartRole l).Sound I ck := by
  unfold Dev.restartRole
  exact .ite (Dev.restartHost_sound hd) (.ite (Dev.restartTier_sound hd) (.ite (Dev.restartTwin_sound hd) (.ite (Dev.restartFabric_sound hd) (.ite (Dev.restartControl_sound hd) hd))))

theorem Dev.i3cSay_sound {d : Dev} {bs : List Byte} (hd : d.Sound I ck) : (d.i3cSay bs).Sound I ck := by
  unfold Dev.i3cSay
  exact .ite (Dev.send_sound hd) hd

theorem Dev.mctpIn_sound {d : Dev} {pec : Bool} {act : Dev → Dev} (hd : d.Sound I ck) (hact : ∀ (d₀ : Dev), d₀.Sound I ck →
    Dev.Sound I ck (act d₀)) : (d.mctpIn pec act).Sound I ck := by
  unfold Dev.mctpIn
  exact .ite hd (.ite (Dev.finc_sound hd) (hact _ (Dev.finc_sound hd)))

theorem Dev.control_sound {d : Dev} {code : Byte} {cc : Byte} {bs : List Byte} (hd : d.Sound I ck) : (d.control code cc
    bs).Sound I ck := by
  unfold Dev.control
  exact Dev.send_sound hd

theorem Dev.pldm5_sound {d : Dev} {code : Byte} {cc : Byte} (hd : d.Sound I ck) : (d.pldm5 code cc).Sound I ck := by
  unfold Dev.pldm5
  exact Dev.send_sound hd

theorem Dev.pldmErr_sound {d : Dev} {code : Byte} {case_ : Byte} (hd : d.Sound I ck) : (d.pldmErr code case_).Sound I ck := by
  unfold Dev.pldmErr
  exact Dev.send_sound hd

theorem Dev.type5_sound {d : Dev} {pec : Bool} {code : Byte} {act : Dev → Dev} (hd : d.Sound I ck) (hact : ∀ (d₀ : Dev),
    d₀.Sound I ck → Dev.Sound I ck (act d₀)) : (d.type5 pec code act).Sound I ck := by
  unfold Dev.type5
  exact Dev.mctpIn_sound hd (fun _ h1 => (.ite (Dev.pldm5_sound (Dev.finc_sound h1)) (hact _ h1)))

theorem Dev.sideCmd_sound {d : Dev} {code : Nat} {inst : Nat} {op : Nat} {body : List (BitVec 64)} {act : Dev → Cmd → Dev} (hd :
    d.Sound I ck) (hact : ∀ (d₀ : Dev) (x0 : Cmd), d₀.Sound I ck → Dev.Sound I ck (act d₀ x0)) : (d.sideCmd code inst op body
    act).Sound I ck := by
  unfold Dev.sideCmd
  exact Dev.startCmd_sound (.upd hd) (fun _ _ h1 => (hact _ _ h1))

theorem Dev.say_sound {d : Dev} {code : Nat} {cc : Nat} {a : SbReq} {body : List Nat} (hd : d.Sound I ck) : (d.say code cc a
    body).Sound I ck := by
  unfold Dev.say
  exact Dev.send_sound hd

theorem Dev.sayDark_sound {d : Dev} {code : Nat} {a : SbReq} (hd : d.Sound I ck) : (d.sayDark code a).Sound I ck := by
  unfold Dev.sayDark
  exact Dev.say_sound (Dev.finc_sound hd)

theorem Dev.vendorIn_sound {d : Dev} {code : Nat} {a : SbReq} {act : Dev → Dev} (hd : d.Sound I ck) (hact : ∀ (d₀ : Dev),
    d₀.Sound I ck → Dev.Sound I ck (act d₀)) : (d.vendorIn code a act).Sound I ck := by
  unfold Dev.vendorIn
  exact Dev.mctpIn_sound hd (fun _ h1 => (.ite (Dev.say_sound h1) (hact _ h1)))

theorem Dev.spend_sound {d : Dev} {a : SbReq} (hd : d.Sound I ck) : (d.spend a).Sound I ck := by
  unfold Dev.spend
  exact .upd hd

theorem Dev.authFail_sound {d : Dev} {code : Nat} {a : SbReq} (hd : d.Sound I ck) : (d.authFail code a).Sound I ck := by
  unfold Dev.authFail
  exact Dev.say_sound (Dev.raise_sound (Dev.finc_sound hd))

theorem Dev.authIn_sound {d : Dev} {code : Nat} {a : SbReq} {act : Dev → Dev} (hd : d.Sound I ck) (hact : ∀ (d₀ : Dev), d₀.Sound
    I ck → Dev.Sound I ck (act d₀)) : (d.authIn code a act).Sound I ck := by
  unfold Dev.authIn
  exact Dev.vendorIn_sound hd (fun _ h1 => (.ite (Dev.say_sound h1) (.ite (hact _ (Dev.spend_sound h1)) (Dev.authFail_sound (Dev.spend_sound h1)))))

theorem Dev.litIn_sound {d : Dev} {code : Nat} {a : SbReq} {act : Dev → Dev} (hd : d.Sound I ck) (hact : ∀ (d₀ : Dev), d₀.Sound
    I ck → Dev.Sound I ck (act d₀)) : (d.litIn code a act).Sound I ck := by
  unfold Dev.litIn
  exact Dev.authIn_sound hd (fun _ h1 => (.ite (Dev.sayDark_sound h1) (hact _ h1)))

theorem Dev.ruledIn_sound {d : Dev} {code : Nat} {a : SbReq} {act : Dev → Dev} (hd : d.Sound I ck) (hact : ∀ (d₀ : Dev),
    d₀.Sound I ck → Dev.Sound I ck (act d₀)) : (d.ruledIn code a act).Sound I ck := by
  unfold Dev.ruledIn
  exact Dev.litIn_sound hd (fun _ h1 => (.ite (Dev.say_sound h1) (hact _ h1)))

theorem Dev.sideCommit_sound {d : Dev} {c : Cmd} (hd : d.Sound I ck) : (d.sideCommit c).Sound I ck := by
  unfold Dev.sideCommit
  exact .ite (Dev.send_sound (Dev.dropCmd_sound (Dev.illegal_sound hd))) (.ite (Dev.complete_sound hd) (.ite (Dev.complete_sound (Dev.fset_sound (Dev.fset_sound (Dev.fset_sound hd)))) (.ite (Dev.complete_sound hd) (Dev.acceptCommit_sound hd))))

theorem Dev.closeEpoch_sound {d : Dev} (hd : d.Sound I ck) : (d.closeEpoch).Sound I ck := by
  unfold Dev.closeEpoch
  exact Dev.pump_sound (Dev.openEpoch_sound (Dev.joinMembers_sound (Dev.applyPlan_sound (Dev.applyDue_sound (Dev.applyAgreed_sound (Dev.shutEpoch_sound hd))))))

theorem Dev.setTime_sound {d : Dev} {ext : Nat} (hd : d.Sound I ck) : (d.setTime ext).Sound I ck := by
  unfold Dev.setTime
  exact .upd hd

theorem Dev.servo_sound {d : Dev} {ext : Nat} (hd : d.Sound I ck) : (d.servo ext).Sound I ck := by
  unfold Dev.servo
  exact .upd hd

theorem Dev.validate_sound {d : Dev} (hd : d.Sound I ck) : (d.validate).Sound I ck := by
  unfold Dev.validate
  exact .ite hd (Dev.mayOpen_sound (.ite (Dev.stageAt_sound (.upd hd)) (.upd hd)))

theorem Dev.lock_sound {d : Dev} (hd : d.Sound I ck) : (d.lock).Sound I ck := by
  unfold Dev.lock
  exact .upd (Dev.fset_sound hd)

theorem Dev.stepOnce_sound {d : Dev} {ext : Nat} (hd : d.Sound I ck) : (d.stepOnce ext).Sound I ck := by
  unfold Dev.stepOnce
  exact .ite (.upd hd) (.ite (Dev.closeEpoch_sound (.upd (Dev.setTime_sound (.upd hd)))) (Dev.setTime_sound (.upd hd)))

theorem Dev.countPulse_sound {d : Dev} {off : Nat} {tod : Bool} (hd : d.Sound I ck) : (d.countPulse off tod).Sound I ck := by
  unfold Dev.countPulse
  exact .ite (.upd hd) (Dev.lock_sound (.upd hd))

theorem Dev.steer_sound {d : Dev} {ext : Nat} (hd : d.Sound I ck) : (d.steer ext).Sound I ck := by
  unfold Dev.steer
  exact .ite (Dev.setTime_sound hd) (Dev.servo_sound hd)

theorem Dev.pulse_sound {d : Dev} {ext : Nat} {tod : Bool} (hd : d.Sound I ck) : (d.pulse ext tod).Sound I ck := by
  unfold Dev.pulse
  extract_lets +onlyGivenNames y1_0 d1
  have h1 : d1.Sound I ck := .upd hd
  extract_lets +onlyGivenNames d2
  have h2 : d2.Sound I ck := .ite (Dev.stepOnce_sound h1) h1
  extract_lets +onlyGivenNames x3
  extract_lets +onlyGivenNames x4
  extract_lets +onlyGivenNames y5_0 y5_1 d5
  have h5 : d5.Sound I ck := .ite (.ite (.upd (Dev.fset_sound h2)) h2) (Dev.countPulse_sound h2)
  extract_lets +onlyGivenNames d6
  have h6 : d6.Sound I ck := .ite h5 (Dev.fset_sound h5)
  extract_lets +onlyGivenNames d7
  have h7 : d7.Sound I ck := .ite (Dev.steer_sound h6) h6
  exact .ite h7 (Dev.validate_sound h7)

theorem Dev.restoreAgain_sound {d : Dev} (hd : d.Sound I ck) : (d.restoreAgain).Sound I ck := by
  unfold Dev.restoreAgain
  exact Dev.settleHorizon_sound (Dev.reportRestore_sound (Dev.restoreTo_sound (.upd hd)))

theorem Dev.recover_sound {d : Dev} {c : Nat} (hd : d.Sound I ck) : (d.recover c).Sound I ck := by
  unfold Dev.recover
  exact .ite (.ite (Dev.saveOrStop_sound (.upd hd)) hd) (.ite (.upd (.upd hd)) (.ite (Dev.restoreAgain_sound (.upd (.upd hd))) (Dev.horizonToCut_sound (.upd (.upd hd)))))

theorem Dev.compareMembers_sound {d : Dev} {src : Nat} {r : EpochReport} (hd : d.Sound I ck) : (d.compareMembers src r).Sound I
    ck := by
  unfold Dev.compareMembers
  exact .ite (Dev.raise_sound (.upd hd)) (.upd hd)

theorem Dev.cutTaken_sound {d : Dev} (hd : d.Sound I ck) : (d.cutTaken).Sound I ck := by
  unfold Dev.cutTaken
  exact .upd hd

theorem Dev.compareReport_sound {d : Dev} {r : EpochReport} (hd : d.Sound I ck) : (d.compareReport r).Sound I ck := by
  unfold Dev.compareReport
  exact .ite (Dev.raise_sound (.upd hd)) (.upd hd)

theorem Dev.judgePair_sound {d : Dev} {epoch : Nat} (hd : d.Sound I ck) : (d.judgePair epoch).Sound I ck := by
  unfold Dev.judgePair
  exact .ite hd (Dev.reportRestore_sound (.upd hd))

theorem Dev.linkStatus_sound {d : Dev} {p : PathStatus} (hd : d.Sound I ck) : (d.linkStatus p).Sound I ck := by
  unfold Dev.linkStatus
  extract_lets +onlyGivenNames x1
  extract_lets +onlyGivenNames x2
  split
  · exact .ite (Dev.fset_sound (.upd (Dev.fset_sound hd))) (.upd (Dev.fset_sound hd))
  · exact .ite (Dev.fset_sound (.upd (Dev.fset_sound hd))) (.upd (Dev.fset_sound hd))
  · exact .ite (Dev.fset_sound (.upd (Dev.fset_sound hd))) (.upd (Dev.fset_sound hd))
  · exact hd

theorem Dev.takeRegion_sound {d : Dev} {m : RegionMsg} {r : Region} (hd : d.Sound I ck) : (d.takeRegion m r).Sound I ck := by
  unfold Dev.takeRegion
  exact .ite (Dev.setRegion_sound hd) (.ite (Dev.setRegion_sound (Dev.releaseRun_sound hd)) (Dev.grow_sound hd))

theorem Dev.takeTable_sound {d : Dev} {m : RegionMsg} (hd : d.Sound I ck) : (d.takeTable m).Sound I ck := by
  unfold Dev.takeTable
  extract_lets +onlyGivenNames y1_0 d1
  have h1 : d1.Sound I ck := .upd hd
  split
  · exact .ite (Dev.takeRegion_sound h1) (.ite (Dev.setRegion_sound h1) (.ite (Dev.setRegion_sound h1) h1))
  · exact Dev.applyMsg_sound h1

theorem Dev.dropUnnamed_sound {d : Dev} (hd : d.Sound I ck) : (d.dropUnnamed).Sound I ck := by
  unfold Dev.dropUnnamed
  exact .foldl hd fun _ _ h1 => (.upd (Dev.releaseRun_sound h1))

theorem Dev.takePlot_sound {d : Dev} {idx : Nat} {poison : Bool} {off : Nat} {bs : List Byte} (hd : d.Sound I ck) : (d.takePlot
    idx poison off bs).Sound I ck := by
  unfold Dev.takePlot
  extract_lets +onlyGivenNames x1
  refine .ite ?_ ?_
  · exact .ite (Dev.refetch_sound (.upd hd)) hd
  · extract_lets +onlyGivenNames y2_0 d2
    have h2 : d2.Sound I ck := .ite (.upd hd) hd
    exact .ite (Dev.setPlotState_sound h2) (.ite (Dev.setPlotState_sound (Dev.resyncWrite_sound h2)) (Dev.resyncWrite_sound h2))

end Sys2Proof.Machine
end

