-- ==== Sys2Proof/Laws/Keeps1.lean ====
section
/-! SUPPORT. Every command answers with a next state, keeps the waiting commands and what the shared operations keep. -/

set_option Elab.async false

namespace Sys2Proof.Machine

variable {I : Prop} {ck : Nat}

/-! ### Every command answers with a next state that keeps the waiting commands -/

/-- The outcome is a next state with the waiting commands as they were and a sound device at instant `max ck t`. -/
def Keeps (I : Prop) (ck t : Nat) (s : State) (o : Host.Outcome State Fault Refusal) : Prop :=
  ∃ d, o = .next { s with dev := d } ∧ d.Sound I (max ck t)

theorem State.run_keeps {s : State} {t : Nat} {f : Dev → Dev} (hs : s.dev.Sound I ck)
    (hf : ∀ ck d, d.Sound I ck → (f d).Sound I ck) : Keeps I ck t s (s.run t f) :=
  ⟨_, rfl, hf _ _ (Dev.tick_sound hs)⟩

theorem execRegionCreate_keeps {t : Nat} {cmd : Nat} {stripes : List (BitVec 32)} {s : State} (hd : s.dev.Sound I ck) :
Keeps I ck t s (execRegionCreate t cmd stripes s) := by
  unfold execRegionCreate
  refine State.run_keeps hd fun ck d hd => ?_
  exact Dev.startRegion_sound hd

theorem execRegionModify_keeps {t : Nat} {cmd : Nat} {s : State} (hd : s.dev.Sound I ck) :
Keeps I ck t s (execRegionModify t cmd s) := by
  unfold execRegionModify
  refine State.run_keeps hd fun ck d hd => ?_
  exact Dev.startRegion_sound hd

theorem execRegionSeal_keeps {t : Nat} {cmd : Nat} {s : State} (hd : s.dev.Sound I ck) :
Keeps I ck t s (execRegionSeal t cmd s) := by
  unfold execRegionSeal
  refine State.run_keeps hd fun ck d hd => ?_
  exact Dev.startRegion_sound hd

theorem execRegionKey_keeps {t : Nat} {cmd : Nat} {s : State} (hd : s.dev.Sound I ck) :
Keeps I ck t s (execRegionKey t cmd s) := by
  unfold execRegionKey
  refine State.run_keeps hd fun ck d hd => ?_
  exact Dev.startRegion_sound hd

theorem execRegionGrow_keeps {t : Nat} {cmd : Nat} {s : State} (hd : s.dev.Sound I ck) :
Keeps I ck t s (execRegionGrow t cmd s) := by
  unfold execRegionGrow
  refine State.run_keeps hd fun ck d hd => ?_
  exact Dev.startRegion_sound hd

theorem execRegionDestroy_keeps {t : Nat} {cmd : Nat} {s : State} (hd : s.dev.Sound I ck) :
Keeps I ck t s (execRegionDestroy t cmd s) := by
  unfold execRegionDestroy
  refine State.run_keeps hd fun ck d hd => ?_
  refine Dev.startCmd_sound ?_ ?_
  · exact hd
  · intro d2 x3 h4
    refine .ite ?_ ?_
    · exact Dev.complete_sound h4
    · split
      · exact Dev.complete_sound h4
      · exact .ite (Dev.complete_sound h4) (Dev.pump_sound (Dev.submitChange_sound h4))

theorem execHomeRunMoveDone_keeps {t : Nat} {region : Nat} {s : State} (hd : s.dev.Sound I ck) :
Keeps I ck t s (execHomeRunMoveDone t region s) := by
  unfold execHomeRunMoveDone
  refine State.run_keeps hd fun ck d hd => ?_
  split
  · extract_lets +onlyGivenNames d1
    have h1 : d1.Sound I ck := Dev.endGrow_sound hd
    refine Dev.pump_sound ?_
    split
    · exact Dev.complete_sound h1
    · exact h1
  · exact hd

theorem execCopy_keeps {t : Nat} {cmd : Nat} {s : State} (hd : s.dev.Sound I ck) :
Keeps I ck t s (execCopy t cmd s) := by
  unfold execCopy
  refine State.run_keeps hd fun ck d hd => ?_
  exact Dev.startCmd_sound hd (fun _ _ h1 => (.ite (Dev.complete_sound h1) (Dev.pump_sound h1)))

theorem execFill_keeps {t : Nat} {cmd : Nat} {s : State} (hd : s.dev.Sound I ck) :
Keeps I ck t s (execFill t cmd s) := by
  unfold execFill
  refine State.run_keeps hd fun ck d hd => ?_
  exact Dev.startCmd_sound hd (fun _ _ h1 => (.ite (Dev.complete_sound h1) (Dev.pump_sound h1)))

theorem execMigrateHint_keeps {t : Nat} {cmd : Nat} {s : State} (hd : s.dev.Sound I ck) :
Keeps I ck t s (execMigrateHint t cmd s) := by
  unfold execMigrateHint
  refine State.run_keeps hd fun ck d hd => ?_
  refine Dev.startCmd_sound ?_ ?_
  · exact hd
  · intro d2 x3 h4
    split
    · exact Dev.complete_sound h4
    · exact .ite (Dev.complete_sound h4) (Dev.complete_sound (.foldl h4 fun _ _ h6 => (Dev.startMig_sound h6)))

theorem execPin_keeps {t : Nat} {cmd : Nat} {s : State} (hd : s.dev.Sound I ck) :
Keeps I ck t s (execPin t cmd s) := by
  unfold execPin
  refine State.run_keeps hd fun ck d hd => ?_
  refine Dev.startCmd_sound ?_ ?_
  · exact hd
  · intro d2 x3 h4
    split
    · exact Dev.complete_sound h4
    · exact .ite (Dev.complete_sound h4) (Dev.complete_sound (.foldl h4 fun _ _ h5 => (Dev.setPin_sound h5)))

theorem execSealNow_keeps {t : Nat} {cmd : Nat} {s : State} (hd : s.dev.Sound I ck) :
Keeps I ck t s (execSealNow t cmd s) := by
  unfold execSealNow
  refine State.run_keeps hd fun ck d hd => ?_
  exact Dev.startCmd_sound hd (fun _ _ h1 => (Dev.pump_sound (Dev.settleSealNow_sound (.upd h1))))

theorem execScrubRange_keeps {t : Nat} {cmd : Nat} {s : State} (hd : s.dev.Sound I ck) :
Keeps I ck t s (execScrubRange t cmd s) := by
  unfold execScrubRange
  refine State.run_keeps hd fun ck d hd => ?_
  exact Dev.startCmd_sound hd (fun _ _ h1 => (.ite (Dev.complete_sound h1) (Dev.setCmd_sound (.foldl h1 fun _ _ h2 => (Dev.wickLookup_sound h2)))))

theorem execScrubRangeDone_keeps {t : Nat} {cmd : Nat} {corrected : Nat} {uncorr : Nat} {remapped : Nat} {s : State} (hd :
    s.dev.Sound I ck) :
Keeps I ck t s (execScrubRangeDone t cmd corrected uncorr remapped s) := by
  unfold execScrubRangeDone
  refine State.run_keeps hd fun ck d hd => ?_
  split
  · exact hd
  · refine .ite ?_ ?_
    · exact hd
    · split
      exact Dev.complete_sound (Dev.scrubCounts_sound hd)

theorem execEvacuateChannel_keeps {t : Nat} {cmd : Nat} {s : State} (hd : s.dev.Sound I ck) :
Keeps I ck t s (execEvacuateChannel t cmd s) := by
  unfold execEvacuateChannel
  refine State.run_keeps hd fun ck d hd => ?_
  exact Dev.startCmd_sound hd (fun _ _ h1 => (Dev.actEvacuate_sound h1))

theorem execEvacuateModule_keeps {t : Nat} {cmd : Nat} {s : State} (hd : s.dev.Sound I ck) :
Keeps I ck t s (execEvacuateModule t cmd s) := by
  unfold execEvacuateModule
  refine State.run_keeps hd fun ck d hd => ?_
  exact Dev.startCmd_sound hd (fun _ _ h1 => (Dev.actEvacuate_sound h1))

theorem execRdmaWriteFirst_keeps {t : Nat} {q : Req} {data : List Byte} {s : State} (hd : s.dev.Sound I ck) :
Keeps I ck t s (execRdmaWriteFirst t q data s) := by
  unfold execRdmaWriteFirst
  refine State.run_keeps hd fun ck d hd => ?_
  exact Dev.request_sound hd

theorem execRdmaWriteMiddle_keeps {t : Nat} {q : Req} {data : List Byte} {s : State} (hd : s.dev.Sound I ck) :
Keeps I ck t s (execRdmaWriteMiddle t q data s) := by
  unfold execRdmaWriteMiddle
  refine State.run_keeps hd fun ck d hd => ?_
  exact Dev.request_sound hd

theorem execRdmaWriteLast_keeps {t : Nat} {q : Req} {data : List Byte} {s : State} (hd : s.dev.Sound I ck) :
Keeps I ck t s (execRdmaWriteLast t q data s) := by
  unfold execRdmaWriteLast
  refine State.run_keeps hd fun ck d hd => ?_
  exact Dev.request_sound hd

theorem execRdmaWriteOnly_keeps {t : Nat} {q : Req} {data : List Byte} {s : State} (hd : s.dev.Sound I ck) :
Keeps I ck t s (execRdmaWriteOnly t q data s) := by
  unfold execRdmaWriteOnly
  refine State.run_keeps hd fun ck d hd => ?_
  exact Dev.request_sound hd

theorem execRdmaWriteLastWithImmediate_keeps {t : Nat} {q : Req} {data : List Byte} {imm : BitVec 32} {s : State} (hd :
    s.dev.Sound I ck) :
Keeps I ck t s (execRdmaWriteLastWithImmediate t q data imm s) := by
  unfold execRdmaWriteLastWithImmediate
  refine State.run_keeps hd fun ck d hd => ?_
  exact Dev.request_sound hd

theorem execRdmaWriteOnlyWithImmediate_keeps {t : Nat} {q : Req} {data : List Byte} {imm : BitVec 32} {s : State} (hd :
    s.dev.Sound I ck) :
Keeps I ck t s (execRdmaWriteOnlyWithImmediate t q data imm s) := by
  unfold execRdmaWriteOnlyWithImmediate
  refine State.run_keeps hd fun ck d hd => ?_
  exact Dev.request_sound hd

theorem execCompareSwap_keeps {t : Nat} {q : Req} {cmp : BitVec 64} {swp : BitVec 64} {s : State} (hd : s.dev.Sound I ck) :
Keeps I ck t s (execCompareSwap t q cmp swp s) := by
  unfold execCompareSwap
  refine State.run_keeps hd fun ck d hd => ?_
  exact Dev.request_sound hd

theorem execFetchAdd_keeps {t : Nat} {q : Req} {add : BitVec 64} {s : State} (hd : s.dev.Sound I ck) :
Keeps I ck t s (execFetchAdd t q add s) := by
  unfold execFetchAdd
  refine State.run_keeps hd fun ck d hd => ?_
  exact Dev.request_sound hd

theorem execFlushVerb_keeps {t : Nat} {q : Req} {s : State} (hd : s.dev.Sound I ck) :
Keeps I ck t s (execFlushVerb t q s) := by
  unfold execFlushVerb
  refine State.run_keeps hd fun ck d hd => ?_
  exact Dev.request_sound hd

theorem execAtomicWrite_keeps {t : Nat} {q : Req} {word : BitVec 64} {s : State} (hd : s.dev.Sound I ck) :
Keeps I ck t s (execAtomicWrite t q word s) := by
  unfold execAtomicWrite
  refine State.run_keeps hd fun ck d hd => ?_
  exact Dev.request_sound hd

theorem execFenceCount_keeps {t : Nat} {q : Req} {tgt : Nat} {n : BitVec 32} {s : State} (hd : s.dev.Sound I ck) :
Keeps I ck t s (execFenceCount t q tgt n s) := by
  unfold execFenceCount
  refine State.run_keeps hd fun ck d hd => ?_
  exact Dev.request_sound hd

theorem execSealQuery_keeps {t : Nat} {q : Req} {s : State} (hd : s.dev.Sound I ck) :
Keeps I ck t s (execSealQuery t q s) := by
  unfold execSealQuery
  refine State.run_keeps hd fun ck d hd => ?_
  exact Dev.request_sound hd

theorem execRegionInfo_keeps {t : Nat} {q : Req} {s : State} (hd : s.dev.Sound I ck) :
Keeps I ck t s (execRegionInfo t q s) := by
  unfold execRegionInfo
  refine State.run_keeps hd fun ck d hd => ?_
  exact Dev.request_sound hd

theorem execUnsupportedOpcode_keeps {t : Nat} {q : Req} {s : State} (hd : s.dev.Sound I ck) :
Keeps I ck t s (execUnsupportedOpcode t q s) := by
  unfold execUnsupportedOpcode
  refine State.run_keeps hd fun ck d hd => ?_
  exact Dev.arrive_sound hd

theorem execDeadlineExpiry_keeps {t : Nat} {op : Nat} {est : Option Nat} {s : State} (hd : s.dev.Sound I ck) :
Keeps I ck t s (execDeadlineExpiry t op est s) := by
  unfold execDeadlineExpiry
  refine State.run_keeps hd fun ck d hd => ?_
  split
  · exact .ite hd (Dev.pump_sound (Dev.expire_sound hd))
  · split
    · exact hd
    · exact .ite (Dev.pump_sound (Dev.expireWaiting_sound hd)) hd

theorem execWriteDurable_keeps {t : Nat} {op : Nat} {s : State} (hd : s.dev.Sound I ck) :
Keeps I ck t s (execWriteDurable t op s) := by
  unfold execWriteDurable
  refine State.run_keeps hd fun ck d hd => ?_
  split
  · exact Dev.staleTag_sound hd
  · exact .ite (Dev.pump_sound (Dev.makeDurable_sound hd)) hd

theorem execFenceCountReached_keeps {t : Nat} {op : Nat} {s : State} (hd : s.dev.Sound I ck) :
Keeps I ck t s (execFenceCountReached t op s) := by
  unfold execFenceCountReached
  refine State.run_keeps hd fun ck d hd => ?_
  split
  · exact Dev.staleTag_sound hd
  · exact .ite (Dev.pump_sound (Dev.finishFence_sound hd)) hd

theorem execColdStateLoad_keeps {t : Nat} {conn : Nat} {s : State} (hd : s.dev.Sound I ck) :
Keeps I ck t s (execColdStateLoad t conn s) := by
  unfold execColdStateLoad
  refine State.run_keeps hd fun ck d hd => ?_
  extract_lets +onlyGivenNames x1
  refine .ite ?_ ?_
  · exact hd
  · refine .ite ?_ ?_
    · exact Dev.loadCold_sound hd
    · split
      · exact hd
      · exact Dev.loadCold_sound (Dev.setConn_sound hd)

theorem execReq_keeps {t : Nat} {r : CmReq} {s : State} (hd : s.dev.Sound I ck) :
Keeps I ck t s (execReq t r s) := by
  unfold execReq
  refine State.run_keeps hd fun ck d hd => ?_
  exact .ite (Dev.dropStale_sound hd) (.ite hd (.ite (Dev.answerReq_sound hd) (.upd (Dev.wake_sound hd))))

theorem execMraTimeout_keeps {t : Nat} {port : Nat} {arrived : Nat} {s : State} (hd : s.dev.Sound I ck) :
Keeps I ck t s (execMraTimeout t port arrived s) := by
  unfold execMraTimeout
  refine State.run_keeps hd fun ck d hd => ?_
  split
  · exact Dev.sendCm_sound (.upd hd)
  · exact hd

theorem execRtu_keeps {t : Nat} {qpn : Nat} {s : State} (hd : s.dev.Sound I ck) :
Keeps I ck t s (execRtu t qpn s) := by
  unfold execRtu
  refine State.run_keeps hd fun ck d hd => ?_
  split
  · exact hd
  · exact .ite (Dev.setState_sound hd) hd

theorem execDreq_keeps {t : Nat} {qpn : Nat} {s : State} (hd : s.dev.Sound I ck) :
Keeps I ck t s (execDreq t qpn s) := by
  unfold execDreq
  refine State.run_keeps hd fun ck d hd => ?_
  split
  · exact hd
  · split
    · exact Dev.pump_sound (Dev.quarantine_sound (Dev.sendCm_sound hd))
    · exact Dev.pump_sound (Dev.setState_sound hd)
    · exact hd
    · exact hd
    · exact hd
    · exact hd

theorem execDrep_keeps {t : Nat} {qpn : Nat} {s : State} (hd : s.dev.Sound I ck) :
Keeps I ck t s (execDrep t qpn s) := by
  unfold execDrep
  refine State.run_keeps hd fun ck d hd => ?_
  split
  · exact hd
  · exact .ite (Dev.pump_sound (Dev.quarantine_sound hd)) hd

theorem execRtuTimeout_keeps {t : Nat} {conn : Nat} {s : State} (hd : s.dev.Sound I ck) :
Keeps I ck t s (execRtuTimeout t conn s) := by
  unfold execRtuTimeout
  refine State.run_keeps hd fun ck d hd => ?_
  exact .ite (Dev.pump_sound (Dev.quarantine_sound (Dev.sendCm_sound hd))) hd

theorem execQuarantineEnd_keeps {t : Nat} {conn : Nat} {s : State} (hd : s.dev.Sound I ck) :
Keeps I ck t s (execQuarantineEnd t conn s) := by
  unfold execQuarantineEnd
  refine State.run_keeps hd fun ck d hd => ?_
  exact .ite (.upd hd) hd

theorem execDrepTimeout_keeps {t : Nat} {conn : Nat} {s : State} (hd : s.dev.Sound I ck) :
Keeps I ck t s (execDrepTimeout t conn s) := by
  unfold execDrepTimeout
  refine State.run_keeps hd fun ck d hd => ?_
  exact .ite (Dev.pump_sound (Dev.quarantine_sound hd)) hd

theorem execConnectionDrained_keeps {t : Nat} {conn : Nat} {s : State} (hd : s.dev.Sound I ck) :
Keeps I ck t s (execConnectionDrained t conn s) := by
  unfold execConnectionDrained
  refine State.run_keeps hd fun ck d hd => ?_
  exact .ite (Dev.pump_sound (Dev.quarantine_sound (Dev.sendCm_sound hd))) hd

theorem execErrorDrained_keeps {t : Nat} {conn : Nat} {s : State} (hd : s.dev.Sound I ck) :
Keeps I ck t s (execErrorDrained t conn s) := by
  unfold execErrorDrained
  refine State.run_keeps hd fun ck d hd => ?_
  exact .ite (Dev.sendDreq_sound hd) hd

theorem execPortUp_keeps {t : Nat} {port : Nat} {s : State} (hd : s.dev.Sound I ck) :
Keeps I ck t s (execPortUp t port s) := by
  unfold execPortUp
  refine State.run_keeps hd fun ck d hd => ?_
  exact .ite hd (Dev.sendLldp_sound (Dev.wake_sound (Dev.raise_sound (Dev.setPort_sound hd))))

theorem execPortLinkDown_keeps {t : Nat} {port : Nat} {s : State} (hd : s.dev.Sound I ck) :
Keeps I ck t s (execPortLinkDown t port s) := by
  unfold execPortLinkDown
  refine State.run_keeps hd fun ck d hd => ?_
  exact Dev.portDown_sound hd

theorem execPfcPause_keeps {t : Nat} {port : Nat} {pri : Nat} {quanta : Nat} {s : State} (hd : s.dev.Sound I ck) :
Keeps I ck t s (execPfcPause t port pri quanta s) := by
  unfold execPfcPause
  refine State.run_keeps hd fun ck d hd => ?_
  exact .ite hd (.ite (Dev.letOut_sound (Dev.setPort_sound (Dev.count_sound hd))) (Dev.setPort_sound (Dev.count_sound hd)))

theorem execPauseRefresh_keeps {t : Nat} {port : Nat} {occ : Nat} {s : State} (hd : s.dev.Sound I ck) :
Keeps I ck t s (execPauseRefresh t port occ s) := by
  unfold execPauseRefresh
  refine State.run_keeps hd fun ck d hd => ?_
  exact .ite hd (.foldl (Dev.setPort_sound hd) fun _ _ h1 => (Dev.refreshPri_sound h1))

theorem execPauseWatchdog_keeps {t : Nat} {port : Nat} {pri : Nat} {s : State} (hd : s.dev.Sound I ck) :
Keeps I ck t s (execPauseWatchdog t port pri s) := by
  unfold execPauseWatchdog
  refine State.run_keeps hd fun ck d hd => ?_
  exact .ite (Dev.raise_sound (Dev.letOut_sound (Dev.freeTags_sound (Dev.setPort_sound hd)))) hd

theorem execPauseWatchdogEnd_keeps {t : Nat} {port : Nat} {pri : Nat} {s : State} (hd : s.dev.Sound I ck) :
Keeps I ck t s (execPauseWatchdogEnd t port pri s) := by
  unfold execPauseWatchdogEnd
  refine State.run_keeps hd fun ck d hd => ?_
  exact .ite (Dev.setPort_sound hd) hd

theorem execCnp_keeps {t : Nat} {qpn : Nat} {s : State} (hd : s.dev.Sound I ck) :
Keeps I ck t s (execCnp t qpn s) := by
  unfold execCnp
  refine State.run_keeps hd fun ck d hd => ?_
  split
  · exact Dev.dropStale_sound hd
  · exact Dev.setConn_sound hd

theorem execRateRecovery_keeps {t : Nat} {conn : Nat} {s : State} (hd : s.dev.Sound I ck) :
Keeps I ck t s (execRateRecovery t conn s) := by
  unfold execRateRecovery
  refine State.run_keeps hd fun ck d hd => ?_
  exact .ite (Dev.setConn_sound hd) hd

theorem execArpRequest_keeps {t : Nat} {port : Nat} {gid : Nat} {s : State} (hd : s.dev.Sound I ck) :
Keeps I ck t s (execArpRequest t port gid s) := by
  unfold execArpRequest
  refine State.run_keeps hd fun ck d hd => ?_
  exact .ite (Dev.send_sound hd) hd

theorem execNeighbourSolicitation_keeps {t : Nat} {port : Nat} {gid : Nat} {s : State} (hd : s.dev.Sound I ck) :
Keeps I ck t s (execNeighbourSolicitation t port gid s) := by
  unfold execNeighbourSolicitation
  refine State.run_keeps hd fun ck d hd => ?_
  exact .ite (Dev.send_sound hd) hd

theorem execLldpReceived_keeps {t : Nat} {port : Nat} {pfc : Nat} {s : State} (hd : s.dev.Sound I ck) :
Keeps I ck t s (execLldpReceived t port pfc s) := by
  unfold execLldpReceived
  refine State.run_keeps hd fun ck d hd => ?_
  exact .ite (Dev.raise_sound hd) hd

theorem execSelftestShort_keeps {t : Nat} {cmd : Nat} {s : State} (hd : s.dev.Sound I ck) :
Keeps I ck t s (execSelftestShort t cmd s) := by
  unfold execSelftestShort
  refine State.run_keeps hd fun ck d hd => ?_
  exact Dev.startCmd_sound hd (fun _ _ h1 => (Dev.startTest_sound h1))

theorem execSelftestExtended_keeps {t : Nat} {cmd : Nat} {s : State} (hd : s.dev.Sound I ck) :
Keeps I ck t s (execSelftestExtended t cmd s) := by
  unfold execSelftestExtended
  refine State.run_keeps hd fun ck d hd => ?_
  exact Dev.startCmd_sound hd (fun _ _ h1 => (Dev.startTest_sound h1))

theorem execSelftestResume_keeps {t : Nat} {s : State} (hd : s.dev.Sound I ck) :
Keeps I ck t s (execSelftestResume t s) := by
  unfold execSelftestResume
  refine State.run_keeps hd fun ck d hd => ?_
  exact .upd hd

theorem execSelftestDone_keeps {t : Nat} {item : Nat} {active : Nat} {paused : Nat} {s : State} (hd : s.dev.Sound I ck) :
Keeps I ck t s (execSelftestDone t item active paused s) := by
  unfold execSelftestDone
  refine State.run_keeps hd fun ck d hd => ?_
  split
  · exact hd
  · extract_lets +onlyGivenNames y1_0 d1
    have h1 : d1.Sound I ck := .upd hd
    extract_lets +onlyGivenNames x2
    extract_lets +onlyGivenNames d3
    have h3 : d3.Sound I ck := .ite (.foldl h1 fun _ _ h4 => (Dev.returnEngine_sound h4)) h1
    exact Dev.complete_sound (Dev.raise_sound (.ite h3 (Dev.failedItem_sound h3)))

theorem execEyeMonitor_keeps {t : Nat} {kind : Nat} {lane : Nat} {margin : Nat} {fec : Nat} {s : State} (hd : s.dev.Sound I ck)
    :
Keeps I ck t s (execEyeMonitor t kind lane margin fec s) := by
  unfold execEyeMonitor
  refine State.run_keeps hd fun ck d hd => ?_
  exact .ite hd (.ite (.upd (Dev.countEye_sound hd)) (Dev.laneFails_sound (.upd (.upd (Dev.countEye_sound hd)))))

theorem execFecRateExceeded_keeps {t : Nat} {kind : Nat} {lane : Nat} {s : State} (hd : s.dev.Sound I ck) :
Keeps I ck t s (execFecRateExceeded t kind lane s) := by
  unfold execFecRateExceeded
  refine State.run_keeps hd fun ck d hd => ?_
  exact Dev.laneFails_sound hd

theorem execLaneRetrainTimer_keeps {t : Nat} {group : Nat} {s : State} (hd : s.dev.Sound I ck) :
Keeps I ck t s (execLaneRetrainTimer t group s) := by
  unfold execLaneRetrainTimer
  refine State.run_keeps hd fun ck d hd => ?_
  exact .ite (.upd hd) hd

theorem execLaneGroupRejoin_keeps {t : Nat} {group : Nat} {s : State} (hd : s.dev.Sound I ck) :
Keeps I ck t s (execLaneGroupRejoin t group s) := by
  unfold execLaneGroupRejoin
  refine State.run_keeps hd fun ck d hd => ?_
  exact .ite (.ite (Dev.raise_sound (Dev.fset_sound (.upd hd))) (.upd hd)) hd

theorem execDramSweep_keeps {t : Nat} {ch : Nat} {s : State} (hd : s.dev.Sound I ck) :
Keeps I ck t s (execDramSweep t ch s) := by
  unfold execDramSweep
  refine State.run_keeps hd fun ck d hd => ?_
  exact .ite (.upd hd) hd

theorem execPlanTimer_keeps {t : Nat} {p : Plan} {s : State} (hd : s.dev.Sound I ck) :
Keeps I ck t s (execPlanTimer t p s) := by
  unfold execPlanTimer
  refine State.run_keeps hd fun ck d hd => ?_
  exact .ite (Dev.formPlan_sound hd) hd

theorem execPlanVoltageRequest_keeps {t : Nat} {s : State} (hd : s.dev.Sound I ck) :
Keeps I ck t s (execPlanVoltageRequest t s) := by
  unfold execPlanVoltageRequest
  refine State.run_keeps hd fun ck d hd => ?_
  split
  · exact hd
  · exact .ite (.upd (Dev.send_sound hd)) hd

theorem execEngineMemoryError_keeps {t : Nat} {err : EngineErr} {s : State} (hd : s.dev.Sound I ck) :
Keeps I ck t s (execEngineMemoryError t err s) := by
  unfold execEngineMemoryError
  refine State.run_keeps hd fun ck d hd => ?_
  exact .ite hd (.ite (Dev.count_sound (.upd hd)) (Dev.removeEngine_sound hd))

theorem execEngineWatchdogExpiry_keeps {t : Nat} {engine : Nat} {s : State} (hd : s.dev.Sound I ck) :
Keeps I ck t s (execEngineWatchdogExpiry t engine s) := by
  unfold execEngineWatchdogExpiry
  refine State.run_keeps hd fun ck d hd => ?_
  exact .ite hd (Dev.removeEngine_sound (.upd hd))

theorem execSpareSubstitutionDone_keeps {t : Nat} {lantern : Nat} {s : State} (hd : s.dev.Sound I ck) :
Keeps I ck t s (execSpareSubstitutionDone t lantern s) := by
  unfold execSpareSubstitutionDone
  refine State.run_keeps hd fun ck d hd => ?_
  exact Dev.pump_sound (Dev.endSubstitution_sound hd)

theorem execCfgOpen_keeps {t : Nat} {s : State} (hd : s.dev.Sound I ck) :
Keeps I ck t s (execCfgOpen t s) := by
  unfold execCfgOpen
  refine State.run_keeps hd fun ck d hd => ?_
  exact .ite (Dev.hostOpen_sound hd) hd

theorem execCfgDiscard_keeps {t : Nat} {s : State} (hd : s.dev.Sound I ck) :
Keeps I ck t s (execCfgDiscard t s) := by
  unfold execCfgDiscard
  refine State.run_keeps hd fun ck d hd => ?_
  exact .ite (Dev.hostDiscard_sound hd) hd

theorem execCfgGrant_keeps {t : Nat} {on : Bool} {s : State} (hd : s.dev.Sound I ck) :
Keeps I ck t s (execCfgGrant t on s) := by
  unfold execCfgGrant
  refine State.run_keeps hd fun ck d hd => ?_
  exact .ite (Dev.writeGrant_sound hd) hd

theorem execCfgCommit_keeps {t : Nat} {cmd : Nat} {s : State} (hd : s.dev.Sound I ck) :
Keeps I ck t s (execCfgCommit t cmd s) := by
  unfold execCfgCommit
  refine State.run_keeps hd fun ck d hd => ?_
  exact Dev.startCmd_sound hd (fun _ _ h1 => (Dev.startCommit_sound h1))

theorem execCfgCheckDone_keeps {t : Nat} {s : State} (hd : s.dev.Sound I ck) :
Keeps I ck t s (execCfgCheckDone t s) := by
  unfold execCfgCheckDone
  refine State.run_keeps hd fun ck d hd => ?_
  refine .ite ?_ ?_
  · exact hd
  · split
    · exact Dev.refuseCommit_sound hd
    · exact .ite (Dev.applyCfx_sound hd) (.upd (Dev.fset_sound hd))

theorem execCfgScheduledApply_keeps {t : Nat} {s : State} (hd : s.dev.Sound I ck) :
Keeps I ck t s (execCfgScheduledApply t s) := by
  unfold execCfgScheduledApply
  refine State.run_keeps hd fun ck d hd => ?_
  exact Dev.applyDue_sound hd

theorem execSettingsStoreWrite_keeps {t : Nat} {s : State} (hd : s.dev.Sound I ck) :
Keeps I ck t s (execSettingsStoreWrite t s) := by
  unfold execSettingsStoreWrite
  refine State.run_keeps hd fun ck d hd => ?_
  exact .ite (Dev.writeStore_sound hd) hd

theorem execKeyLoad_keeps {t : Nat} {value : Nat} {s : State} (hd : s.dev.Sound I ck) :
Keeps I ck t s (execKeyLoad t value s) := by
  unfold execKeyLoad
  refine State.run_keeps hd fun ck d hd => ?_
  exact .ite (Dev.writeKeyLoad_sound hd) hd

theorem execKeyErase_keeps {t : Nat} {value : Nat} {s : State} (hd : s.dev.Sound I ck) :
Keeps I ck t s (execKeyErase t value s) := by
  unfold execKeyErase
  refine State.run_keeps hd fun ck d hd => ?_
  exact .ite (Dev.writeKeyLoad_sound hd) hd

theorem execTamper_keeps {t : Nat} {s : State} (hd : s.dev.Sound I ck) :
Keeps I ck t s (execTamper t s) := by
  unfold execTamper
  refine State.run_keeps hd fun ck d hd => ?_
  exact .ite (Dev.alarm_sound hd) hd

theorem execGlitch_keeps {t : Nat} {s : State} (hd : s.dev.Sound I ck) :
Keeps I ck t s (execGlitch t s) := by
  unfold execGlitch
  refine State.run_keeps hd fun ck d hd => ?_
  exact Dev.alarm_sound hd

theorem execKatTimer_keeps {t : Nat} {pass : Bool} {s : State} (hd : s.dev.Sound I ck) :
Keeps I ck t s (execKatTimer t pass s) := by
  unfold execKatTimer
  refine State.run_keeps hd fun ck d hd => ?_
  exact .ite hd (.ite (.upd hd) (Dev.alarm_sound (.upd hd)))

theorem execDrbgReady_keeps {t : Nat} {s : State} (hd : s.dev.Sound I ck) :
Keeps I ck t s (execDrbgReady t s) := by
  unfold execDrbgReady
  refine State.run_keeps hd fun ck d hd => ?_
  exact .ite hd (Dev.commission_sound (.upd (Dev.fset_sound hd)))

theorem execDrbgHealthFailure_keeps {t : Nat} {s : State} (hd : s.dev.Sound I ck) :
Keeps I ck t s (execDrbgHealthFailure t s) := by
  unfold execDrbgHealthFailure
  refine State.run_keeps hd fun ck d hd => ?_
  exact .ite (Dev.raise_sound (.upd (Dev.finc_sound (Dev.fset_sound hd)))) (.upd (Dev.finc_sound (Dev.fset_sound hd)))

theorem execDrbgReseed_keeps {t : Nat} {s : State} (hd : s.dev.Sound I ck) :
Keeps I ck t s (execDrbgReseed t s) := by
  unfold execDrbgReseed
  refine State.run_keeps hd fun ck d hd => ?_
  exact .ite hd (.upd hd)

theorem execCipherJob_keeps {t : Nat} {cmd : Nat} {src : List Byte} {aux : List Byte} {s : State} (hd : s.dev.Sound I ck) :
Keeps I ck t s (execCipherJob t cmd src aux s) := by
  unfold execCipherJob
  refine State.run_keeps hd fun ck d hd => ?_
  extract_lets +onlyGivenNames x2
  refine .ite ?_ ?_
  · split
    · exact hd
    · refine .ite ?_ ?_
      · exact hd
      · unfold x2
        beta_reduce
        split
        · exact Dev.complete_sound (.upd hd)
        · exact Dev.runJob_sound (.upd hd)
  · refine Dev.startCmd_sound ?_ ?_
    · exact hd
    · intro d5 x6 h7
      refine .ite ?_ ?_
      · unfold x2
        beta_reduce
        split
        · exact Dev.complete_sound h7
        · exact Dev.runJob_sound h7
      · exact .upd h7

theorem execCipherJobTimeout_keeps {t : Nat} {cmd : Nat} {s : State} (hd : s.dev.Sound I ck) :
Keeps I ck t s (execCipherJobTimeout t cmd s) := by
  unfold execCipherJobTimeout
  refine State.run_keeps hd fun ck d hd => ?_
  split
  · exact .ite hd (Dev.complete_sound (.upd hd))
  · exact hd

theorem execKeyLoadBlob_keeps {t : Nat} {cmd : Nat} {b : Blob} {s : State} (hd : s.dev.Sound I ck) :
Keeps I ck t s (execKeyLoadBlob t cmd b s) := by
  unfold execKeyLoadBlob
  refine State.run_keeps hd fun ck d hd => ?_
  exact Dev.startCmd_sound hd (fun _ _ h1 => (Dev.actBlob_sound h1))

theorem execGovernorEvaluation_keeps {t : Nat} {rate : Nat} {s : State} (hd : s.dev.Sound I ck) :
Keeps I ck t s (execGovernorEvaluation t rate s) := by
  unfold execGovernorEvaluation
  refine State.run_keeps hd fun ck d hd => ?_
  exact Dev.pump_sound (Dev.count_sound (Dev.govern_sound (Dev.settleOver_sound (Dev.takeRate_sound hd))))

theorem execBudgetRiseEffect_keeps {t : Nat} {s : State} (hd : s.dev.Sound I ck) :
Keeps I ck t s (execBudgetRiseEffect t s) := by
  unfold execBudgetRiseEffect
  refine State.run_keeps hd fun ck d hd => ?_
  split
  · exact hd
  · exact Dev.settleOver_sound (.upd hd)

theorem execSaveRateCalibration_keeps {t : Nat} {mod : Nat} {rate : Nat} {s : State} (hd : s.dev.Sound I ck) :
Keeps I ck t s (execSaveRateCalibration t mod rate s) := by
  unfold execSaveRateCalibration
  refine State.run_keeps hd fun ck d hd => ?_
  exact .ite (Dev.rebudget_sound (Dev.fset_sound (Dev.fset_sound (.upd hd)))) hd

theorem execImageGroupClosed_keeps {t : Nat} {n : Nat} {place : ImgPlace} {s : State} (hd : s.dev.Sound I ck) :
Keeps I ck t s (execImageGroupClosed t n place s) := by
  unfold execImageGroupClosed
  refine State.run_keeps hd fun ck d hd => ?_
  exact .ite hd (Dev.settleOff_sound (Dev.pump_sound (Dev.settleSealNow_sound (Dev.settleOver_sound (Dev.countImages_sound (Dev.count_sound (Dev.closeGroup_sound hd)))))))

theorem execSealRecordClosed_keeps {t : Nat} {copies : SealCopies} {s : State} (hd : s.dev.Sound I ck) :
Keeps I ck t s (execSealRecordClosed t copies s) := by
  unfold execSealRecordClosed
  refine State.run_keeps hd fun ck d hd => ?_
  exact .ite (Dev.pump_sound (Dev.completeEpoch_sound (Dev.writeSeal_sound hd))) hd

theorem execWriteThroughDrained_keeps {t : Nat} {s : State} (hd : s.dev.Sound I ck) :
Keeps I ck t s (execWriteThroughDrained t s) := by
  unfold execWriteThroughDrained
  refine State.run_keeps hd fun ck d hd => ?_
  exact .ite (Dev.pump_sound (Dev.fset_sound (Dev.fset_sound (.upd hd)))) hd

theorem execLogClear_keeps {t : Nat} {cmd : Nat} {s : State} (hd : s.dev.Sound I ck) :
Keeps I ck t s (execLogClear t cmd s) := by
  unfold execLogClear
  refine State.run_keeps hd fun ck d hd => ?_
  exact Dev.startCmd_sound hd (fun _ _ h1 => (Dev.complete_sound (Dev.clearLog_sound h1)))

theorem execLogFetch_keeps {t : Nat} {cmd : Nat} {s : State} (hd : s.dev.Sound I ck) :
Keeps I ck t s (execLogFetch t cmd s) := by
  unfold execLogFetch
  refine State.run_keeps hd fun ck d hd => ?_
  refine Dev.startCmd_sound ?_ ?_
  · exact hd
  · intro d2 x3 h4
    extract_lets +onlyGivenNames x5
    extract_lets +onlyGivenNames d6
    have h6 : d6.Sound I ck := .ite h4 (Dev.send_sound h4)
    exact Dev.complete_sound h6

theorem execPendingClear_keeps {t : Nat} {group : Nat} {mask : Nat} {s : State} (hd : s.dev.Sound I ck) :
Keeps I ck t s (execPendingClear t group mask s) := by
  unfold execPendingClear
  refine State.run_keeps hd fun ck d hd => ?_
  exact Dev.clearPending_sound hd

theorem execMsixUnmask_keeps {t : Nat} {vector : Nat} {s : State} (hd : s.dev.Sound I ck) :
Keeps I ck t s (execMsixUnmask t vector s) := by
  unfold execMsixUnmask
  refine State.run_keeps hd fun ck d hd => ?_
  exact .ite (Dev.send_sound (.upd hd)) (.upd hd)

theorem execRecorderMirrorWrite_keeps {t : Nat} {s : State} (hd : s.dev.Sound I ck) :
Keeps I ck t s (execRecorderMirrorWrite t s) := by
  unfold execRecorderMirrorWrite
  refine State.run_keeps hd fun ck d hd => ?_
  exact .ite (Dev.writeMirror_sound hd) hd

theorem execEventWindowRead_keeps {t : Nat} {s : State} (hd : s.dev.Sound I ck) :
Keeps I ck t s (execEventWindowRead t s) := by
  unfold execEventWindowRead
  refine State.run_keeps hd fun ck d hd => ?_
  split
  · exact hd
  · exact .ite (Dev.fset_sound hd) hd

theorem execI3cPrivateRead_keeps {t : Nat} {s : State} (hd : s.dev.Sound I ck) :
Keeps I ck t s (execI3cPrivateRead t s) := by
  unfold execI3cPrivateRead
  refine State.run_keeps hd fun ck d hd => ?_
  split
  · exact hd
  · next m r e => exact Dev.send_sound (hd.setSbp fun o => by have h := o.ibi; rw [e] at h; exact Nat.le_of_succ_le h)

theorem execPmcSelect_keeps {t : Nat} {cmd : Nat} {s : State} (hd : s.dev.Sound I ck) :
Keeps I ck t s (execPmcSelect t cmd s) := by
  unfold execPmcSelect
  refine State.run_keeps hd fun ck d hd => ?_
  exact Dev.startCmd_sound hd (fun _ _ h1 => (Dev.complete_sound (.upd h1)))

theorem execPmcDumpConfig_keeps {t : Nat} {cmd : Nat} {s : State} (hd : s.dev.Sound I ck) :
Keeps I ck t s (execPmcDumpConfig t cmd s) := by
  unfold execPmcDumpConfig
  refine State.run_keeps hd fun ck d hd => ?_
  refine Dev.startCmd_sound ?_ ?_
  · exact hd
  · intro d2 x3 h4
    extract_lets +onlyGivenNames x5
    extract_lets +onlyGivenNames d6
    have h6 : d6.Sound I ck := Dev.fset_sound h4
    extract_lets +onlyGivenNames y7_0 d7
    have h7 : d7.Sound I ck := .ite h6 (.upd h6)
    exact Dev.complete_sound h7

theorem execPmcSamplingConfig_keeps {t : Nat} {cmd : Nat} {s : State} (hd : s.dev.Sound I ck) :
Keeps I ck t s (execPmcSamplingConfig t cmd s) := by
  unfold execPmcSamplingConfig
  refine State.run_keeps hd fun ck d hd => ?_
  exact Dev.startCmd_sound hd (fun _ _ h1 => (Dev.complete_sound (.upd h1)))

theorem execCounterDump_keeps {t : Nat} {s : State} (hd : s.dev.Sound I ck) :
Keeps I ck t s (execCounterDump t s) := by
  unfold execCounterDump
  refine State.run_keeps hd fun ck d hd => ?_
  exact .ite hd (.upd (Dev.fset_sound (Dev.send_sound (Dev.latchAll_sound hd))))

theorem execCounterRegionRefresh_keeps {t : Nat} {s : State} (hd : s.dev.Sound I ck) :
Keeps I ck t s (execCounterRegionRefresh t s) := by
  unfold execCounterRegionRefresh
  refine State.run_keeps hd fun ck d hd => ?_
  exact .ite hd (Dev.latchAll_sound hd)

theorem execBandwidthWindow_keeps {t : Nat} {s : State} (hd : s.dev.Sound I ck) :
Keeps I ck t s (execBandwidthWindow t s) := by
  unfold execBandwidthWindow
  refine State.run_keeps hd fun ck d hd => ?_
  exact .ite hd (.upd (.foldl hd fun _ _ h2 => (Dev.measurePort_sound h2)))

theorem execHoursTick_keeps {t : Nat} {s : State} (hd : s.dev.Sound I ck) :
Keeps I ck t s (execHoursTick t s) := by
  unfold execHoursTick
  refine State.run_keeps hd fun ck d hd => ?_
  exact .ite hd (.ite (Dev.lifeNow_sound (Dev.countHeat_sound (.upd (Dev.fset_sound hd)))) (.upd (Dev.fset_sound hd)))

theorem execFabLinkUp_keeps {t : Nat} {link : Nat} {s : State} (hd : s.dev.Sound I ck) :
Keeps I ck t s (execFabLinkUp t link s) := by
  unfold execFabLinkUp
  refine State.run_keeps hd fun ck d hd => ?_
  exact .ite hd (Dev.fabNow_sound (Dev.setFlink_sound (Dev.fset_sound (Dev.fset_sound hd))))

theorem execFabLinkDown_keeps {t : Nat} {link : Nat} {s : State} (hd : s.dev.Sound I ck) :
Keeps I ck t s (execFabLinkDown t link s) := by
  unfold execFabLinkDown
  refine State.run_keeps hd fun ck d hd => ?_
  exact .ite hd (Dev.ownLsa_sound (Dev.fabDown_sound hd))

theorem execFabHello_keeps {t : Nat} {h : FabHdr} {serial : BitVec 64} {id : Option Nat} {steward : Bool} {ver : Nat} {s :
    State} (hd : s.dev.Sound I ck) :
Keeps I ck t s (execFabHello t h serial id steward ver s) := by
  unfold execFabHello
  refine State.run_keeps hd fun ck d hd => ?_
  refine Dev.fabRx_sound ?_ ?_
  · exact hd
  · intro d2 h3
    refine .ite ?_ ?_
    · exact Dev.fset_sound h3
    · extract_lets +onlyGivenNames d4
      have h4 : d4.Sound I ck := Dev.fset_sound (Dev.setFlink_sound h3)
      extract_lets +onlyGivenNames d5
      have h5 : d5.Sound I ck := Dev.fset_sound h4
      extract_lets +onlyGivenNames x6
      extract_lets +onlyGivenNames y7_0 d7
      have h7 : d7.Sound I ck := .ite h5 (.upd h5)
      exact Dev.askId_sound (Dev.ownLsa_sound h7)

theorem execLsa_keeps {t : Nat} {h : FabHdr} {serial : BitVec 64} {id : Option Nat} {steward : Bool} {ver : Nat} {peers : List
    (Nat × BitVec 64)} {s : State} (hd : s.dev.Sound I ck) :
Keeps I ck t s (execLsa t h serial id steward ver peers s) := by
  unfold execLsa
  refine State.run_keeps hd fun ck d hd => ?_
  refine Dev.fabRx_sound ?_ ?_
  · exact hd
  · intro d2 h3
    extract_lets +onlyGivenNames x4
    refine .ite ?_ ?_
    · exact h3
    · extract_lets +onlyGivenNames x5
      extract_lets +onlyGivenNames y6_0 d6
      have h6 : d6.Sound I ck := .upd h3
      extract_lets +onlyGivenNames d7
      have h7 : d7.Sound I ck := Dev.settleSteward_sound (Dev.nameSteward_sound (Dev.floodLsa_sound h6))
      extract_lets +onlyGivenNames x8
      extract_lets +onlyGivenNames d9
      have h9 : d9.Sound I ck := .ite (Dev.loseId_sound h7) (Dev.askId_sound h7)
      split
      · exact Dev.enlist_sound h9
      · exact h9

theorem execLsaFloodTimer_keeps {t : Nat} {s : State} (hd : s.dev.Sound I ck) :
Keeps I ck t s (execLsaFloodTimer t s) := by
  unfold execLsaFloodTimer
  refine State.run_keeps hd fun ck d hd => ?_
  exact .ite (Dev.ownLsa_sound hd) hd

theorem execRouteRecomputeDone_keeps {t : Nat} {s : State} (hd : s.dev.Sound I ck) :
Keeps I ck t s (execRouteRecomputeDone t s) := by
  unfold execRouteRecomputeDone
  refine State.run_keeps hd fun ck d hd => ?_
  exact .ite (Dev.pump_sound (Dev.drainTransit_sound (Dev.computeRoutes_sound hd))) hd

theorem execFabKeyph_keeps {t : Nat} {h : FabHdr} {s : State} (hd : s.dev.Sound I ck) :
Keeps I ck t s (execFabKeyph t h s) := by
  unfold execFabKeyph
  refine State.run_keeps hd fun ck d hd => ?_
  exact Dev.fabRx_sound hd (fun _ h1 => h1)

theorem execFabRetx_keeps {t : Nat} {h : FabHdr} {first : Nat} {s : State} (hd : s.dev.Sound I ck) :
Keeps I ck t s (execFabRetx t h first s) := by
  unfold execFabRetx
  refine State.run_keeps hd fun ck d hd => ?_
  exact Dev.fabRx_sound hd (fun _ h1 => (Dev.fabResend_sound h1))

theorem execFabRetransmitTimer_keeps {t : Nat} {link : Nat} {s : State} (hd : s.dev.Sound I ck) :
Keeps I ck t s (execFabRetransmitTimer t link s) := by
  unfold execFabRetransmitTimer
  refine State.run_keeps hd fun ck d hd => ?_
  split
  · exact .ite (Dev.fabResend_sound hd) hd
  · exact hd

theorem execFabricRekey_keeps {t : Nat} {s : State} (hd : s.dev.Sound I ck) :
Keeps I ck t s (execFabricRekey t s) := by
  unfold execFabricRekey
  refine State.run_keeps hd fun ck d hd => ?_
  exact Dev.fabRekey_sound hd

theorem execPtpMessage_keeps {t : Nat} {h : FabHdr} {event : Bool} {body : List Byte} {s : State} (hd : s.dev.Sound I ck) :
Keeps I ck t s (execPtpMessage t h event body s) := by
  unfold execPtpMessage
  refine State.run_keeps hd fun ck d hd => ?_
  exact Dev.fabRx_sound hd (fun _ h1 => (.ite (.upd h1) (.ite (Dev.fabNow_sound h1) h1)))

theorem execSeg_keeps {t : Nat} {h : FabHdr} {mtype : Nat} {msglen : Nat} {offset : Nat} {data : List Byte} {s : State} (hd :
    s.dev.Sound I ck) :
Keeps I ck t s (execSeg t h mtype msglen offset data s) := by
  unfold execSeg
  refine State.run_keeps hd fun ck d hd => ?_
  exact Dev.fabRx_sound hd (fun _ h1 => (.ite (Dev.takeSeg_sound h1) (.ite (Dev.finc_sound h1) (Dev.forwardTransit_sound h1))))

theorem execTransitTimeout_keeps {t : Nat} {link : Nat} {s : State} (hd : s.dev.Sound I ck) :
Keeps I ck t s (execTransitTimeout t link s) := by
  unfold execTransitTimeout
  refine State.run_keeps hd fun ck d hd => ?_
  exact .ite hd (Dev.finc_sound (.upd hd))

theorem execReassemblyTimer_keeps {t : Nat} {src : Nat} {msgid : Nat} {s : State} (hd : s.dev.Sound I ck) :
Keeps I ck t s (execReassemblyTimer t src msgid s) := by
  unfold execReassemblyTimer
  refine State.run_keeps hd fun ck d hd => ?_
  split
  · exact hd
  · exact .ite hd (.ite (Dev.finc_sound (Dev.endCtx_sound hd)) (Dev.fabSend_sound (Dev.finc_sound (.upd hd))))

theorem execSegReq_keeps {t : Nat} {src : Nat} {msgid : Nat} {ranges : List (Nat × Nat)} {s : State} (hd : s.dev.Sound I ck) :
Keeps I ck t s (execSegReq t src msgid ranges s) := by
  unfold execSegReq
  refine State.run_keeps hd fun ck d hd => ?_
  split
  · exact .ite hd (.foldl hd fun _ _ h1 => (Dev.sendRange_sound h1))
  · exact hd

theorem execTombstoneExpiry_keeps {t : Nat} {src : Nat} {msgid : Nat} {s : State} (hd : s.dev.Sound I ck) :
Keeps I ck t s (execTombstoneExpiry t src msgid s) := by
  unfold execTombstoneExpiry
  refine State.run_keeps hd fun ck d hd => ?_
  exact .upd hd

theorem execMidxQuarantineEnd_keeps {t : Nat} {midx : Nat} {s : State} (hd : s.dev.Sound I ck) :
Keeps I ck t s (execMidxQuarantineEnd t midx s) := by
  unfold execMidxQuarantineEnd
  refine State.run_keeps hd fun ck d hd => ?_
  exact .ite (.upd hd) hd

theorem execMessageRetentionExpiry_keeps {t : Nat} {midx : Nat} {s : State} (hd : s.dev.Sound I ck) :
Keeps I ck t s (execMessageRetentionExpiry t midx s) := by
  unfold execMessageRetentionExpiry
  refine State.run_keeps hd fun ck d hd => ?_
  exact Dev.freeMsg_sound hd

theorem execFwdReq_keeps {t : Nat} {src : Nat} {_msgid : Nat} {f : FwdHdr} {cmp : BitVec 64} {swp : BitVec 64} {s : State} (hd :
    s.dev.Sound I ck) :
Keeps I ck t s (execFwdReq t src _msgid f cmp swp s) := by
  unfold execFwdReq
  refine State.run_keeps hd fun ck d hd => ?_
  exact .ite hd (Dev.fwdDeadlines_sound (Dev.takeFwd_sound hd))

theorem execFwdWrite_keeps {t : Nat} {src : Nat} {_msgid : Nat} {f : FwdHdr} {data : List Byte} {s : State} (hd : s.dev.Sound I
    ck) :
Keeps I ck t s (execFwdWrite t src _msgid f data s) := by
  unfold execFwdWrite
  refine State.run_keeps hd fun ck d hd => ?_
  exact .ite hd (Dev.takeFwd_sound hd)

theorem execFwdResp_keeps {t : Nat} {src : Nat} {_msgid : Nat} {r : FwdAnswer} {s : State} (hd : s.dev.Sound I ck) :
Keeps I ck t s (execFwdResp t src _msgid r s) := by
  unfold execFwdResp
  refine State.run_keeps hd fun ck d hd => ?_
  split
  · exact Dev.pump_sound (.ite (Dev.takePart_sound (Dev.freeMsg_sound hd)) (Dev.takeAtomic_sound (Dev.freeMsg_sound hd)))
  · exact Dev.finc_sound hd

theorem execForwardAtomicTimeout_keeps {t : Nat} {op : Nat} {s : State} (hd : s.dev.Sound I ck) :
Keeps I ck t s (execForwardAtomicTimeout t op s) := by
  unfold execForwardAtomicTimeout
  refine State.run_keeps hd fun ck d hd => ?_
  split
  · exact Dev.finc_sound hd
  · exact .ite (Dev.pump_sound (Dev.answer_sound hd)) hd

theorem execFwdAck_keeps {t : Nat} {src : Nat} {_msgid : Nat} {a : FwdVerdict} {s : State} (hd : s.dev.Sound I ck) :
Keeps I ck t s (execFwdAck t src _msgid a s) := by
  unfold execFwdAck
  refine State.run_keeps hd fun ck d hd => ?_
  split
  · exact hd
  · exact Dev.pump_sound (Dev.fjWindow_sound (.ite (Dev.takeVerdict_sound (Dev.freeMsg_sound hd)) (Dev.freeMsg_sound hd)))

theorem execFjResendTimer_keeps {t : Nat} {origin : Nat} {home : Nat} {jseq : Nat} {s : State} (hd : s.dev.Sound I ck) :
Keeps I ck t s (execFjResendTimer t origin home jseq s) := by
  unfold execFjResendTimer
  refine State.run_keeps hd fun ck d hd => ?_
  split
  · exact hd
  · exact .ite (Dev.fjSend_sound hd) hd

theorem execFjLimitExpiry_keeps {t : Nat} {origin : Nat} {home : Nat} {jseq : Nat} {s : State} (hd : s.dev.Sound I ck) :
Keeps I ck t s (execFjLimitExpiry t origin home jseq s) := by
  unfold execFjLimitExpiry
  refine State.run_keeps hd fun ck d hd => ?_
  split
  · exact hd
  · exact .ite (Dev.pump_sound (Dev.fjWindow_sound (Dev.fjFail_sound hd))) hd

theorem execHorizon_keeps {t : Nat} {src : Nat} {epoch : Nat} {s : State} (hd : s.dev.Sound I ck) :
Keeps I ck t s (execHorizon t src epoch s) := by
  unfold execHorizon
  refine State.run_keeps hd fun ck d hd => ?_
  exact .ite hd (Dev.raiseHorizon_sound (Dev.judgeHorizon_sound (.upd hd)))

theorem execMember_keeps {t : Nat} {id : Nat} {add : Bool} {s : State} (hd : s.dev.Sound I ck) :
Keeps I ck t s (execMember t id add s) := by
  unfold execMember
  refine State.run_keeps hd fun ck d hd => ?_
  exact .ite hd (.ite (Dev.removeMember_sound hd) (.ite (Dev.enlist_sound hd) (.upd hd)))

theorem execExpel_keeps {t : Nat} {id : Nat} {s : State} (hd : s.dev.Sound I ck) :
Keeps I ck t s (execExpel t id s) := by
  unfold execExpel
  refine State.run_keeps hd fun ck d hd => ?_
  exact Dev.expel_sound hd

theorem execIdAsk_keeps {t : Nat} {serial : BitVec 64} {last : Nat} {s : State} (hd : s.dev.Sound I ck) :
Keeps I ck t s (execIdAsk t serial last s) := by
  unfold execIdAsk
  refine State.run_keeps hd fun ck d hd => ?_
  refine .ite ?_ ?_
  · exact hd
  · split
    · exact hd
    · exact Dev.send_sound (.upd hd)

theorem execIdGrant_keeps {t : Nat} {id : Nat} {s : State} (hd : s.dev.Sound I ck) :
Keeps I ck t s (execIdGrant t id s) := by
  unfold execIdGrant
  refine State.run_keeps hd fun ck d hd => ?_
  exact .ite hd (Dev.takeGrant_sound hd)

theorem execSpanTxn_keeps {t : Nat} {src : Nat} {m : RegionMsg} {s : State} (hd : s.dev.Sound I ck) :
Keeps I ck t s (execSpanTxn t src m s) := by
  unfold execSpanTxn
  refine State.run_keeps hd fun ck d hd => ?_
  refine .ite ?_ ?_
  · exact hd
  · refine .ite ?_ ?_
    · exact Dev.startSpan_sound hd
    · extract_lets +onlyGivenNames x1
      extract_lets +onlyGivenNames y2_0 y2_1 d2
      have h2 : d2.Sound I ck := .ite (.upd (Dev.holdChange_sound hd)) hd
      exact Dev.fabSend_sound h2

theorem execSpanVote_keeps {t : Nat} {src : Nat} {region : Nat} {ok : Bool} {s : State} (hd : s.dev.Sound I ck) :
Keeps I ck t s (execSpanVote t src region ok s) := by
  unfold execSpanVote
  refine State.run_keeps hd fun ck d hd => ?_
  split
  · exact .ite (Dev.pump_sound (Dev.endSpan_sound hd)) (.upd hd)
  · extract_lets +onlyGivenNames x1
    extract_lets +onlyGivenNames x2
    split
    · exact Dev.pump_sound (Dev.settleSpan_sound hd)
    · exact hd

theorem execFwStage_keeps {t : Nat} {cmd : Nat} {i : Image} {s : State} (hd : s.dev.Sound I ck) :
Keeps I ck t s (execFwStage t cmd i s) := by
  unfold execFwStage
  refine State.run_keeps hd fun ck d hd => ?_
  exact Dev.startCmd_sound hd (fun _ _ h1 => (.ite (Dev.complete_sound h1) (.ite (Dev.complete_sound h1) (.ite (Dev.complete_sound (Dev.stageChunk_sound h1)) (Dev.complete_sound (Dev.stageChunk_sound h1))))))

theorem execFwActivate_keeps {t : Nat} {cmd : Nat} {s : State} (hd : s.dev.Sound I ck) :
Keeps I ck t s (execFwActivate t cmd s) := by
  unfold execFwActivate
  refine State.run_keeps hd fun ck d hd => ?_
  exact Dev.startCmd_sound hd (fun _ _ h1 => (Dev.actActivate_sound h1))

theorem execActivationBarrierTimeout_keeps {t : Nat} {s : State} (hd : s.dev.Sound I ck) :
Keeps I ck t s (execActivationBarrierTimeout t s) := by
  unfold execActivationBarrierTimeout
  refine State.run_keeps hd fun ck d hd => ?_
  split
  · exact hd
  · exact .ite hd (.upd (Dev.complete_sound hd))

theorem execLanternRotationStep_keeps {t : Nat} {reads : Bool} {s : State} (hd : s.dev.Sound I ck) :
Keeps I ck t s (execLanternRotationStep t reads s) := by
  unfold execLanternRotationStep
  refine State.run_keeps hd fun ck d hd => ?_
  exact .ite (Dev.rotate_sound hd) hd

theorem execFwConfirm_keeps {t : Nat} {cmd : Nat} {s : State} (hd : s.dev.Sound I ck) :
Keeps I ck t s (execFwConfirm t cmd s) := by
  unfold execFwConfirm
  refine State.run_keeps hd fun ck d hd => ?_
  exact Dev.startCmd_sound hd (fun _ _ h1 => (Dev.actConfirm_sound h1))

theorem execConfirmWindowExpiry_keeps {t : Nat} {s : State} (hd : s.dev.Sound I ck) :
Keeps I ck t s (execConfirmWindowExpiry t s) := by
  unfold execConfirmWindowExpiry
  refine State.run_keeps hd fun ck d hd => ?_
  exact .ite (Dev.startRollback_sound hd) hd

theorem execRollback_keeps {t : Nat} {s : State} (hd : s.dev.Sound I ck) :
Keeps I ck t s (execRollback t s) := by
  unfold execRollback
  refine State.run_keeps hd fun ck d hd => ?_
  exact Dev.writeRollback_sound hd

theorem execProgramComplete_keeps {t : Nat} {ch : Nat} {die : Nat} {fail : Bool} {native : Bool} {s : State} (hd : s.dev.Sound I
    ck) :
Keeps I ck t s (execProgramComplete t ch die fail native s) := by
  unfold execProgramComplete
  refine State.run_keeps hd fun ck d hd => ?_
  extract_lets +onlyGivenNames x1
  extract_lets +onlyGivenNames x2
  refine .ite ?_ ?_
  · exact hd
  · refine .ite ?_ ?_
    · exact Dev.pump_sound (Dev.pumpDies_sound (Dev.programPassed_sound hd))
    · extract_lets +onlyGivenNames d3
      have h3 : d3.Sound I ck := Dev.failedProgram_sound hd
      extract_lets +onlyGivenNames x4
      extract_lets +onlyGivenNames d5
      have h5 : d5.Sound I ck := Dev.setDie_sound h3
      extract_lets +onlyGivenNames x6
      extract_lets +onlyGivenNames d7
      have h7 : d7.Sound I ck := .ite (Dev.setMig_sound h5) h5
      exact Dev.pump_sound (Dev.pumpDies_sound h7)

theorem execEraseComplete_keeps {t : Nat} {ch : Nat} {die : Nat} {s : State} (hd : s.dev.Sound I ck) :
Keeps I ck t s (execEraseComplete t ch die s) := by
  unfold execEraseComplete
  refine State.run_keeps hd fun ck d hd => ?_
  exact .ite hd (Dev.pump_sound (Dev.pumpDies_sound (Dev.setDie_sound (Dev.count_sound hd))))

theorem execFlashReadComplete_keeps {t : Nat} {op : Nat} {r : ReadResult} {s : State} (hd : s.dev.Sound I ck) :
Keeps I ck t s (execFlashReadComplete t op r s) := by
  unfold execFlashReadComplete
  refine State.run_keeps hd fun ck d hd => ?_
  split
  · exact Dev.finc_sound hd
  · refine .ite ?_ ?_
    · exact hd
    · split
      · exact Dev.pump_sound (Dev.answer_sound hd)
      · extract_lets +onlyGivenNames x1
        extract_lets +onlyGivenNames x2
        extract_lets +onlyGivenNames x3
        split
        · exact Dev.pump_sound (Dev.setOp_sound hd)
        · exact .ite hd (.ite (Dev.pump_sound (Dev.pumpDies_sound (Dev.failRead_sound (Dev.wantRefresh_sound (Dev.countRead_sound (Dev.dropRead_sound hd)))))) (.ite (Dev.pumpDies_sound (Dev.setOp_sound (Dev.wantRefresh_sound (Dev.countRead_sound (Dev.dropRead_sound hd))))) (Dev.pump_sound (Dev.pumpDies_sound (Dev.setOp_sound (Dev.wantRefresh_sound (Dev.countRead_sound (Dev.dropRead_sound hd))))))))

theorem execPadTimer_keeps {t : Nat} {ch : Nat} {die : Nat} {s : State} (hd : s.dev.Sound I ck) :
Keeps I ck t s (execPadTimer t ch die s) := by
  unfold execPadTimer
  refine State.run_keeps hd fun ck d hd => ?_
  exact .ite (Dev.count_sound (Dev.setDie_sound hd)) hd

theorem execDieUnresponsive_keeps {t : Nat} {ch : Nat} {die : Nat} {s : State} (hd : s.dev.Sound I ck) :
Keeps I ck t s (execDieUnresponsive t ch die s) := by
  unfold execDieUnresponsive
  refine State.run_keeps hd fun ck d hd => ?_
  exact .ite hd (Dev.pump_sound (Dev.pumpDies_sound (.foldl (Dev.setDie_sound (Dev.dropDie_sound (.foldl (.foldl (Dev.failDieReads_sound hd) fun _ _ h9 => (Dev.poison_sound h9)) fun _ _ h10 => (Dev.cancelMig_sound h10)))) fun _ _ h11 => (Dev.evacuate_sound h11))))

theorem execModuleInitDone_keeps {t : Nat} {mod : Nat} {r : ModuleResult} {s : State} (hd : s.dev.Sound I ck) :
Keeps I ck t s (execModuleInitDone t mod r s) := by
  unfold execModuleInitDone
  refine State.run_keeps hd fun ck d hd => ?_
  exact .ite hd (.ite (Dev.toMod_sound hd) (.ite (Dev.toMod_sound (.foldl hd fun _ _ h1 => (Dev.fset_sound h1))) (Dev.pumpDies_sound (Dev.toMod_sound (Dev.layModule_sound (Dev.countDies_sound (Dev.noteModule_sound hd)))))))

theorem execModuleTempPoll_keeps {t : Nat} {mod : Nat} {temp : Option Int} {s : State} (hd : s.dev.Sound I ck) :
Keeps I ck t s (execModuleTempPoll t mod temp s) := by
  unfold execModuleTempPoll
  refine State.run_keeps hd fun ck d hd => ?_
  extract_lets +onlyGivenNames x1
  refine .ite ?_ ?_
  · exact hd
  · split
    · exact hd
    · exact Dev.pump_sound (Dev.toWindow_sound (Dev.fset_sound hd))

theorem execModuleEvacuationDone_keeps {t : Nat} {mod : Nat} {s : State} (hd : s.dev.Sound I ck) :
Keeps I ck t s (execModuleEvacuationDone t mod s) := by
  unfold execModuleEvacuationDone
  refine State.run_keeps hd fun ck d hd => ?_
  exact .ite (Dev.toMod_sound (.upd hd)) hd

theorem execRdmaReadRequest_keeps {t : Nat} {q : Req} {ce : Option LineErr} {s : State} (hd : s.dev.Sound I ck) :
Keeps I ck t s (execRdmaReadRequest t q ce s) := by
  unfold execRdmaReadRequest
  refine State.run_keeps hd fun ck d hd => ?_
  extract_lets +onlyGivenNames d1
  have h1 : d1.Sound I ck := by
    unfold d1
    split
    · exact Dev.corrected_sound hd
    · exact hd
  exact Dev.request_sound h1

theorem execChannelTrainingDone_keeps {t : Nat} {ch : Nat} {r : TrainResult} {s : State} (hd : s.dev.Sound I ck) :
Keeps I ck t s (execChannelTrainingDone t ch r s) := by
  unfold execChannelTrainingDone
  refine State.run_keeps hd fun ck d hd => ?_
  exact .ite hd (.ite (Dev.toChanEvent_sound (Dev.fset_sound hd)) (.ite (Dev.toChanEvent_sound (Dev.fset_sound (Dev.noteTraining_sound hd))) (Dev.pump_sound (.ite (.upd (Dev.returnPlots_sound (Dev.toChanEvent_sound (Dev.fset_sound (Dev.loadRemap_sound (Dev.noteTraining_sound hd)))))) (Dev.returnPlots_sound (Dev.toChanEvent_sound (Dev.fset_sound (Dev.loadRemap_sound (Dev.noteTraining_sound hd)))))))))

theorem execZqCalibrationTimer_keeps {t : Nat} {ch : Nat} {s : State} (hd : s.dev.Sound I ck) :
Keeps I ck t s (execZqCalibrationTimer t ch s) := by
  unfold execZqCalibrationTimer
  refine State.run_keeps hd fun ck d hd => ?_
  exact .ite (Dev.setChan_sound hd) hd

theorem execDqsTrackingTimer_keeps {t : Nat} {ch : Nat} {s : State} (hd : s.dev.Sound I ck) :
Keeps I ck t s (execDqsTrackingTimer t ch s) := by
  unfold execDqsTrackingTimer
  refine State.run_keeps hd fun ck d hd => ?_
  exact .ite (Dev.setChan_sound hd) hd

theorem execDimmTempPoll_keeps {t : Nat} {ch : Nat} {temp : Nat} {s : State} (hd : s.dev.Sound I ck) :
Keeps I ck t s (execDimmTempPoll t ch temp s) := by
  unfold execDimmTempPoll
  refine State.run_keeps hd fun ck d hd => ?_
  exact .ite hd (Dev.setChan_sound (Dev.fset_sound hd))

theorem execRefreshDue_keeps {t : Nat} {ch : Nat} {s : State} (hd : s.dev.Sound I ck) :
Keeps I ck t s (execRefreshDue t ch s) := by
  unfold execRefreshDue
  refine State.run_keeps hd fun ck d hd => ?_
  exact .ite (Dev.setChan_sound (Dev.count_sound hd)) hd

theorem execRfmCount_keeps {t : Nat} {ch : Nat} {_bank : Nat} {s : State} (hd : s.dev.Sound I ck) :
Keeps I ck t s (execRfmCount t ch _bank s) := by
  unfold execRfmCount
  refine State.run_keeps hd fun ck d hd => ?_
  exact .ite (Dev.setChan_sound hd) hd

theorem execChannelFreeze_keeps {t : Nat} {e : LineErr} {scrub : Bool} {home : Option Nat} {s : State} (hd : s.dev.Sound I ck) :
Keeps I ck t s (execChannelFreeze t e scrub home s) := by
  unfold execChannelFreeze
  refine State.run_keeps hd fun ck d hd => ?_
  refine .ite ?_ ?_
  · exact Dev.freeze_sound (Dev.setChan_sound (Dev.captureUe_sound hd))
  · refine .ite ?_ ?_
    · split
      · exact Dev.pump_sound (Dev.rebuildLine_sound hd)
      · split
        · exact Dev.pump_sound (Dev.poison_sound hd)
        · exact hd
    · exact hd

theorem execFreeze_keeps {t : Nat} {ch : Nat} {s : State} (hd : s.dev.Sound I ck) :
Keeps I ck t s (execFreeze t ch s) := by
  unfold execFreeze
  refine State.run_keeps hd fun ck d hd => ?_
  exact Dev.writeFreeze_sound hd

end Sys2Proof.Machine
end

