-- ==== Sys2Proof/Laws/Keeps2.lean ====
section
/-! SUPPORT. What every command keeps, continued. -/

set_option Elab.async false

namespace Sys2Proof.Machine

variable {I : Prop} {ck : Nat}

theorem execThaw_keeps {t : Nat} {ch : Nat} {s : State} (hd : s.dev.Sound I ck) :
Keeps I ck t s (execThaw t ch s) := by
  unfold execThaw
  refine State.run_keeps hd fun ck d hd => ?_
  exact Dev.writeThaw_sound hd

theorem execThawComplete_keeps {t : Nat} {ch : Nat} {pass : Bool} {s : State} (hd : s.dev.Sound I ck) :
Keeps I ck t s (execThawComplete t ch pass s) := by
  unfold execThawComplete
  refine State.run_keeps hd fun ck d hd => ?_
  refine .ite ?_ ?_
  · exact hd
  · extract_lets +onlyGivenNames d1
    have h1 : d1.Sound I ck := .ite hd (Dev.thawLost_sound hd)
    exact Dev.endFreeze_sound (Dev.raise_sound (Dev.fset_sound (Dev.toChan_sound h1)))

theorem execCeClear_keeps {t : Nat} {ch : Nat} {s : State} (hd : s.dev.Sound I ck) :
Keeps I ck t s (execCeClear t ch s) := by
  unfold execCeClear
  refine State.run_keeps hd fun ck d hd => ?_
  exact Dev.writeCeClear_sound hd

theorem execCeLogEntryClear_keeps {t : Nat} {ch : Nat} {k : Nat} {s : State} (hd : s.dev.Sound I ck) :
Keeps I ck t s (execCeLogEntryClear t ch k s) := by
  unfold execCeLogEntryClear
  refine State.run_keeps hd fun ck d hd => ?_
  exact Dev.writeCeLog_sound hd

theorem execPatternGo_keeps {t : Nat} {ch : Nat} {s : State} (hd : s.dev.Sound I ck) :
Keeps I ck t s (execPatternGo t ch s) := by
  unfold execPatternGo
  refine State.run_keeps hd fun ck d hd => ?_
  exact .ite (Dev.fset_sound hd) (Dev.illegal_sound hd)

theorem execPatternDone_keeps {t : Nat} {ch : Nat} {lines : Nat} {dq : Nat} {s : State} (hd : s.dev.Sound I ck) :
Keeps I ck t s (execPatternDone t ch lines dq s) := by
  unfold execPatternDone
  refine State.run_keeps hd fun ck d hd => ?_
  exact .ite hd (.ite (Dev.fset_sound hd) (Dev.fset_sound (Dev.fset_sound (Dev.fset_sound hd))))

theorem execCheckerGo_keeps {t : Nat} {ch : Nat} {verdict : Nat} {devmask : Nat} {s : State} (hd : s.dev.Sound I ck) :
Keeps I ck t s (execCheckerGo t ch verdict devmask s) := by
  unfold execCheckerGo
  refine State.run_keeps hd fun ck d hd => ?_
  exact Dev.checkerGo_sound hd

theorem execChannelEvacuationDone_keeps {t : Nat} {ch : Nat} {s : State} (hd : s.dev.Sound I ck) :
Keeps I ck t s (execChannelEvacuationDone t ch s) := by
  unfold execChannelEvacuationDone
  refine State.run_keeps hd fun ck d hd => ?_
  exact .ite (.upd hd) hd

theorem execStripeRelayDone_keeps {t : Nat} {s : State} (hd : s.dev.Sound I ck) :
Keeps I ck t s (execStripeRelayDone t s) := by
  unfold execStripeRelayDone
  refine State.run_keeps hd fun ck d hd => ?_
  split
  · exact hd
  · exact .ite (Dev.toChanEvent_sound (.upd hd)) (.upd hd)

theorem execBoardOn_keeps {t : Nat} {s : State} (hd : s.dev.Sound I ck) :
Keeps I ck t s (execBoardOn t s) := by
  unfold execBoardOn
  refine State.run_keeps hd fun ck d hd => ?_
  exact Dev.ctlPower_sound hd

theorem execBoardOff_keeps {t : Nat} {s : State} (hd : s.dev.Sound I ck) :
Keeps I ck t s (execBoardOff t s) := by
  unfold execBoardOff
  refine State.run_keeps hd fun ck d hd => ?_
  exact Dev.ctlPower_sound hd

theorem execEnterBanked_keeps {t : Nat} {s : State} (hd : s.dev.Sound I ck) :
Keeps I ck t s (execEnterBanked t s) := by
  unfold execEnterBanked
  refine State.run_keeps hd fun ck d hd => ?_
  exact Dev.ctlPower_sound hd

theorem execLeaveBanked_keeps {t : Nat} {s : State} (hd : s.dev.Sound I ck) :
Keeps I ck t s (execLeaveBanked t s) := by
  unfold execLeaveBanked
  refine State.run_keeps hd fun ck d hd => ?_
  exact Dev.ctlPower_sound hd

theorem execBayOn_keeps {t : Nat} {bay : Nat} {s : State} (hd : s.dev.Sound I ck) :
Keeps I ck t s (execBayOn t bay s) := by
  unfold execBayOn
  refine State.run_keeps hd fun ck d hd => ?_
  exact Dev.ctlPower_sound hd

theorem execBayOff_keeps {t : Nat} {bay : Nat} {s : State} (hd : s.dev.Sound I ck) :
Keeps I ck t s (execBayOff t bay s) := by
  unfold execBayOff
  refine State.run_keeps hd fun ck d hd => ?_
  exact Dev.ctlPower_sound hd

theorem execSequenceSlot_keeps {t : Nat} {agree : Bool} {s : State} (hd : s.dev.Sound I ck) :
Keeps I ck t s (execSequenceSlot t agree s) := by
  unfold execSequenceSlot
  refine State.run_keeps hd fun ck d hd => ?_
  exact Dev.slotEdge_sound hd

theorem execSeqAlert_keeps {t : Nat} {slave : Nat} {page : Nat} {status : Nat} {s : State} (hd : s.dev.Sound I ck) :
Keeps I ck t s (execSeqAlert t slave page status s) := by
  unfold execSeqAlert
  refine State.run_keeps hd fun ck d hd => ?_
  exact .ite (Dev.send_sound (Dev.send_sound hd)) (.foldl (Dev.send_sound (Dev.send_sound (Dev.send_sound hd))) fun _ _ h1 => (Dev.railFault_sound h1))

theorem execHousekeepingRound_keeps {t : Nat} {codes : List Nat} {temps : List Int} {s : State} (hd : s.dev.Sound I ck) :
Keeps I ck t s (execHousekeepingRound t codes temps s) := by
  unfold execHousekeepingRound
  refine State.run_keeps hd fun ck d hd => ?_
  exact .ite (Dev.hkAbsent_sound hd) (Dev.hkRound_sound hd)

theorem execPaceTimer_keeps {t : Nat} {s : State} (hd : s.dev.Sound I ck) :
Keeps I ck t s (execPaceTimer t s) := by
  unfold execPaceTimer
  refine State.run_keeps hd fun ck d hd => ?_
  exact .ite hd (.foldl hd fun _ _ h1 => (.foldl h1 fun _ _ h2 => (Dev.count_sound (Dev.send_sound h2))))

theorem execDimTimer_keeps {t : Nat} {unit : Nat} {s : State} (hd : s.dev.Sound I ck) :
Keeps I ck t s (execDimTimer t unit s) := by
  unfold execDimTimer
  refine State.run_keeps hd fun ck d hd => ?_
  refine .ite ?_ ?_
  · exact hd
  · split
    · exact Dev.setFbit_sound hd
    · exact hd

theorem execShadeTimer_keeps {t : Nat} {unit : Nat} {s : State} (hd : s.dev.Sound I ck) :
Keeps I ck t s (execShadeTimer t unit s) := by
  unfold execShadeTimer
  refine State.run_keeps hd fun ck d hd => ?_
  exact .ite hd (.upd hd)

theorem execPowerDownComplete_keeps {t : Nat} {unit : Nat} {s : State} (hd : s.dev.Sound I ck) :
Keeps I ck t s (execPowerDownComplete t unit s) := by
  unfold execPowerDownComplete
  refine State.run_keeps hd fun ck d hd => ?_
  refine .ite ?_ ?_
  · exact hd
  · extract_lets +onlyGivenNames y1_0 d1
    have h1 : d1.Sound I ck := .upd hd
    extract_lets +onlyGivenNames d2
    have h2 : d2.Sound I ck := by
      unfold d2
      split
      · exact Dev.setFbit_sound h1
      · exact h1
    exact Dev.selfRefresh_sound (.ite (Dev.clearLantern_sound (Dev.setFbit_sound h2)) (Dev.setFbit_sound h2))

theorem execWakeComplete_keeps {t : Nat} {unit : Nat} {s : State} (hd : s.dev.Sound I ck) :
Keeps I ck t s (execWakeComplete t unit s) := by
  unfold execWakeComplete
  refine State.run_keeps hd fun ck d hd => ?_
  refine .ite ?_ ?_
  · exact hd
  · extract_lets +onlyGivenNames y1_0 d1
    have h1 : d1.Sound I ck := .upd hd
    extract_lets +onlyGivenNames d2
    have h2 : d2.Sound I ck := by
      unfold d2
      split
      · exact Dev.setFbit_sound h1
      · exact h1
    exact .ite (Dev.pump_sound (Dev.serveReqs_sound (Dev.pumpDies_sound (Dev.selfRefresh_sound (Dev.setFbit_sound h2))))) (Dev.selfRefresh_sound (Dev.setFbit_sound h2))

theorem execBankTimer_keeps {t : Nat} {s : State} (hd : s.dev.Sound I ck) :
Keeps I ck t s (execBankTimer t s) := by
  unfold execBankTimer
  refine State.run_keeps hd fun ck d hd => ?_
  exact .ite hd (Dev.enterBank_sound hd)

theorem execBankedImageDrained_keeps {t : Nat} {s : State} (hd : s.dev.Sound I ck) :
Keeps I ck t s (execBankedImageDrained t s) := by
  unfold execBankedImageDrained
  refine State.run_keeps hd fun ck d hd => ?_
  exact .ite (Dev.bankGoesOn_sound hd) (Dev.bankDown_sound (.foldl (Dev.bankGoesOn_sound hd) fun _ _ h1 => (Dev.sendDreq_sound h1)))

theorem execBankedExitComplete_keeps {t : Nat} {s : State} (hd : s.dev.Sound I ck) :
Keeps I ck t s (execBankedExitComplete t s) := by
  unfold execBankedExitComplete
  refine State.run_keeps hd fun ck d hd => ?_
  exact .ite hd (.foldl (Dev.setDevice_sound (Dev.setStatus_sound (Dev.rebudget_sound (Dev.linksNow_sound (Dev.standingPlan_sound (Dev.keylessOffline_sound (Dev.unwrapAll_sound (Dev.loadRecorder_sound (.upd (Dev.fset_sound (Dev.bankedRegs_sound hd))))))))))) fun _ _ h1 => (Dev.answerPwr_sound h1))

theorem execAvsSetpointReached_keeps {t : Nat} {mv : Nat} {s : State} (hd : s.dev.Sound I ck) :
Keeps I ck t s (execAvsSetpointReached t mv s) := by
  unfold execAvsSetpointReached
  refine State.run_keeps hd fun ck d hd => ?_
  exact .upd (Dev.fset_sound hd)

theorem execLastGasp_keeps {t : Nat} {cause : Nat} {s : State} (hd : s.dev.Sound I ck) :
Keeps I ck t s (execLastGasp t cause s) := by
  unfold execLastGasp
  refine State.run_keeps hd fun ck d hd => ?_
  exact .upd hd

theorem execAttentionButtonPress_keeps {t : Nat} {bay : Nat} {s : State} (hd : s.dev.Sound I ck) :
Keeps I ck t s (execAttentionButtonPress t bay s) := by
  unfold execAttentionButtonPress
  refine State.run_keeps hd fun ck d hd => ?_
  exact .ite hd (.ite (Dev.powerReq_sound (.upd hd)) (Dev.raise_sound (.upd hd)))

theorem execButtonStuck_keeps {t : Nat} {bay : Nat} {s : State} (hd : s.dev.Sound I ck) :
Keeps I ck t s (execButtonStuck t bay s) := by
  unfold execButtonStuck
  refine State.run_keeps hd fun ck d hd => ?_
  split
  · exact hd
  · exact .ite hd (Dev.raise_sound (.upd hd))

theorem execButtonReleased_keeps {t : Nat} {bay : Nat} {s : State} (hd : s.dev.Sound I ck) :
Keeps I ck t s (execButtonReleased t bay s) := by
  unfold execButtonReleased
  refine State.run_keeps hd fun ck d hd => ?_
  exact .ite hd (.ite (Dev.raise_sound (.upd hd)) (.upd hd))

theorem execHeatHalvingSweep_keeps {t : Nat} {s : State} (hd : s.dev.Sound I ck) :
Keeps I ck t s (execHeatHalvingSweep t s) := by
  unfold execHeatHalvingSweep
  refine State.run_keeps hd fun ck d hd => ?_
  exact .ite hd (.ite (.upd (.upd hd)) (Dev.sweep_sound (.upd hd)))

theorem execHalvingSweepDone_keeps {t : Nat} {s : State} (hd : s.dev.Sound I ck) :
Keeps I ck t s (execHalvingSweepDone t s) := by
  unfold execHalvingSweepDone
  refine State.run_keeps hd fun ck d hd => ?_
  exact .ite hd (.ite (Dev.sweep_sound (Dev.raise_sound (.upd hd))) (.upd hd))

theorem execFreePlotRefill_keeps {t : Nat} {lantern : Nat} {s : State} (hd : s.dev.Sound I ck) :
Keeps I ck t s (execFreePlotRefill t lantern s) := by
  unfold execFreePlotRefill
  refine State.run_keeps hd fun ck d hd => ?_
  exact .ite (Dev.pump_sound (Dev.refill_sound hd)) hd

theorem execTableWalkComplete_keeps {t : Nat} {lantern : Nat} {idx : Nat} {s : State} (hd : s.dev.Sound I ck) :
Keeps I ck t s (execTableWalkComplete t lantern idx s) := by
  unfold execTableWalkComplete
  refine State.run_keeps hd fun ck d hd => ?_
  split
  · exact hd
  · exact .ite (.upd hd) (.ite (.upd hd) (Dev.wickFill_sound (.upd hd)))

theorem execWickRangeInvalidate_keeps {t : Nat} {first : Nat} {count : Nat} {lmask : Nat} {s : State} (hd : s.dev.Sound I ck) :
Keeps I ck t s (execWickRangeInvalidate t first count lmask s) := by
  unfold execWickRangeInvalidate
  refine State.run_keeps hd fun ck d hd => ?_
  exact Dev.wickRange_sound hd

theorem execWickInvalidationDone_keeps {t : Nat} {s : State} (hd : s.dev.Sound I ck) :
Keeps I ck t s (execWickInvalidationDone t s) := by
  unfold execWickInvalidationDone
  refine State.run_keeps hd fun ck d hd => ?_
  exact Dev.fset_sound hd

theorem execMigrationStart_keeps {t : Nat} {idx : Nat} {kind : MigKind} {s : State} (hd : s.dev.Sound I ck) :
Keeps I ck t s (execMigrationStart t idx kind s) := by
  unfold execMigrationStart
  refine State.run_keeps hd fun ck d hd => ?_
  exact .ite hd (Dev.issueMig_sound (.foldl hd fun _ _ h1 => (Dev.issueMig_sound h1)))

theorem execMigrationCopyDone_keeps {t : Nat} {idx : Nat} {uncorr : Bool} {s : State} (hd : s.dev.Sound I ck) :
Keeps I ck t s (execMigrationCopyDone t idx uncorr s) := by
  unfold execMigrationCopyDone
  refine State.run_keeps hd fun ck d hd => ?_
  split
  · exact hd
  · exact .ite hd (.ite (Dev.copyFailed_sound hd) (Dev.copied_sound hd))

theorem execMigrationDestinationDurable_keeps {t : Nat} {idx : Nat} {s : State} (hd : s.dev.Sound I ck) :
Keeps I ck t s (execMigrationDestinationDurable t idx s) := by
  unfold execMigrationDestinationDurable
  refine State.run_keeps hd fun ck d hd => ?_
  split
  · exact hd
  · exact .ite hd (.ite hd (.ite (Dev.pumpDies_sound (Dev.setMig_sound (Dev.copyPlot_sound hd))) (.ite hd (Dev.quiesce_sound hd))))

theorem execQuiesceReady_keeps {t : Nat} {idx : Nat} {s : State} (hd : s.dev.Sound I ck) :
Keeps I ck t s (execQuiesceReady t idx s) := by
  unfold execQuiesceReady
  refine State.run_keeps hd fun ck d hd => ?_
  split
  · exact hd
  · exact .ite hd (.ite (Dev.pump_sound (Dev.refuseMig_sound hd)) (Dev.pump_sound (Dev.commitMig_sound hd)))

theorem execQuiesceTimeout_keeps {t : Nat} {idx : Nat} {s : State} (hd : s.dev.Sound I ck) :
Keeps I ck t s (execQuiesceTimeout t idx s) := by
  unfold execQuiesceTimeout
  refine State.run_keeps hd fun ck d hd => ?_
  exact .ite (Dev.pump_sound (Dev.refuseMig_sound hd)) hd

theorem execPinQuietExpiry_keeps {t : Nat} {idx : Nat} {s : State} (hd : s.dev.Sound I ck) :
Keeps I ck t s (execPinQuietExpiry t idx s) := by
  unfold execPinQuietExpiry
  refine State.run_keeps hd fun ck d hd => ?_
  split
  · exact hd
  · exact .ite (Dev.startMig_sound hd) hd

theorem execWinAbandonExpiry_keeps {t : Nat} {mod : Nat} {s : State} (hd : s.dev.Sound I ck) :
Keeps I ck t s (execWinAbandonExpiry t mod s) := by
  unfold execWinAbandonExpiry
  refine State.run_keeps hd fun ck d hd => ?_
  exact .foldl hd fun _ _ h1 => (Dev.cancelMig_sound h1)

theorem execDestinationRetryTimer_keeps {t : Nat} {s : State} (hd : s.dev.Sound I ck) :
Keeps I ck t s (execDestinationRetryTimer t s) := by
  unfold execDestinationRetryTimer
  refine State.run_keeps hd fun ck d hd => ?_
  exact .ite hd (.upd (.foldl hd fun _ _ h2 => (Dev.issueMig_sound h2)))

theorem execLampWatchdogExpiry_keeps {t : Nat} {s : State} (hd : s.dev.Sound I ck) :
Keeps I ck t s (execLampWatchdogExpiry t s) := by
  unfold execLampWatchdogExpiry
  refine State.run_keeps hd fun ck d hd => ?_
  exact Dev.setStatus_sound hd

theorem execLinkPathSilent_keeps {t : Nat} {s : State} (hd : s.dev.Sound I ck) :
Keeps I ck t s (execLinkPathSilent t s) := by
  unfold execLinkPathSilent
  refine State.run_keeps hd fun ck d hd => ?_
  exact .ite hd (Dev.judgeFaults_sound (.upd (Dev.fset_sound hd)))

theorem execLampPathSilent_keeps {rx : LampRx} {s : State} (hd : s.dev.Sound I ck) :
Keeps I ck rx.t s (execLampPathSilent rx s) := by
  unfold execLampPathSilent
  refine State.run_keeps hd fun ck d hd => ?_
  exact .ite hd (.ite (Dev.raise_sound (.upd (Dev.fset_sound hd))) (Dev.judgeFaults_sound (.upd (Dev.fset_sound hd))))

theorem execLampPathHealthy_keeps {rx : LampRx} {s : State} (hd : s.dev.Sound I ck) :
Keeps I ck rx.t s (execLampPathHealthy rx s) := by
  unfold execLampPathHealthy
  refine State.run_keeps hd fun ck d hd => ?_
  exact .ite hd (.upd (Dev.fset_sound hd))

theorem execPeerFaultSeen_keeps {t : Nat} {lamp : Option (List (Nat × Nat))} {status : PathStatus} {s : State} (hd :
    s.dev.Sound I ck) :
Keeps I ck t s (execPeerFaultSeen t lamp status s) := by
  unfold execPeerFaultSeen
  refine State.run_keeps hd fun ck d hd => ?_
  refine .ite ?_ ?_
  · exact hd
  · split
    · exact .ite hd (.ite (Dev.raise_sound (Dev.lampFault_sound hd)) (Dev.judgeFaults_sound (Dev.lampFault_sound hd)))
    · exact .ite hd (.ite (Dev.raise_sound (Dev.fset_sound hd)) (Dev.judgeFaults_sound (Dev.fset_sound hd)))

theorem execDetectExpiry_keeps {t : Nat} {s : State} (hd : s.dev.Sound I ck) :
Keeps I ck t s (execDetectExpiry t s) := by
  unfold execDetectExpiry
  refine State.run_keeps hd fun ck d hd => ?_
  exact .ite (Dev.judgeFaults_sound hd) (.ite (Dev.isolate_sound hd) (.ite (Dev.declare_sound hd) (Dev.judgeFaults_sound hd)))

theorem execDeclare_keeps {t : Nat} {s : State} (hd : s.dev.Sound I ck) :
Keeps I ck t s (execDeclare t s) := by
  unfold execDeclare
  refine State.run_keeps hd fun ck d hd => ?_
  exact Dev.declare_sound hd

theorem execClaimReadbackTimeout_keeps {t : Nat} {s : State} (hd : s.dev.Sound I ck) :
Keeps I ck t s (execClaimReadbackTimeout t s) := by
  unfold execClaimReadbackTimeout
  refine State.run_keeps hd fun ck d hd => ?_
  exact .ite (Dev.raise_sound (Dev.fset_sound (Dev.snuf_sound hd))) hd

theorem execClaimRetry_keeps {t : Nat} {s : State} (hd : s.dev.Sound I ck) :
Keeps I ck t s (execClaimRetry t s) := by
  unfold execClaimRetry
  refine State.run_keeps hd fun ck d hd => ?_
  exact .ite (Dev.startClaim_sound hd) hd

theorem execClaimHeld_keeps {t : Nat} {s : State} (hd : s.dev.Sound I ck) :
Keeps I ck t s (execClaimHeld t s) := by
  unfold execClaimHeld
  refine State.run_keeps hd fun ck d hd => ?_
  exact .ite (Dev.promote_sound hd) hd

theorem execAdoptionAnnounce_keeps {t : Nat} {i : Nat} {s : State} (hd : s.dev.Sound I ck) :
Keeps I ck t s (execAdoptionAnnounce t i s) := by
  unfold execAdoptionAnnounce
  refine State.run_keeps hd fun ck d hd => ?_
  split
  · exact hd
  · exact .ite hd (.upd (Dev.send_sound hd))

theorem execSnufInAssert_keeps {t : Nat} {s : State} (hd : s.dev.Sound I ck) :
Keeps I ck t s (execSnufInAssert t s) := by
  unfold execSnufInAssert
  refine State.run_keeps hd fun ck d hd => ?_
  extract_lets +onlyGivenNames y1_0 y1_1 d1
  have h1 : d1.Sound I ck := .upd (Dev.fset_sound hd)
  extract_lets +onlyGivenNames x2
  extract_lets +onlyGivenNames y3_0 y3_1 y3_2 d3
  have h3 : d3.Sound I ck := .ite (.upd (Dev.drew_sound (Dev.fset_sound (Dev.snuf_sound h1)))) h1
  exact .ite h3 (Dev.pump_sound (Dev.fenceOps_sound (Dev.fset_sound h3)))

theorem execReadFence_keeps {t : Nat} {s : State} (hd : s.dev.Sound I ck) :
Keeps I ck t s (execReadFence t s) := by
  unfold execReadFence
  refine State.run_keeps hd fun ck d hd => ?_
  exact .ite (Dev.pump_sound (Dev.fset_sound hd)) hd

theorem execSnufInDeassert_keeps {t : Nat} {s : State} (hd : s.dev.Sound I ck) :
Keeps I ck t s (execSnufInDeassert t s) := by
  unfold execSnufInDeassert
  refine State.run_keeps hd fun ck d hd => ?_
  exact .ite hd (Dev.startClaim_sound (.upd (Dev.fset_sound hd)))

theorem execFenceLift_keeps {t : Nat} {s : State} (hd : s.dev.Sound I ck) :
Keeps I ck t s (execFenceLift t s) := by
  unfold execFenceLift
  refine State.run_keeps hd fun ck d hd => ?_
  exact .ite (Dev.pump_sound (Dev.fset_sound (Dev.fset_sound (.upd hd)))) hd

theorem execClaimBackoffExpiry_keeps {t : Nat} {s : State} (hd : s.dev.Sound I ck) :
Keeps I ck t s (execClaimBackoffExpiry t s) := by
  unfold execClaimBackoffExpiry
  refine State.run_keeps hd fun ck d hd => ?_
  exact .ite (Dev.startClaim_sound (Dev.fset_sound (.upd hd))) hd

theorem execSwapGo_keeps {t : Nat} {region : Nat} {all : Bool} {s : State} (hd : s.dev.Sound I ck) :
Keeps I ck t s (execSwapGo t region all s) := by
  unfold execSwapGo
  refine State.run_keeps hd fun ck d hd => ?_
  exact Dev.swapGo_sound hd

theorem execGiveback_keeps {t : Nat} {s : State} (hd : s.dev.Sound I ck) :
Keeps I ck t s (execGiveback t s) := by
  unfold execGiveback
  refine State.run_keeps hd fun ck d hd => ?_
  exact Dev.giveBack_sound hd

theorem execTwinRekey_keeps {t : Nat} {s : State} (hd : s.dev.Sound I ck) :
Keeps I ck t s (execTwinRekey t s) := by
  unfold execTwinRekey
  refine State.run_keeps hd fun ck d hd => ?_
  exact Dev.twinRekey_sound hd

theorem execResyncBulkDone_keeps {t : Nat} {s : State} (hd : s.dev.Sound I ck) :
Keeps I ck t s (execResyncBulkDone t s) := by
  unfold execResyncBulkDone
  refine State.run_keeps hd fun ck d hd => ?_
  exact .ite (Dev.fset_sound (.upd (Dev.sendBulk_sound hd))) hd

theorem execResyncCatchupPassDone_keeps {t : Nat} {s : State} (hd : s.dev.Sound I ck) :
Keeps I ck t s (execResyncCatchupPassDone t s) := by
  unfold execResyncCatchupPassDone
  refine State.run_keeps hd fun ck d hd => ?_
  exact .ite (.ite (Dev.pump_sound (Dev.fset_sound (.upd (Dev.fset_sound (Dev.sendPages_sound hd))))) (Dev.fset_sound (Dev.sendPages_sound hd))) hd

theorem execResyncCutoverDone_keeps {t : Nat} {s : State} (hd : s.dev.Sound I ck) :
Keeps I ck t s (execResyncCutoverDone t s) := by
  unfold execResyncCutoverDone
  refine State.run_keeps hd fun ck d hd => ?_
  exact .ite (Dev.pump_sound (Dev.rejoin_sound (Dev.fset_sound (.upd (Dev.fset_sound (Dev.fset_sound (Dev.snuf_sound (Dev.twinSend_sound (Dev.sendPages_sound hd))))))))) hd

theorem execDoorbellFetch_keeps {t : Nat} {s : State} (hd : s.dev.Sound I ck) :
Keeps I ck t s (execDoorbellFetch t s) := by
  unfold execDoorbellFetch
  refine State.run_keeps hd fun ck d hd => ?_
  exact .ite hd (Dev.readDoorbell_sound hd)

theorem execRingKick_keeps {t : Nat} {s : State} (hd : s.dev.Sound I ck) :
Keeps I ck t s (execRingKick t s) := by
  unfold execRingKick
  refine State.run_keeps hd fun ck d hd => ?_
  exact .ite (Dev.kick_sound hd) hd

theorem execDoorbellReadComplete_keeps {t : Nat} {ok : Bool} {tails : List (Nat × Nat)} {heads : List (Nat × Nat)} {hb : BitVec
    64} {s : State} (hd : s.dev.Sound I ck) :
Keeps I ck t s (execDoorbellReadComplete t ok tails heads hb s) := by
  unfold execDoorbellReadComplete
  refine State.run_keeps hd fun ck d hd => ?_
  exact .ite hd (.ite (Dev.raise_sound (.upd hd)) (Dev.settleWaits_sound (.foldl (Dev.takeHeartbeat_sound (.foldl (.foldl (.upd (.upd hd)) fun _ _ h6 => (.ite (Dev.takeTail_sound h6) h6)) fun _ _ h7 => (.ite (Dev.takeHead_sound h7) h7))) fun _ _ h8 => (Dev.fetchRing_sound h8))))

theorem execDescriptorFetchComplete_keeps {t : Nat} {ring : Nat} {ok : Bool} {descs : List (List (BitVec 64))} {s : State} (hd :
    s.dev.Sound I ck) :
Keeps I ck t s (execDescriptorFetchComplete t ring ok descs s) := by
  unfold execDescriptorFetchComplete
  refine State.run_keeps hd fun ck d hd => ?_
  split
  · exact hd
  · exact .ite (Dev.fset_sound (Dev.setRing_sound (.upd hd))) (.ite (.upd hd) (Dev.takeDescs_sound (.upd hd)))

theorem execPcieLinkDown_keeps {t : Nat} {s : State} (hd : s.dev.Sound I ck) :
Keeps I ck t s (execPcieLinkDown t s) := by
  unfold execPcieLinkDown
  refine State.run_keeps hd fun ck d hd => ?_
  exact Dev.mainAbsent_sound (.upd hd)

theorem execMainSideAbsent_keeps {t : Nat} {s : State} (hd : s.dev.Sound I ck) :
Keeps I ck t s (execMainSideAbsent t s) := by
  unfold execMainSideAbsent
  refine State.run_keeps hd fun ck d hd => ?_
  exact .ite hd (Dev.mainAbsent_sound hd)

theorem execAbort_keeps {t : Nat} {cmd : Nat} {s : State} (hd : s.dev.Sound I ck) :
Keeps I ck t s (execAbort t cmd s) := by
  unfold execAbort
  refine State.run_keeps hd fun ck d hd => ?_
  refine Dev.startCmd_sound ?_ ?_
  · exact hd
  · intro d2 x3 h4
    split
    · exact Dev.complete_sound h4
    · refine .ite ?_ ?_
      · extract_lets +onlyGivenNames y5_0 d5
        have h5 : d5.Sound I ck := .ite (.upd h4) h4
        exact Dev.complete_sound (Dev.complete_sound h5)
      · exact .ite (Dev.pump_sound (Dev.complete_sound (Dev.stopCmd_sound h4))) (Dev.complete_sound h4)

theorem execFlushCmd_keeps {t : Nat} {cmd : Nat} {s : State} (hd : s.dev.Sound I ck) :
Keeps I ck t s (execFlushCmd t cmd s) := by
  unfold execFlushCmd
  refine State.run_keeps hd fun ck d hd => ?_
  exact Dev.startCmd_sound hd (fun _ _ h1 => (Dev.beginWait_sound h1))

theorem execWaitCount_keeps {t : Nat} {cmd : Nat} {s : State} (hd : s.dev.Sound I ck) :
Keeps I ck t s (execWaitCount t cmd s) := by
  unfold execWaitCount
  refine State.run_keeps hd fun ck d hd => ?_
  exact Dev.startCmd_sound hd (fun _ _ h1 => (Dev.beginWait_sound h1))

theorem execWaitCountTimeout_keeps {t : Nat} {cmd : Nat} {s : State} (hd : s.dev.Sound I ck) :
Keeps I ck t s (execWaitCountTimeout t cmd s) := by
  unfold execWaitCountTimeout
  refine State.run_keeps hd fun ck d hd => ?_
  split
  · exact hd
  · exact .ite hd (Dev.complete_sound hd)

theorem execRegisterWrite_keeps {t : Nat} {off : Nat} {size : Nat} {value : Nat} {s : State} (hd : s.dev.Sound I ck) :
Keeps I ck t s (execRegisterWrite t off size value s) := by
  unfold execRegisterWrite
  refine State.run_keeps hd fun ck d hd => ?_
  exact .ite (Dev.writeBar0_sound hd) hd

theorem execMainPfail_keeps {t : Nat} {s : State} (hd : s.dev.Sound I ck) :
Keeps I ck t s (execMainPfail t s) := by
  unfold execMainPfail
  refine State.run_keeps hd fun ck d hd => ?_
  exact .ite (Dev.saveOrStop_sound (.upd hd)) (.upd (Dev.darken_sound (.upd hd)))

theorem execSaveComplete_keeps {t : Nat} {bad : Option (List (Nat × Nat))} {s : State} (hd : s.dev.Sound I ck) :
Keeps I ck t s (execSaveComplete t bad s) := by
  unfold execSaveComplete
  refine State.run_keeps hd fun ck d hd => ?_
  refine .ite hd (Dev.stopped_sound ?_)
  split
  · exact Dev.saveDone_sound hd
  · exact Dev.saveCut_sound hd

theorem execPowerGoodReturn_keeps {t : Nat} {x : Straps} {s : State} (hd : s.dev.Sound I ck) :
Keeps I ck t s (execPowerGoodReturn t x s) := by
  unfold execPowerGoodReturn
  refine State.run_keeps hd fun ck d hd => ?_
  exact Dev.leaveReset_sound (.upd hd)

theorem execColdStart_keeps {t : Nat} {x : Straps} {e : Eeprom} {s : State} (hd : s.dev.Sound I ck) :
Keeps I ck t s (execColdStart t x e s) := by
  unfold execColdStart
  refine State.run_keeps hd fun ck d hd => ?_
  exact .ite (Dev.askSeq_sound (Dev.loadEeprom_sound (Dev.restart_sound (Dev.fset_sound (Dev.finc_sound (Dev.coldState_sound hd)))))) (Dev.loadEeprom_sound (Dev.restart_sound (Dev.fset_sound (Dev.finc_sound (Dev.coldState_sound hd)))))

theorem execFullReset_keeps {t : Nat} {s : State} (hd : s.dev.Sound I ck) :
Keeps I ck t s (execFullReset t s) := by
  unfold execFullReset
  refine State.run_keeps hd fun ck d hd => ?_
  exact .ite (.upd hd) (.ite (Dev.saveOrStop_sound (Dev.raise_sound (.upd hd))) (.upd (Dev.darken_sound (.upd hd))))

theorem execResetNRelease_keeps {t : Nat} {x : Straps} {s : State} (hd : s.dev.Sound I ck) :
Keeps I ck t s (execResetNRelease t x s) := by
  unfold execResetNRelease
  refine State.run_keeps hd fun ck d hd => ?_
  exact Dev.leaveReset_sound (.upd hd)

theorem execFirmwareLoaded_keeps {t : Nat} {activeOk : Bool} {otherOk : Bool} {s : State} (hd : s.dev.Sound I ck) :
Keeps I ck t s (execFirmwareLoaded t activeOk otherOk s) := by
  unfold execFirmwareLoaded
  refine State.run_keeps hd fun ck d hd => ?_
  refine .ite ?_ ?_
  · exact hd
  · extract_lets +onlyGivenNames x1
    split
    · exact Dev.bootCore_sound hd
    · exact Dev.kill_sound hd

theorem execRestorePhaseADone_keeps {t : Nat} {r : RestoreIn} {s : State} (hd : s.dev.Sound I ck) :
Keeps I ck t s (execRestorePhaseADone t r s) := by
  unfold execRestorePhaseADone
  refine State.run_keeps hd fun ck d hd => ?_
  extract_lets +onlyGivenNames x1
  refine .ite ?_ ?_
  · exact hd
  · refine .ite ?_ ?_
    · exact Dev.restoreFails_sound hd
    · extract_lets +onlyGivenNames x2
      extract_lets +onlyGivenNames x3
      extract_lets +onlyGivenNames d4
      have h4 : d4.Sound I ck := by
        unfold d4
        split
        · exact .ite (Dev.nameLost_sound hd) hd
        · exact hd
      exact Dev.phaseAEnd_sound (Dev.restoreTo_sound h4)

theorem execRestorePhaseBDone_keeps {done : PhaseB} {s : State} (hd : s.dev.Sound I ck) :
Keeps I ck done.t s (execRestorePhaseBDone done s) := by
  unfold execRestorePhaseBDone
  refine State.run_keeps hd fun ck d hd => ?_
  refine .ite hd ?_
  extract_lets d1
  have h1 : d1.Sound I ck := .foldl hd fun _ _ h => Dev.badPage_sound h
  exact Dev.pump_sound (Dev.fset_sound (h1.setMeadow id))

theorem execTransportStart_keeps {t : Nat} {s : State} (hd : s.dev.Sound I ck) :
Keeps I ck t s (execTransportStart t s) := by
  unfold execTransportStart
  refine State.run_keeps hd fun ck d hd => ?_
  refine .ite ?_ ?_
  · exact hd
  · extract_lets +onlyGivenNames y1_0 d1
    have h1 : d1.Sound I ck := .upd hd
    extract_lets +onlyGivenNames d2
    have h2 : d2.Sound I ck := Dev.fset_sound h1
    extract_lets +onlyGivenNames d3
    have h3 : d3.Sound I ck := .ite (Dev.stageAt_sound h2) h2
    exact Dev.pump_sound (.foldl h3 fun _ _ h4 => (Dev.fjSend_sound h4))

theorem execSoftReset_keeps {t : Nat} {s : State} (hd : s.dev.Sound I ck) :
Keeps I ck t s (execSoftReset t s) := by
  unfold execSoftReset
  refine State.run_keeps hd fun ck d hd => ?_
  exact .ite (Dev.pump_sound (Dev.softParts_sound (Dev.raise_sound hd))) hd

theorem execSoftResetDrainExpiry_keeps {t : Nat} {s : State} (hd : s.dev.Sound I ck) :
Keeps I ck t s (execSoftResetDrainExpiry t s) := by
  unfold execSoftResetDrainExpiry
  refine State.run_keeps hd fun ck d hd => ?_
  exact Dev.settleDrain_sound hd

theorem execLanternRestart_keeps {t : Nat} {lantern : Nat} {s : State} (hd : s.dev.Sound I ck) :
Keeps I ck t s (execLanternRestart t lantern s) := by
  unfold execLanternRestart
  refine State.run_keeps hd fun ck d hd => ?_
  exact .ite hd (.ite (.foldl hd fun _ _ h1 => (Dev.removeEngine_sound h1)) (Dev.pump_sound (.upd (Dev.restartRole_sound (Dev.reloadEngines_sound (Dev.raise_sound hd))))))

theorem execLanternRestartDone_keeps {t : Nat} {lantern : Nat} {s : State} (hd : s.dev.Sound I ck) :
Keeps I ck t s (execLanternRestartDone t lantern s) := by
  unfold execLanternRestartDone
  refine State.run_keeps hd fun ck d hd => ?_
  refine .ite ?_ ?_
  · exact hd
  · extract_lets +onlyGivenNames y1_0 d1
    have h1 : d1.Sound I ck := .upd hd
    extract_lets +onlyGivenNames d2
    have h2 : d2.Sound I ck := .ite (Dev.showStatus_sound h1) h1
    exact Dev.pump_sound (Dev.pumpDies_sound (Dev.serveReqs_sound h2))

theorem execEntdaa_keeps {t : Nat} {addr : Nat} {s : State} (hd : s.dev.Sound I ck) :
Keeps I ck t s (execEntdaa t addr s) := by
  unfold execEntdaa
  refine State.run_keeps hd fun ck d hd => ?_
  exact .ite hd (Dev.fset_sound hd)

theorem execRstdaa_keeps {t : Nat} {s : State} (hd : s.dev.Sound I ck) :
Keeps I ck t s (execRstdaa t s) := by
  unfold execRstdaa
  refine State.run_keeps hd fun ck d hd => ?_
  exact Dev.fset_sound hd

theorem execEnec_keeps {t : Nat} {s : State} (hd : s.dev.Sound I ck) :
Keeps I ck t s (execEnec t s) := by
  unfold execEnec
  refine State.run_keeps hd fun ck d hd => ?_
  exact .ite (Dev.fset_sound hd) (Dev.inBand_sound (Dev.fset_sound hd))

theorem execDisec_keeps {t : Nat} {s : State} (hd : s.dev.Sound I ck) :
Keeps I ck t s (execDisec t s) := by
  unfold execDisec
  refine State.run_keeps hd fun ck d hd => ?_
  exact Dev.fset_sound hd

theorem execSetmwl_keeps {t : Nat} {len : Nat} {s : State} (hd : s.dev.Sound I ck) :
Keeps I ck t s (execSetmwl t len s) := by
  unfold execSetmwl
  refine State.run_keeps hd fun ck d hd => ?_
  exact .ite (.upd hd) hd

theorem execSetmrl_keeps {t : Nat} {len : Nat} {s : State} (hd : s.dev.Sound I ck) :
Keeps I ck t s (execSetmrl t len s) := by
  unfold execSetmrl
  refine State.run_keeps hd fun ck d hd => ?_
  exact .ite (.upd hd) hd

theorem execGetpid_keeps {t : Nat} {s : State} (hd : s.dev.Sound I ck) :
Keeps I ck t s (execGetpid t s) := by
  unfold execGetpid
  refine State.run_keeps hd fun ck d hd => ?_
  exact Dev.i3cSay_sound hd

theorem execGetbcr_keeps {t : Nat} {s : State} (hd : s.dev.Sound I ck) :
Keeps I ck t s (execGetbcr t s) := by
  unfold execGetbcr
  refine State.run_keeps hd fun ck d hd => ?_
  exact Dev.i3cSay_sound hd

theorem execGetdcr_keeps {t : Nat} {s : State} (hd : s.dev.Sound I ck) :
Keeps I ck t s (execGetdcr t s) := by
  unfold execGetdcr
  refine State.run_keeps hd fun ck d hd => ?_
  exact Dev.i3cSay_sound hd

theorem execGetstatus_keeps {t : Nat} {s : State} (hd : s.dev.Sound I ck) :
Keeps I ck t s (execGetstatus t s) := by
  unfold execGetstatus
  refine State.run_keeps hd fun ck d hd => ?_
  exact Dev.i3cSay_sound hd

theorem execGetmwl_keeps {t : Nat} {s : State} (hd : s.dev.Sound I ck) :
Keeps I ck t s (execGetmwl t s) := by
  unfold execGetmwl
  refine State.run_keeps hd fun ck d hd => ?_
  exact Dev.i3cSay_sound hd

theorem execGetmrl_keeps {t : Nat} {s : State} (hd : s.dev.Sound I ck) :
Keeps I ck t s (execGetmrl t s) := by
  unfold execGetmrl
  refine State.run_keeps hd fun ck d hd => ?_
  exact Dev.i3cSay_sound hd

theorem execRstact_keeps {t : Nat} {byte : Nat} {s : State} (hd : s.dev.Sound I ck) :
Keeps I ck t s (execRstact t byte s) := by
  unfold execRstact
  refine State.run_keeps hd fun ck d hd => ?_
  exact .ite ((Dev.fset_sound hd).setSbp fun _ => by simp) (Dev.i3cSay_sound hd)

theorem execHotJoinTimer_keeps {t : Nat} {s : State} (hd : s.dev.Sound I ck) :
Keeps I ck t s (execHotJoinTimer t s) := by
  unfold execHotJoinTimer
  refine State.run_keeps hd fun ck d hd => ?_
  exact .ite hd (Dev.send_sound (.upd hd))

theorem execSetEndpointId_keeps {t : Nat} {pec : Bool} {eid : Nat} {s : State} (hd : s.dev.Sound I ck) :
Keeps I ck t s (execSetEndpointId t pec eid s) := by
  unfold execSetEndpointId
  refine State.run_keeps hd fun ck d hd => ?_
  exact Dev.mctpIn_sound hd (fun _ h1 => (.ite (Dev.control_sound h1) (Dev.control_sound (Dev.fset_sound h1))))

theorem execGetEndpointId_keeps {t : Nat} {pec : Bool} {s : State} (hd : s.dev.Sound I ck) :
Keeps I ck t s (execGetEndpointId t pec s) := by
  unfold execGetEndpointId
  refine State.run_keeps hd fun ck d hd => ?_
  exact Dev.mctpIn_sound hd (fun _ h1 => (Dev.control_sound h1))

theorem execGetMctpVersionSupport_keeps {t : Nat} {pec : Bool} {mtype : Nat} {s : State} (hd : s.dev.Sound I ck) :
Keeps I ck t s (execGetMctpVersionSupport t pec mtype s) := by
  unfold execGetMctpVersionSupport
  refine State.run_keeps hd fun ck d hd => ?_
  exact Dev.mctpIn_sound hd (fun _ h1 => (.ite (Dev.control_sound h1) (Dev.control_sound h1)))

theorem execGetMessageTypeSupport_keeps {t : Nat} {pec : Bool} {s : State} (hd : s.dev.Sound I ck) :
Keeps I ck t s (execGetMessageTypeSupport t pec s) := by
  unfold execGetMessageTypeSupport
  refine State.run_keeps hd fun ck d hd => ?_
  exact Dev.mctpIn_sound hd (fun _ h1 => (Dev.control_sound h1))

theorem execGetVendorDefinedMessageSupport_keeps {t : Nat} {pec : Bool} {s : State} (hd : s.dev.Sound I ck) :
Keeps I ck t s (execGetVendorDefinedMessageSupport t pec s) := by
  unfold execGetVendorDefinedMessageSupport
  refine State.run_keeps hd fun ck d hd => ?_
  exact Dev.mctpIn_sound hd (fun _ h1 => (Dev.control_sound h1))

theorem execPldmType0Command_keeps {t : Nat} {pec : Bool} {code : Nat} {body : List Byte} {s : State} (hd : s.dev.Sound I ck) :
Keeps I ck t s (execPldmType0Command t pec code body s) := by
  unfold execPldmType0Command
  refine State.run_keeps hd fun ck d hd => ?_
  exact Dev.mctpIn_sound hd (fun _ h1 => (Dev.send_sound h1))

theorem execPldmSensorRead_keeps {t : Nat} {pec : Bool} {sensor : Nat} {s : State} (hd : s.dev.Sound I ck) :
Keeps I ck t s (execPldmSensorRead t pec sensor s) := by
  unfold execPldmSensorRead
  refine State.run_keeps hd fun ck d hd => ?_
  exact Dev.mctpIn_sound hd (fun _ h1 => (Dev.send_sound h1))

theorem execRequestUpdate_keeps {t : Nat} {pec : Bool} {s : State} (hd : s.dev.Sound I ck) :
Keeps I ck t s (execRequestUpdate t pec s) := by
  unfold execRequestUpdate
  refine State.run_keeps hd fun ck d hd => ?_
  exact Dev.type5_sound hd (fun _ h1 => (.ite (Dev.pldmErr_sound h1) (Dev.pldm5_sound (.upd h1))))

theorem execPldmFirmwareData_keeps {t : Nat} {pec : Bool} {i : Image} {s : State} (hd : s.dev.Sound I ck) :
Keeps I ck t s (execPldmFirmwareData t pec i s) := by
  unfold execPldmFirmwareData
  refine State.run_keeps hd fun ck d hd => ?_
  exact Dev.type5_sound hd (fun _ h1 => (.ite (Dev.pldmErr_sound h1) (Dev.pldm5_sound (Dev.stageChunk_sound h1))))

theorem execVerifyComplete_keeps {t : Nat} {pec : Bool} {i : Image} {s : State} (hd : s.dev.Sound I ck) :
Keeps I ck t s (execVerifyComplete t pec i s) := by
  unfold execVerifyComplete
  refine State.run_keeps hd fun ck d hd => ?_
  exact Dev.type5_sound hd (fun _ h1 => (.ite (Dev.pldmErr_sound h1) (Dev.pldm5_sound (.upd (Dev.stageChunk_sound h1)))))

theorem execActivateFirmware_keeps {t : Nat} {pec : Bool} {s : State} (hd : s.dev.Sound I ck) :
Keeps I ck t s (execActivateFirmware t pec s) := by
  unfold execActivateFirmware
  refine State.run_keeps hd fun ck d hd => ?_
  exact Dev.type5_sound hd (fun _ h1 => (.ite (Dev.pldmErr_sound h1) (.ite (Dev.pldmErr_sound h1) (Dev.sideCmd_sound (.upd h1) (fun _ _ h2 => (Dev.actActivate_sound h2))))))

theorem execGetReg_keeps {t : Nat} {a : SbReq} {off : Nat} {count : Nat} {s : State} (hd : s.dev.Sound I ck) :
Keeps I ck t s (execGetReg t a off count s) := by
  unfold execGetReg
  refine State.run_keeps hd fun ck d hd => ?_
  exact Dev.vendorIn_sound hd (fun _ h1 => (.ite (Dev.say_sound h1) (.ite (Dev.sayDark_sound h1) (Dev.say_sound h1))))

theorem execGetChallenge_keeps {t : Nat} {a : SbReq} {s : State} (hd : s.dev.Sound I ck) :
Keeps I ck t s (execGetChallenge t a s) := by
  unfold execGetChallenge
  refine State.run_keeps hd fun ck d hd => ?_
  exact Dev.vendorIn_sound hd (fun _ h1 => (Dev.say_sound (.upd h1)))

theorem execSbLogFetch_keeps {t : Nat} {a : SbReq} {first : Nat} {count : Nat} {s : State} (hd : s.dev.Sound I ck) :
Keeps I ck t s (execSbLogFetch t a first count s) := by
  unfold execSbLogFetch
  refine State.run_keeps hd fun ck d hd => ?_
  exact Dev.authIn_sound hd (fun _ h1 => (.ite (Dev.say_sound h1) (Dev.say_sound h1)))

theorem execSbLogClear_keeps {t : Nat} {a : SbReq} {s : State} (hd : s.dev.Sound I ck) :
Keeps I ck t s (execSbLogClear t a s) := by
  unfold execSbLogClear
  refine State.run_keeps hd fun ck d hd => ?_
  exact Dev.litIn_sound hd (fun _ h1 => (Dev.say_sound (Dev.clearLog_sound h1)))

theorem execPower_keeps {t : Nat} {a : SbReq} {op : Nat} {bay : Nat} {s : State} (hd : s.dev.Sound I ck) :
Keeps I ck t s (execPower t a op bay s) := by
  unfold execPower
  refine State.run_keeps hd fun ck d hd => ?_
  exact Dev.authIn_sound hd (fun _ h1 => (.ite (Dev.say_sound h1) (.ite (Dev.sayDark_sound h1) (Dev.powerReq_sound h1))))

theorem execSbDeclare_keeps {t : Nat} {a : SbReq} {s : State} (hd : s.dev.Sound I ck) :
Keeps I ck t s (execSbDeclare t a s) := by
  unfold execSbDeclare
  refine State.run_keeps hd fun ck d hd => ?_
  exact Dev.litIn_sound hd (fun _ h1 => (Dev.say_sound (Dev.declare_sound h1)))

theorem execSbEvacuate_keeps {t : Nat} {a : SbReq} {kind : Nat} {index : Nat} {s : State} (hd : s.dev.Sound I ck) :
Keeps I ck t s (execSbEvacuate t a kind index s) := by
  unfold execSbEvacuate
  refine State.run_keeps hd fun ck d hd => ?_
  exact Dev.litIn_sound hd (fun _ h1 => (Dev.sideCmd_sound h1 (fun _ _ h2 => (Dev.actEvacuate_sound h2))))

theorem execSbThaw_keeps {t : Nat} {a : SbReq} {ch : Nat} {s : State} (hd : s.dev.Sound I ck) :
Keeps I ck t s (execSbThaw t a ch s) := by
  unfold execSbThaw
  refine State.run_keeps hd fun ck d hd => ?_
  exact Dev.ruledIn_sound hd (fun _ h1 => (.ite (Dev.say_sound h1) (.ite (Dev.say_sound (Dev.writeThaw_sound h1)) (Dev.say_sound (Dev.writeThaw_sound h1)))))

theorem execSbCfgOpen_keeps {t : Nat} {a : SbReq} {s : State} (hd : s.dev.Sound I ck) :
Keeps I ck t s (execSbCfgOpen t a s) := by
  unfold execSbCfgOpen
  refine State.run_keeps hd fun ck d hd => ?_
  exact Dev.ruledIn_sound hd (fun _ h1 => (.ite (Dev.say_sound h1) (.ite (Dev.say_sound h1) (Dev.say_sound (Dev.openCfx_sound h1)))))

theorem execSbCfgWrite_keeps {t : Nat} {a : SbReq} {off : Nat} {value : Nat} {s : State} (hd : s.dev.Sound I ck) :
Keeps I ck t s (execSbCfgWrite t a off value s) := by
  unfold execSbCfgWrite
  refine State.run_keeps hd fun ck d hd => ?_
  exact Dev.litIn_sound hd (fun _ h1 => (.ite (Dev.say_sound h1) (.ite (Dev.say_sound h1) (.ite (Dev.say_sound (.foldl h1 fun _ _ h2 => (Dev.toShadow_sound h2))) (Dev.say_sound (Dev.illegal_sound h1))))))

theorem execSbCfgCommit_keeps {t : Nat} {a : SbReq} {when : Nat} {time : Nat} {s : State} (hd : s.dev.Sound I ck) :
Keeps I ck t s (execSbCfgCommit t a when time s) := by
  unfold execSbCfgCommit
  refine State.run_keeps hd fun ck d hd => ?_
  exact Dev.ruledIn_sound hd (fun _ h1 => (Dev.sideCmd_sound h1 (fun _ _ h2 => (Dev.sideCommit_sound h2))))

theorem execSbCfgDiscard_keeps {t : Nat} {a : SbReq} {s : State} (hd : s.dev.Sound I ck) :
Keeps I ck t s (execSbCfgDiscard t a s) := by
  unfold execSbCfgDiscard
  refine State.run_keeps hd fun ck d hd => ?_
  exact Dev.litIn_sound hd (fun _ h1 => (.ite (Dev.say_sound h1) (.ite (Dev.say_sound (Dev.discardCfx_sound h1)) (Dev.say_sound h1))))

theorem execSbFwConfirm_keeps {t : Nat} {a : SbReq} {s : State} (hd : s.dev.Sound I ck) :
Keeps I ck t s (execSbFwConfirm t a s) := by
  unfold execSbFwConfirm
  refine State.run_keeps hd fun ck d hd => ?_
  exact Dev.litIn_sound hd (fun _ h1 => (Dev.sideCmd_sound h1 (fun _ _ h2 => (Dev.actConfirm_sound h2))))

theorem execSbKeyLoadBlob_keeps {t : Nat} {a : SbReq} {b : Blob} {s : State} (hd : s.dev.Sound I ck) :
Keeps I ck t s (execSbKeyLoadBlob t a b s) := by
  unfold execSbKeyLoadBlob
  refine State.run_keeps hd fun ck d hd => ?_
  exact Dev.litIn_sound hd (fun _ h1 => (Dev.sideCmd_sound h1 (fun _ _ h2 => (Dev.actBlob_sound h2))))

theorem execFwArm_keeps {t : Nat} {a : SbReq} {s : State} (hd : s.dev.Sound I ck) :
Keeps I ck t s (execFwArm t a s) := by
  unfold execFwArm
  refine State.run_keeps hd fun ck d hd => ?_
  exact Dev.litIn_sound hd (fun _ h1 => (Dev.say_sound (.upd h1)))

theorem execFwArmExpiry_keeps {t : Nat} {s : State} (hd : s.dev.Sound I ck) :
Keeps I ck t s (execFwArmExpiry t s) := by
  unfold execFwArmExpiry
  refine State.run_keeps hd fun ck d hd => ?_
  exact .ite (.upd hd) hd

theorem execEpochClose_keeps {t : Nat} {s : State} (hd : s.dev.Sound I ck) :
Keeps I ck t s (execEpochClose t s) := by
  unfold execEpochClose
  refine State.run_keeps hd fun ck d hd => ?_
  exact .ite (Dev.closeEpoch_sound hd) hd

theorem execTimePps_keeps {t : Nat} {ext : Nat} {tod : Bool} {s : State} (hd : s.dev.Sound I ck) :
Keeps I ck t s (execTimePps t ext tod s) := by
  unfold execTimePps
  refine State.run_keeps hd fun ck d hd => ?_
  exact .ite hd (Dev.pulse_sound hd)

theorem execPtpLoss_keeps {t : Nat} {spread : Nat} {s : State} (hd : s.dev.Sound I ck) :
Keeps I ck t s (execPtpLoss t spread s) := by
  unfold execPtpLoss
  refine State.run_keeps hd fun ck d hd => ?_
  exact .ite (.upd hd) (.upd (Dev.fset_sound (.upd hd)))

theorem execHoldoverLimit_keeps {t : Nat} {s : State} (hd : s.dev.Sound I ck) :
Keeps I ck t s (execHoldoverLimit t s) := by
  unfold execHoldoverLimit
  refine State.run_keeps hd fun ck d hd => ?_
  exact .ite (Dev.fset_sound (Dev.fset_sound hd)) hd

theorem execTimeValidWait_keeps {t : Nat} {s : State} (hd : s.dev.Sound I ck) :
Keeps I ck t s (execTimeValidWait t s) := by
  unfold execTimeValidWait
  refine State.run_keeps hd fun ck d hd => ?_
  exact .ite hd (Dev.raise_sound (.upd hd))

theorem execEpochRep_keeps {t : Nat} {src : Nat} {r : EpochReport} {s : State} (hd : s.dev.Sound I ck) :
Keeps I ck t s (execEpochRep t src r s) := by
  unfold execEpochRep
  refine State.run_keeps hd fun ck d hd => ?_
  refine .ite ?_ ?_
  · exact hd
  · extract_lets +onlyGivenNames d1
    have h1 : d1.Sound I ck := Dev.compareMembers_sound (Dev.takeReport_sound hd)
    extract_lets +onlyGivenNames d2
    have h2 : d2.Sound I ck := .ite (Dev.raise_sound h1) h1
    split
    · exact Dev.recover_sound (Dev.toMembers_sound (Dev.cutTaken_sound h2))
    · exact Dev.stewardHorizon_sound h2

theorem execSealrep_keeps {t : Nat} {h : TwHdr} {r : EpochReport} {s : State} (hd : s.dev.Sound I ck) :
Keeps I ck t s (execSealrep t h r s) := by
  unfold execSealrep
  refine State.run_keeps hd fun ck d hd => ?_
  exact Dev.twinRx_sound hd (fun _ h1 => (.ite (Dev.compareReport_sound h1) (.ite (.upd (Dev.compareReport_sound h1)) (.ite (Dev.recover_sound (Dev.judgePair_sound (Dev.judgeHorizon_sound (.upd (Dev.compareReport_sound h1))))) (Dev.settleHorizon_sound (Dev.judgePair_sound (Dev.judgeHorizon_sound (.upd (Dev.compareReport_sound h1)))))))))

theorem execRecover_keeps {t : Nat} {cut : Nat} {s : State} (hd : s.dev.Sound I ck) :
Keeps I ck t s (execRecover t cut s) := by
  unfold execRecover
  refine State.run_keeps hd fun ck d hd => ?_
  exact .ite hd (Dev.recover_sound hd)

theorem execTwinHello_keeps {t : Nat} {h : TwHdr} {m : HelloMsg} {s : State} (hd : s.dev.Sound I ck) :
Keeps I ck t s (execTwinHello t h m s) := by
  unfold execTwinHello
  refine State.run_keeps hd fun ck d hd => ?_
  exact Dev.twinRx_sound hd (fun _ h1 => (.ite (Dev.raise_sound (Dev.twinDown_sound (.upd h1))) (Dev.pump_sound (Dev.acceptHello_sound h1))))

theorem execHb_keeps {t : Nat} {h : TwHdr} {m : HbMsg} {s : State} (hd : s.dev.Sound I ck) :
Keeps I ck t s (execHb t h m s) := by
  unfold execHb
  refine State.run_keeps hd fun ck d hd => ?_
  exact Dev.twinRx_sound hd (fun _ h1 => (Dev.judgeFaults_sound (Dev.linkStatus_sound (.upd h1))))

theorem execLeg_keeps {t : Nat} {h : TwHdr} {region : Nat} {off : Nat} {_len : Nat} {pos : Nat} {data : List Byte} {s : State}
    (hd : s.dev.Sound I ck) :
Keeps I ck t s (execLeg t h region off _len pos data s) := by
  unfold execLeg
  refine State.run_keeps hd fun ck d hd => ?_
  exact Dev.twinRx_sound hd (fun _ h1 => (.ite h1 (Dev.pump_sound (.upd h1))))

theorem execComplete_keeps {t : Nat} {h : TwHdr} {stamp : Nat} {s : State} (hd : s.dev.Sound I ck) :
Keeps I ck t s (execComplete t h stamp s) := by
  unfold execComplete
  refine State.run_keeps hd fun ck d hd => ?_
  exact Dev.twinRx_sound hd (fun _ h1 => (.ite h1 (Dev.pump_sound (Dev.confirm_sound (Dev.setRep_sound h1)))))

theorem execAbandon_keeps {t : Nat} {h : TwHdr} {s : State} (hd : s.dev.Sound I ck) :
Keeps I ck t s (execAbandon t h s) := by
  unfold execAbandon
  refine State.run_keeps hd fun ck d hd => ?_
  refine Dev.twinRx_sound ?_ ?_
  · exact hd
  · intro d2 h3
    split
    · exact Dev.pump_sound (Dev.undoRep_sound h3)
    · exact h3

theorem execConf_keeps {t : Nat} {h : TwHdr} {s : State} (hd : s.dev.Sound I ck) :
Keeps I ck t s (execConf t h s) := by
  unfold execConf
  refine State.run_keeps hd fun ck d hd => ?_
  refine Dev.twinRx_sound ?_ ?_
  · exact hd
  · intro d2 h3
    split
    · exact h3
    · extract_lets +onlyGivenNames d4
      have h4 : d4.Sound I ck := Dev.setOp_sound h3
      split
      · exact Dev.pump_sound (.ite (Dev.makeDurable_sound h4) h4)
      · exact h4

theorem execDur_keeps {t : Nat} {h : TwHdr} {_decided : Nat} {s : State} (hd : s.dev.Sound I ck) :
Keeps I ck t s (execDur t h _decided s) := by
  unfold execDur
  refine State.run_keeps hd fun ck d hd => ?_
  exact Dev.twinRx_sound hd (fun _ h1 => (Dev.pump_sound (Dev.dropRep_sound h1)))

theorem execEoe_keeps {t : Nat} {h : TwHdr} {epoch : Nat} {s : State} (hd : s.dev.Sound I ck) :
Keeps I ck t s (execEoe t h epoch s) := by
  unfold execEoe
  refine State.run_keeps hd fun ck d hd => ?_
  exact Dev.twinRx_sound hd (fun _ h1 => (.upd h1))

theorem execSwapReq_keeps {t : Nat} {h : TwHdr} {region : Nat} {all : Bool} {s : State} (hd : s.dev.Sound I ck) :
Keeps I ck t s (execSwapReq t h region all s) := by
  unfold execSwapReq
  refine State.run_keeps hd fun ck d hd => ?_
  refine Dev.twinRx_sound ?_ ?_
  · exact hd
  · intro d2 h3
    refine .ite ?_ ?_
    · exact Dev.twinSend_sound h3
    · extract_lets +onlyGivenNames d4
      have h4 : d4.Sound I ck := .ite (Dev.endSwap_sound h3) h3
      exact Dev.pump_sound (.upd h4)

theorem execSwapReady_keeps {t : Nat} {h : TwHdr} {s : State} (hd : s.dev.Sound I ck) :
Keeps I ck t s (execSwapReady t h s) := by
  unfold execSwapReady
  refine State.run_keeps hd fun ck d hd => ?_
  exact Dev.twinRx_sound hd (fun _ h1 => (.ite h1 (Dev.pump_sound (Dev.endSwap_sound (Dev.nextRoleVer_sound (.foldl h1 fun _ _ h2 => (Dev.setRole_sound h2)))))))

theorem execSwapRefuse_keeps {t : Nat} {h : TwHdr} {s : State} (hd : s.dev.Sound I ck) :
Keeps I ck t s (execSwapRefuse t h s) := by
  unfold execSwapRefuse
  refine State.run_keeps hd fun ck d hd => ?_
  exact Dev.twinRx_sound hd (fun _ h1 => (.ite (Dev.endSwap_sound h1) h1))

theorem execRgnReq_keeps {t : Nat} {h : TwHdr} {m : RegionMsg} {s : State} (hd : s.dev.Sound I ck) :
Keeps I ck t s (execRgnReq t h m s) := by
  unfold execRgnReq
  refine State.run_keeps hd fun ck d hd => ?_
  refine Dev.twinRx_sound ?_ ?_
  · exact hd
  · intro d3 h4
    refine .ite ?_ ?_
    · exact Dev.takeTable_sound h4
    · refine .ite ?_ ?_
      · exact Dev.applyMsg_sound h4
      · extract_lets +onlyGivenNames x8
        refine .ite ?_ ?_
        · exact Dev.twinSend_sound h4
        · extract_lets +onlyGivenNames y11_0 d11
          have h11 : d11.Sound I ck := .upd h4
          extract_lets +onlyGivenNames d13
          have h13 : d13.Sound I ck := .foldl h11 fun _ _ h14 => (Dev.refuseChange_sound h14)
          split
          · exact Dev.twinSend_sound h13
          · extract_lets +onlyGivenNames x15
            extract_lets +onlyGivenNames y16_0 y16_1 d16
            have h16 : d16.Sound I ck := .ite (Dev.setRegion_sound h13) (.upd (Dev.holdChange_sound h13))
            exact Dev.twinSend_sound h16

theorem execRgnAck_keeps {t : Nat} {h : TwHdr} {region : Nat} {func : Nat} {s : State} (hd : s.dev.Sound I ck) :
Keeps I ck t s (execRgnAck t h region func s) := by
  unfold execRgnAck
  refine State.run_keeps hd fun ck d hd => ?_
  refine Dev.twinRx_sound ?_ ?_
  · exact hd
  · intro d2 h3
    split
    · rename_i x4 x5 d6 e7
      have hd6 : d6.Sound I ck := .snd e7 (Dev.takePend_sound h3)
      exact Dev.pump_sound (Dev.agreed_sound hd6)
    · rename_i x8 d9 e10
      have hd9 : d9.Sound I ck := .snd e10 (Dev.takePend_sound h3)
      exact hd9

theorem execRgnRefuse_keeps {t : Nat} {h : TwHdr} {region : Nat} {func : Nat} {reason : Nat} {s : State} (hd : s.dev.Sound I ck)
    :
Keeps I ck t s (execRgnRefuse t h region func reason s) := by
  unfold execRgnRefuse
  refine State.run_keeps hd fun ck d hd => ?_
  refine Dev.twinRx_sound ?_ ?_
  · exact hd
  · intro d2 h3
    split
    · rename_i x4 x5 d6 e7
      have hd6 : d6.Sound I ck := .snd e7 (Dev.takePend_sound h3)
      exact Dev.refuseChange_sound hd6
    · rename_i x8 d9 e10
      have hd9 : d9.Sound I ck := .snd e10 (Dev.takePend_sound h3)
      exact hd9

theorem execRsPlot_keeps {t : Nat} {h : TwHdr} {region : Nat} {plot : Nat} {poison : Bool} {part : PlotPart} {s :
    State} (hd : s.dev.Sound I ck) :
Keeps I ck t s (execRsPlot t h region plot poison part s) := by
  unfold execRsPlot
  refine State.run_keeps hd fun ck d hd => ?_
  refine Dev.twinRx_sound ?_ ?_
  · exact hd
  · intro d2 h3
    split
    · exact h3
    · exact .ite (Dev.sendPlot_sound h3) (.ite (Dev.pump_sound (Dev.takePlot_sound h3)) h3)

theorem execRsPage_keeps {t : Nat} {h : TwHdr} {region : Nat} {page : Nat} {data : List Byte} {s : State} (hd : s.dev.Sound I
    ck) :
Keeps I ck t s (execRsPage t h region page data s) := by
  unfold execRsPage
  refine State.run_keeps hd fun ck d hd => ?_
  refine Dev.twinRx_sound ?_ ?_
  · exact hd
  · intro d2 h3
    split
    · exact h3
    · exact .ite (Dev.resyncWrite_sound h3) h3

theorem execRsDone_keeps {t : Nat} {h : TwHdr} {s : State} (hd : s.dev.Sound I ck) :
Keeps I ck t s (execRsDone t h s) := by
  unfold execRsDone
  refine State.run_keeps hd fun ck d hd => ?_
  exact Dev.twinRx_sound hd (fun _ h1 => (.ite h1 (Dev.pump_sound (Dev.fset_sound (Dev.fset_sound (.upd (Dev.dropUnnamed_sound h1)))))))

theorem execTwinKeyph_keeps {t : Nat} {h : TwHdr} {s : State} (hd : s.dev.Sound I ck) :
Keeps I ck t s (execTwinKeyph t h s) := by
  unfold execTwinKeyph
  refine State.run_keeps hd fun ck d hd => ?_
  exact Dev.twinRx_sound hd (fun _ h1 => (.upd h1))

theorem execTwinRetx_keeps {t : Nat} {h : TwHdr} {first : Nat} {s : State} (hd : s.dev.Sound I ck) :
Keeps I ck t s (execTwinRetx t h first s) := by
  unfold execTwinRetx
  refine State.run_keeps hd fun ck d hd => ?_
  exact Dev.twinRx_sound hd (fun _ h1 => (Dev.twinResend_sound h1))

theorem execTwinRetransmitTimer_keeps {t : Nat} {s : State} (hd : s.dev.Sound I ck) :
Keeps I ck t s (execTwinRetransmitTimer t s) := by
  unfold execTwinRetransmitTimer
  refine State.run_keeps hd fun ck d hd => ?_
  split
  · exact .ite (Dev.twinResend_sound hd) hd
  · exact hd

theorem execTwinLinkUp_keeps {t : Nat} {width : Nat} {s : State} (hd : s.dev.Sound I ck) :
Keeps I ck t s (execTwinLinkUp t width s) := by
  unfold execTwinLinkUp
  refine State.run_keeps hd fun ck d hd => ?_
  exact .ite hd (Dev.pump_sound (Dev.resumeMirror_sound (Dev.sendHello_sound (Dev.fset_sound (Dev.fset_sound (Dev.fset_sound (.upd hd)))))))

theorem execTwinLinkDown_keeps {t : Nat} {s : State} (hd : s.dev.Sound I ck) :
Keeps I ck t s (execTwinLinkDown t s) := by
  unfold execTwinLinkDown
  refine State.run_keeps hd fun ck d hd => ?_
  exact Dev.twinDown_sound hd

theorem execHeartbeatSend_keeps {t : Nat} {s : State} (hd : s.dev.Sound I ck) :
Keeps I ck t s (execHeartbeatSend t s) := by
  unfold execHeartbeatSend
  refine State.run_keeps hd fun ck d hd => ?_
  exact Dev.heartbeat_sound hd

end Sys2Proof.Machine
end

