-- ==== Sys2Proof/WellFormed.lean ====
section
/-! DEFINITION. Well-formed commands: every number a command carries fits the field of the spec it stands for. A command that
is not well-formed stands for nothing that can happen at the device's balls. -/

namespace Sys2Proof

/-- A request's fields fit their headers (R78, R109, R115): port, DSCP, QPN, PSN, virtual address and length. -/
def Req.wf (q : Req) : Bool :=
  decide (q.port < 256) && decide (q.dscp < 64) && decide (q.qpn < 2 ^ 24) && decide (q.psn < 2 ^ 24)
    && decide (q.va < 2 ^ 64) && decide (q.len < 2 ^ 32)

/-- An ECC verdict names one of the 24 channels, a line of its address space and a mask of the 10 devices of a sub-channel. -/
def LineErr.wf (e : LineErr) : Bool := decide (e.ch < 24) && decide (e.sub < 2) && decide (e.devmask < 2 ^ 10)

/-- A REQ names a port, a 128-bit GID, a QPN and a PSN of 24 bits (R86, R87). -/
def CmReq.wf (r : CmReq) : Bool :=
  decide (r.port < 256) && decide (r.gid < 2 ^ 128) && decide (r.peerQpn < 2 ^ 24) && decide (r.psn < 2 ^ 24)

/-- A twin frame header's numbers fit Table 7.1. -/
def TwHdr.wf (h : TwHdr) : Bool :=
  decide (h.lgen < 256) && decide (h.seq < 2 ^ 32) && decide (h.ack < 2 ^ 32) && decide (h.nctr < 2 ^ 48)
    && decide (h.keyph < 2) && decide (h.msgid < 2 ^ 32)

/-- A fabric frame header's numbers fit Table 8.1. -/
def FabHdr.wf (h : FabHdr) : Bool :=
  decide (h.link < 16) && decide (h.seq < 2 ^ 32) && decide (h.ack < 2 ^ 32) && decide (h.nctr < 2 ^ 48)
    && decide (h.keyph < 2) && decide (h.hops < 16) && decide (h.dst < 4096) && decide (h.src < 4096)
    && decide (h.msgid < 2 ^ 32)

/-- A forward header's numbers fit Table 8.4. -/
def FwdHdr.wf (f : FwdHdr) : Bool :=
  decide (f.region < 4096) && decide (f.qpn < 2 ^ 24) && decide (f.cseq < 2 ^ 32) && decide (f.jseq < 2 ^ 48)
    && decide (f.origin < 4096) && decide (f.length < 2 ^ 32)

/-- Images go to one of the 20 heath modules. -/
def ImgPlace.wf (p : ImgPlace) : Bool := decide (p.mod < 20)

/-- A seal record holds a 48-bit epoch, and its copies stand on two of the 20 heath modules. -/
def SealCopies.wf (c : SealCopies) : Bool := decide (c.epoch < 2 ^ 48) && decide (c.m1 < 20) && decide (c.m2 < 20)

/-- A part of a plot begins within its 65,536 bytes. -/
def PlotPart.wf (p : PlotPart) : Bool := decide (p.off < 65536)

/-- The device has 144 engines. -/
def EngineErr.wf (e : EngineErr) : Bool := decide (e.engine < 144)

/-- A command whose numbers fit their fields. -/
def Instr.wf (i : Instr) : Bool :=
  match i with
  | .rdmaWriteFirst _ q _ => q.wf
  | .rdmaWriteMiddle _ q _ => q.wf
  | .rdmaWriteLast _ q _ => q.wf
  | .rdmaWriteOnly _ q _ => q.wf
  | .rdmaWriteLastWithImmediate _ q _ _ => q.wf
  | .rdmaWriteOnlyWithImmediate _ q _ _ => q.wf
  | .rdmaReadRequest _ q _ => q.wf
  | .compareSwap _ q _ _ => q.wf
  | .fetchAdd _ q _ => q.wf
  | .flushVerb _ q => q.wf
  | .atomicWrite _ q _ => q.wf
  | .fenceCount _ q tgt _ => q.wf && decide (tgt < 2 ^ 24)
  | .sealQuery _ q => q.wf
  | .regionInfo _ q => q.wf
  | .unsupportedOpcode _ q => q.wf
  | .deadlineExpiry _ _ _ => true
  | .writeDurable _ _ => true
  | .fenceCountReached _ _ => true
  | .coldStateLoad _ conn => decide (conn < 65536)
  | .req _ r => r.wf
  | .rtu _ qpn => decide (qpn < 2 ^ 24)
  | .dreq _ qpn => decide (qpn < 2 ^ 24)
  | .drep _ qpn => decide (qpn < 2 ^ 24)
  | .mraTimeout _ port _ => decide (port < 256)
  | .rtuTimeout _ conn => decide (conn < 65536)
  | .quarantineEnd _ conn => decide (conn < 65536)
  | .drepTimeout _ conn => decide (conn < 65536)
  | .connectionDrained _ conn => decide (conn < 65536)
  | .errorDrained _ conn => decide (conn < 65536)
  | .portUp _ port => decide (port < 256)
  | .portLinkDown _ port => decide (port < 256)
  | .pfcPause _ port pri quanta => decide (port < 256) && decide (pri < 8) && decide (quanta < 65536)
  | .pauseRefresh _ port _ => decide (port < 256)
  | .pauseWatchdog _ port pri => decide (port < 256) && decide (pri < 8)
  | .pauseWatchdogEnd _ port pri => decide (port < 256) && decide (pri < 8)
  | .cnp _ qpn => decide (qpn < 2 ^ 24)
  | .rateRecovery _ conn => decide (conn < 65536)
  | .arpRequest _ port gid => decide (port < 256) && decide (gid < 2 ^ 128)
  | .neighbourSolicitation _ port gid => decide (port < 256) && decide (gid < 2 ^ 128)
  | .lldpReceived _ port pfc => decide (port < 256) && decide (pfc < 256)
  | .heatHalvingSweep _ => true
  | .freePlotRefill _ lantern => decide (lantern < 8)
  | .tableWalkComplete _ lantern idx => decide (lantern < 8) && decide (idx < 2 ^ 40)
  | .wickRangeInvalidate _ _ _ lmask => decide (lmask < 256)
  | .wickInvalidationDone _ => true
  | .migrationStart _ idx _ => decide (idx < 2 ^ 40)
  | .migrationCopyDone _ idx _ => decide (idx < 2 ^ 40)
  | .migrationDestinationDurable _ idx => decide (idx < 2 ^ 40)
  | .quiesceReady _ idx => decide (idx < 2 ^ 40)
  | .quiesceTimeout _ idx => decide (idx < 2 ^ 40)
  | .pinQuietExpiry _ idx => decide (idx < 2 ^ 40)
  | .winAbandonExpiry _ mod => decide (mod < 20)
  | .governorEvaluation _ _ => true
  | .budgetRiseEffect _ => true
  | .saveRateCalibration _ mod _ => decide (mod < 20)
  | .imageGroupClosed _ _ place => place.wf
  | .sealRecordClosed _ copies => copies.wf
  | .epochClose _ => true
  | .timePps _ _ _ => true
  | .ptpLoss _ _ => true
  | .holdoverLimit _ => true
  | .timeValidWait _ => true
  | .mainPfail _ => true
  | .saveComplete _ _ => true
  | .restorePhaseADone _ _ => true
  | .restorePhaseBDone _ => true
  | .writeThroughDrained _ => true
  | .twinHello _ h _ => h.wf
  | .hb _ h _ => h.wf
  | .leg _ h region _ _ _ _ => h.wf && decide (region < 4096)
  | .complete _ h _ => h.wf
  | .abandon _ h => h.wf
  | .conf _ h => h.wf
  | .dur _ h _ => h.wf
  | .eoe _ h epoch => h.wf && decide (epoch < 2 ^ 48)
  | .sealrep _ h _ => h.wf
  | .swapReq _ h region _ => h.wf && decide (region < 4096)
  | .swapReady _ h => h.wf
  | .swapRefuse _ h => h.wf
  | .rgnReq _ h _ => h.wf
  | .rgnAck _ h region _ => h.wf && decide (region < 4096)
  | .rgnRefuse _ h region _ _ => h.wf && decide (region < 4096)
  | .rsPlot _ h region _ _ part => h.wf && decide (region < 4096) && part.wf
  | .rsPage _ h region _ _ => h.wf && decide (region < 4096)
  | .rsDone _ h => h.wf
  | .twinKeyph _ h => h.wf
  | .twinRetx _ h _ => h.wf
  | .twinRetransmitTimer _ => true
  | .twinLinkUp _ _ => true
  | .twinLinkDown _ => true
  | .heartbeatSend _ => true
  | .lampWatchdogExpiry _ => true
  | .linkPathSilent _ => true
  | .lampPathSilent _ => true
  | .peerFaultSeen _ _ _ => true
  | .detectExpiry _ => true
  | .declare _ => true
  | .claimReadbackTimeout _ => true
  | .claimRetry _ => true
  | .claimHeld _ => true
  | .adoptionAnnounce _ _ => true
  | .snufInAssert _ => true
  | .readFence _ => true
  | .snufInDeassert _ => true
  | .fenceLift _ => true
  | .claimBackoffExpiry _ => true
  | .swapGo _ region _ => decide (region < 4096)
  | .giveback _ => true
  | .twinRekey _ => true
  | .resyncBulkDone _ => true
  | .resyncCatchupPassDone _ => true
  | .resyncCutoverDone _ => true
  | .fabHello _ h _ _ _ _ => h.wf
  | .lsa _ h _ _ _ _ _ => h.wf
  | .seg _ h _ _ _ _ => h.wf
  | .ptpMessage _ h _ _ => h.wf
  | .fabKeyph _ h => h.wf
  | .fabRetx _ h _ => h.wf
  | .fwdReq _ src msgid f _ _ => decide (src < 4096) && decide (msgid < 2 ^ 32) && f.wf
  | .fwdWrite _ src msgid f _ => decide (src < 4096) && decide (msgid < 2 ^ 32) && f.wf
  | .fwdResp _ src msgid _ => decide (src < 4096) && decide (msgid < 2 ^ 32)
  | .fwdAck _ src msgid _ => decide (src < 4096) && decide (msgid < 2 ^ 32)
  | .segReq _ src msgid _ => decide (src < 4096) && decide (msgid < 2 ^ 32)
  | .epochRep _ src _ => decide (src < 4096)
  | .horizon _ src epoch => decide (src < 4096) && decide (epoch < 2 ^ 48)
  | .member _ id _ => decide (id < 4096)
  | .recover _ _ => true
  | .idAsk _ _ _ => true
  | .idGrant _ id => decide (id < 4096)
  | .spanTxn _ src _ => decide (src < 4096)
  | .spanVote _ src region _ => decide (src < 4096) && decide (region < 4096)
  | .reassemblyTimer _ src msgid => decide (src < 4096) && decide (msgid < 2 ^ 32)
  | .tombstoneExpiry _ src msgid => decide (src < 4096) && decide (msgid < 2 ^ 32)
  | .midxQuarantineEnd _ midx => decide (midx < 65536)
  | .messageRetentionExpiry _ midx => decide (midx < 65536)
  | .transitTimeout _ link => decide (link < 16)
  | .lsaFloodTimer _ => true
  | .routeRecomputeDone _ => true
  | .fabRetransmitTimer _ link => decide (link < 16)
  | .fabLinkUp _ link => decide (link < 16)
  | .fabLinkDown _ link => decide (link < 16)
  | .fjResendTimer _ origin home jseq => decide (origin < 4096) && decide (home < 4096) && decide (jseq < 2 ^ 48)
  | .fjLimitExpiry _ origin home jseq => decide (origin < 4096) && decide (home < 4096) && decide (jseq < 2 ^ 48)
  | .forwardAtomicTimeout _ _ => true
  | .expel _ id => decide (id < 4096)
  | .fabricRekey _ => true
  | .channelTrainingDone _ ch _ => decide (ch < 24)
  | .zqCalibrationTimer _ ch => decide (ch < 24)
  | .dqsTrackingTimer _ ch => decide (ch < 24)
  | .dimmTempPoll _ ch _ => decide (ch < 24)
  | .refreshDue _ ch => decide (ch < 24)
  | .rfmCount _ ch bank => decide (ch < 24) && decide (bank < 64)
  | .channelFreeze _ e _ _ => e.wf
  | .freeze _ ch => decide (ch < 24)
  | .thaw _ ch => decide (ch < 24)
  | .thawComplete _ ch _ => decide (ch < 24)
  | .ceClear _ ch => decide (ch < 24)
  | .ceLogEntryClear _ ch k => decide (ch < 24) && decide (k < 8)
  | .patternGo _ ch => decide (ch < 24)
  | .patternDone _ ch _ _ => decide (ch < 24)
  | .checkerGo _ ch verdict devmask => decide (ch < 24) && decide (verdict < 3) && decide (devmask < 1024)
  | .channelEvacuationDone _ ch => decide (ch < 24)
  | .stripeRelayDone _ => true
  | .attentionButtonPress _ bay => decide (bay < 64)
  | .buttonStuck _ bay => decide (bay < 64)
  | .buttonReleased _ bay => decide (bay < 64)
  | .programComplete _ ch die _ _ => decide (ch < 160) && decide (die < 16)
  | .eraseComplete _ ch die => decide (ch < 160) && decide (die < 16)
  | .flashReadComplete _ _ _ => true
  | .padTimer _ ch die => decide (ch < 160) && decide (die < 16)
  | .dieUnresponsive _ ch die => decide (ch < 160) && decide (die < 16)
  | .moduleInitDone _ mod _ => decide (mod < 20)
  | .moduleTempPoll _ mod _ => decide (mod < 20)
  | .moduleEvacuationDone _ mod => decide (mod < 20)
  | .keyLoad _ value => decide (value < 2 ^ 64)
  | .keyErase _ value => decide (value < 2 ^ 64)
  | .tamper _ => true
  | .glitch _ => true
  | .katTimer _ _ => true
  | .drbgReady _ => true
  | .drbgHealthFailure _ => true
  | .drbgReseed _ => true
  | .cipherJob _ _ _ _ => true
  | .cipherJobTimeout _ _ => true
  | .keyLoadBlob _ _ _ => true
  | .doorbellFetch _ => true
  | .doorbellReadComplete _ _ _ _ _ => true
  | .descriptorFetchComplete _ ring _ _ => decide (ring < 64)
  | .ringKick _ => true
  | .regionCreate _ _ _ => true
  | .regionModify _ _ => true
  | .regionSeal _ _ => true
  | .regionKey _ _ => true
  | .regionGrow _ _ => true
  | .regionDestroy _ _ => true
  | .copy _ _ => true
  | .fill _ _ => true
  | .migrateHint _ _ => true
  | .pin _ _ => true
  | .sealNow _ _ => true
  | .scrubRange _ _ => true
  | .evacuateChannel _ _ => true
  | .evacuateModule _ _ => true
  | .selftestShort _ _ => true
  | .selftestExtended _ _ => true
  | .selftestResume _ => true
  | .abort _ _ => true
  | .flushCmd _ _ => true
  | .waitCount _ _ => true
  | .waitCountTimeout _ _ => true
  | .cfgCommit _ _ => true
  | .cfgCheckDone _ => true
  | .cfgScheduledApply _ => true
  | .fwStage _ _ _ => true
  | .fwActivate _ _ => true
  | .activationBarrierTimeout _ => true
  | .lanternRotationStep _ _ => true
  | .fwConfirm _ _ => true
  | .logClear _ _ => true
  | .logFetch _ _ => true
  | .pmcSelect _ _ => true
  | .pmcDumpConfig _ _ => true
  | .pmcSamplingConfig _ _ => true
  | .softReset _ => true
  | .softResetDrainExpiry _ => true
  | .pcieLinkDown _ => true
  | .cfgOpen _ => true
  | .cfgDiscard _ => true
  | .cfgGrant _ _ => true
  | .registerWrite _ off _ _ => decide (off < 2 ^ 26)
  | .entdaa _ addr => decide (addr < 128)
  | .rstdaa _ => true
  | .enec _ => true
  | .disec _ => true
  | .setmwl _ _ => true
  | .setmrl _ _ => true
  | .getpid _ => true
  | .getbcr _ => true
  | .getdcr _ => true
  | .getstatus _ => true
  | .getmwl _ => true
  | .getmrl _ => true
  | .rstact _ byte => decide (byte < 256)
  | .hotJoinTimer _ => true
  | .setEndpointId _ _ eid => decide (eid < 256)
  | .getEndpointId _ _ => true
  | .getMctpVersionSupport _ _ _ => true
  | .getMessageTypeSupport _ _ => true
  | .getVendorDefinedMessageSupport _ _ => true
  | .pldmType0Command _ _ _ _ => true
  | .pldmSensorRead _ _ sensor => decide (sensor < 256)
  | .requestUpdate _ _ => true
  | .pldmFirmwareData _ _ _ => true
  | .verifyComplete _ _ _ => true
  | .activateFirmware _ _ => true
  | .getReg _ _ off _ => decide (off < 2 ^ 32)
  | .getChallenge _ _ => true
  | .sbLogFetch _ _ _ _ => true
  | .sbLogClear _ _ => true
  | .power _ _ _ bay => decide (bay < 64)
  | .sbDeclare _ _ => true
  | .sbEvacuate _ _ _ _ => true
  | .sbThaw _ _ ch => decide (ch < 24)
  | .sbCfgOpen _ _ => true
  | .sbCfgWrite _ _ off _ => decide (off < 2 ^ 32)
  | .sbCfgCommit _ _ when _ => decide (when < 4)
  | .sbCfgDiscard _ _ => true
  | .sbFwConfirm _ _ => true
  | .sbKeyLoadBlob _ _ _ => true
  | .fwArm _ _ => true
  | .fwArmExpiry _ => true
  | .mainSideAbsent _ => true
  | .boardOn _ => true
  | .boardOff _ => true
  | .enterBanked _ => true
  | .leaveBanked _ => true
  | .bayOn _ bay => decide (bay < 64)
  | .bayOff _ bay => decide (bay < 64)
  | .sequenceSlot _ _ => true
  | .seqAlert _ slave _ _ => decide (slave < 16)
  | .housekeepingRound _ _ _ => true
  | .paceTimer _ => true
  | .dimTimer _ _ => true
  | .shadeTimer _ _ => true
  | .bankTimer _ => true
  | .wakeComplete _ _ => true
  | .powerDownComplete _ _ => true
  | .bankedImageDrained _ => true
  | .bankedExitComplete _ => true
  | .avsSetpointReached _ _ => true
  | .lastGasp _ cause => decide (cause < 256)
  | .eyeMonitor _ _ _ _ _ => true
  | .fecRateExceeded _ _ _ => true
  | .laneRetrainTimer _ group => decide (group < 4)
  | .laneGroupRejoin _ group => decide (group < 4)
  | .dramSweep _ ch => decide (ch < 24)
  | .planTimer _ _ => true
  | .planVoltageRequest _ => true
  | .engineMemoryError _ err => err.wf
  | .engineWatchdogExpiry _ engine => decide (engine < 144)
  | .spareSubstitutionDone _ lantern => decide (lantern < 16)
  | .confirmWindowExpiry _ => true
  | .rollback _ => true
  | .lanternRestart _ lantern => decide (lantern < 16)
  | .pendingClear _ group _ => decide (group < 16)
  | .msixUnmask _ vector => decide (vector < 64)
  | .counterDump _ => true
  | .counterRegionRefresh _ => true
  | .bandwidthWindow _ => true
  | .recorderMirrorWrite _ => true
  | .eventWindowRead _ => true
  | .hoursTick _ => true
  | .settingsStoreWrite _ => true
  | .coldStart _ _ _ => true
  | .fullReset _ => true
  | .firmwareLoaded _ _ _ => true
  | .transportStart _ => true
  | .destinationRetryTimer _ => true
  | .halvingSweepDone _ => true
  | .scrubRangeDone _ _ _ _ _ => true
  | .selftestDone _ _ _ _ => true
  | .lanternRestartDone _ lantern => decide (lantern < 16)
  | .resetNRelease _ _ => true
  | .powerGoodReturn _ _ => true
  | .lampPathHealthy _ => true
  | .i3cPrivateRead _ => true
  | .homeRunMoveDone _ region => decide (region < 4096)

end Sys2Proof
end

