-- ==== Sys2Proof/Tests/Slice0.lean ====
section
/-! SUPPORT. Tests: an ill-formed command for each check of WellFormed, small cases whose results the spec gives, and for each
statement of Obligations a device that meets its hypotheses. -/

set_option Elab.async false
set_option maxRecDepth 100000

namespace Sys2Proof.Tests

open Sys2Proof Sys2Proof.Machine

/-- Each check of the fields of `Req` refuses a number past its width. -/
theorem test_wf_req : ([{ port := 256 }, { dscp := 64 }, { qpn := 2 ^ 24 }, { psn := 2 ^ 24 }, { va := 2 ^ 64 }, { len := 2 ^ 32 }] : List Req).all (fun x => !x.wf) = true := by decide

/-- Each check of the fields of `LineErr` refuses a number past its width. -/
theorem test_wf_lineerr : ([{ ch := 24 }, { sub := 2 }, { devmask := 1024 }] : List LineErr).all (fun x => !x.wf) = true := by decide

/-- Each check of the fields of `CmReq` refuses a number past its width. -/
theorem test_wf_cmreq : ([{ port := 256 }, { gid := 2 ^ 128 }, { peerQpn := 2 ^ 24 }, { psn := 2 ^ 24 }] : List CmReq).all (fun x => !x.wf) = true := by decide

/-- Each check of the fields of `TwHdr` refuses a number past its width. -/
theorem test_wf_twhdr : ([{ lgen := 256 }, { seq := 2 ^ 32 }, { ack := 2 ^ 32 }, { nctr := 2 ^ 48 }, { keyph := 2 }, { msgid := 2 ^ 32 }] : List TwHdr).all (fun x => !x.wf) = true := by decide

/-- Each check of the fields of `FabHdr` refuses a number past its width. -/
theorem test_wf_fabhdr : ([{ link := 16 }, { seq := 2 ^ 32 }, { ack := 2 ^ 32 }, { nctr := 2 ^ 48 }, { keyph := 2 }, { hops := 16 }, { dst := 4096 }, { src := 4096 }, { msgid := 2 ^ 32 }] : List FabHdr).all (fun x => !x.wf) = true := by decide

/-- Each check of the fields of `ImgPlace` refuses a number past its width. -/
theorem test_wf_imgplace : ([{ mod := 20 }] : List ImgPlace).all (fun x => !x.wf) = true := by decide

/-- Each check of the fields of `SealCopies` refuses a number past its width. -/
theorem test_wf_sealcopies : ([{ epoch := 2 ^ 48 }, { m1 := 20 }, { m2 := 20 }] : List SealCopies).all (fun x => !x.wf) = true := by decide

/-- Each check of the fields of `PlotPart` refuses a number past its width. -/
theorem test_wf_plotpart : ([{ off := 65536 }] : List PlotPart).all (fun x => !x.wf) = true := by decide

/-- Each check of the fields of `EngineErr` refuses a number past its width. -/
theorem test_wf_engineerr : ([{ engine := 144 }] : List EngineErr).all (fun x => !x.wf) = true := by decide

/-- Each check of the fields of `FwdHdr` refuses a number past its width. -/
theorem test_wf_fwdhdr : ([{ region := 4096 }, { qpn := 2 ^ 24 }, { cseq := 2 ^ 32 }, { jseq := 2 ^ 48 }, { origin := 4096 }, { length := 2 ^ 32 }] : List FwdHdr).all (fun x => !x.wf) = true := by decide

/-- Commands that a check of `Instr.wf` refuses, one for each check (1 of 9). -/
theorem test_wf_command_1 : ([
    .rdmaWriteFirst 0 { port := 256 } [], .rdmaWriteMiddle 0 { port := 256 } [], .rdmaWriteLast 0 { port := 256 } [],
    .rdmaWriteOnly 0 { port := 256 } [], .rdmaWriteLastWithImmediate 0 { port := 256 } [] 0,
    .rdmaWriteOnlyWithImmediate 0 { port := 256 } [] 0, .rdmaReadRequest 0 { port := 256 } none,
    .compareSwap 0 { port := 256 } 0 0, .fetchAdd 0 { port := 256 } 0, .flushVerb 0 { port := 256 },
    .atomicWrite 0 { port := 256 } 0, .fenceCount 0 { port := 256 } 0 0, .fenceCount 0 {} (2 ^ 24) 0,
    .sealQuery 0 { port := 256 }, .regionInfo 0 { port := 256 }, .unsupportedOpcode 0 { port := 256 },
    .coldStateLoad 0 65536, .req 0 { port := 256 }, .rtu 0 (2 ^ 24), .dreq 0 (2 ^ 24), .drep 0 (2 ^ 24),
    .mraTimeout 0 256 0, .rtuTimeout 0 65536, .quarantineEnd 0 65536] : List Instr).all (fun i => !i.wf) = true := by decide

/-- Commands that a check of `Instr.wf` refuses, one for each check (2 of 9). -/
theorem test_wf_command_2 : ([
    .drepTimeout 0 65536, .connectionDrained 0 65536, .errorDrained 0 65536, .portUp 0 256, .portLinkDown 0 256,
    .pfcPause 0 256 0 0, .pfcPause 0 0 8 0, .pfcPause 0 0 0 65536, .pauseRefresh 0 256 0, .pauseWatchdog 0 256 0,
    .pauseWatchdog 0 0 8, .pauseWatchdogEnd 0 256 0, .pauseWatchdogEnd 0 0 8, .cnp 0 (2 ^ 24), .rateRecovery 0 65536,
    .arpRequest 0 256 0, .arpRequest 0 0 (2 ^ 128), .neighbourSolicitation 0 256 0,
    .neighbourSolicitation 0 0 (2 ^ 128), .lldpReceived 0 256 0, .lldpReceived 0 0 256, .freePlotRefill 0 8,
    .tableWalkComplete 0 8 0, .tableWalkComplete 0 0 (2 ^ 40)] : List Instr).all (fun i => !i.wf) = true := by decide

/-- Commands that a check of `Instr.wf` refuses, one for each check (3 of 9). -/
theorem test_wf_command_3 : ([
    .wickRangeInvalidate 0 0 0 256, .migrationStart 0 (2 ^ 40) .demotion, .migrationCopyDone 0 (2 ^ 40) false,
    .migrationDestinationDurable 0 (2 ^ 40), .quiesceReady 0 (2 ^ 40), .quiesceTimeout 0 (2 ^ 40),
    .pinQuietExpiry 0 (2 ^ 40), .winAbandonExpiry 0 20, .saveRateCalibration 0 20 0,
    .imageGroupClosed 0 0 { mod := 20 }, .sealRecordClosed 0 { epoch := 2 ^ 48 }, .twinHello 0 { lgen := 256 } {},
    .hb 0 { lgen := 256 } {}, .leg 0 { lgen := 256 } 0 0 0 0 [], .leg 0 {} 4096 0 0 0 [],
    .complete 0 { lgen := 256 } 0, .abandon 0 { lgen := 256 }, .conf 0 { lgen := 256 }, .dur 0 { lgen := 256 } 0,
    .eoe 0 { lgen := 256 } 0, .eoe 0 {} (2 ^ 48), .sealrep 0 { lgen := 256 } {}, .swapReq 0 { lgen := 256 } 0 false,
    .swapReq 0 {} 4096 false] : List Instr).all (fun i => !i.wf) = true := by decide

/-- Commands that a check of `Instr.wf` refuses, one for each check (4 of 9). -/
theorem test_wf_command_4 : ([
    .swapReady 0 { lgen := 256 }, .swapRefuse 0 { lgen := 256 }, .rgnReq 0 { lgen := 256 } {},
    .rgnAck 0 { lgen := 256 } 0 0, .rgnAck 0 {} 4096 0, .rgnRefuse 0 { lgen := 256 } 0 0 0, .rgnRefuse 0 {} 4096 0 0,
    .rsPlot 0 { lgen := 256 } 0 0 false {}, .rsPlot 0 {} 4096 0 false {}, .rsPlot 0 {} 0 0 false { off := 65536 },
    .rsPage 0 { lgen := 256 } 0 0 [], .rsPage 0 {} 4096 0 [], .rsDone 0 { lgen := 256 }, .twinKeyph 0 { lgen := 256 },
    .twinRetx 0 { lgen := 256 } 0, .swapGo 0 4096 false, .fabHello 0 { link := 16 } 0 none false 0,
    .lsa 0 { link := 16 } 0 none false 0 [], .seg 0 { link := 16 } 0 0 0 [], .ptpMessage 0 { link := 16 } false [],
    .fabKeyph 0 { link := 16 }, .fabRetx 0 { link := 16 } 0, .fwdReq 0 4096 0 {} 0 0, .fwdReq 0 0 (2 ^ 32) {} 0 0] : List Instr).all (fun i => !i.wf) = true := by decide

/-- Commands that a check of `Instr.wf` refuses, one for each check (5 of 9). -/
theorem test_wf_command_5 : ([
    .fwdReq 0 0 0 { region := 4096 } 0 0, .fwdWrite 0 4096 0 {} [], .fwdWrite 0 0 (2 ^ 32) {} [],
    .fwdWrite 0 0 0 { region := 4096 } [], .fwdResp 0 4096 0 {}, .fwdResp 0 0 (2 ^ 32) {}, .fwdAck 0 4096 0 {},
    .fwdAck 0 0 (2 ^ 32) {}, .segReq 0 4096 0 [], .segReq 0 0 (2 ^ 32) [], .epochRep 0 4096 {}, .horizon 0 4096 0,
    .horizon 0 0 (2 ^ 48), .member 0 4096 false, .idGrant 0 4096, .spanTxn 0 4096 {}, .spanVote 0 4096 0 false,
    .spanVote 0 0 4096 false, .reassemblyTimer 0 4096 0, .reassemblyTimer 0 0 (2 ^ 32), .tombstoneExpiry 0 4096 0,
    .tombstoneExpiry 0 0 (2 ^ 32), .midxQuarantineEnd 0 65536, .messageRetentionExpiry 0 65536] : List Instr).all (fun i => !i.wf) = true := by decide

/-- Commands that a check of `Instr.wf` refuses, one for each check (6 of 9). -/
theorem test_wf_command_6 : ([
    .transitTimeout 0 16, .fabRetransmitTimer 0 16, .fabLinkUp 0 16, .fabLinkDown 0 16, .fjResendTimer 0 4096 0 0,
    .fjResendTimer 0 0 4096 0, .fjResendTimer 0 0 0 (2 ^ 48), .fjLimitExpiry 0 4096 0 0, .fjLimitExpiry 0 0 4096 0,
    .fjLimitExpiry 0 0 0 (2 ^ 48), .expel 0 4096, .channelTrainingDone 0 24 {}, .zqCalibrationTimer 0 24,
    .dqsTrackingTimer 0 24, .dimmTempPoll 0 24 0, .refreshDue 0 24, .rfmCount 0 24 0, .rfmCount 0 0 64,
    .channelFreeze 0 { ch := 24 } false none, .freeze 0 24, .thaw 0 24, .thawComplete 0 24 false, .ceClear 0 24,
    .ceLogEntryClear 0 24 0] : List Instr).all (fun i => !i.wf) = true := by decide

/-- Commands that a check of `Instr.wf` refuses, one for each check (7 of 9). -/
theorem test_wf_command_7 : ([
    .ceLogEntryClear 0 0 8, .patternGo 0 24, .patternDone 0 24 0 0, .checkerGo 0 24 0 0, .checkerGo 0 0 3 0,
    .checkerGo 0 0 0 1024, .channelEvacuationDone 0 24, .attentionButtonPress 0 64, .buttonStuck 0 64,
    .buttonReleased 0 64, .programComplete 0 160 0 false false, .programComplete 0 0 16 false false,
    .eraseComplete 0 160 0, .eraseComplete 0 0 16, .padTimer 0 160 0, .padTimer 0 0 16, .dieUnresponsive 0 160 0,
    .dieUnresponsive 0 0 16, .moduleInitDone 0 20 {}, .moduleTempPoll 0 20 none, .moduleEvacuationDone 0 20,
    .keyLoad 0 (2 ^ 64), .keyErase 0 (2 ^ 64), .descriptorFetchComplete 0 64 false []] : List Instr).all (fun i => !i.wf) = true := by decide

/-- Commands that a check of `Instr.wf` refuses, one for each check (8 of 9). -/
theorem test_wf_command_8 : ([
    .registerWrite 0 (2 ^ 26) 0 0, .entdaa 0 128, .rstact 0 256, .setEndpointId 0 false 256,
    .pldmSensorRead 0 false 256, .getReg 0 {} (2 ^ 32) 0, .power 0 {} 0 64, .sbThaw 0 {} 24,
    .sbCfgWrite 0 {} (2 ^ 32) 0, .sbCfgCommit 0 {} 4 0, .bayOn 0 64, .bayOff 0 64, .seqAlert 0 16 0 0, .lastGasp 0 256,
    .laneRetrainTimer 0 4, .laneGroupRejoin 0 4, .dramSweep 0 24, .engineMemoryError 0 { engine := 144 },
    .engineWatchdogExpiry 0 144, .spareSubstitutionDone 0 16, .lanternRestart 0 16, .pendingClear 0 16 0,
    .msixUnmask 0 64, .lanternRestartDone 0 16] : List Instr).all (fun i => !i.wf) = true := by decide

/-- Commands that a check of `Instr.wf` refuses, one for each check (9 of 9). -/
theorem test_wf_command_9 : ([
    .homeRunMoveDone 0 4096] : List Instr).all (fun i => !i.wf) = true := by decide

/-- A device for tests: the core runs, time is valid, port 0 is up, connection 5 is Ready with expected PSN 10, region 1 of four
plots has an R_Key that permits everything, and one channel of 16 GiB is on-line with three free plots. -/
def wDev : Dev :=
  { core := { stage := 5, transport := true }
    tim := { valid := true }
    hpt := { ports := [(0, { up := true })],
             conns := [(5, { state := .ready, stHdr := true, dlHdr := true, resp := 4, ePsn := 10, hot := true, credit := 1000000 })] }
    rgn := [(1, { state := .online, size := 4, run := 4, keys := [(0, { enabled := true, perm := 31, winCount := 4 })] })]
    tier := { queues := [(0, [0, 1, 2])] }
    dur := { budget := 1000, isOpen := true, openEp := 1 }
    regs := [((MDW_STAT.STATE 0).key, chOnline), ((MDW_STAT.CAP_GIB 0).key, 16)] }

/-- That device with nothing waiting. -/
def wState : State := { pending := [], dev := wDev }

/-- A request packet for it. -/
def wReq : Req := { port := 0, qpn := 5, psn := 10, rkey := 0x00100000, va := 0, len := 4 }
/-! ### Small cases -/

/-- A command whose numbers fit is well-formed. -/
theorem test_wf_accepts : [Instr.freeze 0 23, .rdmaWriteOnly 0 wReq [1, 2], .regionSeal 0 9].all Instr.wf = true := by decide

/-- No row of the opcode table gives bits, so that no word spells a command. -/
theorem test_no_word_is_a_command : decodeTableWord 16 0 = none := by decide

/-- R60, R61: the first closing instant strictly after the stamp; a stamp at a closing instant belongs to the next epoch. -/
theorem test_epoch_of_stamp : [epochAt 1 999999, epochAt 1 1000000, epochAt 10 9999999, epochAt 10 10000000] = [1, 2, 10, 20] := by
  decide

/-- R185 with marks at 50, 70 and 90 percent: entered at the mark, left 2 points below it. -/
theorem test_stage_hysteresis : [stageOf 49 100 50 70 90 0, stageOf 50 100 50 70 90 0, stageOf 49 100 50 70 90 1,
    stageOf 48 100 50 70 90 1, stageOf 95 100 50 70 90 0] = [0, 1, 1, 0, 3] := by decide

/-- Table 12.4: ring 33 puts its low bits beside the phase and bit 5 at the top of byte 15. -/
theorem test_entry_of_ring_33 :
    ({ id := 0, ring := 33, tag := 0xABCD, op := ocFlush, body := [] } : Cmd).entry csRefused 7 9 =
      0x8000000000000009_02_02_ABCD_00000007 := by decide

/-- R201: 100 ns at loss and 50 ns per second reach 10 µs after 198 s of Holdover. -/
theorem test_holdover_grows :
    ({ wDev.fset DUR_TIME_STAT.STATE 2 with clk := 198000000000, tim := { wDev.tim with terrAtLoss := 100, spread := 50, lostAt := 0 } } :
      Dev).terrNow = 10000 := by decide

/-- R424: an address is taken once; a second ENTDAA changes nothing, and BCR is 06h. -/
theorem test_entdaa_once : ((wDev.fset SBP_STAT.DYN_ADDR 8).addressed, (wDev.fset SBP_STAT.DYN_ADDR 8).i3cSay [0x06] |>.out.head?) =
    (true, some (.i3c [0x06])) := by decide

/-- A step of the command in front: DISEC in the reset state. -/
theorem test_step_disec :
    (match step { State.reset with pending := [.disec 0, .glitch 5] } with
      | .next s => s.pending == [.glitch 5] && !s.dev.on SBP_STAT.IBI_EN
      | _ => false) = true := by decide

/-- A write's bytes: the value an unlisted address reads as is not listed, so that memories are equal as data (R190). -/
theorem test_memory_is_canonical : memWrite (memWrite [] 5 [1, 2, 3]) 6 [0] = [(5, 1), (7, 3)] := by decide


/-! ### Devices that meet the hypotheses of the statements -/

theorem wit_StepRunsFront : ({ State.reset with pending := [.epochClose 7] } : State).pending = .epochClose 7 :: [] := rfl

theorem wit_IdleStepKeepsState : State.reset.pending = [] := rfl

theorem wit_StepKeepsInvariant : State.reset.dev.Ok := ⟨by simp [memsOk, State.reset]; decide, by simp [recsOk, State.reset], by simp [State.reset]⟩

theorem wit_TimeNeverRunsBack : step State.reset = .next State.reset := rfl

theorem wit_RequestTakesItsPlace : let d := wDev.tick 100
  let a : Ask := { kind := .write, part := .only, data := [1, 2, 3, 4] }
  d.hears wReq ∧ d.knows wReq ∧ ((d.took wReq).conn 5).hot = true ∧ d.psnGap wReq = 0 ∧ (d.took wReq).invalid 5 wReq a = false ∧
    ((d.took wReq).conn 5).openMsg = none := by
  refine ⟨?_, ?_, ?_, ?_, ?_, ?_⟩ <;> decide

theorem wit_RequestTakesItsPlaceadmit : let o : Op := { conn := 5, kind := .write, rkey := 0x00100000, len := 4, data := [1, 2, 3, 4], stamp := 100 }
  let e : IngPkt := { o := o, part := .only }
  let d : Dev := { wDev with hpt := { wDev.hpt with ingress := [e] } }
  (d.without e).freeSlot 0 = some 0 ∧ (d.without e).refusal o none = none ∧ (look (d.without e).rgn o.rid).isSome = true ∧
    (d.without e).refusal o (some .accessDenied) = some { st := .accessDenied } := by
  refine ⟨?_, ?_, ?_, ?_⟩ <;> decide

theorem wit_MessageGoesOn : let d := ({ wDev with hpt := { wDev.hpt with conns := change wDev.hpt.conns 5 {} (fun c => { c with
    openMsg := some { psn := 9, rkey := 0x00100000, va := 0, len := 8, got := 4, dlHdr := none } }) } } : Dev).tick 100
  let a : Ask := { kind := .write, part := .last, data := [1, 2, 3, 4] }
  d.hears wReq ∧ d.knows wReq ∧ ((d.took wReq).conn 5).hot = true ∧ d.psnGap wReq = 0 ∧ (d.took wReq).invalid 5 wReq a = false ∧
    ∃ m, ((d.took wReq).conn 5).openMsg = some m ∧ m.wrong a = false := by
  refine ⟨?_, ?_, ?_, ?_, ?_, _, rfl, ?_⟩ <;> decide

theorem wit_PsnOrdersDecide : let d := wDev.tick 100
  d.hears wReq ∧ d.knows wReq ∧ ((d.took wReq).conn 5).hot = true ∧ 2 ^ 23 ≤ d.psnGap { wReq with psn := 9 } ∧
    d.psnGap { wReq with psn := 9 } ≠ 0 ∧ d.psnGap { wReq with psn := 11 } = 1 ∧ d.psnGap { wReq with psn := 10 + 2 ^ 23 } = 2 ^ 23 ∧
    (d.took { wReq with malformed := true }).invalid 5 { wReq with malformed := true } { kind := .read } = true := by
  refine ⟨?_, ?_, ?_, ?_, ?_, ?_, ?_, ?_⟩ <;> decide

theorem wit_UnheardRequestsAreDropped : (wDev.port 1).up = false ∧ wDev.hears wReq ∧ ¬ wDev.knows { wReq with qpn := 6 } ∧ ¬ wDev.knows { wReq with qpn := 65541 } ∧
    ({ wDev with dur := { wDev.dur with saving := true } } : Dev).dur.saving = true ∧ frameTaken { tags := 2 } = false ∧
    ((({ wDev with hpt := { wDev.hpt with conns := [(5, { state := .ready })] } } : Dev).took wReq).conn 5).hot = false := by
  refine ⟨?_, ?_, ?_, ?_, rfl, ?_, ?_⟩ <;> decide

theorem wit_WriteStoresItsBytes : Memory.wf ({ wDev with mem := { wDev.mem with meadow := [(3, 7), (5, 1)] } } : Dev).mem.meadow := by decide

theorem wit_VerbEngineGoesOn : let o : Op := { id := 32768, conn := 5, phase := .applied, whole := true, dl := 50 }
  let f : Op := { id := 32769, conn := 5, kind := .fenceCount, phase := .fenced, tgt := 70000 }
  let e : IngPkt := { o := { conn := 5, psn := 3, dl := 50 }, part := .only }
  let d := ({ wDev with hpt := { wDev.hpt with ops := [o, f], ingress := [e] } } : Dev).tick 100
  d.op 32768 = some o ∧ d.dueAt o = some 50 ∧ 50 ≤ d.now ∧ o.cmd = none ∧ d.canDurable o = true ∧ d.op 32769 = some f ∧
    d.fencePasses f = true ∧ d.op 7 = none ∧ d.op (waitingId 5 3) = none ∧
    (d.hpt.ingress.find? (fun e => (e.part == .only || e.part == .first) && waitingId e.o.conn e.o.psn == waitingId 5 3)) = some e := by
  refine ⟨?_, ?_, ?_, ?_, ?_, ?_, ?_, ?_, ?_, ?_⟩ <;> decide

theorem wit_VerbEngineGoesOncold : let l : List (Nat × Conn) := [(5, { state := .ready }), (6, { state := .ready, hot := true })]
  let d : Dev := { wDev with hpt := { wDev.hpt with cold := [{ c := 5, q := wReq, stamp := 0 }], conns := l } }
  (d.conn 5).hot = false ∧ d.hpt.cold.any (fun p => p.c == 5) = true ∧ d.lanternUp 0 = true ∧
    (d.hotOf (d.conn 5).lantern).length < 2048 ∧ d.coldVictim 0 = some 6 := by
  refine ⟨?_, ?_, ?_, ?_, ?_⟩ <;> decide

theorem wit_ConnectionRequestAnswered : let r : CmReq := { port := 0, gid := 7, service := 9, psn := 5, depth := 4, priv := Offer.bytes { magic := offerMagic, version := 1, flags := 3 } }
  let d := (((wDev.fset HPT_CM_CTL.ACCEPT 1).fset HPT_CM_SVC.SERVICE_ID 9).fset (HPT_GID.GID 0 2) 7)
  let q : PendReq := { port := 0, arrived := 0, mra := false, r := r }
  (d.dur.saving = false ∧ (d.port r.port).up = true ∧ frameTaken r.fr = true) ∧ d.reqServed 0 = true ∧ d.refuseReq r 0 = none ∧
    d.freeIndex = some 0 ∧ d.refuseReq { r with service := 8 } 0 = some 2 ∧ (offerOf r).isSome = true ∧ d.reqsAhead q = 0 ∧
    (d.port 0).holds 0 0 = false ∧ ({ d with age := { d.age with restarting := [0] } } : Dev).reqServed 0 = false ∧
    ([q].find? (fun q => q.port == 0 && q.arrived == 0 && !q.mra && decide (0 + 1000000 ≤ 2000000))) = some q := by
  refine ⟨⟨?_, ?_, ?_⟩, ?_, ?_, ?_, ?_, ?_, ?_, ?_, ?_, rfl⟩ <;> decide

theorem wit_ConnectionOpensAndCloses : let d : Dev := { wDev with clk := 9000000, hpt := { wDev.hpt with conns :=
    [(1, { state := .offered }), (2, { state := .ready, dreqAt := some 0 }), (3, { state := .draining }), (4, { state := .error }),
     (6, { state := .quarantine })] } }
  d.connOf 1 = some 1 ∧ d.connOf 2 = some 2 ∧ d.connOf 9 = none ∧ d.drained 3 = true ∧ d.drained 4 = true ∧
    (d.conn 2).state.isOpen = true ∧ (d.conn 2).dreqAt = some 0 ∧ 0 + 8000000 ≤ d.clk ∧ (d.conn 6).since + 2000000 ≤ d.clk ∧
    (d.conn 6).state = .quarantine ∧ (d.conn 1).state = .offered ∧
    ({ d with clk := 10 ^ 12 } : Dev).f HPT_CM_CTL.RTU_TO_MS * 1000000 ≤ 10 ^ 12 ∧
    (d.conn 2).lastCnpRx + d.f HPT_CC_CTL.RECOVER_US * 1000 ≤ d.clk := by
  refine ⟨?_, ?_, ?_, ?_, ?_, ?_, ?_, ?_, ?_, ?_, ?_, ?_, ?_⟩ <;> decide

theorem wit_PortsPauseAndAnswer : let g : Nat := 0xFFFF0A000001
  let d : Dev := { (((wDev.fset (HPT_GID.GID 0 0) g).fset (HPT_GID.GID 0 1) 5).fset (HPT_MAC.MAC 8) 77) with clk := 2000000000, hpt := { wDev.hpt with
    ports := [(0, { up := true, pausedAt := [(3, 0, 3000000000)], ignoreAt := [(4, 0)] })] } }
  (d.port 0).up = true ∧ d.portExists 8 = true ∧ (d.port 8).up = false ∧ 2 ≤ d.core.stage ∧ d.dur.saving = false ∧
    d.lossless 3 = true ∧
    look (d.port 0).pausedAt 3 = some (0, 3000000000) ∧ look (d.port 0).ignoreAt 3 = none ∧ look (d.port 0).ignoreAt 4 = some 0 ∧
    d.f HPT_PFC_CTL.WD_MS ≠ 0 ∧ 0 + d.f HPT_PFC_CTL.WD_MS * 1000000 ≤ d.clk ∧ 0 + 1000000000 ≤ d.clk ∧
    ipv4Mapped g = true ∧ d.ownGid 0 g = true ∧ ipv4Mapped 5 = false ∧ d.ownGid 0 5 = true ∧ d.ownGid 0 6 = false ∧
    0 ≠ d.f HPT_PFC_CTL.LOSSLESS := by
  refine ⟨?_, ?_, ?_, ?_, ?_, ?_, ?_, ?_, ?_, ?_, ?_, ?_, ?_, ?_, ?_, ?_, ?_, ?_⟩ <;> decide

theorem wit_HeatAndWickGoOn : let d : Dev := { wDev with clk := 10 ^ 12, tier := { wDev.tier with queues := [(0, [1, 2])], walks := [{ lantern := 0, idx := 4, dirty := false }, { lantern := 0, idx := 5, dirty := true }] } }
  d.tier.sweepNo < d.heatInterval ∧ d.dur.saving = false ∧ d.tier.sweepOn = false ∧ (lookD d.tier.queues 0 []).length < 192 ∧
    (d.tier.walks.find? (fun w => w.lantern == 0 && w.idx == 4)).isSome ∧
    d.tableFrozen 0 [{ idx := 4, off := 0, n := 0, pos := 0 }] = false ∧
    ({ d with regs := put (put d.regs (MDW_STAT.STATE 0).key chFrozen) 0 0, mdw := { d.mdw with stripe := [0] } } : Dev).tableFrozen 0
      [{ idx := 4, off := 0, n := 0, pos := 0 }] = true ∧
    d.on TIER_WICK_INV.BUSY = false ∧ (d.fset TIER_WICK_INV.BUSY 1).on TIER_WICK_INV.BUSY = true := by
  refine ⟨?_, ?_, ?_, ?_, ?_, ?_, ?_, ?_, ?_⟩ <;> decide

theorem wit_MigrationsStep : let m : Migration := { idx := 3, step := .quiescing, quiAt := 0 }
  let d : Dev := { wDev with clk := 10 ^ 9, rgn := [(1, { state := .online, size := 4, run := 4, policy := .pinHeath })]
                             tier := { wDev.tier with migs := [m, { m with idx := 4, step := .copying }, { m with idx := 5, step := .making }], waitDst := [(2, (.demand, .meadow))], home := [(1, { tier := .meadow, loc := 0 })] } }
  (.demand, .meadow) ∈ d.waiting 2 ∧ d.migOf 3 = some m ∧ d.plotOpen m = false ∧ m.quiAt + 4000 ≤ d.clk ∧
    (d.migOf 4).any (fun m => m.step == .copying && !m.frozen) ∧ (d.migOf 5).any (fun m => m.step == .making && m.dstTier == .meadow) ∧
    (d.regionOf 1).any (fun r => r.2.policy == .pinHeath) ∧ (d.entry 1).tier = .meadow ∧
    lookD ({ d with clk := 10 ^ 20 } : Dev).tier.lastWr 1 0 + d.f TIER_THRESH.PIN_QUIET * 1000000 ≤ 10 ^ 20 ∧
    d.tier.retryAt + 100000000 ≤ d.clk := by
  refine ⟨?_, ?_, ?_, ?_, ?_, ?_, ?_, ?_, ?_, ?_⟩ <;> decide

theorem wit_MigrationCopiesThePlot : Memory.wf wDev.mem.meadow ∧ Memory.wf wDev.mem.heath ∧ (wDev.entry 3).state ≠ .poisoned := by
  refine ⟨?_, ?_, ?_⟩ <;> decide

theorem wit_CommitMovesTheHome : let d : Dev := { wDev with tier := { wDev.tier with migs := [{ idx := 3, gen0 := 0 }, { idx := 4, gen0 := 9 }] } }
  d.migOf 3 = some { idx := 3, gen0 := 0 } ∧ (d.entry 3).gen = 0 ∧ d.migOf 4 = some { idx := 4, gen0 := 9 } ∧ (d.entry 4).gen ≠ 9 := by
  refine ⟨?_, ?_, ?_, ?_⟩ <;> decide

theorem wit_WickVictimSparesTheTouched : plruVictim (plruTouch 0 63 1 6) 1 0 6 ≠ 63 := by decide

theorem wit_TwinFramesKeepTheirOrder : let d : Dev := { wDev with clk := 5000000, twn := { wDev.twn with linkUp := true, rxSeq := 7, rxNctr := [(0, 3)] } }
  let e : Dev := { d with twn := { d.twn with tagFails := (List.range 16).map (fun i => 4900000 + i) } }
  d.twn.linkUp = true ∧ wDev.twn.linkUp = false ∧ ((d.clk :: d.twn.tagFails).filter (fun x => d.clk < x + 1000000)).length ≤ 16 ∧
    16 < ((e.clk :: e.twn.tagFails).filter (fun x => e.clk < x + 1000000)).length ∧ e.twn.linkUp = true ∧
    d.twinStale { nctr := 3 } = true ∧ d.twinNext { nctr := 4, seq := 7 } ∧ d.twinSound { nctr := 4 } ∧
    seqLe 6 d.twn.rxSeq = true ∧ seqLe 8 d.twn.rxSeq = false := by
  refine ⟨?_, ?_, ?_, ?_, ?_, ?_, ⟨⟨?_, ?_, ?_⟩, ?_⟩, ⟨?_, ?_, ?_⟩, ?_, ?_⟩ <;> decide

theorem wit_ReplicaMessagesAct : let d : Dev := { wDev with
    twn := { wDev.twn with linkUp := true, rxSeq := 7, reps := [{ msgid := 3, region := 1 }] }
    hpt := { wDev.hpt with ops := [{ id := 1, mirrored := true, msgid := 3, phase := .applied, whole := true },
      { id := 2, mirrored := true, msgid := 4 }] } }
  let h : TwHdr := { nctr := 4, seq := 7, msgid := 3 }
  let h2 : TwHdr := { nctr := 4, seq := 7, msgid := 4 }
  let v : Dev := { d with dur := { d.dur with saving := true } }
  d.twinNext h ∧ d.twinNext h2 ∧ v.twinNext h ∧ v.dur.saving = true ∧ d.dur.saving = false ∧ d.twn.side = false ∧
    ((d.twinTook h).rep 3).isSome ∧ ((d.twinTook h2).rep 4) = none ∧
    (((d.twinTook h).setOp 1 (fun y => { y with conf := true })).op 1).any
      (fun x => ((d.twinTook h).setOp 1 (fun y => { y with conf := true })).canDurable x) = true ∧
    (((d.twinTook h2).setOp 2 (fun y => { y with conf := true })).op 2).any
      (fun x => !((d.twinTook h2).setOp 2 (fun y => { y with conf := true })).canDurable x) = true := by
  refine ⟨⟨⟨?_, ?_, ?_⟩, ?_⟩, ⟨⟨?_, ?_, ?_⟩, ?_⟩, ⟨⟨?_, ?_, ?_⟩, ?_⟩, ?_, ?_, ?_, ?_, ?_, ?_, ?_⟩ <;> decide

theorem wit_SwapAndRegionFramesAct : let d : Dev := { wDev with
    rgn := [(1, { state := .online, size := 4, run := 4, mirror := .east }), (2, { state := .online, size := 4, base := 4, run := 4, mirror := .west })]
    twn := { wDev.twn with linkUp := true, rxSeq := 7, rgnPend := [{ region := 9, func := fnCreate, m := { region := 9 } }] } }
  let h : TwHdr := { nctr := 4, seq := 7, msgid := 3 }
  let e := d.twinTook h
  let o : Dev := { d with twn := { d.twn with swapOut := true, swapReg := 2 } }
  let w : Dev := { o with twn := { o.twn with side := true } }
  let b : Dev := { d with twn := { d.twn with returning := true } }
  let crossing (r : Nat) := e.twn.rgnPend.filter (fun p => p.region == r)
  d.twinNext h ∧ o.twinNext h ∧ w.twinNext h ∧ b.twinNext h ∧ (b.twinTook h).twn.returning = true ∧ e.twn.swapOut = false ∧
    (o.twinTook h).twn.swapOut = true ∧ (o.twinTook h).twn.side = false ∧ (w.twinTook h).twn.side = true ∧
    ((o.twinTook h).swapRegions.filter (fun r => !(o.twinTook h).primaryHere r.1 r.2)) ≠ [] ∧
    (e.swapRegions.filter (fun r => !e.primaryHere r.1 r.2)) = [] ∧ fnCreate ≠ fnHold ∧ fnCreate ≠ fnUnhold ∧ e.twn.returning = false ∧
    crossing 9 ≠ [] ∧ crossing 1 = [] ∧ e.cannotHold { region := 1, func := fnCreate } = some 1 ∧ crossing 7 = [] ∧
    e.cannotHold { region := 7, func := fnCreate } = none ∧ e.cannotHold { region := 1, func := fnKey } = none ∧
    (e.takePend 9 fnCreate).1.isSome ∧ (e.takePend 8 fnCreate).1 = none := by
  refine ⟨⟨⟨?_, ?_, ?_⟩, ?_⟩, ⟨⟨?_, ?_, ?_⟩, ?_⟩, ⟨⟨?_, ?_, ?_⟩, ?_⟩, ⟨⟨?_, ?_, ?_⟩, ?_⟩, ?_, ?_, ?_, ?_, ?_, ?_, ?_, ?_, ?_, ?_, ?_, ?_, ?_, ?_, ?_, ?_, ?_, ?_⟩ <;> decide

theorem wit_ResyncRuns : let d : Dev := { wDev with
    clk := 10000
    twn := { wDev.twn with linkUp := true, rxSeq := 7, refetch := [2], unacked := [{ mtype := 1, seq := 50 }] } }
  let b : Dev := { d with twn := { d.twn with returning := true } }
  let h : TwHdr := { nctr := 4, seq := 7 }
  let v (p : ResyncPhase) (l : List Nat) : Dev := { d with twn := { d.twn with rsSource := true, hello := true, rs := p, rsBits := l } }
  let p (x : Dev) := x.sendPages.fset TWN_RESYNC_STAT.PASSES (x.sendPages.f TWN_RESYNC_STAT.PASSES + 1)
  d.twinNext h ∧ b.twinNext h ∧ d.twinSound h ∧ (look (d.twinTook h).rgn 1).isSome ∧ (d.twinTook h).twn.returning = false ∧
    (b.twinTook h).twn.returning = true ∧ (d.twinTook h).twn.refetch.contains 2 = true ∧ d.twn.unacked = [{ mtype := 1, seq := 50 }] ∧
    (v .bulk []).twn.rs = .bulk ∧ (v .cutOver []).twn.hello = true ∧
    [0].length < ((v .catchUp [0]).fset TWN_RESYNC_CTL.CUT_PAGES 5).f TWN_RESYNC_CTL.CUT_PAGES ∧
    (p (((v .catchUp [0]).fset TWN_RESYNC_CTL.CUT_PAGES 0).fset TWN_RESYNC_CTL.MAX_PASS 9)).f TWN_RESYNC_STAT.PASSES < 9 := by
  refine ⟨⟨⟨?_, ?_, ?_⟩, ?_⟩, ⟨⟨?_, ?_, ?_⟩, ?_⟩, ⟨?_, ?_, ?_⟩, ?_, ?_, ?_, ?_, ?_, ?_, ?_, ?_, ?_⟩ <;> decide

theorem wit_PathsJudgeThePeer : let d : Dev := { ((wDev.fset TWN_CFG.ENABLE 1).fset TWN_CFG.LAMP_EN 1) with clk := 10 ^ 10, twn := { wDev.twn with linkUp := true, linkFaultAt := some 5 } }
  let d1 := (d.fset TWN_STAT.LINK_PATH 1).fset TWN_STAT.LAMP_PATH 1
  d.on TWN_CFG.ENABLE = true ∧ d.on TWN_CFG.LAMP_EN = true ∧ wDev.on TWN_CFG.ENABLE = false ∧ wDev.twn.linkUp = false ∧
    d1.f TWN_STAT.LAMP_PATH ≠ 0 ∧ (d1.fset TWN_STAT.LAMP_PATH 0).f TWN_STAT.LINK_PATH = 1 ∧
    d.f TWN_STAT.LINK_PATH = 0 ∧ d.lampPath = 0 ∧ d.twn.linkSeen + d.f TWN_CFG.DETECT_US * 1000 ≤ d.clk ∧ d.lampOn = true ∧
    lampStatus (List.replicate 8 (500, 1000)) = some .healthy ∧ lampStatus (List.replicate 8 (250, 1100)) = some .saving ∧
    8000 ≤ lampSpan .saving (List.replicate 8 (250, 1100)) ∧ ([] : List (Nat × Nat)).any lampPeriod = false ∧
    lampStatus (List.replicate 8 (600, 900)) = some .silent ∧ d.twn.linkFaultAt = some 5 ∧
    (d.fset TWN_STAT.LAMP_PATH 1).lampPath = 1 ∧ (d.fset TWN_STAT.LAMP_PATH 2).lampPath = 2 ∧
    (d1.fset TWN_STAT.LINK_PATH 2).lampPath = 1 ∧ (d1.fset TWN_STAT.LAMP_PATH 2).f TWN_STAT.LINK_PATH = 1 := by
  refine ⟨?_, ?_, ?_, ?_, ?_, ?_, ?_, ?_, ?_, ?_, ?_, ?_, ?_, ?_, ?_, ?_, ?_, ?_, ?_, ?_⟩ <;> decide

theorem wit_PathsJudgeThePeer_up : let d : Dev := { ((wDev.fset TWN_CFG.ENABLE 1).fset TWN_KEY.SLOT 3) with cph := { wDev.cph with slots := [(3, { usage := 2 })] } }
  d.twinCanUp 32 = true := by decide

theorem wit_FabricLinksRun : let d : Dev := { (((wDev.fset FAB_CFG.ENABLE 1).fset FAB_CFG.LINK_EN 0xFFFF).fset FAB_ID.VALID 1) with clk := 20000000, cph := { wDev.cph with slots := [(0, { usage := 2 })] }, fab := { wDev.fab with recompute := true, links := [(2, { rxSeq := 7, rxNctr := [(0, 3)], unacked := [{ mtype := 1, seq := 5 }] })], db := [{ serial := 9, id := none, steward := false, ver := 4, peers := [] }] } }
  let u := d.fset (FAB_LINK_STAT.STATE 2) linkUpState
  let h : FabHdr := { link := 2, seq := 7, nctr := 4 }
  d.fabCanUp 2 = true ∧ u.f (FAB_LINK_STAT.STATE 2) ≠ 0 ∧ u.fabLive 2 = true ∧ u.fabStale { h with nctr := 3 } = true ∧ u.fabNext h true ∧
    u.fabNext h false ∧ (u.fset FAB_ID.VALID 0).fabStale h = false ∧ (u.fset FAB_ID.VALID 0).on FAB_ID.VALID = false ∧
    u.fabSound { h with seq := 6 } true ∧ 6 ≠ ((u.fabNoted { h with seq := 6 }).flink 2).rxSeq ∧
    (u.fabTook h).fab.db.any (fun x => x.serial == 9 && decide (4 ≤ x.ver)) = true ∧
    (u.fabTook h).fab.db.any (fun x => x.serial == 9 && decide (5 ≤ x.ver)) = false ∧ u.fab.recompute = true ∧ (u.flink 2).unacked ≠ [] ∧
    ((u.fset DUR_EPOCH_CFG.TIME_SRC 1).fabTook h).f DUR_EPOCH_CFG.TIME_SRC = 1 := by
  refine ⟨?_, ?_, ?_, ?_, ⟨⟨?_, ?_, ?_, ?_⟩, ?_⟩, ⟨⟨?_, ?_, ?_, ?_⟩, ?_⟩, ?_, ?_, ⟨?_, ?_, ?_, ?_⟩, ?_, ?_, ?_, ?_, ?_, ?_⟩ <;> decide

theorem wit_FabricMessagesRun : let d : Dev := { (((wDev.fset FAB_CFG.ENABLE 1).fset FAB_CFG.LINK_EN 0xFFFF).fset FAB_ID.VALID 1) with clk := 20000000, fab := { wDev.fab with links := [(2, { rxSeq := 7, rxNctr := [(0, 3)] })], transit := [{ link := 2, since := 5, dst := 9, hops := 1, frame := { mtype := 1 } }], quarMidx := [(4, 5)], ctxs := [{ src := 3, msgid := 8, mtype := 1, len := 10, got := [], bytes := [], lastAt := 0, asked := 8, stamp := 0 }, { src := 3, msgid := 9, mtype := 1, len := 10, got := [], bytes := [], lastAt := 0, asked := 0, stamp := 0 }], routes := [(3, { links := [2] })], sent := [{ dst := 3, msgid := 8, midx := 8, mtype := 1, args := [], data := [], sentAt := 0 }], tombs := [{ src := 3, msgid := 7, setAt := 0 }] } }
  let u := d.fset (FAB_LINK_STAT.STATE 2) linkUpState
  let h : FabHdr := { link := 2, seq := 7, nctr := 4, dst := 5, hops := 0 }
  u.fabNext h false ∧ (u.fabTook h).selfId = 0 ∧ u.fab.transit.any (fun x => x.link == 2 && decide (x.since + 64000 ≤ u.clk)) = true ∧
    u.fab.quarMidx.any (fun q => q.1 == 4 && decide (q.2 + 2000000 ≤ u.clk)) = true ∧
    u.fab.quarMidx.any (fun q => q.1 == 5 && decide (q.2 + 2000000 ≤ u.clk)) = false ∧
    (u.fab.ctxs.find? (fun c => c.src == 3 && c.msgid == 8)).any (fun c => decide (8 ≤ c.asked)) = true ∧
    (u.fab.ctxs.find? (fun c => c.src == 3 && c.msgid == 9)).any (fun c => decide (c.asked < 8 ∧ c.lastAt + 50000 * (c.asked + 1) ≤ u.clk)) = true ∧
    (u.fab.sent.find? (fun x => x.dst == 3 && x.msgid == 8)).isSome = true ∧ (look u.fab.routes 3).any (fun r => !r.links.isEmpty) = true ∧
    u.fab.tombs.any (fun x => x.src == 3 && x.msgid == 7) = true ∧ u.fab.tombs.any (fun x => x.src == 3 && x.msgid == 8) = false ∧
    (u.fab.ctxs.find? (fun x => x.src == 3 && midxOf x.msgid == midxOf 8)).isSome = true := by
  refine ⟨⟨⟨?_, ?_, ?_, ?_⟩, ?_⟩, ?_, ?_, ?_, ?_, ?_, ?_, ?_, ?_, ?_, ?_, ?_⟩ <;> decide

theorem wit_ForwardingRuns : let d : Dev := { (wDev.fset FAB_ID.VALID 1) with clk := 2000000, tim := { wDev.tim with valid := true }, hpt := { wDev.hpt with ops := [{ id := 6, kind := .read }, { id := 7, kind := .fetchAdd, phase := .forwarded }] }, fab := { wDev.fab with fwd := [{ opId := 6, home := 2 }, { opId := 7, home := 2 }], fj := [{ origin := 1, home := 2, jseq := 3, state := .sent }, { origin := 1, home := 2, jseq := 4, state := .applied }] } }
  d.on FAB_ID.VALID = true ∧ d.dur.saving = false ∧ wDev.on FAB_ID.VALID = false ∧
    (d.fab.fwd.find? (fun x => x.opId == 6 && x.part == 0 && x.home == 2)).isSome ∧ (d.op 6).any (fun o => o.kind == .read) = true ∧
    (d.op 7).any (fun o => o.kind == .fetchAdd && o.phase == .forwarded) = true ∧ d.op 8 = none ∧
    d.fab.fwd.any (fun x => x.opId == 7 && decide (x.sentAt + 1000000 ≤ d.clk)) = true ∧
    (d.fab.fj.find? (fun f => f.same 1 2 3 && (f.state == .sent || f.state == .applied))).any (fun f => f.state == .sent) = true ∧
    (d.fab.fj.find? (fun f => f.same 1 2 4 && (f.state == .sent || f.state == .applied))).any (fun f => f.state != .sent) = true ∧
    (d.fab.fj.find? (fun f => f.same 1 2 3 && f.state == .sent)).any (fun x => decide (x.sentAt + x.hint * 1000 ≤ d.clk)) = true := by
  refine ⟨?_, ?_, ?_, ?_, ?_, ?_, ?_, ?_, ?_, ?_, ?_⟩ <;> decide

theorem wit_FabricSetRuns : let d : Dev := { ((wDev.fset FAB_ID.VALID 1).fset FAB_CFG.ENABLE 1) with fab := { wDev.fab with db := [{ serial := Config.serial, id := none, steward := true, ver := 4, peers := [] }], spans := [{ region := 3, voters := [2], ok := true }, { region := 4, voters := [2, 3], ok := true }], spanHeld := [{ region := 6 }], spanPend := [{ region := 7 }] } }
  let o : Dev := { d with fab := { d.fab with db := [{ serial := Config.serial + 1, id := none, steward := true, ver := 4, peers := [] }] } }
  let n : Dev := { d.fset FAB_ID.VALID 0 with fab := { d.fab with strapSrc := true } }
  0 = d.f FAB_ID.STEWARD ∧ d.on FAB_ID.VALID = true ∧ n.on FAB_ID.VALID = false ∧ d.on FAB_CFG.ENABLE = true ∧ n.fab.strapSrc = true ∧
    (d.grantId 5).isSome ∧ d.cannotHold { region := 1, func := fnKey } = none ∧ d.cannotHold { region := 9, func := fnKey } = some 2 ∧
    (d.fab.spans.find? (fun x => x.region == 3)).any (fun x => (x.voters.filter (fun v => v != 2)).isEmpty) = true ∧
    (d.fab.spans.find? (fun x => x.region == 4)).any (fun x => !(x.voters.filter (fun v => v != 2)).isEmpty) = true ∧
    d.fab.spans.find? (fun x => x.region == 6) = none ∧ (d.fab.spanHeld.find? (fun m => m.region == 6)).isSome ∧
    (d.fab.spanPend.find? (fun m => m.region == 7)).isSome := by
  refine ⟨?_, ?_, ?_, ?_, ?_, ?_, ?_, ?_, ?_, ?_, ?_, ?_, ?_⟩ <;> decide

theorem wit_FabricSetRuns_steward : let d : Dev := { wDev with fab := { wDev.fab with db := [{ serial := Config.serial, id := none, steward := true, ver := 4, peers := [] }] } }
  let o : Dev := { d with fab := { d.fab with db := [{ serial := Config.serial + 1, id := none, steward := true, ver := 4, peers := [] }] } }
  d.isSteward = true ∧ o.isSteward = false := by
  refine ⟨?_, ?_⟩
  · simp [Dev.isSteward, Dev.stewardRec]
  · simp [Dev.isSteward, Dev.stewardRec]

theorem wit_ChannelsTrainAndTick : let d : Dev := { (((((wDev.fset (MDW_STAT.STATE 1) chTraining).fset (MDW_STAT.STATE 2) chDraining).fset (MDW_REF.RFM_TH 0) 4).fset (MDW_STAT.STATE 3) chEmpty).fset (MDW_CFG.SET 1) 2).fset (MDW_REF.RFM_TH 1) 0 with clk := 200000000 }
  d.chanState 1 = chTraining ∧ d.chanState 0 = chOnline ∧ d.chanState 0 ≠ chAbsent ∧ d.chanState 0 ≠ chOff ∧ (d.chan 0).zqAt + 128000000 ≤ d.clk ∧
    (d.chan 0).dqsAt + 16000000 ≤ d.clk ∧ d.f (MDW_REF.RFM_TH 0) ≠ 0 ∧ d.f (MDW_REF.RFM_TH 1) = 0 ∧ d.chanDrained 2 = true ∧ d.mdw.relay = none := by
  refine ⟨?_, ?_, ?_, ?_, ?_, ?_, ?_, ?_, ?_, ?_⟩ <;> decide

theorem wit_ChannelsTrainAndTick_fits : let d : Dev := { wDev.fset (MDW_STAT.STATE 1) chTraining with core := {} }
  let r : TrainResult := {}
  (d.noteTraining 1 r).fitsSet 1 r = true ∧ r.type ≠ 3 ∧ ({ r with pass := false } : TrainResult).pass = false := by
  refine ⟨?_, ?_, ?_⟩ <;> decide

theorem wit_ChannelsFreezeAndThaw : let d : Dev := { (((((wDev.fset (MDW_STAT.STATE 1) chTraining).fset (MDW_STAT.STATE 2) chDraining).fset (MDW_STAT.STATE 4) chFrozen).fset (MDW_STAT.STATE 3) chEmpty).fset (MDW_CHK.EN 3) 1) with mdw := { wDev.mdw with chans := [(3, { raw := [(0, 5)] })] } }
  let b := ((d.fset (MDW_FRZ.THAW_BUSY 4) 1).fset (MDW_PAT.BUSY 3) 1).fset (MDW_PAT.OP 3) 1
  d.chanState 0 = chOnline ∧ d.chanState 2 = chDraining ∧ d.chanState 3 = chEmpty ∧ d.chanState 1 = chTraining ∧ d.chanState 4 = chFrozen ∧
    d.on (MDW_FRZ.THAW_BUSY 4) = false ∧ b.on (MDW_FRZ.THAW_BUSY 4) = true ∧ d.on (MDW_PAT.BUSY 3) = false ∧ b.on (MDW_PAT.BUSY 3) = true ∧
    (b.fset (MDW_PAT.BUSY 3) 0).f (MDW_PAT.OP 3) ≠ 0 ∧ d.f (MDW_PAT.OP 3) = 0 ∧ d.on (MDW_CHK.EN 3) = true ∧ d.f (MDW_CHK.OP 3) = 0 ∧
    (d.fset (MDW_CHK.OP 3) 1).f (MDW_CHK.OP 3) ≠ 0 ∧ look (d.chan 3).raw (d.f (MDW_CHK.LINE 3)) = some 5 ∧
    look ((d.fset (MDW_CHK.LINE 3) 9).chan 3).raw ((d.fset (MDW_CHK.LINE 3) 9).f (MDW_CHK.LINE 3)) = none := by
  refine ⟨?_, ?_, ?_, ?_, ?_, ?_, ?_, ?_, ?_, ?_, ?_, ?_, ?_, ?_, ?_, ?_⟩ <;> decide

theorem wit_ChannelsFreezeAndThaw_drain : let d : Dev := { (wDev.fset (MDW_STAT.STATE 0) chDraining).fset (MDW_CFG.SET 0) 0 with tier := { wDev.tier with home := [(3, { tier := .meadow, loc := 0 })] } }
  ((d.meadowOf 0 (0 * 64)).bind (fun a => d.idxOfPlot (a / plotBytes))).isSome = true := by decide

theorem wit_HeathOperationsComplete : let o : Op := { id := 6, kind := .read, phase := .issued, rkey := 0x00100000, off := 0, len := 4 }
  let d : Dev := { (((((wDev.fset (HTH_DIE.STATE 0 1) 1).fset (HTH_MOD_STAT.STATE 2) modInit).fset (HTH_MOD_STAT.STATE 3) modDraining).fset (HTH_MOD_STAT.STATE 4) modOnline)) with clk := 10 ^ 10, hpt := { wDev.hpt with ops := [o] }, tier := { wDev.tier with home := [(0, { tier := .fast, loc := 3 })] }, hth := { wDev.hth with dies := [(1, { busy := some (opPslc, 5), why := whyMig }), (2, { padFrom := some 5 }), (3, { busy := some (opErase, 5) })] } }
  (d.die 1).busy.any (fun b => b.1 == opPslc || b.1 == opNative) = true ∧ (d.die 3).busy.any (fun b => b.1 != opErase) = false ∧
    d.f (HTH_DIE.STATE 0 1) = 1 ∧ d.op 7 = none ∧ (d.op 6).isSome ∧ (look d.rgn o.rid).isSome ∧
    (look d.rgn o.rid).any (fun g => ((d.heathTouches (d.opTouches o g o.off o.len))[o.appl]?).isSome) = true ∧
    (d.die 2).padFrom = some 5 ∧ 5 + d.f (HTH_SCHED.PAD_US 0) * 1000 ≤ d.clk ∧ (d.fset (HTH_DIE.STATE 0 2) 1).canProgram 2 = true ∧
    d.f (HTH_MOD_STAT.STATE 2) = modInit ∧ d.modFits 2 { dies := 17 } = false ∧ d.modFits 2 {} = true ∧ d.f (HTH_MOD_STAT.STATE 4) = modOnline ∧
    d.modTemp 4 (some 30) = some 30 ∧ d.f (HTH_MOD_STAT.STATE 3) = modDraining ∧ d.plotsOnModule 3 = [] := by
  refine ⟨?_, ?_, ?_, ?_, ?_, ?_, ?_, ?_, ?_, ?_, ?_, ?_, ?_, ?_, ?_, ?_, ?_⟩ <;> decide

theorem wit_ClaimsSettleTheSurvivor : let c (k : Nat) : Dev := { wDev.fset TWN_STAT.CLAIM k with clk := 10 ^ 9 }
  let r : Dev := { (c claimFailed).fset TWN_CFG.ENABLE 1 with twn := { wDev.twn with declared := true } }
  let i : Dev := { (wDev.fset TWN_STAT.SNUF_IN 1).fset TWN_STAT.FENCE_WR 1 with clk := 10 ^ 9 }
  let o : Dev := { wDev with clk := 10 ^ 9, twn := { wDev.twn with snufOffAt := some 5, backoff := some 5, adopted := [(2, 1)], side := true } }
  let sw : Dev := { wDev with twn := { wDev.twn with linkUp := true, hello := true } }
  (c claimAsserting).f TWN_STAT.CLAIM = claimAsserting ∧ (c claimAsserting).twn.snufOutAt + 1000 ≤ (c claimAsserting).clk ∧ r.f TWN_STAT.CLAIM = claimFailed ∧
    r.twn.snufOutAt + 100000 ≤ r.clk ∧ r.claimWanted = true ∧ r.twn.snufOut = false ∧ r.on TWN_STAT.SNUF_IN = false ∧ r.dur.saving = false ∧
    (c claimAsserting).twn.holdFrom + 10000 ≤ (c claimAsserting).clk ∧ (c claimAsserting).on TWN_STAT.SNUF_IN = false ∧ wDev.twn.side = false ∧ o.twn.side = true ∧
    i.on TWN_STAT.SNUF_IN = true ∧ i.on TWN_STAT.FENCE_WR = true ∧ i.twn.snufInAt + 5000 ≤ i.clk ∧ o.on TWN_STAT.SNUF_IN = false ∧ o.twn.snufOffAt = some 5 ∧
    5 + 1000 ≤ o.clk ∧ (c claimBackoff).f TWN_STAT.CLAIM = claimBackoff ∧ look o.twn.adopted 2 = some 1 ∧ o.twn.promotedAt + 1 * 1000000 ≤ o.clk ∧
    wDev.on TWN_CTL.SWAP_BUSY = false ∧ sw.twn.linkUp = true ∧ sw.twn.hello = true ∧ sw.twn.declared = false ∧ sw.twn.isolated = false ∧ sw.twn.swapIn = none ∧
    wDev.f TWN_STAT.PEER ≠ peerInSync ∧ (wDev.fset TWN_STAT.PEER peerInSync).f TWN_STAT.PEER = peerInSync ∧ wDev.slotLoaded (wDev.twinSlot 1) 2 = false := by
  refine ⟨?_, ?_, ?_, ?_, ?_, ?_, ?_, ?_, ?_, ?_, ?_, ?_, ?_, ?_, ?_, ?_, ?_, ?_, ?_, ?_, ?_, ?_, ?_, ?_, ?_, ?_, ?_, ?_, ?_, ?_⟩ <;> decide

theorem wit_RingCommandsTakeTheirTurn : let d : Dev := { wDev with ring := { wDev.ring with cmds := [{ id := 4, op := ocFlush, body := [0, 0, 0, 0, 0, 0] }, { id := 5, op := ocFlush, body := [0, 0, 0, 0, 0, 1] }, { id := 6, op := ocStage, ring := 1, body := [0, 0, 0, 0, 0, 0] }] } }
  let h := d.fset FWM_STAT.HOLD 1
  d.turnOf 4 ocFlush anyCmd { id := 4, op := ocFlush, body := [0, 0, 0, 0, 0, 0] } ∧ d.cmd 9 = none ∧ ocFlush ≠ ocAbort ∧
    (h.cmd 6).any (fun c => h.startable c && h.heldBack c && (h.badField c).isNone) = true ∧
    ({ d with ring := { d.ring with cmds := d.ring.cmds.drop 1 } } : Dev).ring.cmds.any (fun c => c.id == 5 && d.badField c == some 56) = true := by
  refine ⟨⟨?_, ?_, ?_, ?_, ?_, ?_⟩, ?_, ?_, ?_, ?_⟩ <;> decide

theorem wit_DoorbellAndDescriptors : let d : Dev := { (wDev.fset RING_DB_CFG.EN 1).fset (RING_SQ_CFG.EN 2) 1 with ring := { wDev.ring with toFetch := [(2, 3)] } }
  let f : Dev := { d with ring := { d.ring with fetching := true } }
  d.serves = true ∧ d.on RING_DB_CFG.EN = true ∧ d.ring.fetching = false ∧ d.asleep 15 = false ∧ f.ring.fetching = true ∧ f.coreOn = true ∧
    look d.ring.toFetch 2 = some 3 ∧ d.ring.stopFetch = false ∧ d.on (RING_SQ_CFG.EN 2) = true ∧ look d.ring.toFetch 3 = none ∧
    wDev.on (RING_SQ_CFG.EN 2) = false ∧ State.reset.dev.serves = false := by
  refine ⟨?_, ?_, ?_, ?_, ?_, ?_, ?_, ?_, ?_, ?_, ?_, ?_⟩ <;> decide

theorem wit_OrderingCommandsAct : let z : List (BitVec 64) := [0, 0, 0, 0, 0, 0]
  let d (l : List Cmd) : Dev := { wDev.fset (RING_SQ_CFG.EN 0) 1 with clk := 10 ^ 9, ring := { wDev.ring with cmds := l } }
  let a : Cmd := { id := 9, op := ocAbort, ring := 1, body := z }
  let f : Cmd := { id := 9, op := ocFlush, body := z }
  let w : Cmd := { id := 9, op := ocWait, body := [0, 5, 0, 0, 0, 0] }
  let x : Cmd := { id := 3, op := ocCopy, body := z }
  let y : Cmd := { id := 3, op := ocPin, body := z }
  let v : Cmd := { w with running := true }
  (d [a]).turnOf 9 ocAbort anyCmd a ∧ ((d [a]).begun 9 a).abortTarget ((d [a]).now_ a) = none ∧
    (d [x, a]).turnOf 9 ocAbort anyCmd a ∧ ((d [x, a]).begun 9 a).abortTarget ((d [x, a]).now_ a) = some x ∧
    ((d [{ x with running := true }, a]).begun 9 a).abortTarget a = some { x with running := true } ∧ abortOps.contains ocCopy = true ∧
    abortOps.contains ocPin = false ∧ (d [f]).turnOf 9 ocFlush anyCmd f ∧ (d [w]).turnOf 9 ocWait anyCmd w ∧ (d [v]).cmd 9 = some v ∧
    v.u32 24 ≠ 0 ∧ v.started + v.u32 24 * 1000 ≤ (d [v]).clk ∧ (d [v]).on (RING_SQ_CFG.EN 0) = true := by
  refine ⟨⟨?_, ?_, ?_, ?_, ?_, ?_⟩, ?_, ⟨?_, ?_, ?_, ?_, ?_, ?_⟩, ?_, ?_, ?_, ?_, ⟨?_, ?_, ?_, ?_, ?_, ?_⟩, ⟨?_, ?_, ?_, ?_, ?_, ?_⟩, ?_, ?_, ?_, ?_⟩ <;> decide

theorem wit_ConfigTransactionsRun : let z : List (BitVec 64) := [0, 0, 0, 0, 0, 0]
  let k : Cmd := { id := 9, op := ocCommit, body := z }
  let m : Cmd := { id := 9, op := ocCommit, body := [1, 9, 0, 0, 0, 0] }
  let d : Dev := { wDev with clk := 10 ^ 9, store := { wDev.store with dirty := true }, ring := { wDev.ring with cmds := [k] } }
  let e : Dev := { d with ring := { d.ring with cmds := [m] } }
  d.serves = true ∧ d.f CFX_CTL.STATE = 0 ∧ (d.fset CFX_CTL.STATE 1).f CFX_CTL.STATE = 1 ∧ (d.fset CFX_CTL.HOLDER holderHost).f CFX_CTL.HOLDER = holderHost ∧
    d.on CFX_CTL.GRANT = false ∧ (d.fset CFX_CTL.GRANT 1).on CFX_CTL.GRANT = true ∧ (d.fset CFX_CTL.HOLDER holderSide).f CFX_CTL.HOLDER = holderSide ∧
    d.turnOf 9 ocCommit anyCmd k ∧ d.f CFX_CTL.HOLDER ≠ holderSide ∧ (d.now_ k).byte 16 = 0 ∧ (d.now_ m).byte 16 ≠ 0 ∧
    (d.fset CFX_CTL.STATE 3).f CFX_CTL.STATE = 3 ∧ (d.fset CFX_CTL.STATE 2).f CFX_CTL.STATE = 2 ∧ d.store.dirty = true ∧ wDev.store.dirty = false ∧ d.cfx.applyAt ≤ d.now := by
  refine ⟨?_, ?_, ?_, ?_, ?_, ?_, ?_, ⟨?_, ?_, ?_, ?_, ?_, ?_⟩, ?_, ?_, ?_, ?_, ?_, ?_, ?_, ?_⟩ <;> decide

theorem wit_RegionCommandsAct : let body (f r : Nat) : List (BitVec 64) := [BitVec.ofNat 64 (r + f * 4096), 4, 0, 4, 0, 0]
  let k (f : Nat) : Cmd := { id := 9, op := ocRegion, body := body f 1 }
  let n : Cmd := { id := 9, op := ocRegion, body := body 0 7 }
  let o : Cmd := { id := 9, op := ocDestroy, body := [1, 0, 0, 0, 0, 0] }
  let d (l : List Cmd) : Dev := { wDev.fset CPH_RNG_STAT.STATE rngReady with ring := { wDev.ring with cmds := l }, core := { wDev.core with phaseADone := true } }
  (d [n]).turnOf 9 ocRegion ((d [n]).regionFits fnCreate) n ∧ n.func = fnCreate ∧ (k 4).func = fnGrow ∧
    (d [k 2]).turnOf 9 ocRegion ((d [k 2]).regionFits fnSeal) (k 2) ∧ (d [o]).turnOf 9 ocDestroy anyCmd o ∧ (d []).tim.valid = true ∧
    State.reset.dev.tim.valid = false ∧ (d []).createBar ((d []).createMsg (k 0) []) = some 1 ∧ (d []).createBar ((d []).createMsg n []) = none ∧
    (look (d []).rgn 1).any (fun r => !stateForbids fnDestroy r) = true ∧ look (d []).rgn 7 = none ∧
    (d []).cannotHold { region := 1, func := fnSeal } = none ∧ ((d []).holdChange { region := 1, func := fnSeal }).changesAlone = true := by
  refine ⟨⟨?_, ?_, ?_, ?_, ?_, ?_⟩, ?_, ?_, ⟨?_, ?_, ?_, ?_, ?_, ?_⟩, ⟨?_, ?_, ?_, ?_, ?_, ?_⟩, ?_, ?_, ?_, ?_, ?_, ?_, ?_, ?_⟩ <;> decide

theorem wit_DataCommandsAct : let k (op : Nat) (b : List (BitVec 64)) : Cmd := { id := 9, op := op, body := b }
  let d (l : List Cmd) : Dev := { wDev with ring := { wDev.ring with cmds := l }, core := { wDev.core with phaseADone := true } }
  let cp := k ocCopy [0x00010001, 0, 64, 64, 0, 0]
  let fl := k ocFill [1, 0, 0, 64, 0, 0]
  let hi := k ocHint [1, 0, 0, 4, 0, 0]
  let pi := k ocPin [0x10001, 0, 0, 4, 0, 0]
  let sn := k ocSealNow [1, 0, 0, 0, 0, 0]
  let sc : Cmd := { k ocScrub [1, 0, 0, 4, 0, 0] with result := 64 }
  let e0 := k ocEvacuate [0, 0, 0, 0, 0, 0]
  let e1 := k ocEvacuate [1, 0, 0, 0, 0, 0]
  (d []).dataRegion 1 = true ∧ (d []).dataRegion 2 = false ∧ cp.src.1 = 1 ∧ cp.dest.1 = 1 ∧ (d [cp]).turnOf 9 ocCopy anyCmd cp ∧ (d [fl]).turnOf 9 ocFill anyCmd fl ∧
    (d [hi]).turnOf 9 ocHint anyCmd hi ∧ (d [pi]).turnOf 9 ocPin anyCmd pi ∧ pi.byte 18 % 2 = 1 ∧ (d [sn]).turnOf 9 ocSealNow anyCmd sn ∧
    (d [sc]).turnOf 9 ocScrub anyCmd sc ∧ (d [e0]).turnOf 9 ocEvacuate (fun c => c.func == 0) e0 ∧ (d [e1]).turnOf 9 ocEvacuate (fun c => c.func == 1) e1 := by
  refine ⟨?_, ?_, ?_, ?_, ⟨?_, ?_, ?_, ?_, ?_, ?_⟩, ⟨?_, ?_, ?_, ?_, ?_, ?_⟩, ⟨?_, ?_, ?_, ?_, ?_, ?_⟩, ⟨?_, ?_, ?_, ?_, ?_, ?_⟩, ?_, ⟨?_, ?_, ?_, ?_, ?_, ?_⟩, ⟨?_, ?_, ?_, ?_, ?_, ?_⟩, ⟨?_, ?_, ?_, ?_, ?_, ?_⟩, ⟨?_, ?_, ?_, ?_, ?_, ?_⟩⟩ <;> decide

theorem wit_FirmwareCommandsAct : let z : List (BitVec 64) := [0, 4096, 0, 0, 0, 0]
  let st : Cmd := { id := 9, op := ocStage, body := [0, 4096, 0x100000000000, 0, 0, 0] }
  let sf : Cmd := { id := 9, op := ocStage, body := [0, 4096, 0x100000000000, 1, 0, 0] }
  let ac : Cmd := { id := 9, op := ocActivate, body := [0, 0, 0, 0, 0, 0] }
  let cf : Cmd := { id := 9, op := ocConfirm, body := [0, 0, 0, 0, 0, 0] }
  let d (l : List Cmd) : Dev := { (wDev.fset (FWM_SLOT.STATE 0) fwUnconfirmed).fset (FWM_SLOT.STATE 1) fwPrevious with clk := 10 ^ 11, ring := { wDev.ring with cmds := l, barrier := some 9 }, fwm := { wDev.fwm with window := some 5 } }
  (d [st]).turnOf 9 ocStage anyCmd st ∧ (d [sf]).turnOf 9 ocStage anyCmd sf ∧ sf.byte 40 % 2 = 1 ∧ st.byte 40 % 2 = 0 ∧ (d []).sbp.update = false ∧
    (d []).stageBarred = true ∧ wDev.stageBarred = false ∧ (d [ac]).turnOf 9 ocActivate anyCmd ac ∧ ((d [ac]).begun 9 ac).activateBarred = true ∧
    ((((d [ac]).fset (FWM_SLOT.STATE 1) fwStaged).begun 9 ac).activateBarred) = false ∧
    (d [ac]).ring.barrier.bind (d [ac]).cmd = some ac ∧ ac.started + 10000000000 ≤ (d [ac]).clk ∧ (d []).mayRotate = false ∧
    ({ d [] with fwm := { wDev.fwm with rotating := true } } : Dev).mayRotate = true ∧ (d [cf]).turnOf 9 ocConfirm anyCmd cf ∧ (d []).fwm.window = some 5 ∧
    (d []).canRollBack = true ∧ wDev.canRollBack = false := by
  refine ⟨⟨?_, ?_, ?_, ?_, ?_, ?_⟩, ⟨?_, ?_, ?_, ?_, ?_, ?_⟩, ?_, ?_, ?_, ?_, ?_, ⟨?_, ?_, ?_, ?_, ?_, ?_⟩, ?_, ?_, ?_, ?_, ?_, ?_, ⟨?_, ?_, ?_, ?_, ?_, ?_⟩, ?_, ?_, ?_⟩ <;> decide

theorem wit_AgeingAndRepairGoOn : let sh : Cmd := { id := 9, op := ocShort, body := [0, 0, 0, 0, 0, 0] }
  let ex : Cmd := { id := 9, op := ocExtended, body := [0, 0, 0, 0, 0, 0] }
  let d (l : List Cmd) : Dev := { wDev with clk := 10 ^ 17, ring := { wDev.ring with cmds := l }, age := { wDev.age with removed := [2], retrain := [(2, 5)], plan := some { voltMv := 900 } } }
  let r : Dev := { d [ex] with age := { wDev.age with selftest := some 9 } }
  (d [sh]).turnOf 9 ocShort anyCmd sh ∧ (d [ex]).turnOf 9 ocExtended anyCmd ex ∧ wDev.age.selftest = none ∧ r.age.selftest.bind r.cmd = some ex ∧
    ex.op ≠ ocShort ∧ wDev.lanternUp 14 = true ∧ State.reset.dev.lanternUp 14 = false ∧ (d []).age.removed.contains 2 = true ∧ wDev.age.removed.contains 2 = false ∧
    look (d []).age.retrain 2 = some 5 ∧ 5 + 1000000000 ≤ (d []).clk ∧ (d []).chanState 0 = chOnline ∧
    lookD (d []).age.sweptAt 0 0 + (d []).f AGE_CTL.SWEEP_H * 3600000000000 ≤ (d []).clk ∧ wDev.dur.saving = false ∧
    (d []).age.plan = some { voltMv := 900 } ∧ (d []).f AGE_PLAN_STAT.VCORE_MV < 900 ∧ (d []).age.voltReq = false ∧
    (d []).dur.openEp * 1000000 ≤ (d []).now + 1000000 ∧ (d []).coreOn = true ∧ ((d []).workingSlots 0).contains 3 = true := by
  refine ⟨⟨?_, ?_, ?_, ?_, ?_, ?_⟩, ⟨?_, ?_, ?_, ?_, ?_, ?_⟩, ?_, ?_, ?_, ?_, ?_, ?_, ?_, ?_, ?_, ?_, ?_, ?_, ?_, ?_, ?_, ?_, ?_, ?_⟩ <;> decide

theorem wit_RecorderActs : let lc : Cmd := { id := 9, op := ocLogClear, body := [0, 0, 0, 0, 0, 0] }
  let lf : Cmd := { id := 9, op := ocLogFetch, result := 4096, body := [0x10000, 0, 0, 0, 0, 0] }
  let d (l : List Cmd) : Dev := { wDev with ring := { wDev.ring with cmds := l }, pwr := { wDev.pwr with boardOn := true }, evt := { wDev.evt with pba := [3], dirtyAt := some 0 } }
  (d [lc]).turnOf 9 ocLogClear anyCmd lc ∧ (d [lf]).turnOf 9 ocLogFetch anyCmd lf ∧ (d []).recordsFrom 0 1 = [] ∧ (d []).evt.pba.contains 3 = true ∧
    (d []).evt.pba.contains 4 = false ∧ (d []).evt.dirtyAt ≠ none ∧ (d []).coreOn = true ∧ wDev.evt.dirtyAt = none ∧ wDev.windowRecord = none ∧
    (wDev.raise (source 4 0) 2 0 0 0).windowRecord ≠ none ∧ ((wDev.raise (source 4 0) 2 0 0 0).recordsFrom 0 1) ≠ [] ∧ wDev.sbp.notify = [] ∧
    (d []).pwr.boardOn = true ∧ ((d []).fset EVR_WIN_CTL.AUTO 0).on EVR_WIN_CTL.AUTO = false ∧ (d []).on EVR_WIN_CTL.AUTO = true := by
  refine ⟨⟨?_, ?_, ?_, ?_, ?_, ?_⟩, ⟨?_, ?_, ?_, ?_, ?_, ?_⟩, ?_, ?_, ?_, ?_, ?_, ?_, ?_, ?_, ?_, ?_, ?_, ?_, ?_⟩ <;> decide

theorem wit_CountersAct : let z (f : Nat) : Cmd := { id := 9, op := ocPmc, body := [BitVec.ofNat 64 (f + 0x0100000000), 4096, 1000 + 4 * 2 ^ 32, 0, 0, 0] }
  let d (l : List Cmd) : Dev := { wDev.fset PMC_DUMP_STAT.INTERVAL_US 1000 with clk := 10 ^ 10, ring := { wDev.ring with cmds := l }, pmc := { wDev.pmc with sels := [{ ctr := 0, event := 1, inst := 0, all := false }] } }
  (d [z 0]).turnOf 9 ocPmc (fun c => c.func == 0 || c.func == 3) (z 0) ∧ (d [z 1]).turnOf 9 ocPmc (fun c => c.func == 1) (z 1) ∧
    (d [z 2]).turnOf 9 ocPmc (fun c => c.func == 2) (z 2) ∧ (z 1).u32 32 ≠ 0 ∧ (d []).f PMC_DUMP_STAT.INTERVAL_US ≠ 0 ∧ (d []).coreOn = true ∧
    (d []).pmc.snap.takenAt < (d []).now / ((d []).f PMC_DUMP_STAT.INTERVAL_US * 1000) * ((d []).f PMC_DUMP_STAT.INTERVAL_US * 1000) ∧
    wDev.on PMC_DUMP_STAT.INTERVAL_US = false ∧ ({ wDev with clk := 10 ^ 10 } : Dev).pmc.snap.takenAt < ({ wDev with clk := 10 ^ 10 } : Dev).now / 1000000 * 1000000 ∧
    (d []).pmc.bwAt + (d []).f PMC_BW_CTL.WIN_US * 1000 ≤ (d []).now := by
  refine ⟨⟨?_, ?_, ?_, ?_, ?_, ?_⟩, ⟨?_, ?_, ?_, ?_, ?_, ?_⟩, ⟨?_, ?_, ?_, ?_, ?_, ?_⟩, ?_, ?_, ?_, ?_, ?_, ?_, ?_⟩ <;> decide

theorem wit_KeysAndAlarmAct : let go (op usage slot : Nat) : Nat := 2 ^ 63 + op * 2 ^ 56 + usage * 2 ^ 24 + slot
  let e : Dev := { wDev.fset CPH_CTL.TAMPER_EN 1 with cph := { wDev.cph with blobs := [(7, { usage := 1 })], sinceSeed := 2 ^ 20 } }
  wDev.coreOn = true ∧ bitsOf (go 0 1 5) 63 63 = 1 ∧ bitsOf (go 0 1 5) 57 56 = 0 ∧ bitsOf (go 1 1 7) 57 56 = 1 ∧ wDev.on CPH_KEY_LOAD.BUSY = false ∧
    0xF00 ≤ (wDev.keyFields (go 0 1 0xF01)).f CPH_KEY_LOAD.SLOT ∧ (wDev.keyFields (go 0 1 5)).f CPH_KEY_LOAD.SLOT = 5 ∧ (wDev.keyFields (go 0 1 5)).slotBound 5 = false ∧
    (wDev.keyFields (go 0 9 5)).f CPH_KEY_LOAD.USAGE = 9 ∧ (wDev.keyFields (go 0 1 5)).f CPH_KEY_LOAD.USAGE = 1 ∧ wDev.cph.alarmed = false ∧
    look (e.keyFields (go 1 1 7)).cph.blobs 7 ≠ none ∧ look e.cph.blobs 5 = none ∧
    e.on CPH_CTL.TAMPER_EN = true ∧ (wDev.fset CPH_CTL.TAMPER_EN 0).on CPH_CTL.TAMPER_EN = false ∧ wDev.rngUp = false ∧ 2 ^ 20 ≤ e.cph.sinceSeed := by
  refine ⟨?_, ?_, ?_, ?_, ?_, ?_, ?_, ?_, ?_, ?_, ?_, ?_, ?_, ?_, ?_, ?_, ?_⟩ <;> decide

theorem wit_KeysAndAlarmAct_jobs : let j : Cmd := { id := 9, op := ocJob, body := [0x0000001000010007, 4096, 8192, 12288, 0, 0] }
  let bl : Cmd := { id := 9, op := ocBlob, body := [0, 0, 0, 0, 0, 0] }
  let d (l : List Cmd) (s : List (Nat × Slot)) : Dev := { wDev with ring := { wDev.ring with cmds := l }, cph := { wDev.cph with slots := s } }
  let w : Dev := { d [j] [] with clk := 10 ^ 9, cph := { wDev.cph with jobs := [{ cmdId := 9, since := 5 }] } }
  (d [bl] []).turnOf 9 ocBlob anyCmd bl ∧ (d [j] []).turnOf 9 ocJob anyCmd j ∧ (d [j] []).cph.jobs.any (fun j => j.cmdId == 9) = false ∧
    (d [j] []).jobBar j = some crKeyEmpty ∧ (d [j] [(7, { usage := 1, job := true })]).jobBar j = none ∧ wDev.rngUp = false ∧
    (wDev.fset CPH_RNG_STAT.STATE rngReady).rngUp = true ∧ w.cph.jobs.find? (fun j => j.cmdId == 9) = some { cmdId := 9, since := 5 } ∧ w.cmd 9 = some j ∧ w.cph.jobs.any (fun j => j.cmdId == 9) = true ∧
    5 + 100000000 ≤ w.clk := by
  refine ⟨⟨?_, ?_, ?_, ?_, ?_, ?_⟩, ⟨?_, ?_, ?_, ?_, ?_, ?_⟩, ?_, ?_, ?_, ?_, ?_, ?_, ?_, ?_, ?_⟩ <;> decide

theorem wit_GovernorAndSealsGoOn : let e : Dev := { wDev with clk := 100, dur := { wDev.dur with rise := [(2000, 50)], closed := [3], isOpen := false, dirty := [{ page := 1, epoch := 5 }] } }
  let m : Dev := ((e.fset (HTH_MOD_STAT.STATE 0) modOnline).fset (HTH_MOD_STAT.STATE 1) modOnline).fset (DUR_MOD.DUTY 0) 1
  let w : Dev := { wDev.fset DUR_BUDGET_STAT.WT 1 with dur := { wDev.dur with wtDrained := false } }
  let g : Dev := { wDev with dur := { wDev.dur with budget := 100, dirty := (List.range 60).map (fun p => { page := p, epoch := 1 }) } }
  (wDev.dur.rise.filter (fun r => decide (r.2 ≤ wDev.clk))).getLast? = none ∧
    (e.dur.rise.filter (fun r => decide (r.2 ≤ e.clk))).getLast? = some (2000, 50) ∧ (m.fset (DUR_MOD.DUTY 1) 1).writesImages 1 = true ∧ m.f (HTH_MOD_STAT.STATE 0) = modOnline ∧ m.modWindow 0 ≤ 1 ∧
    wDev.f (HTH_MOD_STAT.STATE 0) ≠ modOnline ∧ m.writesImages 0 = true ∧ wDev.writesImages 0 = false ∧ e.dur.closed.head? = some 3 ∧
    e.epochHeld 3 = false ∧ e.awaitsEoe 3 = false ∧ wDev.dur.closed.head? ≠ some 3 ∧ w.on DUR_BUDGET_STAT.WT = true ∧ w.dur.wtDrained = false ∧
    w.dirtyPages = 0 ∧ wDev.on DUR_BUDGET_STAT.WT = false ∧ wDev.stageNow ≠ 2 ∧ g.stageNow ≠ 0 := by
  refine ⟨?_, ?_, ?_, ?_, ?_, ?_, ?_, ?_, ?_, ?_, ?_, ?_, ?_, ?_, ?_, ?_, ?_, ?_⟩ <;> decide

theorem wit_TimeAndEpochsGoOn : let e : Dev := { wDev.fset FAB_ID.VALID 1 with clk := 10 ^ 12, tim := { wDev.tim with valid := false, waitFrom := 5 }, dur := { wDev.dur with isOpen := true, openEp := 1 }, fab := { wDev.fab with members := [{ id := 3 }] } }
  let h : Dev := { wDev.fset DUR_TIME_STAT.STATE timeHoldover with clk := 10 ^ 15 }
  let u : Dev := { e with core := { stage := 3, transport := false } }
  e.dur.isOpen = true ∧ e.dur.openEp * 1000000 ≤ e.now ∧ e.dur.saving = false ∧ wDev.now < wDev.dur.openEp * 1000000 ∧ wDev.f DUR_TIME_STAT.STATE ≠ timeLocked ∧
    (wDev.fset DUR_TIME_STAT.STATE timeLocked).f DUR_TIME_STAT.STATE = timeLocked ∧ h.f DUR_TIME_STAT.STATE = timeHoldover ∧
    h.tim.lostAt + h.f DUR_EPOCH_CFG.HOLD_MAX_S * 1000000000 < h.clk ∧ e.coreOn = true ∧ e.tim.waitFrom + 10000000000 ≤ e.clk ∧ e.f DUR_EPOCH_CFG.TIME_SRC ≠ 2 ∧
    (wDev.fset DUR_EPOCH_CFG.TIME_SRC 2).f DUR_EPOCH_CFG.TIME_SRC = 2 ∧ e.isSteward = true ∧ e.fab.members.any (fun m => m.id == 3) = true ∧
    lowestEpoch [{ id := 3, epoch := some 4 }] = some 4 ∧ e.on FAB_ID.VALID = true ∧ e.core.transport = true ∧ u.core.transport = false ∧ u.core.phaseADone = false := by
  refine ⟨?_, ?_, ?_, ?_, ?_, ?_, ?_, ?_, ?_, ?_, ?_, ?_, ?_, ?_, ?_, ?_, ?_, ?_, ?_⟩ <;> decide

theorem wit_RegisterWritesAct : let ready (d : Dev) : Bool := d.coreOn && !d.dur.saving && !d.dur.held
  let off := (DUR_BUDGET_CTL.MARK1).off
  ready wDev = true ∧ ready State.reset.dev = false ∧ 6 % 4 ≠ 0 ∧ off % 4 = 0 ∧
    ((partsOf off 4 5).map wDev.accessBar).find? (fun k => k != 0) = some 4 ∧
    (∀ p ∈ partsOf (CPH_KEY_DATA.KEY 0).off 8 5, wDev.accessBar p = 0) ∧ partsOf (CPH_KEY_DATA.KEY 0).off 8 5 ≠ [] := by
  refine ⟨?_, ?_, ?_, ?_, ?_, ?_, ?_⟩ <;> decide

theorem wit_PowerOperationsAct : let busy : Dev := wDev.fset PWR_CTL.BUSY 1
  let bk : Dev := wDev.fset PWR_STATE.DEVICE devBanked
  let off : Dev := wDev.fset (MDW_STAT.STATE 1) chOff
  let em : Dev := wDev.fset (MDW_STAT.STATE 1) chEmpty
  busy.serves = true ∧ busy.on PWR_CTL.BUSY = true ∧ wDev.on PWR_CTL.BUSY = false ∧ State.reset.dev.serves = false ∧ wDev.f PWR_STATE.DEVICE = devLit ∧
    wDev.pwr.waitOff = [] ∧ bk.f PWR_STATE.DEVICE = devBanked ∧ off.chanState 1 = chOff ∧ em.chanState 1 = chEmpty ∧ wDev.chanState 0 ≠ chEmpty := by
  refine ⟨?_, ?_, ?_, ?_, ?_, ?_, ?_, ?_, ?_, ?_⟩ <;> decide

theorem wit_SupervisorGoesOn : let q : Seq := { bay := 3, on := true, slot := 2 }
  let d (q : Seq) : Dev := { wDev with clk := 10 ^ 12, pwr := { wDev.pwr with seq := some q, slotAt := 10 }, mdw := { wDev.mdw with armed := [1], buttons := [(2, 5)], stuck := [3] } }
  let o : Dev := (d q).fset (MDW_STAT.STATE 1) chOff
  wDev.pwr.seq = none ∧ (d q).pwr.seq = some q ∧ (d q).pwr.slotAt + q.slot * 50000 ≤ (d q).clk ∧ (d q).haltSlot q ≤ q.slot ∧ q.turn = none ∧
    ({ q with slot := 0 } : Seq).slot < (d { q with slot := 0 }).haltSlot { q with slot := 0 } ∧ BitVec.ofNat 16 1 &&& statusFaults ≠ 0 ∧
    (d q).mdw.armed.contains 1 = true ∧ (d q).mdw.armed.contains 2 = false ∧ o.bayOff 1 = true ∧ (d q).bayOff 1 = false ∧ o.coreOn = true ∧
    look (d q).mdw.buttons 2 = some 5 ∧ 5 + 10000000000 ≤ (d q).clk ∧ (d q).mdw.stuck.contains 2 = false ∧ (d q).mdw.stuck.contains 3 = true := by
  refine ⟨?_, ?_, ?_, ?_, ?_, ?_, ?_, ?_, ?_, ?_, ?_, ?_, ?_, ?_, ?_, ?_⟩ <;> decide

theorem wit_PowerStatesGoOn : let d : Dev := (wDev.fset PWR_IDLE.SHADE_US 5).fset PWR_IDLE.BANK_S 5
  let q : Dev := { d with hpt := { d.hpt with conns := [] } }
  let r (u : Nat) : Dev := { q with pwr := { q.pwr with draining := [(u, 5)] } }
  let w : Dev := { q with pwr := { q.pwr with waking := [3] } }
  let b : Dev := { q with pwr := { q.pwr with bankStep := 2 } }
  let x : Dev := { q with pwr := { q.pwr with bankStep := 4, boardOn := true } }
  d.coreOn = true ∧ d.dur.saving = false ∧ d.asleep 3 = false ∧ d.drainingUnit 3 = false ∧ d.pwr.waking.contains 3 = false ∧ d.staysLit 3 = false ∧
    d.unitIdle 3 = true ∧ dimField 3 = some (PWR_STATE.LAN_DIMMED, 3) ∧ d.shaded 3 = false ∧ q.mayShade 3 = true ∧ d.f PWR_IDLE.SHADE_US ≠ 0 ∧
    (r 3).drainingUnit 3 = true ∧ (r 3).unitIdle 3 = true ∧ (r 9).unitIdle 9 = true ∧ (r 25).unitIdle 25 = true ∧ (r 31).unitIdle 31 = true ∧
    w.pwr.waking.contains 3 = true ∧ w.drainingUnit 3 = false ∧ (wDev.fset THM_MAX.STAGE 3).f THM_MAX.STAGE = 3 ∧ wDev.f THM_MAX.STAGE < 3 ∧
    d.f PWR_IDLE.BANK_S ≠ 0 ∧ d.f PWR_STATE.DEVICE = devLit ∧ d.hpt.ops = [] ∧ d.ring.cmds = [] ∧ d.tier.migs = [] ∧ d.pwr.waitOff = [] ∧ d.pwr.waking = [] ∧
    b.bankGoesOn.pwr.bankStep = 2 ∧ b.bankGoesOn.dirtyPages = 0 ∧ x.pwr.bankStep = 4 ∧ x.pwr.boardOn = true ∧ x.pwr.seq = none := by
  refine ⟨?_, ?_, ?_, ?_, ?_, ?_, ?_, ?_, ?_, ?_, ?_, ?_, ?_, ?_, ?_, ?_, ?_, ?_, ?_, ?_, ?_, ?_, ?_, ?_, ?_, ?_, ?_, ?_, ?_, ?_, ?_, ?_⟩ <;> decide

theorem wit_SavesAndStartsGoOn : let sv : Dev := { wDev with dur := { wDev.dur with saving := true } }
  let hl : Dev := { State.reset.dev with dur := { State.reset.dev.dur with held := true }, core := { State.reset.dev.core with powerGood := true } }
  let bt : Dev := { State.reset.dev with pwr := { State.reset.dev.pwr with boardOn := true }, core := { State.reset.dev.core with powerGood := true }, cph := { State.reset.dev.cph with kek := true } }
  let p (n : Nat) (v : Bool) (l : List (Nat × Slot)) : Dev := { wDev.fset DUR_RESTORE_STAT.PHASE n with store := { wDev.store with valid := v }, cph := { wDev.cph with slots := l } }
  let g : Dev := { wDev with core := { stage := 5, phaseADone := true, rolesSettled := true } }
  wDev.coreOn = true ∧ State.reset.dev.coreOn = false ∧ wDev.dur.saving = false ∧ sv.dur.saving = true ∧ sv.cph.alarmed = false ∧
    hl.dur.held = true ∧ hl.core.resetN = false ∧ hl.pwr.needUp = false ∧ hl.dur.saving = false ∧ bt.mayBoot = true ∧ wDev.mayBoot = false ∧
    bt.bootOrder.find? (fun n => if n = bt.bootSlot then true else true) = some 0 ∧ (p 1 true []).f DUR_RESTORE_STAT.PHASE = 1 ∧
    look (p 1 true []).cph.slots slotSave = none ∧ (p 1 false []).store.valid = false ∧ (p 1 false []).f FWM_STAT.HOLD = 0 ∧
    look (p 1 false [(slotSave, { usage := 5 })]).cph.slots slotSave ≠ none ∧ (p 2 false []).f DUR_RESTORE_STAT.PHASE = 2 ∧
    g.core.transport = false ∧ g.coreOn = true ∧ g.tim.valid = true ∧ g.core.rolesSettled = true ∧ g.core.phaseADone = true ∧ g.horizonKnown = true := by
  refine ⟨?_, ?_, ?_, ?_, ?_, ?_, ?_, ?_, ?_, ?_, ?_, ?_, ?_, ?_, ?_, ?_, ?_, ?_, ?_, ?_, ?_, ?_, ?_, ?_⟩ <;> decide

theorem wit_ResetsWithinServiceAct : let d : Dev := { wDev with clk := 10 ^ 10, ring := { wDev.ring with drainAt := some 5 }, age := { wDev.age with restarting := [3], lastRestart := [(4, 10 ^ 10 - 5), (5, 7)] } }
  d.coreOn = true ∧ d.dur.saving = false ∧ d.dur.held = false ∧ State.reset.dev.coreOn = false ∧ wDev.ring.drainAt = none ∧ d.ring.drainAt = some 5 ∧
    5 + 10000000 ≤ d.clk ∧ d.age.restarting.contains 4 = false ∧ look d.age.lastRestart 4 = some (10 ^ 10 - 5) ∧ d.clk < (10 ^ 10 - 5) + 1000000000 ∧
    look d.age.lastRestart 5 = some 7 ∧ 7 + 1000000000 ≤ d.clk ∧ d.age.restarting.contains 3 = true := by
  refine ⟨?_, ?_, ?_, ?_, ?_, ?_, ?_, ?_, ?_, ?_, ?_, ?_, ?_⟩ <;> decide

theorem wit_SideBandBusActs : let d : Dev := wDev.fset SBP_STAT.DYN_ADDR 9
  let n : Dev := { wDev with sbp := { wDev.sbp with notify := [[]], hotJoin := true } }
  d.addressed = true ∧ wDev.addressed = false ∧ wDev.sbp.notify = [] ∧ n.sbp.notify ≠ [] ∧ wDev.sbp.hotJoin = false ∧ n.sbp.hotJoin = true ∧ d.stands true := by
  refine ⟨?_, ?_, ?_, ?_, ?_, ?_, ?_, ?_⟩ <;> decide

theorem wit_FirmwareUpdateByPldmActs : let d : Dev := wDev.fset SBP_STAT.DYN_ADDR 9
  let o : Dev := { d with clk := 10 ^ 11, sbp := { d.sbp with update := true, updOk := true, arm := some (10 ^ 11 - 5) } }
  let k := { (State.reset.dev.fset SBP_STAT.DYN_ADDR 9) with sbp := { State.reset.dev.sbp with update := false } }
  d.stands true ∧ d.heard.serves = true ∧ k.stands true ∧ k.heard.serves = false ∧ d.heard.sbp.update = false ∧ o.heard.sbp.update = true ∧ o.heard.sbp.updOk = true ∧
    o.heard.stageBarred = false ∧ o.heard.armed = true ∧ d.heard.armed = false ∧ o.heard.ring.barrier = none ∧ o.heard.ring.cmds = [] ∧
    o.sbp.arm = some (10 ^ 11 - 5) ∧ ({ o with clk := 10 ^ 13 } : Dev).sbp.arm.any (fun b => b + 10000000000 ≤ 10 ^ 13) = true ∧ wDev.sbp.arm = none := by
  refine ⟨⟨?_, ?_⟩, ?_, ⟨?_, ?_⟩, ?_, ?_, ?_, ?_, ?_, ?_, ?_, ?_, ?_, ?_, ?_, ?_⟩ <;> decide

theorem wit_VendorRequestsAreJudged : let a : SbReq := { challenge := some 7, tagOk := true }
  let d : Dev := { (wDev.fset SBP_STAT.DYN_ADDR 9).fset SBP_CFG.AUTH_EN 1 with sbp := { wDev.sbp with authKey := true, challenge := some (7, 0) } }
  d.authed a ∧ (d.opened a).serves = true ∧ (wDev.fset SBP_STAT.DYN_ADDR 9).heard.provisioned = false ∧ d.heard.challengeGood { a with challenge := some 8 } = false ∧
    wDev.addressed = false ∧ ((State.reset.dev.opened a).serves = false) ∧ (d.opened a).f SBP_STAT.AUTHORITY = 0 ∧ ((d.fset SBP_STAT.AUTHORITY 1).opened a).f SBP_STAT.AUTHORITY ≠ 0 := by
  refine ⟨⟨⟨?_, ?_⟩, ?_, ?_, ?_, ?_⟩, ?_, ?_, ?_, ?_, ?_, ?_, ?_⟩ <;> decide

theorem wit_VendorCommandsAct : let a : SbReq := { challenge := some 7, tagOk := true }
  let d : Dev := { ((wDev.fset SBP_STAT.DYN_ADDR 9).fset SBP_CFG.AUTH_EN 1).fset SBP_STAT.AUTHORITY 1 with sbp := { wDev.sbp with authKey := true, challenge := some (7, 0) } }
  let w : Dev := (d.fset CFX_CTL.STATE 1).fset CFX_CTL.HOLDER holderSide
  let f : Dev := d.fset (MDW_STAT.STATE 3) chFrozen
  let e := d.opened a
  let c := e.sideOf vcConfirm 0 ocConfirm []
  d.authed a ∧ e.serves = true ∧ e.f SBP_STAT.AUTHORITY ≠ 0 ∧ e.f FWM_STAT.HOLD = 0 ∧ e.f CFX_CTL.STATE = 0 ∧ (w.opened a).sideHolds = true ∧
    (f.opened a).chanState 3 = chFrozen ∧ (f.opened a).on (MDW_FRZ.THAW_BUSY 3) = false ∧ State.reset.dev.heard.serves = false ∧ darkReg 0 = true ∧ darkReg 0x10 = false ∧
    (e.withSide c).turnOf c.id ocConfirm anyCmd c := by
  refine ⟨⟨⟨?_, ?_⟩, ?_, ?_, ?_, ?_⟩, ?_, ?_, ?_, ?_, ?_, ?_, ?_, ?_, ?_, ?_, ?_, ?_, ?_, ?_, ?_, ?_⟩ <;> decide

theorem wit_EpochOfAWrite : (1999999 : Nat) < 2 * 1000000 ∧ wDev.dur.stepAt ≤ 1999999 ∧
  (∀ j : Nat, wDev.epochLen ∣ j → 1999999 < j * 1000000 → wDev.dur.stepEp ≤ j) := by
  refine ⟨by decide, by decide, fun j _ _ => ?_⟩
  have : wDev.dur.stepEp = 0 := by decide
  omega

theorem wit_EpochOfAWrite2 : let d : Dev := { wDev with dur := { wDev.dur with stepAt := 5000000, stepEp := 10 * wDev.epochLen } }
  d.dur.stepAt ≤ 5000000 ∧ d.epochLen ∣ 10 * d.epochLen ∧ 5000000 < 10 * d.epochLen * 1000000 ∧
  10 * d.epochLen ≤ d.dur.stepEp := by decide

theorem wit_CompletionEntryLayout : let c : Cmd := { id := 1, ring := 63, tag := 65535, op := ocFlush, body := [] }
  c.ring < 64 ∧ c.tag < 65536 ∧ (255 : Nat) < 256 ∧ (c.entry 255 (2 ^ 32 - 1) 0).toNat / 2 ^ 56 % 2 = 0 := by
  refine ⟨?_, ?_, ?_, ?_⟩ <;> decide

theorem wit_MeadowPlacesAreDistinct : (wDev.fset (MDW_CFG.SET 0) 0).locate 700 = some (0, 700) := by decide

end Sys2Proof.Tests
end

section
/-! Proofs about the control host's register writes (R8, R10, R404 to R408): what an access of BAR0 does in each of its cases. -/

namespace Sys2Proof.Machine

/-- An access of a width or alignment that no register has (R404, Table 12.10). -/
theorem Dev.writeBar0_of_misfit {d : Dev} {off size v : Nat} (h : ¬ ((size = 4 ∨ size = 8) ∧ off % size = 0)) :
    d.writeBar0 off size v = d.illegal 8 (off / 4 % 2 ^ 24) := if_pos h

/-- A barred register has the access ignored as a whole (log entry 58). -/
theorem Dev.writeBar0_of_barred {d : Dev} {off size v k : Nat} (fit : (size = 4 ∨ size = 8) ∧ off % size = 0)
    (barred : ((partsOf off size (v % 2 ^ (8 * size))).map d.accessBar).find? (fun k => k != 0) = some k) :
    d.writeBar0 off size v = d.illegal k (off / 4) := by
  simp only [writeBar0, if_neg (not_not_intro fit), barred]

/-- Where no register bars it, the access acts on the registers one after another (R404, R406). -/
theorem Dev.writeBar0_of_legal {d : Dev} {off size v : Nat} (fit : (size = 4 ∨ size = 8) ∧ off % size = 0)
    (legal : ∀ p ∈ partsOf off size (v % 2 ^ (8 * size)), d.accessBar p = 0) :
    d.writeBar0 off size v = (partsOf off size (v % 2 ^ (8 * size))).foldl Dev.takeCarried d := by
  have unbarred : ((partsOf off size (v % 2 ^ (8 * size))).map d.accessBar).find? (fun k => k != 0) = none := by
    simpa using legal
  simp only [writeBar0, if_neg (not_not_intro fit), unbarred]

/-- The core takes no writes while it is dark, saves or holds. -/
theorem exec_registerWrite_of_not_ready {t off size v : Nat} {s : State}
    (h : ¬ ((s.dev.tick t).coreOn = true ∧ (s.dev.tick t).dur.saving = false ∧ (s.dev.tick t).dur.held = false)) :
    exec (.registerWrite t off size v) s = .next { s with dev := s.dev.tick t } := by
  simp only [← Bool.not_eq_true] at h
  simp only [exec, execRegisterWrite, State.run_eq, if_neg h]

/-- A core that serves takes the write at BAR0. -/
theorem exec_registerWrite_of_ready {t off size v : Nat} {s : State}
    (h : (s.dev.tick t).coreOn = true ∧ (s.dev.tick t).dur.saving = false ∧ (s.dev.tick t).dur.held = false) :
    exec (.registerWrite t off size v) s = .next { s with dev := (s.dev.tick t).writeBar0 off size v } := by
  simp only [← Bool.not_eq_true] at h
  simp only [exec, execRegisterWrite, State.run_eq, if_pos h]

/-- Settles O48: the four cases are a core that takes no writes, an access that does not fit, one that is barred, and one that is
legal. -/
theorem registerWritesAct : Obligations.RegisterWritesAct := by
  intro t off size v s
  refine ⟨exec_registerWrite_of_not_ready, fun ready misfit => ?_, fun k ready fit barred => ?_, fun ready fit legal => ?_⟩
  · rw [exec_registerWrite_of_ready ready, Dev.writeBar0_of_misfit misfit]
  · rw [exec_registerWrite_of_ready ready, Dev.writeBar0_of_barred fit barred]
  · rw [exec_registerWrite_of_ready ready, Dev.writeBar0_of_legal fit legal]
    rfl

end Sys2Proof.Machine
end

section
/-! Proofs about the power states (R27, R447 to R452, R457, R514): what each timer and each end of a power-down, of a wake and of a
stay in Banked does in each of its cases. -/

namespace Sys2Proof.Machine

/-! ### Commands under a guard -/

/-- A command that its guard bars only lets time pass. -/
theorem State.run_of_barred {s : State} {t : Nat} {d : Dev} (now : s.dev.tick t = d) {c : Dev → Prop} [DecidablePred c]
    {f : Dev → Dev} (h : c d) : s.run t (fun d => if c d then d else f d) = .next { s with dev := d } := by
  rw [State.run_eq, now, if_pos h]

/-- A command that its guard lets through acts. -/
theorem State.run_of_free {s : State} {t : Nat} {d : Dev} (now : s.dev.tick t = d) {c : Dev → Prop} [DecidablePred c]
    {f : Dev → Dev} (h : ¬ c d) : s.run t (fun d => if c d then d else f d) = .next { s with dev := f d } := by
  rw [State.run_eq, now, if_neg h]

/-- A core that does not run is dark or saves. -/
theorem Dev.not_runs_iff {d : Dev} : ¬ (d.coreOn = true ∧ d.dur.saving = false) ↔ ¬ d.coreOn = true ∨ d.dur.saving = true := by
  rw [not_and_or, Bool.not_eq_false]

/-! ### What a power-down and a wake do to a unit's marks -/

/-- Only DRAM groups have DIMMs to put into self-refresh (Table 15.5). -/
theorem Dev.selfRefresh_of_not_dram {d : Dev} {unit : Nat} {on : Bool} (h : unit < 24 ∨ 30 ≤ unit) : d.selfRefresh unit on = d :=
  if_pos h

/-- The DIMMs of a DRAM group enter or leave self-refresh together (Table 15.5). -/
theorem Dev.selfRefresh_of_dram {d : Dev} {unit : Nat} {on : Bool} (low : 24 ≤ unit) (high : unit < 30) :
    d.selfRefresh unit on = ((groupChans unit).filter (fun n => d.chanState n != chAbsent && d.chanState n != chOff)).foldl
      (fun (d : Dev) n => d.fset (MDW_STAT.SR n) (bit on)) d :=
  if_neg (by omega)

/-- The device whose unit has drained: Shaded and not Dimmed (R450). -/
def Dev.markShaded (d : Dev) (unit : Nat) : Dev :=
  let d := { d with pwr := { d.pwr with draining := del d.pwr.draining unit } }
  let d := match dimField unit with | some (x, i) => d.setFbit x i false | none => d
  d.setFbit (shadeField unit).1 (shadeField unit).2 true

/-- The device whose unit is awake: neither Dimmed nor Shaded, its DIMMs out of self-refresh (R449). -/
def Dev.markAwake (d : Dev) (unit : Nat) : Dev :=
  let d := { d with pwr := { d.pwr with waking := rem d.pwr.waking unit } }
  let d := match dimField unit with | some (x, i) => d.setFbit x i false | none => d
  (d.setFbit (shadeField unit).1 (shadeField unit).2 false).selfRefresh unit false

section
variable {t unit : Nat} {s : State} {d : Dev}

/-- A unit that has drained and is idle powers off (R450). -/
theorem exec_powerDownComplete_of_drained (now : s.dev.tick t = d) (drains : d.drainingUnit unit = true)
    (idle : d.unitIdle unit = true) :
    exec (.powerDownComplete t unit) s = .next { s with dev :=
      (if unit < 8 then (d.markShaded unit).clearLantern unit else d.markShaded unit).selfRefresh unit true } := by
  simp only [exec, execPowerDownComplete]
  exact State.run_of_free now (by simp [drains, idle])

/-- A wake of a unit that does not drain clears its marks (R449). -/
theorem exec_wakeComplete_of_waking (now : s.dev.tick t = d) (waking : d.pwr.waking.contains unit = true)
    (accepts : d.drainingUnit unit = false) :
    exec (.wakeComplete t unit) s = .next { s with dev :=
      (if (d.markAwake unit).coreOn ∧ ¬ (d.markAwake unit).dur.saving then (d.markAwake unit).pumpDies.serveReqs.pump
      else d.markAwake unit) } := by
  simp only [exec, execWakeComplete]
  exact State.run_of_free now (by simp only [waking, accepts]; decide)

/-- A wake completes where the core runs, and the work that waited goes on (R449). -/
theorem exec_wakeComplete_of_running (now : s.dev.tick t = d) (waking : d.pwr.waking.contains unit = true)
    (accepts : d.drainingUnit unit = false) (on : (d.markAwake unit).coreOn = true)
    (noSave : (d.markAwake unit).dur.saving = false) :
    exec (.wakeComplete t unit) s = .next { s with dev := ((d.markAwake unit).pumpDies.serveReqs).pump } := by
  have woken := exec_wakeComplete_of_waking now waking accepts
  rwa [if_pos ⟨on, Bool.eq_false_iff.mp noSave⟩] at woken

/-- A wake completes where the core stands, and no work goes on (R449). -/
theorem exec_wakeComplete_of_standing (now : s.dev.tick t = d) (waking : d.pwr.waking.contains unit = true)
    (accepts : d.drainingUnit unit = false)
    (stands : (d.markAwake unit).coreOn = false ∨ (d.markAwake unit).dur.saving = true) :
    exec (.wakeComplete t unit) s = .next { s with dev := d.markAwake unit } := by
  have woken := exec_wakeComplete_of_waking now waking accepts
  rwa [if_neg (by simpa [- not_and, not_and_or] using stands)] at woken

end

/-! ### What the power states' timers and completions do -/

/-- Settles O51: the guard of each command either bars it, so that only time passes, or lets it act. Which registers an exit from
Banked keeps (`Dev.bankedRegs`) is the model's choice (log entry 55). -/
theorem powerStatesGoOn : Obligations.PowerStatesGoOn := by
  intro t unit s
  generalize now : s.dev.tick t = d
  refine ⟨?dim, ?dimBarred, ?shade, ?shadeBarred, ?powerDown, ?powerDownBarred, ?wake, ?wakeBarred, ?pace, ?paceBarred,
    ?bank, ?bankBarred, ?drained, ?exit, ?exitBarred⟩
  case dim =>
    intro runs awake accepts noWake sleeps idle x i field
    simp only [exec, execDimTimer, field]
    exact State.run_of_free now (by simp only [runs, awake, accepts, noWake, sleeps, idle]; decide)
  case dimBarred =>
    intro barred
    rw [Dev.not_runs_iff] at barred
    simp only [exec, execDimTimer]
    rcases field : dimField unit with _ | ⟨x, i⟩
    · rw [State.run_eq, now, ite_self]
    · exact State.run_of_barred now (by simp only [field, ← Bool.not_eq_true] at barred; tauto)
  case shade =>
    intro runs enabled lit accepts noWake may idle
    simp only [exec, execShadeTimer]
    exact State.run_of_free now (by simp only [runs, enabled, lit, accepts, noWake, may, idle]; decide)
  case shadeBarred =>
    intro barred
    rw [Dev.not_runs_iff] at barred
    simp only [exec, execShadeTimer]
    exact State.run_of_barred now (by simp only [← Bool.not_eq_true] at barred; tauto)
  case powerDown =>
    intro drains idle
    have done := exec_powerDownComplete_of_drained now drains idle
    refine ⟨fun lantern => ?_, fun low high => ?_, fun low high => ?_, fun high => ?_⟩
    · rw [done, if_pos lantern, Dev.selfRefresh_of_not_dram (by omega)]
      rfl
    · rw [done, if_neg (by omega), Dev.selfRefresh_of_not_dram (by omega)]
      rfl
    · rw [done, if_neg (by omega), Dev.selfRefresh_of_dram low high]
      rfl
    · rw [done, if_neg (by omega), Dev.selfRefresh_of_not_dram (by omega)]
      rfl
  case powerDownBarred =>
    intro barred
    simp only [exec, execPowerDownComplete]
    exact State.run_of_barred now (by simpa only [Bool.not_eq_true] using barred)
  case wake =>
    intro waking accepts
    exact ⟨exec_wakeComplete_of_running now waking accepts, exec_wakeComplete_of_standing now waking accepts⟩
  case wakeBarred =>
    intro barred
    simp only [exec, execWakeComplete]
    exact State.run_of_barred now (by simpa only [Bool.not_eq_true] using barred)
  case pace =>
    intro runs stage3
    simp only [exec, execPaceTimer]
    exact State.run_of_free now (by simp only [runs]; simpa using stage3)
  case paceBarred =>
    intro barred
    rw [Dev.not_runs_iff] at barred
    simp only [exec, execPaceTimer]
    exact State.run_of_barred now barred.symm
  case bank =>
    intro runs enabled lit noOps noCmds noMigs noWait noWake
    simp only [exec, execBankTimer]
    exact State.run_of_free now (by simp [runs, enabled, lit, noOps, noCmds, noMigs, noWait, noWake])
  case bankBarred =>
    intro barred
    rw [Dev.not_runs_iff] at barred
    simp only [exec, execBankTimer]
    exact State.run_of_barred now (by simp only [ne_eq, ← List.isEmpty_iff] at barred; tauto)
  case drained =>
    simp only [exec, execBankedImageDrained, State.run_eq, now]
    refine ⟨fun ⟨step2, clean, noOps, noCmds, noSave⟩ => ?_, fun wet => ?_⟩
    · rw [if_neg (by simp [step2, clean, noOps, noCmds, noSave])]
    · rw [if_pos (by simp only [not_and_or, ← List.isEmpty_iff, Bool.not_eq_false] at wet; exact wet)]
  case exit =>
    intro step4 board noSeq
    simp only [exec, execBankedExitComplete]
    exact State.run_of_free now (by simp [step4, board, noSeq])
  case exitBarred =>
    intro barred
    simp only [exec, execBankedExitComplete]
    exact State.run_of_barred now (by simpa only [Bool.not_eq_true, Option.isSome_iff_ne_none] using barred)

end Sys2Proof.Machine
end

section
/-! Proofs about the epoch of a stamp (R60, R61): the first closing instant strictly after it, and what the one forward step of
device time makes of it (R203, log entry 96). -/

namespace Sys2Proof.Machine

/-- An epoch has some length. -/
theorem Dev.epochLen_pos (d : Dev) : 0 < d.epochLen := Nat.le_max_left 1 _

/-- An epoch closes at a multiple of the length (R61). -/
theorem dvd_epochAt (len stamp : Nat) : len ∣ epochAt len stamp := Dvd.intro_left _ rfl

/-- The epoch of a stamp closes strictly after it (R60). -/
theorem lt_epochAt {len : Nat} (pos : 0 < len) (stamp : Nat) : stamp < epochAt len stamp * 1000000 :=
  calc stamp < len * 1000000 * (stamp / (len * 1000000) + 1) := Nat.lt_mul_div_succ stamp (by omega)
    _ = epochAt len stamp * 1000000 := by unfold epochAt; ring

/-- No closing instant strictly after a stamp is earlier than its epoch (R60). -/
theorem epochAt_le {len stamp j : Nat} (closes : len ∣ j) (later : stamp < j * 1000000) : epochAt len stamp ≤ j := by
  obtain ⟨m, rfl⟩ := closes
  have before : stamp / (len * 1000000) < m := Nat.div_lt_of_lt_mul (by linarith)
  calc (stamp / (len * 1000000) + 1) * len ≤ m * len := Nat.mul_le_mul_right len before
    _ = len * m := Nat.mul_comm m len

/-- A stamp at a closing instant belongs to the epoch that follows it (R60). -/
theorem epochAt_of_closing {len j : Nat} (pos : 0 < len) (closes : len ∣ j) : epochAt len (j * 1000000) = j + len := by
  obtain ⟨m, rfl⟩ := closes
  have whole : len * m * 1000000 / (len * 1000000) = m := Nat.div_eq_of_eq_mul_right (by omega) (by ring)
  simp only [epochAt, whole]
  ring

/-- Before the step of device time the length alone gives the epoch. -/
theorem Dev.epochOf_of_before {d : Dev} {stamp : Nat} (early : stamp < d.dur.stepAt) :
    d.epochOf stamp = epochAt d.epochLen stamp := if_neg (by omega)

/-- From the step on, no epoch is earlier than the one that the step opened (R203). -/
theorem Dev.epochOf_of_after {d : Dev} {stamp : Nat} (late : d.dur.stepAt ≤ stamp) :
    d.epochOf stamp = max d.dur.stepEp (epochAt d.epochLen stamp) := if_pos late

/-- The step changes no epoch whose closing instants are all past the epoch that it opened. -/
theorem Dev.epochOf_eq_epochAt {d : Dev} {stamp : Nat}
    (h : stamp < d.dur.stepAt ∨ ∀ j, d.epochLen ∣ j → stamp < j * 1000000 → d.dur.stepEp ≤ j) :
    d.epochOf stamp = epochAt d.epochLen stamp := by
  rcases Nat.lt_or_ge stamp d.dur.stepAt with early | late
  · exact Dev.epochOf_of_before early
  · have past := h.resolve_left (by omega) _ (dvd_epochAt _ _) (lt_epochAt d.epochLen_pos stamp)
    rw [Dev.epochOf_of_after late, max_eq_right past]

/-- Settles O58. The clause on the step of device time rests on R203 and on the model's choice of log entry 96. -/
theorem epochOfAWrite : Obligations.EpochOfAWrite := by
  intro d stamp
  refine ⟨fun unmoved => ?_, fun j late closes later within => ?_⟩
  · simp only [Dev.epochOf_eq_epochAt unmoved]
    refine ⟨dvd_epochAt _ _, lt_epochAt d.epochLen_pos stamp, fun j => epochAt_le, fun j closes at_ => ?_⟩
    rw [at_, epochAt_of_closing d.epochLen_pos closes]
  · have first : epochAt d.epochLen stamp ≤ d.dur.stepEp := (epochAt_le closes later).trans within
    rw [Dev.epochOf_of_after late, max_eq_left first]

end Sys2Proof.Machine
end

section
/-! Proofs about the arrival of request packets (R78 to R83, R93, R96, R115): what stays as it was until a packet meets its
connection, and what the expected packet of an open message does (R117, R118, R131). -/

namespace Sys2Proof.Machine

/-! ### What the ports leave alone -/

/-- Freeing tags changes only the tags in use. -/
theorem Dev.freeTags_eq (tags : List Nat) (d : Dev) : ∃ b, d.freeTags tags = { d with hpt := { d.hpt with busy := b } } := by
  unfold Dev.freeTags
  induction tags generalizing d with
  | nil => exact ⟨d.hpt.busy, rfl⟩
  | cons x r ih =>
    obtain ⟨b, h⟩ := ih (d.freeTag x)
    exact ⟨b, by rw [List.foldl_cons, h]; rfl⟩

/-- Frames that leave a port change the port, the tags in use and what has been sent. -/
theorem Dev.egress_eq (d : Dev) (port : Nat) (h : Held) :
    ∃ p b o, d.egress port h = { d with hpt := { d.hpt with ports := p, busy := b }, out := o } := by
  unfold Dev.egress
  split
  · obtain ⟨b, freed⟩ := Dev.freeTags_eq h.tag.toList d
    exact ⟨d.hpt.ports, b, d.out, freed⟩
  · split
    · exact ⟨_, d.hpt.busy, d.out, rfl⟩
    · obtain ⟨o, sent⟩ := Dev.sendAll_eq h.outs d
      obtain ⟨b, freed⟩ := Dev.freeTags_eq h.tag.toList (d.sendAll h.outs)
      exact ⟨d.hpt.ports, b, o, by rw [freed, sent]⟩

/-- A packet in the ingress buffer changes its port, a counter and what has been sent (R81). -/
theorem Dev.ingress_eq (d : Dev) (port pri occ : Nat) :
    ∃ p m o, d.ingress port pri occ = { d with hpt := { d.hpt with ports := p }, pmc := m, out := o } := by
  unfold Dev.ingress
  extract_lets e x on
  split
  · obtain ⟨m, o, counted⟩ := (e.send (.pause port pri (e.f HPT_PFC_CTL.QUANTA))).count_eq 0x304 port 1 {}
    exact ⟨_, m, o, by rw [counted]; rfl⟩
  · split
    · obtain ⟨m, o, counted⟩ := (e.send (.pause port pri 0)).count_eq 0x304 port 1 {}
      exact ⟨_, m, o, by rw [counted]; rfl⟩
    · exact ⟨_, d.pmc, d.out, rfl⟩

@[simp] theorem Dev.ingress_clk (d : Dev) (port pri occ : Nat) : (d.ingress port pri occ).clk = d.clk := by
  obtain ⟨_, _, _, h⟩ := d.ingress_eq port pri occ
  rw [h]

@[simp] theorem Dev.ingress_tim (d : Dev) (port pri occ : Nat) : (d.ingress port pri occ).tim = d.tim := by
  obtain ⟨_, _, _, h⟩ := d.ingress_eq port pri occ
  rw [h]

@[simp] theorem Dev.ingress_conn (d : Dev) (port pri occ c : Nat) : (d.ingress port pri occ).conn c = d.conn c := by
  obtain ⟨_, _, _, h⟩ := d.ingress_eq port pri occ
  rw [h]
  rfl

/-- A congestion notification changes the port and the connection, a counter and what has been sent (R83). -/
theorem Dev.notify_eq (d : Dev) (c pri : Nat) : ∃ x m o, d.notify c pri = { d with hpt := x, pmc := m, out := o } := by
  unfold Dev.notify
  extract_lets ok p
  split
  · obtain ⟨_, _, o, left⟩ := d.egress_eq (d.conn c).port { pri := p, outs := [.cnp c p] }
    obtain ⟨m, o', counted⟩ := (d.egress (d.conn c).port { pri := p, outs := [.cnp c p] }).count_eq 0x306 (d.conn c).port 1 {}
    exact ⟨_, m, o', by rw [counted, left]; rfl⟩
  · exact ⟨d.hpt, d.pmc, d.out, rfl⟩

@[simp] theorem Dev.notify_clk (d : Dev) (c pri : Nat) : (d.notify c pri).clk = d.clk := by
  obtain ⟨_, _, _, h⟩ := d.notify_eq c pri
  rw [h]

@[simp] theorem Dev.notify_tim (d : Dev) (c pri : Nat) : (d.notify c pri).tim = d.tim := by
  obtain ⟨_, _, _, h⟩ := d.notify_eq c pri
  rw [h]

/-! ### A packet that meets its connection -/

/-- Device time is a matter of the time base and the servo. -/
theorem Dev.now_congr {d e : Dev} (clk : e.clk = d.clk) (tim : e.tim = d.tim) : e.now = d.now := by
  simp only [Dev.now, Dev.slewed, clk, tim]

@[simp] theorem Dev.took_clk (d : Dev) (q : Req) : (d.took q).clk = d.clk := by
  unfold Dev.took
  split <;> simp

@[simp] theorem Dev.took_tim (d : Dev) (q : Req) : (d.took q).tim = d.tim := by
  unfold Dev.took
  split <;> simp

/-- Device time stands while a packet comes in. -/
@[simp] theorem Dev.took_now (d : Dev) (q : Req) : (d.took q).now = d.now :=
  Dev.now_congr (d.took_clk q) (d.took_tim q)

/-- The port's work leaves a connection as open as it was. -/
@[simp] theorem Dev.ingress_closedTo (d : Dev) (port pri occ qpn : Nat) :
    (d.ingress port pri occ).closedTo qpn = d.closedTo qpn := by
  simp only [Dev.closedTo, Dev.ingress_conn]

/-- A connection that the packet knows is open to it (R93). -/
theorem Dev.closedTo_of_knows {d : Dev} {q : Req} (known : d.knows q) : d.closedTo q.qpn = false := by
  obtain ⟨taking, present⟩ := known
  simpa [Dev.closedTo, present, ← or_iff_not_imp_left] using taking

/-- A packet that the port hears meets its connection, whose state is loaded, and what can go on does so (R96, R115). -/
theorem Dev.arrive_of_hot {d : Dev} {q : Req} (a : Option Ask) (heard : d.hears q) (known : d.knows q)
    (hot : ((d.took q).conn (q.qpn % 65536)).hot = true) :
    d.arrive q a = ((d.took q).packet { c := q.qpn % 65536, q := q, a := a, stamp := d.now }).pump := by
  obtain ⟨noSave, up, sound, held⟩ := heard
  have taken : (if q.ce then (d.ingress q.port (d.dscpPri q.dscp) q.occ).notify (q.qpn % 65536) (d.dscpPri q.dscp)
      else d.ingress q.port (d.dscpPri q.dscp) q.occ).setConn (q.qpn % 65536)
        (fun x => { x with lastAct := (d.ingress q.port (d.dscpPri q.dscp) q.occ).clk }) = d.took q := by
    rw [Dev.ingress_clk]
    rfl
  simp only [Dev.arrive, noSave, up, sound, held, Dev.ingress_closedTo, Dev.closedTo_of_knows known, taken, hot, Dev.took_now,
    not_true_eq_false, or_self, if_true, if_false, Bool.false_eq_true]

/-- A request of a verb arrives after a self-test has left the resources it needs (R399). -/
theorem exec_request {c : Instr} {t : Nat} {q : Req} {a : Ask} (h : requestOf c = some (t, q, a)) (s : State) :
    exec c s = .next { s with dev := (foundBy c (s.dev.tick t)).pauseTest.arrive q (some a) } := by
  unfold requestOf at h
  split at h
  case h_15 =>
    -- no other command is a request
    cases h
  case h_7 t q ce =>
    -- a READ may bring the corrected error of a line it reads (R314)
    cases h
    cases ce <;> rfl
  all_goals
    cases h
    rfl

/-- The expected packet is met as such (R115). -/
theorem Dev.packet_of_expected {d : Dev} {q : Req} {a : Ask} (next : d.psnGap q = 0) :
    (d.took q).packet { c := q.qpn % 65536, q := q, a := some a, stamp := d.now } = (d.took q).expected (d.asked q a) q a none :=
  if_pos next

/-- A valid expected packet joins the message that stands open on its connection (R117, R131). -/
theorem Dev.expected_of_joins {d : Dev} {o : Op} {q : Req} {a : Ask} {v : Option (Option Status)} {m : OpenMsg}
    (part : a.part = .middle ∨ a.part = .last) (valid : d.invalid o.conn q a = false)
    (stands : (d.conn o.conn).openMsg = some m) (fits : m.wrong a = false) :
    d.expected o q a v = ((((d.madeReady o.conn).advance o).pushIngress
      (((d.madeReady o.conn).advance o).further o m a)).setConn o.conn (Conn.joins m a)) := by
  have inMsg : (a.part == .middle || a.part == .last) = true := by simpa using part
  simp only [Dev.expected, valid, stands, inMsg, fits, Option.isSome_some, Option.any_some, bne_self_eq_false, Bool.or_self,
    Bool.and_false, Bool.false_eq_true, if_false]
  rfl

/-- Settles O9: the packet meets its connection, is the expected one, and joins the open message. -/
theorem messageGoesOn : Obligations.MessageGoesOn := by
  intro c t q a s m request part d k e heard known hot next valid stands fits
  have joins : (d.took q).expected (d.asked q a) q a none =
      (e.pushIngress (e.further (d.asked q a) m a)).setConn k (Conn.joins m a) :=
    Dev.expected_of_joins part valid stands fits
  have arrives := Dev.arrive_of_hot (some a) heard known hot
  rw [Dev.packet_of_expected next, joins] at arrives
  rw [exec_request request, arrives]

end Sys2Proof.Machine
end

section
/-! Proofs about the member set, the horizon, granted IDs and spanned transactions (R65, R215, R268, R280, R291 to R293). -/

namespace Sys2Proof.Machine

section
variable {t src region : Nat} {ok : Bool} {m : RegionMsg} {s : State} {d : Dev}

/-! ### A member's change -/

/-- A member that can hold a change reserves it and votes for it (R280). -/
theorem exec_spanTxn_of_holds (now : s.dev.tick t = d) (valid : d.on FAB_ID.VALID = true) (member : d.isSteward = false)
    (holds : d.cannotHold m = none) :
    exec (.spanTxn t src m) s = .next { s with dev :=
      (({ d.holdChange m with fab := { (d.holdChange m).fab with spanHeld := d.fab.spanHeld ++ [m] } } : Dev).fabSend src spanVote
        [m.region, 1]) } := by
  simp only [exec, execSpanTxn]
  rw [State.run_of_free now (by simp [valid])]
  simp [member, holds, bit]

/-- A member that cannot hold a change votes against it (R280). -/
theorem exec_spanTxn_of_cannot (now : s.dev.tick t = d) (valid : d.on FAB_ID.VALID = true) (member : d.isSteward = false)
    {n : Nat} (cannot : d.cannotHold m = some n) :
    exec (.spanTxn t src m) s = .next { s with dev := d.fabSend src spanVote [m.region, 0] } := by
  simp only [exec, execSpanTxn]
  rw [State.run_of_free now (by simp [valid])]
  simp [member, cannot, bit]

/-! ### A vote -/

/-- The transaction as a vote leaves it: the voter is heard, and one refusal refuses the change (R280). -/
def SpanTxn.voted (x : SpanTxn) (src : Nat) (ok : Bool) : SpanTxn :=
  { x with voters := x.voters.filter (fun v => v != src), ok := x.ok && ok }

/-- The steward settles a transaction that all have voted on or one has refused (R280). -/
theorem exec_spanVote_of_settled (now : s.dev.tick t = d) {x : SpanTxn}
    (runs : d.fab.spans.find? (fun x => x.region == region) = some x)
    (settled : (x.voted src ok).voters = [] ∨ (x.voted src ok).ok = false) :
    exec (.spanVote t src region ok) s = .next { s with dev := (d.endSpan (x.voted src ok)).pump } := by
  simp only [exec, execSpanVote, State.run_eq, now, runs]
  rw [← List.isEmpty_iff, ← Bool.not_eq_true] at settled
  exact congrArg (fun e : Dev => Host.Outcome.next { s with dev := e }) (if_pos settled)

/-- The steward counts any other vote (R280). -/
theorem exec_spanVote_of_counted (now : s.dev.tick t = d) {x : SpanTxn}
    (runs : d.fab.spans.find? (fun x => x.region == region) = some x) (more : (x.voted src ok).voters ≠ [])
    (agreed : (x.voted src ok).ok = true) :
    exec (.spanVote t src region ok) s = .next { s with dev := { d with fab := { d.fab with
      spans := d.fab.spans.map (fun z => if z.region = region then x.voted src ok else z) } } } := by
  simp only [exec, execSpanVote, State.run_eq, now, runs]
  rw [Ne, ← List.isEmpty_iff] at more
  exact congrArg (fun e : Dev => Host.Outcome.next { s with dev := e }) (if_neg (not_or_intro more (not_not_intro agreed)))

/-- Where the device runs no such transaction, a vote is the outcome of the change it holds or else has asked for (R280). -/
theorem exec_spanVote_of_outcome (now : s.dev.tick t = d) (noTxn : d.fab.spans.find? (fun x => x.region == region) = none)
    (change : (d.fab.spanHeld.find? (fun m => m.region == region)).or
      ((d.fab.spanPend.find? (fun p => p.region == region)).map (·.m)) = some m) :
    exec (.spanVote t src region ok) s = .next { s with dev := (d.settleSpan m ok).pump } := by
  simp only [exec, execSpanVote, State.run_eq, now, noTxn, change]

/-- A vote on a change that the device knows nothing of has no effect. -/
theorem exec_spanVote_of_unknown (now : s.dev.tick t = d) (noTxn : d.fab.spans.find? (fun x => x.region == region) = none)
    (noHeld : d.fab.spanHeld.find? (fun m => m.region == region) = none)
    (notAsked : d.fab.spanPend.find? (fun p => p.region == region) = none) :
    exec (.spanVote t src region ok) s = .next { s with dev := d } := by
  simp only [exec, execSpanVote, State.run_eq, now, noTxn, noHeld, notAsked, Option.none_or, Option.map_none]

end

/-- Settles O30: each command either is barred by its guard, so that only time passes, or acts in the case named. That SPAN_VOTE
carries a transaction's outcome to the members is the model's choice (log entry 34). -/
theorem fabricSetRuns : Obligations.FabricSetRuns := by
  intro t src epoch id last region add ok serial m s
  generalize now : s.dev.tick t = d
  refine ⟨?horizon, ?horizonBarred, ?member, ?noId, ?expel, ?ask, ?grant, ?span, ?vote, ?outcome⟩
  case horizon =>
    intro steward valid
    simp only [exec, execHorizon]
    exact State.run_of_free now (by simp [steward, valid])
  case horizonBarred =>
    intro barred
    simp only [exec, execHorizon]
    exact State.run_of_barred now (by simpa only [Bool.not_eq_true] using barred)
  case member =>
    intro valid
    have free : ¬ ¬ d.on FAB_ID.VALID = true := not_not_intro valid
    refine ⟨?_, fun steward => ?_, fun member => ?_⟩
    · simp only [exec, execMember]
      rw [State.run_of_free now free]
      rfl
    · simp only [exec, execMember]
      rw [State.run_of_free now free]
      simp [steward]
    · simp only [exec, execMember]
      rw [State.run_of_free now free]
      simp [member]
  case noId =>
    intro noId
    simp only [exec, execMember, execSpanTxn]
    exact ⟨State.run_of_barred now (by simp [noId]), State.run_of_barred now (by simp [noId])⟩
  case expel => simp only [exec, execExpel, State.run_eq, now]
  case ask =>
    intro i enabled steward free
    simp only [exec, execIdAsk]
    rw [State.run_of_free now (by simp [enabled, steward]), free]
  case grant =>
    intro enabled strapped noId
    simp only [exec, execIdGrant]
    exact State.run_of_free now (by simp [enabled, strapped, noId])
  case span =>
    intro valid
    refine ⟨fun steward => ?_, exec_spanTxn_of_holds now valid, fun n member => exec_spanTxn_of_cannot now valid member⟩
    simp only [exec, execSpanTxn]
    rw [State.run_of_free now (not_not_intro valid), if_pos steward]
  case vote =>
    intro x runs
    exact ⟨exec_spanVote_of_settled now runs, exec_spanVote_of_counted now runs⟩
  case outcome =>
    intro noTxn
    refine ⟨fun held => ?_, fun p noHeld asked => ?_, exec_spanVote_of_unknown now noTxn⟩
    · exact exec_spanVote_of_outcome now noTxn (by rw [held, Option.some_or])
    · exact exec_spanVote_of_outcome now noTxn (by rw [noHeld, asked, Option.none_or, Option.map_some])

end Sys2Proof.Machine
end

section
/-! Proofs about region commands (R35 to R50, R378, R391, R394, R535): how a command starts in its turn, what a creation and any
other function come to, and when a change takes effect. -/

namespace Sys2Proof.Machine

/-! ### A command whose turn has come -/

/-- A command whose turn has come acts as one that runs (R388, R390). -/
theorem Dev.startCmd_of_turn {d : Dev} {id op : Nat} {fits : Cmd → Bool} {c : Cmd} (turn : d.turnOf id op fits c)
    (act : Dev → Cmd → Dev) : d.startCmd id op fits act = act (d.begun id c) (d.now_ c) := by
  obtain ⟨present, rfl, fit, starts, noBad, free⟩ := turn
  simp only [Dev.startCmd, present, fit, starts, noBad, free, ne_eq, not_true_eq_false, or_self, if_false,
    Bool.false_eq_true]
  rfl

/-- A region command whose turn has come runs. -/
theorem Dev.startRegion_of_turn {d : Dev} {id func : Nat} {c : Cmd} (turn : d.turnOf id ocRegion (d.regionFits func) c)
    (st : List (BitVec 32)) : d.startRegion id func st = (d.begun id c).runRegion (d.now_ c) st :=
  Dev.startCmd_of_turn turn fun d c => d.runRegion c st

section
variable {x : Dev} {y : Cmd} {st : List (BitVec 32)}

/-- Without valid device time no region command runs (log entry 39). -/
theorem Dev.runRegion_of_untimed (untimed : x.tim.valid = false) : x.runRegion y st = x.complete y csNotReady 2 :=
  if_pos (by simp [untimed])

/-! ### A creation -/

section
variable (valid : x.tim.valid = true) (create : y.func = fnCreate)
include valid create

/-- A creation that something bars is refused with its reason (R535). -/
theorem Dev.runRegion_of_barred {k : Nat} (barred : x.rngUsed.createBar (x.createMsg y st) = some k) :
    x.runRegion y st = x.rngUsed.complete y csRefused k := by
  simp only [Dev.runRegion, valid, create, barred, not_true_eq_false, if_true, if_false]

/-- A spanned creation needs the whole of its stripe table (Table 12.5). -/
theorem Dev.runRegion_of_short (free : x.rngUsed.createBar (x.createMsg y st) = none)
    (spanned : (x.createMsg y st).spanned = true) (short : (x.createMsg y st).stripes.length < y.u16 50) :
    x.runRegion y st = x.rngUsed.complete y csDmaFault 0 (y.u64 56) := by
  simp only [Dev.runRegion, valid, create, free, spanned, short, not_true_eq_false, and_self, if_true, if_false]

/-- A creation with its stripe table at hand turns on the room for it here (R38). -/
theorem Dev.runRegion_of_described (free : x.rngUsed.createBar (x.createMsg y st) = none)
    (whole : (x.createMsg y st).spanned = false ∨ y.u16 50 ≤ (x.createMsg y st).stripes.length) :
    x.runRegion y st = if x.rngUsed.noRoom (x.createMsg y st) then x.rngUsed.complete y csNoSpace
      else (x.rngUsed.submitChange (x.createMsg y st) (some y.id)).pump := by
  have notShort : ¬ ((x.createMsg y st).spanned = true ∧ (x.createMsg y st).stripes.length < y.u16 50) := by
    rwa [not_and_or, Bool.not_eq_true, Nat.not_lt]
  simp only [Dev.runRegion, valid, create, free, notShort, not_true_eq_false, if_true, if_false]

end

/-! ### Any other function -/

/-- The device once a command that enables a key entry has drawn its tag (R40, R378). -/
def Dev.tagged (x : Dev) (y : Cmd) : Dev := if y.drawsTag then x.rngUsed else x

/-- A growth that shrinks the region, or takes an unspanned one past what one device can home (R44). -/
def badGrowth (y : Cmd) (m : RegionMsg) (r : Region) : Prop :=
  y.func = fnGrow ∧ (m.size < r.size ∨ (r.spanned = false ∧ 2 ^ 34 < m.size))

section
variable (valid : x.tim.valid = true) (other : y.func ≠ fnCreate)
include valid other

/-- The counter region takes no function but its key (R394). -/
theorem Dev.runRegion_of_counter (counter : y.region = counterRegion) (noKey : y.func ≠ fnKey) :
    x.runRegion y st = x.complete y csRefused 3 := by
  rw [Dev.runRegion, if_neg (not_not_intro valid), if_neg other, if_pos ⟨counter, noKey⟩]

section
variable (named : y.region ≠ counterRegion)
include named

/-- A function of a region that is not in use is refused (R391). -/
theorem Dev.runRegion_of_absent (absent : look x.rgn y.region = none) : x.runRegion y st = x.complete y csRefused 2 := by
  rw [Dev.runRegion, if_neg (not_not_intro valid), if_neg other, if_neg (fun both => named both.1), absent]

variable {r : Region} (present : look x.rgn y.region = some r)
include present

/-- A growth must grow the region (R44). -/
theorem Dev.runRegion_of_badGrowth (bad : badGrowth y (x.changeMsg y r) r) :
    x.runRegion y st = (x.tagged y).complete y csBadField 24 := by
  rw [Dev.runRegion, if_neg (not_not_intro valid), if_neg other, if_neg (fun both => named both.1), present]
  simp only [badGrowth, ← Bool.not_eq_true] at bad
  simp only [if_neg named, if_pos bad]
  rfl

/-- A function of a region in use turns on what this device can hold (R38). -/
theorem Dev.runRegion_of_wellFormed (good : ¬ badGrowth y (x.changeMsg y r) r) :
    ((x.tagged y).cannotHold (x.changeMsg y r) = some 0 → x.runRegion y st = (x.tagged y).complete y csNoSpace) ∧
    (∀ k, (x.tagged y).cannotHold (x.changeMsg y r) = some (k + 1) →
      x.runRegion y st = (x.tagged y).complete y csRefused (k + 1)) ∧
    ((x.tagged y).cannotHold (x.changeMsg y r) = none →
      x.runRegion y st = ((x.tagged y).submitChange (x.changeMsg y r) (some y.id)).pump) := by
  rw [Dev.runRegion, if_neg (not_not_intro valid), if_neg other, if_neg (fun both => named both.1), present]
  simp only [badGrowth, ← Bool.not_eq_true] at good
  simp only [if_neg named, if_neg good]
  unfold Dev.tagged
  exact ⟨fun full => by simp only [full], fun k cannot => by simp only [cannot], fun holds => by simp only [holds]⟩

end
end
end

/-! ### A destroy -/

section
variable {s : State} {t id : Nat} {d : Dev} {c : Cmd} (now : s.dev.tick t = d) (turn : d.turnOf id ocDestroy anyCmd c)
include now turn

/-- Without valid device time nothing is destroyed (log entry 39). -/
theorem exec_regionDestroy_of_untimed (untimed : d.tim.valid = false) :
    exec (.regionDestroy t id) s = .next { s with dev := (d.begun id c).complete (d.now_ c) csNotReady 2 } := by
  have bars : ¬ (d.begun id c).tim.valid = true := Bool.eq_false_iff.mp untimed
  simp only [exec, execRegionDestroy, State.run_eq, now, Dev.startCmd_of_turn (fits := fun _ => true) turn, if_pos bars]

variable (valid : d.tim.valid = true)
include valid

/-- A region that is not in use cannot be destroyed. -/
theorem exec_regionDestroy_of_absent (absent : look d.rgn c.region = none) :
    exec (.regionDestroy t id) s = .next { s with dev := (d.begun id c).complete (d.now_ c) csRefused 2 } := by
  have timed : (d.begun id c).tim.valid = true := valid
  have found : look (d.begun id c).rgn (d.now_ c).region = none := absent
  simp only [exec, execRegionDestroy, State.run_eq, now, Dev.startCmd_of_turn (fits := fun _ => true) turn,
    if_neg (not_not_intro timed), found]

/-- A region in use is destroyed unless it is the counter region or its state forbids it (R50, R394). -/
theorem exec_regionDestroy_of_present {r : Region} (present : look d.rgn c.region = some r) :
    exec (.regionDestroy t id) s = .next { s with dev :=
      (if c.region = counterRegion ∨ stateForbids fnDestroy r = true then (d.begun id c).complete (d.now_ c) csRefused 2
      else ((d.begun id c).submitChange
        { region := c.region, func := fnDestroy, size := r.size, mirror := r.mirror, spanned := r.spanned }
        (some (d.now_ c).id)).pump) } := by
  have timed : (d.begun id c).tim.valid = true := valid
  have found : look (d.begun id c).rgn (d.now_ c).region = some r := present
  simp only [exec, execRegionDestroy, State.run_eq, now, Dev.startCmd_of_turn (fits := fun _ => true) turn,
    if_neg (not_not_intro timed), found]
  rfl

end

/-! ### A run that has moved -/

section
variable {s : State} {t region : Nat} {d : Dev} {g : GrowMove} {r : Region} (now : s.dev.tick t = d)
  (moves : d.tier.grow.find? (fun g => g.region == region) = some g) (present : look d.rgn region = some r)
include now moves present

/-- A growth that no command waits for ends with its move (R44). -/
theorem exec_homeRunMoveDone_of_alone (alone : g.cmdId.bind (d.endGrow g r).cmd = none) :
    exec (.homeRunMoveDone t region) s = .next { s with dev := (d.endGrow g r).pump } := by
  simp only [exec, execHomeRunMoveDone, State.run_eq, now, moves, present, alone]

/-- A growth's command completes with the move of its run (R44). -/
theorem exec_homeRunMoveDone_of_awaited {x : Cmd} (awaited : g.cmdId.bind (d.endGrow g r).cmd = some x) :
    exec (.homeRunMoveDone t region) s =
      .next { s with dev := ((d.endGrow g r).complete x csDone 0 (d.endGrow g r).now).pump } := by
  simp only [exec, execHomeRunMoveDone, State.run_eq, now, moves, present, awaited]

end

/-! ### When a change takes effect -/

/-- A change of a region that is neither spanned nor needs the twin takes effect at once, a seal at the open epoch's closing
instant (R48, R49). -/
theorem Dev.submitChange_of_alone {x : Dev} {m : RegionMsg} (noStripes : m.stripes = [])
    (here : (look x.rgn m.region).any (fun r => r.spanned) = false) (alone : (x.holdChange m).changesAlone = true)
    (cmd : Option Nat) :
    x.submitChange m cmd = (x.holdChange m).finishChange m ((x.holdChange m).changeAt m) cmd := by
  simp only [Dev.submitChange, noStripes, here, alone, List.isEmpty_nil, Bool.not_true, Bool.or_self, Bool.false_eq_true, if_true,
    if_false]

/-- A creation leaves its region Online with its attributes and run (R35, R36). -/
theorem Dev.applyMsg_of_create {x : Dev} {m : RegionMsg} (absent : look x.rgn m.region = none) (create : m.func = fnCreate)
    (n : Nat) (cmd : Option Nat) :
    x.applyMsg m n cmd = (x.setRegion m.region (Region.ofMsg m .online (x.freeRun (x.localRun m)) (x.localRun m)), true) := by
  simp only [Dev.applyMsg, absent, create, if_true]

/-- Settles O39. That a region command without valid device time completes NOT_READY 2 is the model's choice (log entry 39). -/
theorem regionCommandsAct : Obligations.RegionCommandsAct := by
  intro t id stripes c s
  generalize now : s.dev.tick t = d
  refine ⟨?starts, fun x y st => Dev.runRegion_of_untimed, ?create, ?change, ?destroy,
    fun x m cmd noStripes here alone => Dev.submitChange_of_alone noStripes here alone cmd,
    fun x m n cmd absent create => Dev.applyMsg_of_create absent create n cmd,
    fun region g r moves present => ⟨exec_homeRunMoveDone_of_alone now moves present,
      fun x => exec_homeRunMoveDone_of_awaited now moves present⟩⟩
  case starts =>
    intro st turn
    have started := Dev.startRegion_of_turn turn st
    refine ⟨?_, ?_, ?_, ?_, ?_⟩
    all_goals
      intro func table
      rw [func, table] at started
      simp only [exec, execRegionCreate, execRegionModify, execRegionSeal, execRegionKey, execRegionGrow, State.run_eq, now,
        started, table]
  case create =>
    intro x y st valid create m u
    refine ⟨fun k => Dev.runRegion_of_barred valid create, Dev.runRegion_of_short valid create, fun free whole => ?_⟩
    have described := Dev.runRegion_of_described valid create free whole
    exact ⟨fun full => described.trans (if_pos full), fun room => described.trans (if_neg (Bool.eq_false_iff.mp room))⟩
  case change =>
    intro x y st valid other
    refine ⟨Dev.runRegion_of_counter valid other, Dev.runRegion_of_absent valid other, ?_⟩
    intro r named present m u bad
    refine ⟨Dev.runRegion_of_badGrowth valid other named present, fun good => ?_, fun k good => ?_, fun good => ?_⟩
    all_goals obtain ⟨noSpace, cannot, holds⟩ := Dev.runRegion_of_wellFormed (st := st) valid other named present good
    · exact noSpace
    · exact cannot k
    · exact holds
  case destroy =>
    intro turn
    refine ⟨exec_regionDestroy_of_untimed now turn, exec_regionDestroy_of_absent now turn, fun r valid present => ?_⟩
    have destroys := exec_regionDestroy_of_present now turn valid present
    refine ⟨fun forbidden => ?_, fun named may => ?_⟩
    · rw [destroys, if_pos forbidden]
    · rw [destroys, if_neg (by simp [named, may])]

end Sys2Proof.Machine
end

section
/-! Proofs about the governor, B, save duty, images, seals and write-through (R62, R181 to R194, R219): what each timer and each
completion does where its guard lets it act, and that only time passes where it does not. -/

namespace Sys2Proof.Machine

/-! ### Commands that act under a guard -/

/-- A command whose guard holds acts. -/
theorem State.run_of_due {s : State} {t : Nat} {d : Dev} (now : s.dev.tick t = d) {c : Dev → Prop} [DecidablePred c]
    {f : Dev → Dev} (h : c d) : s.run t (fun d => if c d then f d else d) = .next { s with dev := f d } := by
  rw [State.run_eq, now, if_pos h]

/-- A command whose guard fails only lets time pass. -/
theorem State.run_of_early {s : State} {t : Nat} {d : Dev} (now : s.dev.tick t = d) {c : Dev → Prop} [DecidablePred c]
    {f : Dev → Dev} (h : ¬ c d) : s.run t (fun d => if c d then f d else d) = .next { s with dev := d } := by
  rw [State.run_eq, now, if_neg h]

/-! ### The governor and B -/

/-- The token store is full as stage 2 is entered (R186). -/
theorem Dev.govern_of_enters {e : Dev} (two : e.stageNow = 2) (was : e.f DUR_BUDGET_STAT.STAGE ≠ 2) :
    e.govern = { e.fset DUR_BUDGET_STAT.STAGE e.stageNow with
      dur := { e.dur with tokens := e.dur.imgRate * 100000, tokAt := e.clk } } :=
  if_pos ⟨two, was⟩

/-- Any other evaluation sets the stage alone (R185). -/
theorem Dev.govern_of_stays {e : Dev} (stays : e.stageNow ≠ 2 ∨ e.f DUR_BUDGET_STAT.STAGE = 2) :
    e.govern = e.fset DUR_BUDGET_STAT.STAGE e.stageNow :=
  if_neg fun ⟨two, was⟩ => stays.elim (· two) was

section
variable {s : State} {t : Nat} {d : Dev} (now : s.dev.tick t = d)
include now

/-- With no rise of B due, B stays (R182). -/
theorem exec_budgetRiseEffect_of_early (early : (d.dur.rise.filter (fun r => decide (r.2 ≤ d.clk))).getLast? = none) :
    exec (.budgetRiseEffect t) s = .next { s with dev := d } := by
  simp only [exec, execBudgetRiseEffect, State.run_eq, now, early]

/-- The last rise of B that is due takes effect (R182). -/
theorem exec_budgetRiseEffect_of_due {b at_ : Nat}
    (due : (d.dur.rise.filter (fun r => decide (r.2 ≤ d.clk))).getLast? = some (b, at_)) :
    exec (.budgetRiseEffect t) s = .next { s with dev :=
      ({ d with dur := { d.dur with budget := b, rise := d.dur.rise.filter (fun r => decide (d.clk < r.2)) } } : Dev).settleOver } := by
  simp only [exec, execBudgetRiseEffect, State.run_eq, now, due]

end

/-- Settles O46: the guard of each command lets it act, or only time passes. -/
theorem governorAndSealsGoOn : Obligations.GovernorAndSealsGoOn := by
  intro t rate mod n blk epoch m1 m2 s
  generalize now : s.dev.tick t = d
  refine ⟨?evaluation, fun e => ⟨Dev.govern_of_enters, Dev.govern_of_stays⟩,
    ⟨exec_budgetRiseEffect_of_early now, fun b at_ => exec_budgetRiseEffect_of_due now⟩, ?calibrated, ?notCalibrated,
    ?group, ?noGroup, ?sealed, fun x => rfl, ?notSealed, ?drained, ?notDrained⟩
  case evaluation =>
    simp only [exec, execGovernorEvaluation, State.run_eq, now]
    rfl
  case calibrated =>
    intro online inWindow module
    simp only [exec, execSaveRateCalibration]
    exact State.run_of_due now ⟨online, inWindow, module⟩
  case notCalibrated =>
    intro barred
    simp only [exec, execSaveRateCalibration]
    exact State.run_of_early now (by rintro ⟨online, inWindow, module⟩; omega)
  case group =>
    intro writes module
    simp only [exec, execImageGroupClosed]
    exact State.run_of_free now (by simp [writes, module])
  case noGroup =>
    intro barred
    simp only [exec, execImageGroupClosed]
    exact State.run_of_barred now (by simp [barred])
  case sealed =>
    intro oldest free heard apart first second
    simp only [exec, execSealRecordClosed]
    exact State.run_of_due now (by simp [oldest, free, heard, apart, first, second])
  case notSealed =>
    intro barred
    simp only [exec, execSealRecordClosed]
    exact State.run_of_early now (by simp only [← Bool.not_eq_true] at barred; tauto)
  case drained =>
    intro through first clean
    simp only [exec, execWriteThroughDrained]
    exact State.run_of_due now (by simp [through, first, clean])
  case notDrained =>
    intro barred
    simp only [exec, execWriteThroughDrained]
    exact State.run_of_early now (by simp only [← Bool.not_eq_true] at barred; tauto)

end Sys2Proof.Machine
end

section
/-! Proofs about device time and epochs (R72, R201 to R206, R216, R291, R293): the closing of an epoch, the states of device time,
the reports to the steward, and RECOVER. -/

namespace Sys2Proof.Machine

/-! ### The closing of an epoch -/

/-- The open epoch joins the closed ones with a snapshot, and its EOE is due to a twin that is enabled and stands (R205, R237). -/
theorem Dev.shutEpoch_eq (d : Dev) : d.shutEpoch =
    let k := d.dur.openEp
    let e : Dev := { d with dur := { d.dur with
      isOpen := false, closed := d.dur.closed ++ [k], snaps := d.dur.snaps ++ [d.snapNow k] } }
    if d.on TWN_CFG.ENABLE = true ∧ d.twn.soleMeadow = false ∧ d.twn.declared = false then
      { e with twn := { e.twn with eoeDue := e.twn.eoeDue ++ [k] } } else e := by
  simp only [Dev.shutEpoch, Bool.not_eq_true]
  rfl

/-! ### The states of device time -/

/-- Device time is locked no more once PTP is lost (R201). -/
def Dev.withoutPtp (d : Dev) : Dev := { d with tim := { d.tim with ptp := false, lockCnt := 0 } }

section
variable {s : State} {t spread : Nat} {d : Dev} (now : s.dev.tick t = d)
include now

/-- PTP lost outside Locked leaves the state of device time (Table 6.3). -/
theorem exec_ptpLoss_of_unlocked (unlocked : d.f DUR_TIME_STAT.STATE ≠ timeLocked) :
    exec (.ptpLoss t spread) s = .next { s with dev := d.withoutPtp } := by
  simp only [exec, execPtpLoss, State.run_eq, now]
  exact congrArg (fun e : Dev => Host.Outcome.next { s with dev := e }) (if_pos unlocked)

/-- PTP lost in Locked enters Holdover, with the estimate growing by at least 50 ns per second (R201). -/
theorem exec_ptpLoss_of_locked (locked : d.f DUR_TIME_STAT.STATE = timeLocked) :
    exec (.ptpLoss t spread) s = .next { s with dev := { d.withoutPtp.fset DUR_TIME_STAT.STATE timeHoldover with
      tim := { d.withoutPtp.tim with lostAt := d.clk, terrAtLoss := d.withoutPtp.terrNow, spread := max 50 spread } } } := by
  simp only [exec, execPtpLoss, State.run_eq, now]
  exact congrArg (fun e : Dev => Host.Outcome.next { s with dev := e }) (if_neg (not_not_intro locked))

end

/-! ### RECOVER -/

section
variable {d : Dev} {c : Nat}

/-- RECOVER at a running member that is ahead or has an open epoch begins a save (R72, log entry 50). -/
theorem Dev.recover_of_running (runs : d.core.transport = true) (ahead : c < d.f DUR_EPOCH_STAT.LOCAL ∨ d.dur.isOpen = true) :
    d.recover c = ({ d with dur := { d.dur with cut := some c } } : Dev).saveOrStop 3 := by
  rw [Dev.recover, if_pos runs, if_pos (by simpa using ahead)]

/-- RECOVER at a running member that is not ahead and has no open epoch has no effect (R293). -/
theorem Dev.recover_of_behind (runs : d.core.transport = true) (behind : d.f DUR_EPOCH_STAT.LOCAL ≤ c)
    (noEpoch : d.dur.isOpen = false) : d.recover c = d := by
  rw [Dev.recover, if_pos runs, if_neg (by simp [behind, noEpoch])]

section
variable (restarts : d.core.transport = false)
include restarts

/-- RECOVER in phase A of a start is noted (R293). -/
theorem Dev.recover_of_phaseA (phaseA : d.core.phaseADone = false) :
    d.recover c = { d with fab := { d.fab with horizonSeen := true }, dur := { d.dur with cut := some c } } := by
  rw [Dev.recover, if_neg (Bool.eq_false_iff.mp restarts)]
  exact if_pos (Bool.eq_false_iff.mp phaseA)

variable (done : d.core.phaseADone = true)
include done

/-- After phase A a member that is ahead restores again, to the cut (R216). -/
theorem Dev.recover_of_ahead (ahead : c < d.f DUR_EPOCH_STAT.LOCAL) :
    d.recover c =
      ({ d with fab := { d.fab with horizonSeen := true }, dur := { d.dur with cut := some c } } : Dev).restoreAgain := by
  rw [Dev.recover, if_neg (Bool.eq_false_iff.mp restarts)]
  exact (if_neg (not_not_intro done)).trans (if_pos (decide_eq_true ahead))

/-- After phase A any other member raises its horizon to the cut (R64, R293). -/
theorem Dev.recover_of_restored (behind : d.f DUR_EPOCH_STAT.LOCAL ≤ c) :
    d.recover c =
      ({ d with fab := { d.fab with horizonSeen := true }, dur := { d.dur with short := false } } : Dev).horizonToCut c := by
  rw [Dev.recover, if_neg (Bool.eq_false_iff.mp restarts)]
  exact (if_neg (not_not_intro done)).trans (if_neg (by simpa using behind))

end
end

/-! ### Reports to the steward -/

section
variable {d : Dev}

/-- A short restore under policy cut asks for the lowest epoch that the members reported (R72, R293). -/
theorem Dev.cutWanted_of_short (short : d.fab.members.any (·.short) = true ∧ d.on DUR_EPOCH_CFG.POLICY = false) :
    d.cutWanted = lowestEpoch d.fab.members :=
  if_neg (by simp [short])

/-- Nothing else asks for a cut (R293). -/
theorem Dev.cutWanted_eq_none
    (h : ¬ (d.fab.members.any (·.short) = true ∧ d.on DUR_EPOCH_CFG.POLICY = false) ∨ lowestEpoch d.fab.members = none) :
    d.cutWanted = none := by
  by_cases short : d.fab.members.any (·.short) = true ∧ d.on DUR_EPOCH_CFG.POLICY = false
  · rw [Dev.cutWanted_of_short short]
    exact h.resolve_left (not_not_intro short)
  · exact if_pos (by rw [not_and_or, Bool.not_eq_false] at short; exact short.symm)

/-- The steward that has taken a member's report and compared it with its own (R206, R278). -/
def Dev.judgedReport (d : Dev) (src : Nat) (r : EpochReport) : Dev :=
  let e := (d.takeReport src r).compareMembers src r
  if r.spanBase ≠ e.f FAB_CFG.SPAN_BASE then e.raise (source 13 2) 2 0 src 0 else e

section
variable {s : State} {t src : Nat} {r : EpochReport} {e : Dev} (now : s.dev.tick t = d) (steward : d.isSteward = true)
  (noSave : d.dur.saving = false) (member : d.fab.members.any (fun m => m.id == src) = true)
  (judged : d.judgedReport src r = e)
include now steward noSave member judged

/-- A report that has a cut wanted brings RECOVER to every member and to the steward (R293). -/
theorem exec_epochRep_of_cut {c : Nat} (cut : e.cutWanted = some c) :
    exec (.epochRep t src r) s = .next { s with dev := (e.cutTaken.toMembers recoverMsg [c]).recover c } := by
  subst judged
  simp only [Dev.judgedReport] at cut ⊢
  simp only [exec, execEpochRep]
  rw [State.run_of_free now (by simp only [steward, noSave, member]; decide)]
  simp only [cut]

/-- Any other report may raise the horizon (R291). -/
theorem exec_epochRep_of_noCut (noCut : e.cutWanted = none) :
    exec (.epochRep t src r) s = .next { s with dev := e.stewardHorizon } := by
  subst judged
  simp only [Dev.judgedReport] at noCut ⊢
  simp only [exec, execEpochRep]
  rw [State.run_of_free now (by simp only [steward, noSave, member]; decide)]
  simp only [noCut]

end
end

/-- Settles O47: the guard of each command lets it act, or only time passes; a report and RECOVER act by the cases of R293. That a
running member with an open epoch saves for RECOVER is the model's choice (log entry 50). -/
theorem timeAndEpochsGoOn : Obligations.TimeAndEpochsGoOn := by
  intro t spread src cut c r s
  generalize now : s.dev.tick t = d
  refine ⟨?close, ?early, ⟨exec_ptpLoss_of_unlocked now, exec_ptpLoss_of_locked now⟩, ⟨?limit, ?within⟩, ⟨?waited, ?waits⟩, ?pps,
    ?report, ?recover⟩
  case close =>
    intro isOpen closes noSave
    simp only [exec, execEpochClose]
    rw [State.run_of_due now (by simp [isOpen, closes, noSave]), Dev.closeEpoch, Dev.shutEpoch_eq]
  case early =>
    intro barred
    simp only [exec, execEpochClose]
    exact State.run_of_early now (by rw [← Nat.not_le] at barred; simp only [← Bool.not_eq_true] at barred; tauto)
  case limit =>
    intro holdover past
    simp only [exec, execHoldoverLimit]
    exact State.run_of_due now ⟨holdover, past⟩
  case within =>
    intro barred
    simp only [exec, execHoldoverLimit]
    exact State.run_of_early now (not_and_or.mpr barred)
  case waited =>
    rintro ⟨on, noTime, waits, long⟩
    simp only [exec, execTimeValidWait]
    exact State.run_of_free now (by simp [on, noTime, waits, long])
  case waits =>
    intro barred
    simp only [exec, execTimeValidWait]
    exact State.run_of_barred now (by rw [← Nat.not_le]; simp only [← Bool.not_eq_true] at barred; tauto)
  case pps =>
    intro ext tod
    refine ⟨fun barred => ?_, fun on noSave source => ?_⟩
    · simp only [exec, execTimePps]
      exact State.run_of_barred now (by simpa only [Bool.not_eq_true] using barred)
    · simp only [exec, execTimePps]
      exact State.run_of_free now (by simp [on, noSave, source])
  case report =>
    intro steward noSave member taken_ e shortCut answered
    have judged : d.judgedReport src r = e := rfl
    clear_value e
    refine ⟨fun short lowest => ?_, fun noCut => ?_⟩
    · exact exec_epochRep_of_cut now steward noSave member judged ((Dev.cutWanted_of_short short).trans lowest)
    · exact exec_epochRep_of_noCut now steward noSave member judged (Dev.cutWanted_eq_none noCut)
  case recover =>
    intro on noSave valid e
    have recovers : exec (.recover t cut) s = .next { s with dev := d.recover cut } := by
      simp only [exec, execRecover]
      exact State.run_of_free now (by simp [on, noSave, valid])
    rw [recovers]
    refine ⟨fun runs ahead => ?_, fun runs behind noEpoch => ?_, fun restarts phaseA => ?_, fun restarts done ahead => ?_,
      fun restarts done behind => ?_⟩
    · rw [Dev.recover_of_running runs ahead]
    · rw [Dev.recover_of_behind runs behind noEpoch]
    · rw [Dev.recover_of_phaseA restarts phaseA]
    · rw [Dev.recover_of_ahead restarts done ahead]
    · rw [Dev.recover_of_restored restarts done behind]

end Sys2Proof.Machine
end

section
/-! Proofs about requests that a port does not take or a connection does not know, and about those that take their place in the
ingress buffer and leave it (R78, R81, R93, R96, R102, R105, R115 to R126, R184, R209). -/

namespace Sys2Proof.Machine

/-! ### Packets that meet no connection -/

/-- Once a save has begun a packet is dropped and counted (R209). -/
theorem Dev.arrive_of_saving {d : Dev} {q : Req} {a : Option Ask} (saves : d.dur.saving = true) :
    d.arrive q a = d.finc HPT_DROP_CNT.CONN_STALE 1 := if_pos saves

section
variable {d : Dev} {q : Req} {a : Option Ask} (noSave : d.dur.saving = false)
include noSave

/-- A port that is down, or a frame that it does not take, changes nothing (R78). -/
theorem Dev.arrive_of_untaken (untaken : (d.port q.port).up = false ∨ frameTaken q.fr = false) : d.arrive q a = d := by
  rw [Dev.arrive, if_neg (Bool.eq_false_iff.mp noSave), if_pos (by simpa using untaken)]

/-- A packet that a full ingress buffer lost is noted (R81). -/
theorem Dev.arrive_of_lost (up : (d.port q.port).up = true) (sound : frameTaken q.fr = true) (lost : q.lost = true) :
    d.arrive q a = d.lostPacket q.port (d.dscpPri q.dscp) := by
  rw [Dev.arrive, if_neg (Bool.eq_false_iff.mp noSave), if_neg (by simp [up, sound]), if_pos lost]

end

/-- A connection that the packet does not know is closed to it (R93). -/
theorem Dev.closedTo_of_not_knows {d : Dev} {q : Req} (unknown : ¬ d.knows q) : d.closedTo q.qpn = true := by
  simp only [not_and_or, not_or] at unknown
  simpa [Dev.closedTo] using unknown

/-- A packet in the ingress buffer, its notification sent and its activity noted, has been taken (R81, R83, R96). -/
theorem Dev.took_of_arrival (d : Dev) (q : Req) :
    (if q.ce then (d.ingress q.port (d.dscpPri q.dscp) q.occ).notify (q.qpn % 65536) (d.dscpPri q.dscp)
      else d.ingress q.port (d.dscpPri q.dscp) q.occ).setConn (q.qpn % 65536)
        (fun x => { x with lastAct := (d.ingress q.port (d.dscpPri q.dscp) q.occ).clk }) = d.took q := by
  rw [Dev.ingress_clk]
  rfl

section
variable {d : Dev} {q : Req} {a : Ask} (heard : d.hears q)
include heard

/-- A packet that names no open connection is dropped and counted after its arrival in the ingress buffer (R93). -/
theorem Dev.arrive_of_unknown (unknown : ¬ d.knows q) :
    d.arrive q (some a) =
      ((d.ingress q.port (d.dscpPri q.dscp) q.occ).finc HPT_DROP_CNT.CONN_STALE 1).count 0x20B 0 1 := by
  obtain ⟨noSave, up, sound, held⟩ := heard
  simp only [Dev.arrive, noSave, up, sound, held, Dev.ingress_closedTo, Dev.closedTo_of_not_knows unknown, not_true_eq_false,
    or_self, if_true, if_false, Bool.false_eq_true]
  rfl

/-- A packet whose connection is cold waits for its state, with the verdict of its own instant where it begins a message, and wakes
the connection's lantern (R96). -/
theorem Dev.arrive_of_cold (known : d.knows q) (cold : ((d.took q).conn (q.qpn % 65536)).hot = false) :
    d.arrive q (some a) =
      let e := (d.took q).wake ((d.took q).conn (q.qpn % 65536)).lantern
      let v := if a.part = .middle ∨ a.part = .last then none else some ((d.took q).verdict (d.asked q a))
      let p : ColdPkt := { c := q.qpn % 65536, q := q, a := some a, stamp := d.now, verdict := v }
      { e with hpt := { e.hpt with cold := e.hpt.cold ++ [p] } } := by
  obtain ⟨noSave, up, sound, held⟩ := heard
  simp only [Dev.arrive, noSave, up, sound, held, Dev.ingress_closedTo, Dev.closedTo_of_knows known, Dev.took_of_arrival, cold,
    Dev.took_now, not_true_eq_false, or_self, if_false, Bool.false_eq_true]
  rfl

end

/-- Settles O11: a request arrives, and the port takes it, loses it or drops it, or its connection takes it. That a packet dropped
during a save counts in CONN_STALE is the model's choice (log entry 15). -/
theorem unheardRequestsAreDropped : Obligations.UnheardRequestsAreDropped := by
  intro c t q a s request
  rw [exec_request request]
  refine ⟨fun saves => ?_, fun noSave untaken => ?_, fun noSave up sound lost => ?_, fun heard unknown => ?_,
    fun heard known cold => ?_⟩
  · rw [Dev.arrive_of_saving saves]
  · rw [Dev.arrive_of_untaken noSave untaken]
  · rw [Dev.arrive_of_lost noSave up sound lost]
  · rw [Dev.arrive_of_unknown heard unknown]
  · rw [Dev.arrive_of_cold heard known cold]

/-! ### Into the ingress buffer -/

/-- A valid expected packet that begins a message where none is open takes its place in the ingress buffer (R105, R115, R117). -/
theorem Dev.expected_of_begins {d : Dev} {o : Op} {q : Req} {a : Ask} (part : a.part = .only ∨ a.part = .first)
    (valid : d.invalid o.conn q a = false) (closed : (d.conn o.conn).openMsg = none) :
    d.expected o q a none =
      let e := (d.madeReady o.conn).advance o
      let f := e.pushIngress { o := o, part := a.part, msg := o.psn, verdict := e.verdict o }
      let m : OpenMsg := { psn := o.psn, rkey := o.rkey, va := o.off, len := o.len, got := o.data.length, dlHdr := q.dl }
      if a.part = .first then f.setConn o.conn (fun c => { c with openMsg := some m }) else f := by
  have begins : (a.part == .middle || a.part == .last) = false := by
    obtain h | h := part <;> rw [h] <;> rfl
  simp only [Dev.expected, valid, closed, begins, Option.isSome_none, bne_self_eq_false, Bool.false_and, Bool.or_self,
    Bool.false_eq_true, if_false, Option.getD_none]

/-! ### Out of the ingress buffer -/

/-- A packet that begins a message leaves the ingress buffer to be admitted (R105). -/
theorem Dev.takeIngress_of_begins {d : Dev} {e : IngPkt} (part : e.part = .only ∨ e.part = .first) :
    d.takeIngress e = (d.without e).admitRequest e.o e.verdict :=
  if_neg (by obtain h | h := part <;> rw [h] <;> decide)

/-- Pages that a request reserves as it enters (R184). -/
def Dev.entryPages (d : Dev) (o : Op) : Nat :=
  match look d.rgn o.rid with
  | some r => if o.kind.writes ∧ o.len ≠ 0 then d.pagesNeeded r o else 0
  | none => 0

/-- A write to a region of the device reserves the pages it needs. -/
theorem Dev.entryPages_of_write {d : Dev} {o : Op} {r : Region} (present : look d.rgn o.rid = some r)
    (writes : o.kind.writes = true) (bytes : o.len ≠ 0) : d.entryPages o = d.pagesNeeded r o := by
  simp only [Dev.entryPages, present, if_pos (And.intro writes bytes)]

/-- Any other request reserves none. -/
theorem Dev.entryPages_of_no_write {d : Dev} {o : Op} (h : look d.rgn o.rid = none ∨ o.kind.writes = false ∨ o.len = 0) :
    d.entryPages o = 0 := by
  unfold Dev.entryPages
  split
  case h_1 r present =>
    have noWrite : o.kind.writes = false ∨ o.len = 0 := h.resolve_left (by simp [present])
    exact if_neg (by rwa [not_and_or, Bool.not_eq_true, not_not])
  case h_2 => rfl

section
variable {d : Dev} {o : Op} {v : Option Status}

/-- With no tag slot free the request is answered with a hint and an event (R102). -/
theorem Dev.admitRequest_of_full (full : d.freeSlot (d.conn o.conn).lantern = none) :
    d.admitRequest o v =
      (d.raise (source 9 0) 2 0 (d.conn o.conn).lantern 0).reply o { st := .retryAfter, us := 10 } := by
  unfold Dev.admitRequest
  extract_lets l
  rw [show d.freeSlot l = none from full]

variable {slot : Nat} (free : d.freeSlot (d.conn o.conn).lantern = some slot)
include free

/-- What refuses a request that no message holds back answers it (R117). -/
theorem Dev.admitRequest_of_refused {a : Answer} (refused : d.refusal o v = some a) (single : o.multi = false) :
    d.admitRequest o v = (d.countRefusal a).reply o a := by
  unfold Dev.admitRequest
  extract_lets l
  rw [show d.freeSlot l = some slot from free]
  simp only [refused, single, Bool.false_eq_true, false_and, if_false]

/-- A request that nothing refuses takes its place under the tag, with its pages reserved (R101, R184). -/
theorem Dev.admitRequest_of_passing (passes : d.refusal o v = none) :
    d.admitRequest o v = d.enter o slot (d.entryPages o) := by
  unfold Dev.admitRequest
  extract_lets l
  rw [show d.freeSlot l = some slot from free]
  simp only [passes]
  rfl

end

/-- Settles O8: the packet meets its connection, is the expected one and begins a message; out of the ingress buffer it enters, or
is answered. -/
theorem requestTakesItsPlace : Obligations.RequestTakesItsPlace := by
  refine ⟨?arrives, ?leaves⟩
  case arrives =>
    intro c t q a s request part d k o e heard known hot next valid closed
    have begins : (d.took q).expected o q a none =
        (e.pushIngress { o := o, part := a.part, msg := o.psn, verdict := e.verdict o }).opens q a o :=
      Dev.expected_of_begins part valid closed
    have arrives := Dev.arrive_of_hot (some a) heard known hot
    rw [Dev.packet_of_expected next, begins] at arrives
    rw [exec_request request, arrives]
  case leaves =>
    intro d e part f l
    rw [Dev.takeIngress_of_begins part]
    refine ⟨fun slot free passes => ⟨fun r present writes bytes => ?_, fun noWrite => ?_⟩,
      fun slot a free refused single => ?_, fun full => ?_⟩
    · rw [Dev.admitRequest_of_passing free passes, Dev.entryPages_of_write present writes bytes]
    · rw [Dev.admitRequest_of_passing free passes, Dev.entryPages_of_no_write noWrite]
    · exact Dev.admitRequest_of_refused free refused single
    · exact Dev.admitRequest_of_full full

end Sys2Proof.Machine
end

section
/-! Proofs about deadlines, durability, fences and cold connections (R96, R101, R105, R124, R128, R131, R133, R143). -/

namespace Sys2Proof.Machine

/-- Settles O13: each command's guard holds of the operation, the waiting packet or the connection it names, so it acts; a tag that
names no operation is stale. The number of a waiting request is the model's choice (log entry 77). -/
theorem verbEngineGoesOn : Obligations.VerbEngineGoesOn := by
  intro t op k est s
  generalize now : s.dev.tick t = d
  refine ⟨?expires, ?expiresWaiting, ?durable, ?fence, ?stale, ?cold⟩
  case expires =>
    intro o x names noCmd due passed
    have expired : ¬ (o.cmd.isSome = true ∨ ¬ (d.dueAt o).any (fun x => x ≤ d.now) = true) := by
      simp [noCmd, due, passed]
    change execDeadlineExpiry t op est s = _
    simp only [execDeadlineExpiry, State.run_eq, now, names, if_neg expired]
  case expiresWaiting =>
    intro e noOp waits only passed
    have notFirst : e.part ≠ .first := by rw [only]; decide
    change execDeadlineExpiry t op est s = _
    simp only [execDeadlineExpiry, State.run_eq, now, noOp, waits, if_neg notFirst]
    rw [if_pos (Option.any_eq_true _ _ |>.mpr ⟨e.o.dl, rfl, decide_eq_true passed⟩)]
  case durable =>
    intro o names may
    change execWriteDurable t op s = _
    simp only [execWriteDurable, State.run_eq, now, names, if_pos may]
  case fence =>
    intro o names kind fenced passes
    have ends : o.kind = .fenceCount ∧ o.phase = .fenced ∧ d.fencePasses o = true := ⟨kind, fenced, passes⟩
    change execFenceCountReached t op s = _
    simp only [execFenceCountReached, State.run_eq, now, names, if_pos ends]
  case stale =>
    intro noOp
    constructor
    · change execWriteDurable t op s = _
      simp only [execWriteDurable, State.run_eq, now, noOp]
      rfl
    · change execFenceCountReached t op s = _
      simp only [execFenceCountReached, State.run_eq, now, noOp]
      rfl
  case cold =>
    intro cold waits up
    have loads : ¬ ((d.conn k).hot = true ∨ ¬ d.hpt.cold.any (fun p => p.c == k) = true ∨
        ¬ d.lanternUp (d.conn k).lantern = true) := by
      simp [cold, waits, up]
    refine ⟨fun room => ?_, fun v full victim => ?_⟩
    · change execColdStateLoad t k s = _
      simp only [execColdStateLoad, State.run_eq, now, if_neg loads]
      rw [if_pos (show _ < hotSlots from room)]
      rfl
    · change execColdStateLoad t k s = _
      simp only [execColdStateLoad, State.run_eq, now, if_neg loads]
      rw [if_neg (show ¬ _ < hotSlots from Nat.not_lt.mpr full)]
      simp only [victim]
      rfl

end Sys2Proof.Machine
end

section
/-! Proofs about the connection manager (R84, R86 to R99, R209, R534): what a REQ is answered, what a granted connection is, and how
a connection opens and closes. -/

namespace Sys2Proof.Machine

/-! ### Granting a connection -/

/-- Taking an index changes the indices that are free. -/
theorem Dev.takeIndex_eq (d : Dev) (i : Nat) :
    ∃ n f, d.takeIndex i = { d with hpt := { d.hpt with nextIdx := n, freed := f } } := by
  unfold Dev.takeIndex
  split
  · exact ⟨d.hpt.nextIdx + 1, d.hpt.freed, rfl⟩
  · exact ⟨d.hpt.nextIdx, rem d.hpt.freed i, rfl⟩

/-- A draw changes the count of free values and the generators' state (R378). -/
theorem Dev.drew_eq (d : Dev) : ∃ n c, d.drew = { d with free := n, cph := c } := by
  unfold Dev.drew
  split
  · exact ⟨d.free + 1, _, rfl⟩
  · exact ⟨d.free, _, rfl⟩

/-- A frame of a port that is up leaves at once where its priority is not paused (R81). -/
theorem Dev.sendCm_of_free {d : Dev} {port pri : Nat} (up : (d.port port).up = true) (free : (d.port port).holds pri d.clk = false)
    (kind : CmKind) (fields : List Nat) (priv : List Byte) :
    d.sendCm port pri kind fields priv = d.send (.cm port kind fields priv) := by
  rw [Dev.sendCm, Dev.egress, if_neg (not_not_intro up), if_neg (by simp [free])]
  rfl

/-- The connection that a REQ is granted: Offered, under its index's next generation (R87 to R92). -/
def Dev.offered (d : Dev) (r : CmReq) (i : Nat) : Conn :=
  let grant := (offerOf r).map d.grant
  let w := (grant.map (·.weight)).getD 1
  { state := .offered, cgen := nextCgen (lookD d.hpt.cgens i 0), lantern := r.port / 32, port := r.port, peerQpn := r.peerQpn,
    mtu := mtuOf r.mtu, resp := min r.depth 64, weight := w, credit := w * d.f HPT_FAIR_CTL.QUANTUM * 1024,
    dlHdr := grant.any (fun o => o.flags % 2 == 1), stHdr := grant.any (fun o => o.flags / 2 % 2 == 1),
    ePsn := r.psn % 2 ^ 24, hot := d.hotRoom (r.port / 32), lastAct := d.clk, rate := (d.port r.port).lineRate, since := d.clk,
    lastCnpRx := d.clk, adopted := d.adoptedGid r.gid, pri := d.dscpPri r.dscp }

/-- The device that has granted it, before REP is sent. -/
def Dev.granted (d : Dev) (r : CmReq) (i : Nat) : Dev :=
  let e := (d.takeIndex i).drew
  { e with hpt := { e.hpt with
    cgens := put e.hpt.cgens i (nextCgen (lookD d.hpt.cgens i 0)), conns := put e.hpt.conns i (d.offered r i) } }

/-- The numbers of REP: QPN, starting PSN, path MTU, responder resources (R89). -/
def Dev.repFields (d : Dev) (r : CmReq) (i : Nat) : List Nat :=
  [(nextCgen (lookD d.hpt.cgens i 0)).toNat * 65536 + i, d.drawn.toNat % 2 ^ 24, mtuOf r.mtu, min r.depth 64]

/-- The granted block that REP carries, where the REQ made an offer (R87, R88). -/
def Dev.grantBlock (d : Dev) (r : CmReq) : List Byte := (((offerOf r).map d.grant).map Offer.bytes).getD []

/-- A REQ that is accepted is granted its connection, and REP is sent (R87 to R92). -/
theorem Dev.acceptReq_eq (d : Dev) (r : CmReq) (i : Nat) :
    d.acceptReq r i = (d.granted r i).sendCm r.port (d.dscpPri r.dscp) .rep (d.repFields r i) (d.grantBlock r) := rfl

/-- What a grant changes: the indices, the generations, the connection, and what the draw uses. -/
theorem Dev.granted_eq (d : Dev) (r : CmReq) (i : Nat) :
    ∃ x f n c, d.granted r i = { d with
      free := n, cph := c,
      hpt := { d.hpt with
        cgens := put d.hpt.cgens i (nextCgen (lookD d.hpt.cgens i 0)), nextIdx := x, freed := f,
        conns := put d.hpt.conns i (d.offered r i) } } := by
  obtain ⟨x, f, taken⟩ := d.takeIndex_eq i
  obtain ⟨n, c, drew⟩ := (d.takeIndex i).drew_eq
  exact ⟨x, f, n, c, by rw [Dev.granted, drew, taken]⟩

/-- A message of the connection manager changes its port, the tags in use and what has been sent. -/
theorem Dev.sendCm_eq (d : Dev) (port pri : Nat) (kind : CmKind) (fields : List Nat) (priv : List Byte) :
    ∃ p b o, d.sendCm port pri kind fields priv = { d with hpt := { d.hpt with ports := p, busy := b }, out := o } :=
  d.egress_eq port _

section
variable (d : Dev) (r : CmReq) (i : Nat)

/-- What accepting a REQ changes: the host ports, what has been sent and what the draw uses. -/
theorem Dev.acceptReq_frame : ∃ h o n c, d.acceptReq r i = { d with hpt := h, out := o, free := n, cph := c } ∧
    h.conns = put d.hpt.conns i (d.offered r i) := by
  obtain ⟨_, _, n, c, granted⟩ := d.granted_eq r i
  obtain ⟨p, b, o, sent⟩ := (d.granted r i).sendCm_eq r.port (d.dscpPri r.dscp) .rep (d.repFields r i)
    (d.grantBlock r)
  refine ⟨{ (d.granted r i).hpt with ports := p, busy := b }, o, n, c, ?_, ?_⟩
  · rw [Dev.acceptReq_eq, sent, granted]
  · rw [granted]

/-- The index holds the connection that is offered, every other index what it held. -/
theorem Dev.acceptReq_conn (k : Nat) : (d.acceptReq r i).conn k = if i = k then d.offered r i else d.conn k := by
  obtain ⟨h, _, _, _, accepted, conns⟩ := d.acceptReq_frame r i
  rw [accepted]
  simp only [Dev.conn, conns, lookD_put]

/-- REP leaves at once where its port is up and its priority not paused (R81). -/
theorem Dev.acceptReq_out (up : (d.port r.port).up = true) (free : (d.port r.port).holds (d.dscpPri r.dscp) d.clk = false) :
    (d.acceptReq r i).out = .cm r.port .rep (d.repFields r i) (d.grantBlock r) :: d.out := by
  obtain ⟨_, _, _, _, granted⟩ := d.granted_eq r i
  have port : (d.granted r i).port r.port = d.port r.port := by rw [granted]; rfl
  have clk : (d.granted r i).clk = d.clk := by rw [granted]
  rw [Dev.acceptReq_eq, Dev.sendCm_of_free (by rw [port]; exact up) (by rw [port, clk]; exact free), Dev.send_out, granted]

end

/-- The deadline header is granted where it is offered (R88). -/
theorem Dev.offered_dlHdr (d : Dev) (r : CmReq) (i : Nat) :
    (d.offered r i).dlHdr = true ↔ ∃ o, offerOf r = some o ∧ o.flags % 2 = 1 := by
  simp [Dev.offered, Option.any_eq_true, Dev.grant]

/-- The status header is granted where it is offered (R88). -/
theorem Dev.offered_stHdr (d : Dev) (r : CmReq) (i : Nat) :
    (d.offered r i).stHdr = true ↔ ∃ o, offerOf r = some o ∧ o.flags / 2 % 2 = 1 := by
  have low (n : Nat) : n % 4 / 2 % 2 = n / 2 % 2 := by omega
  simp [low, Dev.offered, Option.any_eq_true, Dev.grant]

/-! ### A REQ and what becomes of it -/

/-- A REQ that meets no condition of Table 3.2 takes the free index (R86). -/
theorem Dev.answerReq_of_accepted {d : Dev} {r : CmReq} {ahead i : Nat} (good : d.refuseReq r ahead = none)
    (free : d.freeIndex = some i) : d.answerReq r ahead = d.acceptReq r i := by
  simp only [Dev.answerReq, good, free]

/-- A REQ that meets a condition of Table 3.2 draws REJ with its order (R86, log entry 17). -/
theorem Dev.answerReq_of_refused {d : Dev} {r : CmReq} {ahead n : Nat} (bad : d.refuseReq r ahead = some n) :
    d.answerReq r ahead = d.sendCm r.port (d.dscpPri r.dscp) .rej [n] := by
  simp only [Dev.answerReq, bad]

section
variable {s : State} {t : Nat} {r : CmReq} {d : Dev} (now : s.dev.tick t = d)
include now

/-- A REQ at a save is dropped and counted (R209, log entry 15). -/
theorem exec_req_of_saving (saves : d.dur.saving = true) :
    exec (.req t r) s = .next { s with dev := d.finc HPT_DROP_CNT.CONN_STALE 1 } := by
  change execReq t r s = _
  simp only [execReq, State.run_eq, now, if_pos saves]
  rfl

variable (noSave : d.dur.saving = false)
include noSave

/-- A port that is down, or a frame that it does not take, changes nothing (R78, R93). -/
theorem exec_req_of_untaken (untaken : (d.port r.port).up = false ∨ frameTaken r.fr = false) :
    exec (.req t r) s = .next { s with dev := d } := by
  change execReq t r s = _
  simp only [execReq, State.run_eq, now, if_neg (Bool.eq_false_iff.mp noSave)]
  rw [if_pos (by simpa using untaken)]

variable (up : (d.port r.port).up = true) (sound : frameTaken r.fr = true)
include up sound

/-- The lantern of the port group answers a REQ that the port takes (R21, R89). -/
theorem exec_req_of_served (served : d.reqServed r.port = true) :
    exec (.req t r) s =
      .next { s with dev := d.answerReq r (d.reqsAhead { port := r.port, arrived := d.clk, mra := false, r := r }) } := by
  change execReq t r s = _
  simp only [execReq, State.run_eq, now, if_neg (Bool.eq_false_iff.mp noSave)]
  rw [if_neg (by simp [up, sound]), if_pos served]

/-- Where the lantern cannot answer, the REQ waits and wakes it (R89). -/
theorem exec_req_of_unserved (unserved : d.reqServed r.port = false) :
    exec (.req t r) s = .next { s with dev := { d.wake (r.port / 32) with
      hpt := { (d.wake (r.port / 32)).hpt with
        reqs := d.hpt.reqs ++ [{ port := r.port, arrived := d.clk, mra := false, r := r }] } } } := by
  change execReq t r s = _
  simp only [execReq, State.run_eq, now, if_neg (Bool.eq_false_iff.mp noSave)]
  rw [if_neg (by simp [up, sound]), if_neg (Bool.eq_false_iff.mp unserved)]

end

/-- Settles O14: a save, a port that takes nothing, a lantern that cannot answer, and the two answers of R86 part the cases. The
numbers of REJ, a REQ that waits for its lantern and the count of one dropped at a save are the model's choices (log entries 17, 19
and 15). -/
theorem connectionRequestAnswered : Obligations.ConnectionRequestAnswered := by
  intro t r i s
  generalize now : s.dev.tick t = d
  refine ⟨?accepted, ?refused, ?waits, exec_req_of_saving now, exec_req_of_untaken now, ?mra⟩
  case accepted =>
    rintro ⟨noSave, up, sound⟩ served good free
    have conn := d.acceptReq_conn r i
    have own : (d.acceptReq r i).conn i = d.offered r i := (conn i).trans (if_pos rfl)
    obtain ⟨_, _, _, _, frame, _⟩ := d.acceptReq_frame r i
    refine ⟨d.acceptReq r i, ?_, ?_⟩
    · rw [exec_req_of_served now noSave up sound served, Dev.answerReq_of_accepted good free]
    · rw [own]
      refine ⟨rfl, rfl, rfl, rfl, rfl, rfl, rfl, rfl, rfl, d.offered_dlHdr r i, d.offered_stHdr r i, d.acceptReq_out r i up,
        fun k other => (conn k).trans (if_neg (Ne.symm other)), ?_, ?_, ?_⟩ <;> rw [frame]
  case refused =>
    rintro n ⟨noSave, up, sound⟩ served bad
    rw [exec_req_of_served now noSave up sound served, Dev.answerReq_of_refused bad]
  case waits =>
    rintro ⟨noSave, up, sound⟩ unserved
    exact exec_req_of_unserved now noSave up sound unserved
  case mra =>
    intro port arrived q waits
    change execMraTimeout t port arrived s = _
    simp only [execMraTimeout, State.run_eq, now, waits]

/-! ### Opening and closing -/

/-- Settles O15: the connection named is in the state that the command or timer asks for, so it acts. REJ number 7 for a timeout and
a rate in units of 100 Mb/s are the model's choices (log entries 17 and 80). -/
theorem connectionOpensAndCloses : Obligations.ConnectionOpensAndCloses := by
  intro t qpn c s
  generalize now : s.dev.tick t = d
  refine ⟨?rtu, ?rtuTimeout, ?dreqOffered, ?dreqReady, ?drep, ?drepTimeout, ?drained, ?errorDrained, ?quarantineEnd, ?cnp,
    ?cnpStale, ?rateRecovery⟩
  case rtu =>
    intro names offered
    change execRtu t qpn s = _
    simp only [execRtu, State.run_eq, now, names, if_pos offered]
    rfl
  case rtuTimeout =>
    intro offered silent
    change execRtuTimeout t c s = _
    exact State.run_of_due now ⟨offered, silent⟩
  case dreqOffered =>
    intro names offered
    change execDreq t qpn s = _
    simp only [execDreq, State.run_eq, now, names, offered]
  case dreqReady =>
    intro names ready
    change execDreq t qpn s = _
    simp only [execDreq, State.run_eq, now, names, ready]
    rfl
  case drep =>
    intro names sent
    change execDrep t qpn s = _
    simp only [execDrep, State.run_eq, now, names, if_pos sent]
  case drepTimeout =>
    intro a isOpen sent silent
    change execDrepTimeout t c s = _
    exact State.run_of_due now ⟨isOpen, Option.any_eq_true _ _ |>.mpr ⟨a, sent, decide_eq_true silent⟩⟩
  case drained =>
    intro draining drained
    change execConnectionDrained t c s = _
    exact State.run_of_due now ⟨draining, drained⟩
  case errorDrained =>
    intro failed drained unsent
    change execErrorDrained t c s = _
    exact State.run_of_due now ⟨failed, drained, by simp [unsent]⟩
  case quarantineEnd =>
    intro quarantined waited
    change execQuarantineEnd t c s = _
    exact State.run_of_due now ⟨quarantined, waited⟩
  case cnp =>
    intro names
    change execCnp t qpn s = _
    simp only [execCnp, State.run_eq, now, names]
  case cnpStale =>
    intro unknown
    change execCnp t qpn s = _
    simp only [execCnp, State.run_eq, now, unknown]
    rfl
  case rateRecovery =>
    intro isOpen quiet
    change execRateRecovery t c s = _
    exact State.run_of_due now ⟨isOpen, quiet⟩

end Sys2Proof.Machine
end

section
/-! Proofs about the host ports (R77 to R82, R100): links, pause, its watchdog, address resolution and DCBX. -/

namespace Sys2Proof.Machine

/-- Settles O16: each command's guard holds, so it acts, or fails, so that only time passes. -/
theorem portsPauseAndAnswer : Obligations.PortsPauseAndAnswer := by
  intro t port pri quanta occ gid pfc s
  generalize now : s.dev.tick t = d
  refine ⟨?portUp, ?linkDown, ?paused, ?released, ?refresh, ?watchdog, ?watchdogEnd, ?arp, ?neighbour, ?other, ?disagree,
    ?agree⟩
  case portUp =>
    intro fits down started noSave
    change execPortUp t port s = _
    exact State.run_of_free now (by simp [fits, down, noSave, Nat.not_lt.mpr started])
  case linkDown =>
    intro up
    change execPortLinkDown t port s = _
    simp only [execPortLinkDown, State.run_eq, now, Dev.portDown, if_neg (not_not_intro up)]
  case paused =>
    intro up lossless running
    change execPfcPause t port pri quanta s = _
    exact (State.run_of_free now (by simp [up, lossless])).trans
      (congrArg (fun e => Host.Outcome.next { s with dev := e }) (if_neg running))
  case released =>
    intro up lossless
    change execPfcPause t port pri 0 s = _
    exact (State.run_of_free now (by simp [up, lossless])).trans
      (congrArg (fun e => Host.Outcome.next { s with dev := e }) (if_pos rfl))
  case refresh =>
    intro up
    change execPauseRefresh t port occ s = _
    exact State.run_of_free now (not_not_intro up)
  case watchdog =>
    intro a b paused heeded enabled still unbroken
    have due : (look (d.port port).pausedAt pri).any (fun x => d.f HPT_PFC_CTL.WD_MS != 0 && decide (d.clk ≤ x.2)
        && decide (x.1 + d.f HPT_PFC_CTL.WD_MS * 1000000 ≤ d.clk)) = true :=
      Option.any_eq_true _ _ |>.mpr ⟨(a, b), paused, by simp [enabled, still, unbroken]⟩
    change execPauseWatchdog t port pri s = _
    exact State.run_of_due now ⟨due, by rw [heeded]; rfl⟩
  case watchdogEnd =>
    intro a ignored ended
    change execPauseWatchdogEnd t port pri s = _
    exact State.run_of_due now (Option.any_eq_true _ _ |>.mpr ⟨a, ignored, decide_eq_true ended⟩)
  case arp =>
    intro up mapped own
    change execArpRequest t port gid s = _
    exact State.run_of_due now ⟨up, mapped, own⟩
  case neighbour =>
    intro up notMapped own
    change execNeighbourSolicitation t port gid s = _
    exact State.run_of_due now ⟨up, by simp [notMapped], own⟩
  case other =>
    intro other
    constructor
    · change execArpRequest t port gid s = _
      exact State.run_of_early now (by simp [other])
    · change execNeighbourSolicitation t port gid s = _
      exact State.run_of_early now (by simp [other])
  case disagree =>
    intro up differs
    change execLldpReceived t port pfc s = _
    exact State.run_of_due now ⟨up, differs⟩
  case agree =>
    intro same
    change execLldpReceived t port pfc s = _
    exact State.run_of_early now (fun ⟨_, differs⟩ => differs same)

end Sys2Proof.Machine
end

section
/-! Proofs about the orders of Table 4.5 that make no operation of a packet (R108, R115, R127, R142), and about the bytes that a
write stores in meadow (R117, R128, R190). -/

namespace Sys2Proof.Machine

/-! ### Which order a PSN meets (Table 4.5) -/

section
variable {d : Dev} {q : Req}

/-- A request inside the duplicate window is a duplicate (R142, log entry 16). -/
theorem Dev.packet_of_duplicate {a : Ask} (past : 2 ^ 23 ≤ d.psnGap q) :
    (d.took q).packet { c := q.qpn % 65536, q := q, a := some a, stamp := d.now } = (d.took q).duplicate (d.asked q a) a :=
  have ne : d.psnGap q ≠ 0 := by omega
  (if_neg ne).trans (if_pos past)

/-- A packet beyond the expected PSN is answered as such, whether its opcode is accepted or not (R127). -/
theorem Dev.packet_of_beyond (a : Option Ask) (ne : d.psnGap q ≠ 0) (ahead : d.psnGap q < 2 ^ 23) :
    (d.took q).packet { c := q.qpn % 65536, q := q, a := a, stamp := d.now } =
      (d.took q).beyond (d.asked q (a.getD { kind := .write })) := by
  cases a <;> exact (if_neg ne).trans (if_neg (Nat.not_le.mpr ahead))

/-- An expected request that order 4 finds invalid takes the PSN and draws NAK 61h (R108, R115). -/
theorem Dev.expected_of_invalid {o : Op} {a : Ask} {v : Option (Option Status)} (bad : d.invalid o.conn q a = true) :
    d.expected o q a v = (d.advance o).nakInvalidReq o :=
  if_pos (by simp only [bad, Bool.true_or])

/-- An opcode that is not accepted takes the expected PSN and draws NAK 61h (R108). -/
theorem Dev.packet_of_unsupported_expected (next : d.psnGap q = 0) :
    (d.took q).packet { c := q.qpn % 65536, q := q, a := none, stamp := d.now } =
      ((d.took q).advance (d.asked q { kind := .write })).nakInvalidReq (d.asked q { kind := .write }) :=
  if_pos next

/-- A duplicate of it is of no kind that is executed or answered again (R142, log entry 16). -/
theorem Dev.packet_of_unsupported_duplicate (past : 2 ^ 23 ≤ d.psnGap q) :
    (d.took q).packet { c := q.qpn % 65536, q := q, a := none, stamp := d.now } = d.took q :=
  have ne : d.psnGap q ≠ 0 := by omega
  (if_neg ne).trans (if_pos past)

end

/-- A packet with an opcode that is not accepted arrives as one without a verb (R108). -/
theorem exec_unsupportedOpcode (t : Nat) (q : Req) (s : State) :
    exec (.unsupportedOpcode t q) s = .next { s with dev := (s.dev.tick t).arrive q none } := rfl

/-- Settles O10: the packet meets its connection, and its PSN names the order that decides. The duplicate window of 2^23 PSNs and
the silence on a duplicate of an opcode that is not accepted are the model's choices (log entry 16). -/
theorem psnOrdersDecide : Obligations.PsnOrdersDecide := by
  refine ⟨?request, ?unsupported⟩
  case request =>
    intro c t q a s request d k heard known hot
    have arrives := exec_request request s
    rw [Dev.arrive_of_hot (some a) heard known hot] at arrives
    refine ⟨fun past => ?_, fun ne ahead => ?_, fun next bad => ?_⟩
    · rw [arrives, Dev.packet_of_duplicate past]
    · rw [arrives, Dev.packet_of_beyond (some a) ne ahead, Option.getD_some]
    · have answered : (d.took q).expected (d.asked q a) q a none =
          ((d.took q).advance (d.asked q a)).nakInvalidReq (d.asked q a) := Dev.expected_of_invalid bad
      rw [arrives, Dev.packet_of_expected next, answered]
  case unsupported =>
    intro t q s d o heard known hot
    have arrives := exec_unsupportedOpcode t q s
    rw [Dev.arrive_of_hot none heard known hot] at arrives
    refine ⟨fun next => ?_, fun past => ?_, fun ne ahead => ?_⟩
    · rw [arrives, Dev.packet_of_unsupported_expected next]
    · rw [arrives, Dev.packet_of_unsupported_duplicate past]
    · rw [arrives, Dev.packet_of_beyond none ne ahead, Option.getD_none]

/-! ### What leaves the memories alone -/

@[simp] theorem Dev.setEntry_mem (d : Dev) (idx : Nat) (e : HomeEntry) : (d.setEntry idx e).mem = d.mem := rfl

@[simp] theorem Dev.setPlotState_mem (d : Dev) (idx : Nat) (st : PlotState) : (d.setPlotState idx st).mem = d.mem := rfl

/-- Giving a home back frees it and keeps its bytes. -/
@[simp] theorem Dev.releaseHome_mem (d : Dev) (t : Tier) (loc : Nat) : (d.releaseHome t loc).mem = d.mem := by
  unfold Dev.releaseHome
  split
  case h_2 => split <;> rfl
  all_goals rfl

/-- A cancelled migration leaves the plot's bytes where they are (R168). -/
@[simp] theorem Dev.cancelMig_mem (d : Dev) (idx : Nat) : (d.cancelMig idx).mem = d.mem := by
  unfold Dev.cancelMig
  split
  case h_1 => rfl
  case h_2 m _ =>
    rw [Dev.finc_mem, Dev.releaseHome_mem]
    split
    · exact d.dropMig_mem idx
    · rw [Dev.setPlotState_mem, Dev.dropMig_mem]

/-- Whatever the witness of a write makes of the plot's migration, it writes no byte (R165). -/
@[simp] theorem Dev.witness_mem (d : Dev) (idx off n : Nat) : (d.witness idx off n).mem = d.mem := by
  unfold Dev.witness
  split
  case h_1 => rfl
  case h_2 m _ =>
    split
    · exact d.setMig_mem idx _
    · split
      · exact d.cancelMig_mem idx
      · rfl

@[simp] theorem Dev.addHeat_mem (d : Dev) (idx n : Nat) : (d.addHeat idx n).mem = d.mem := by
  unfold Dev.addHeat
  split <;> rfl

/-- Counting an access writes no byte (R153, R158). -/
@[simp] theorem Dev.sample_mem (d : Dev) (lantern idx inc : Nat) : (d.sample lantern idx inc).mem = d.mem := by
  unfold Dev.sample
  extract_lets +onlyGivenNames n _ counted
  split
  · exact counted.addHeat_mem idx inc
  · rfl

/-! ### The bytes of a write -/

/-- What one touch of a write does to the memories: its bytes go to the plot's home in meadow (R117, R128). -/
theorem Dev.applyTouch_mem (d : Dev) (o : Op) (t : Touch) (bs : List Byte) :
    (d.applyTouch o t bs).mem =
      { d.mem with meadow := memWrite d.mem.meadow ((d.entry t.idx).loc * plotBytes + t.off) bs } := by
  unfold Dev.applyTouch
  extract_lets +onlyGivenNames e a lines prev stored
  extract_lets +onlyGivenNames _ noted counted
  have storedMem : stored.mem = { d.mem with meadow := memWrite d.mem.meadow a bs } := Dev.witness_mem _ _ _ _
  have countedMem : counted.mem = noted.mem := by
    unfold counted
    split
    · rfl
    · exact noted.sample_mem _ _ _
  exact countedMem.trans storedMem

/-- Settles O12: a touch stores its bytes in meadow and does nothing else to the memories; the rest is reading after writing. -/
theorem writeStoresItsBytes : Obligations.WriteStoresItsBytes := by
  intro d o t bs canonical a d'
  have stored : d'.mem = { d.mem with meadow := memWrite d.mem.meadow a bs } := d.applyTouch_mem o t bs
  rw [stored]
  refine ⟨fun i inside => ?_, fun x outside => ?_, rfl⟩
  · rw [memGet_memWrite a bs (a + i) canonical, if_pos (by omega), Nat.add_sub_cancel_left]
  · rw [memGet_memWrite a bs x canonical, if_neg (by omega)]

end Sys2Proof.Machine
end

section
/-! Proofs about the replacement tree of a wick cache (R152): a touch points the nodes on the way to an entry away from it, and the
victim lies where they point. -/

namespace Sys2Proof.Machine

/-- The tree whose node `node` points away from the half `right` (R152). -/
def plruAway (b : BitVec 63) (node : Nat) (right : Bool) : BitVec 63 :=
  if right then b &&& ~~~BitVec.ofNat 63 (2 ^ (node - 1)) else b ||| BitVec.ofNat 63 (2 ^ (node - 1))

/-- A touch points one node after the other away from the entry. -/
theorem plruTouch_succ (b : BitVec 63) (e node k : Nat) :
    plruTouch b e node (k + 1) =
      plruTouch (plruAway b node (e / 2 ^ k % 2 == 1)) e (2 * node + bit (e / 2 ^ k % 2 == 1)) k := rfl

/-- Pointing a node away changes that node alone. -/
theorem getLsbD_plruAway (b : BitVec 63) (node : Nat) (right : Bool) {j : Nat} (low : j < 63) :
    (plruAway b node right).getLsbD j = if node - 1 = j then !right else b.getLsbD j := by
  have mask : (BitVec.ofNat 63 (2 ^ (node - 1))).getLsbD j = decide (node - 1 = j) := by
    rw [BitVec.getLsbD_ofNat, Nat.testBit_two_pow, decide_eq_true low, Bool.true_and]
  cases right
  · simp only [plruAway, Bool.false_eq_true, if_false, BitVec.getLsbD_or, mask]
    split <;> simp_all
  · simp only [plruAway, if_true, BitVec.getLsbD_and, BitVec.getLsbD_not, mask, decide_eq_true low]
    split <;> simp_all

/-- A touch from a node on leaves the nodes before it. -/
theorem getLsbD_plruTouch_of_before (b : BitVec 63) (e k : Nat) {node j : Nat} (low : j < 63) (before : j + 1 < node) :
    (plruTouch b e node k).getLsbD j = b.getLsbD j := by
  induction k generalizing b node with
  | zero => rfl
  | succ k ih => rw [plruTouch_succ, ih _ (by omega), getLsbD_plruAway _ _ _ low, if_neg (by omega)]

/-- The node that a touch begins at ends up pointing away from the entry. -/
theorem getLsbD_plruTouch_root (b : BitVec 63) (e k : Nat) :
    (plruTouch b e 1 (k + 1)).getLsbD 0 = !(e / 2 ^ k % 2 == 1) := by
  rw [plruTouch_succ, getLsbD_plruTouch_of_before _ _ _ (by omega) (by omega), getLsbD_plruAway _ _ _ (by omega), if_pos rfl]

/-- The lower levels of the tree leave what the upper ones have decided. -/
theorem plruVictim_div (b : BitVec 63) (node acc k : Nat) : plruVictim b node acc k / 2 ^ k = acc := by
  induction k generalizing node acc with
  | zero => exact Nat.div_one _
  | succ k ih =>
    rw [plruVictim, Nat.pow_succ, ← Nat.div_div_eq_div_mul, ih]
    unfold bit
    split <;> omega

/-- The root decides the upper half or the lower one. -/
theorem plruVictim_root (b : BitVec 63) (k : Nat) : plruVictim b 1 0 (k + 1) / 2 ^ k = bit (b.getLsbD 0) := by
  rw [plruVictim, plruVictim_div]
  exact Nat.zero_add _

/-- Settles O21: the root points to the other half than the entry's. -/
theorem wickVictimSparesTheTouched : Obligations.WickVictimSparesTheTouched := by
  intro b e _ same
  have half : e / 32 = bit (!(e / 32 % 2 == 1)) := by
    conv_lhs => rw [← same]
    exact (plruVictim_root (plruTouch b e 1 6) 5).trans (congrArg bit (getLsbD_plruTouch_root b e 5))
  rcases Nat.mod_two_eq_zero_or_one (e / 32) with lower | upper
  · rw [lower] at half
    have one : e / 32 = 1 := half
    omega
  · rw [upper] at half
    have zero : e / 32 = 0 := half
    omega

end Sys2Proof.Machine
end

section
/-! Proofs about migrations (R149, R166, R167, R171): the copy of a plot's bytes and the commit of its new home. -/

namespace Sys2Proof.Machine

/-! ### The copy of a plot -/

/-- What no step of a fold changes, the fold leaves. -/
theorem Dev.foldl_mem {β : Type} {f : Dev → β → Dev} (keeps : ∀ x a, (f x a).mem = x.mem) (l : List β) (d : Dev) :
    (l.foldl f d).mem = d.mem := by
  induction l generalizing d with
  | nil => rfl
  | cons a r ih => exact (ih _).trans (keeps d a)

@[simp] theorem Dev.journalLine_mem (d : Dev) (epoch line : Nat) : (d.journalLine epoch line).mem = d.mem := by
  unfold Dev.journalLine
  split
  case h_1 => rfl
  case h_2 => split <;> rfl

/-- Noting lines as changed writes no byte (R178, R190). -/
@[simp] theorem Dev.dirtyLines_mem (d : Dev) (lines : List Nat) (epoch : Nat) : (d.dirtyLines lines epoch).mem = d.mem := by
  have journalled := Dev.foldl_mem (fun x l => x.journalLine_mem epoch l) lines d
  exact (Dev.foldl_mem (fun x p => x.dirtyPage_mem p epoch) _ _).trans journalled

/-- Bytes written to meadow change its bytes alone. -/
theorem Dev.writeMeadow_mem (d : Dev) (a : Nat) (bs : List Byte) (epoch : Nat) :
    (d.writeMeadow a bs epoch).mem = { d.mem with meadow := memWrite d.mem.meadow a bs } := by
  unfold Dev.writeMeadow Dev.pokeMeadow
  simp only [Dev.dirtyLines_mem]

/-- Memory `dst` with plot `from_` of `src` copied to its plot `to_` (M2 of Table 5.5). -/
def plotCopied (src dst : List Host.Cell) (from_ to_ : Nat) : List Host.Cell :=
  memWrite (memClear dst (to_ * plotBytes) plotBytes) (to_ * plotBytes) (memRead src (from_ * plotBytes) plotBytes)

section
variable {src dst : List Host.Cell} (canonical : Memory.wf dst) (from_ to_ : Nat)
include canonical

/-- A byte of the copy is the byte at the same place of the source plot. -/
theorem memGet_plotCopied_inside {i : Nat} (inside : i < 65536) :
    memGet (plotCopied src dst from_ to_) (to_ * 65536 + i) = memGet src (from_ * 65536 + i) := by
  have cleared : Memory.wf (memClear dst (to_ * plotBytes) plotBytes) := memClear_wf _ _ canonical
  rw [plotCopied, memGet_memWrite _ _ _ cleared, memRead_length, if_pos (by unfold plotBytes; omega)]
  rw [show to_ * 65536 + i - to_ * plotBytes = i by unfold plotBytes; omega, memRead_getD _ _ _ _ (show i < plotBytes from inside)]
  rfl

/-- A byte outside the destination plot stays. -/
theorem memGet_plotCopied_outside {x : Nat} (outside : x / 65536 ≠ to_) :
    memGet (plotCopied src dst from_ to_) x = memGet dst x := by
  have apart : ¬ (to_ * plotBytes ≤ x ∧ x < to_ * plotBytes + plotBytes) := by unfold plotBytes; omega
  have cleared : Memory.wf (memClear dst (to_ * plotBytes) plotBytes) := memClear_wf _ _ canonical
  rw [plotCopied, memGet_memWrite _ _ _ cleared, memRead_length, if_neg apart, memGet_memClear, if_neg apart]

end

section
variable {d : Dev} {m : Migration} (sound : (d.entry m.idx).state ≠ .poisoned)
include sound

/-- A copy to meadow changes the bytes of meadow alone. -/
theorem Dev.copyPlot_mem_of_meadow (up : m.dstTier = .meadow) :
    (d.copyPlot m).mem.meadow =
      plotCopied (if m.srcTier = .meadow then d.mem.meadow else d.mem.heath) d.mem.meadow m.srcLoc m.dstLoc ∧
    (d.copyPlot m).mem.heath = d.mem.heath := by
  simp only [Dev.copyPlot, if_neg sound, if_pos up, Dev.writeMeadow_mem, plotCopied, and_self]

/-- A copy to heath changes the bytes of heath alone. -/
theorem Dev.copyPlot_mem_of_heath (down : m.dstTier ≠ .meadow) :
    (d.copyPlot m).mem.heath =
      plotCopied (if m.srcTier = .meadow then d.mem.meadow else d.mem.heath) d.mem.heath m.srcLoc m.dstLoc ∧
    (d.copyPlot m).mem.meadow = d.mem.meadow := by
  simp only [Dev.copyPlot, if_neg sound, if_neg down, plotCopied, and_self]

end

/-- Settles O19: a copy writes the plot's bytes to the memory of the destination's tier, and nothing else. -/
theorem migrationCopiesThePlot : Obligations.MigrationCopiesThePlot := by
  intro d m meadowWf heathWf sound src d'
  refine ⟨fun up => ?_, fun down => ?_⟩
  · obtain ⟨bytes, other⟩ := Dev.copyPlot_mem_of_meadow sound up
    refine ⟨fun i inside => ?_, fun x outside => ?_, other⟩
    · rw [bytes, memGet_plotCopied_inside meadowWf _ _ inside]
    · rw [bytes, memGet_plotCopied_outside meadowWf _ _ outside]
  · obtain ⟨bytes, other⟩ := Dev.copyPlot_mem_of_heath sound down
    refine ⟨fun i inside => ?_, fun x outside => ?_, other⟩
    · rw [bytes, memGet_plotCopied_inside heathWf _ _ inside]
    · rw [bytes, memGet_plotCopied_outside heathWf _ _ outside]

/-! ### The commit of a migration -/

/-- An entry written is the one read there; the others stay (R146). -/
theorem Dev.setEntry_entry (d : Dev) (idx k : Nat) (e : HomeEntry) :
    (d.setEntry idx e).entry k = if idx = k then e else d.entry k :=
  lookD_put d.tier.home idx k e {}

/-- The entries are those of the home table. -/
theorem Dev.entry_congr {d e : Dev} (home : e.tier.home = d.tier.home) (k : Nat) : e.entry k = d.entry k := by
  simp only [Dev.entry, home]

/-- A home given back changes the free pools alone (R166). -/
theorem Dev.releaseHome_eq (d : Dev) (t : Tier) (loc : Nat) :
    ∃ f h, d.releaseHome t loc = { d with tier := { d.tier with freePlots := f, heathFree := h } } := by
  unfold Dev.releaseHome
  split
  case h_2 => split <;> exact ⟨_, _, rfl⟩
  all_goals exact ⟨_, _, rfl⟩

@[simp] theorem Dev.releaseHome_home (d : Dev) (t : Tier) (loc : Nat) : (d.releaseHome t loc).tier.home = d.tier.home := by
  obtain ⟨_, _, h⟩ := d.releaseHome_eq t loc
  rw [h]

/-- A plot whose tracker entry is freed has no migration (R164). -/
theorem Dev.dropMig_migOf (d : Dev) (idx : Nat) : (d.dropMig idx).migOf idx = none := by
  simp [Dev.dropMig, Dev.migOf]

/-- The state in which a commit leaves the plot (R167, R172). -/
def Dev.committedState (d : Dev) (idx : Nat) : PlotState :=
  if (d.entry idx).state = .poisoned then .poisoned else if d.sealedPlot idx then .sealed else .resident

/-- The device after the home change of M4 and the release of M5, but for the counts of commits (R166, R167). -/
def Dev.rehomed (d : Dev) (idx : Nat) (m : Migration) : Dev :=
  (((d.homeChange idx m.dstTier m.dstLoc (d.committedState idx)).unreserve m.res).releaseHome m.srcTier m.srcLoc).dropMig idx

/-- The entry takes the new home with GEN + 1; the others stay (R149). -/
theorem Dev.rehomed_entry (d : Dev) (idx k : Nat) (m : Migration) :
    (d.rehomed idx m).entry k = if idx = k then
      { d.entry idx with tier := m.dstTier, loc := m.dstLoc, state := d.committedState idx, gen := (d.entry idx).gen + 1 }
    else d.entry k := by
  have home : (d.rehomed idx m).tier.home = (d.homeChange idx m.dstTier m.dstLoc (d.committedState idx)).tier.home :=
    Dev.releaseHome_home _ _ _
  rw [Dev.entry_congr home]
  exact Dev.setEntry_entry d idx k _

@[simp] theorem Dev.rehomed_mem (d : Dev) (idx : Nat) (m : Migration) : (d.rehomed idx m).mem = d.mem := by
  rw [Dev.rehomed, Dev.dropMig_mem, Dev.releaseHome_mem]
  rfl

section
variable {d : Dev} {idx : Nat} {m : Migration} (moves : d.migOf idx = some m)
include moves

/-- A commit whose plot has kept its GEN since M1 changes the home, and counts it (R167). -/
theorem Dev.commitMig_of_kept (kept : (d.entry idx).gen = m.gen0) :
    d.commitMig idx = ((d.rehomed idx m).finc (TIER_MIG_STAT.COMMITTED (m.lantern - 8)) 1).count 0x600 0 1 := by
  simp only [Dev.commitMig, moves, ne_eq, kept, not_true_eq_false, if_false]
  rfl

/-- A commit whose plot has another GEN than at M1 is cancelled (R167). -/
theorem Dev.commitMig_of_changed (changed : (d.entry idx).gen ≠ m.gen0) : d.commitMig idx = d.cancelMig idx := by
  simp only [Dev.commitMig, moves, if_pos changed]

end

/-- Settles O20: the home change gives the entry, the counts touch neither entries nor memories, and a changed GEN cancels. -/
theorem commitMovesTheHome : Obligations.CommitMovesTheHome := by
  intro d idx m moves e d'
  refine ⟨fun kept => ?_, Dev.commitMig_of_changed moves⟩
  have commits : d' = _ := Dev.commitMig_of_kept moves kept
  have tier : d'.tier = (d.rehomed idx m).tier := by rw [commits, Dev.count_tier, Dev.finc_tier]
  have entry (k : Nat) : d'.entry k = (d.rehomed idx m).entry k := Dev.entry_congr (congrArg TierSt.home tier) k
  refine ⟨?_, ?_, fun k other => ?_, ?_⟩
  · rw [entry, Dev.rehomed_entry, if_pos rfl]
    simp only [Dev.committedState, Dev.sealedPlot, Bool.or_eq_true, beq_iff_eq]
    rfl
  · exact (congrArg (fun x : TierSt => x.migs.find? (fun n : Migration => n.idx == idx)) tier).trans (Dev.dropMig_migOf _ idx)
  · rw [entry, Dev.rehomed_entry, if_neg (Ne.symm other)]
  · rw [commits, Dev.count_mem, Dev.finc_mem, Dev.rehomed_mem]

end Sys2Proof.Machine
end

section
/-! Proofs about heat sweeps, free-plot queues, table walks and the invalidation of wick copies (R150 to R159). -/

namespace Sys2Proof.Machine

/-- A command answers the next state that its device comes to. -/
theorem State.next_of_eq {s : State} {o : Host.Outcome State Fault Refusal} {x y : Dev} (ran : o = .next { s with dev := x })
    (comes : x = y) : o = .next { s with dev := y } := by rw [ran, comes]

/-! ### Halving sweeps -/

section
variable {s : State} {t : Nat} {d : Dev} (now : s.dev.tick t = d)
include now

/-- A new heat interval starts a sweep, or makes one overdue (R159). -/
theorem exec_heatHalvingSweep_of_new (new : d.tier.sweepNo < d.heatInterval) (noSave : d.dur.saving = false) :
    exec (.heatHalvingSweep t) s =
      let e : Dev := { d with tier := { d.tier with sweepNo := d.heatInterval } }
      .next { s with dev := if e.tier.sweepOn then { e with tier := { e.tier with sweepDue := true } } else e.sweep } := by
  change execHeatHalvingSweep t s = _
  exact State.run_of_free now (by simp [noSave, Nat.not_le.mpr new])

/-- The end of a sweep starts an overdue one (R159). -/
theorem exec_halvingSweepDone_of_runs (runs : d.tier.sweepOn = true) :
    exec (.halvingSweepDone t) s =
      let e : Dev := { d with tier := { d.tier with sweepOn := false, sweepDue := false } }
      .next { s with dev := if d.tier.sweepDue then (e.raise (source 10 0) 2 0 8 0).sweep else e } := by
  change execHalvingSweepDone t s = _
  exact State.run_of_free now (not_not_intro runs)

end

/-! ### Table walks -/

/-- The device without the walks of a lantern for an index. -/
def Dev.walked (d : Dev) (l idx : Nat) : Dev :=
  { d with tier := { d.tier with walks := d.tier.walks.filter (fun w => !(w.lantern == l && w.idx == idx)) } }

section
variable {s : State} {t lantern idx : Nat} {d : Dev} {w : Walk} (now : s.dev.tick t = d)
  (walks : d.tier.walks.find? (fun w => w.lantern == lantern && w.idx == idx) = some w)
include now walks

/-- A walk that met a broadcast for its index is repeated (R156). -/
theorem exec_tableWalkComplete_of_dirty (dirty : w.dirty = true) :
    exec (.tableWalkComplete t lantern idx) s = .next { s with dev := { d with tier := { d.tier with
      walks := (d.walked lantern idx).tier.walks ++ [{ w with dirty := false }] } } } := by
  change execTableWalkComplete t lantern idx s = _
  simp only [execTableWalkComplete, State.run_eq, now, walks, if_pos dirty]
  rfl

/-- Another walk fills the cache, unless its line lies on a frozen channel (R156, Table 1.8). -/
theorem exec_tableWalkComplete_of_clean (clean : w.dirty = false) :
    exec (.tableWalkComplete t lantern idx) s = .next { s with dev :=
      (if (d.walked lantern idx).tableFrozen lantern [{ idx := idx, off := 0, n := 0, pos := 0 }] then d.walked lantern idx
      else (d.walked lantern idx).wickFill lantern idx) } := by
  change execTableWalkComplete t lantern idx s = _
  simp only [execTableWalkComplete, State.run_eq, now, walks, if_neg (Bool.eq_false_iff.mp clean)]
  rfl

end

/-! ### The range invalidation -/

/-- A range invalidation that finds none running is BUSY from then on (R157). -/
theorem Dev.wickRange_busy {d : Dev} (free : d.on TIER_WICK_INV.BUSY = false) (first count lmask : Nat) :
    (d.wickRange first count lmask).on TIER_WICK_INV.BUSY = true := by
  rw [Dev.wickRange, if_neg (Bool.eq_false_iff.mp free)]
  exact congrArg (· != 0) (Dev.f_fset_self _ TIER_WICK_INV.BUSY 1)

/-- It removes the copies of the range from the lanterns named, and notes the range in its register (R157). -/
theorem Dev.wickRange_frame {d : Dev} (free : d.on TIER_WICK_INV.BUSY = false) (first count lmask : Nat) :
    d.wickRange first count lmask = { d with
      regs := (d.wickRange first count lmask).regs
      tier := { d.tier with wick := d.tier.wick.filter (fun w =>
        !(lmask / 2 ^ (w.1 / 64) % 2 == 1 && decide (first ≤ w.2.idx) && decide (w.2.idx < first + count))) } } := by
  rw [Dev.wickRange, if_neg (Bool.eq_false_iff.mp free)]
  rfl

/-- Settles O17: each command's guard holds, and its cases are those of the statement. A sweep that acts whole at its start, so
that halvingSweepDone only ends it, and a walk as one command are the model's choices (log entries 28 and 20). -/
theorem heatAndWickGoOn : Obligations.HeatAndWickGoOn := by
  intro t lantern idx first count lmask s
  generalize now : s.dev.tick t = d
  refine ⟨?sweeps, ?overdue, ?ends, ?goesOn, ?refill, ?walk, ?invalidates, ?busy, ?done⟩
  case sweeps =>
    intro new noSave idle
    exact State.next_of_eq (exec_heatHalvingSweep_of_new now new noSave) (if_neg (Bool.eq_false_iff.mp idle))
  case overdue =>
    intro new noSave runs
    exact State.next_of_eq (exec_heatHalvingSweep_of_new now new noSave) (if_pos runs)
  case ends =>
    intro runs notDue
    exact State.next_of_eq (exec_halvingSweepDone_of_runs now runs) (if_neg (Bool.eq_false_iff.mp notDue))
  case goesOn =>
    intro runs due
    exact State.next_of_eq (exec_halvingSweepDone_of_runs now runs) (if_pos due)
  case refill =>
    intro transport low
    change execFreePlotRefill t lantern s = _
    exact State.run_of_due now ⟨transport, low⟩
  case walk =>
    intro w walks
    refine ⟨exec_tableWalkComplete_of_dirty now walks, fun clean thawed => ?_, fun clean frozen => ?_⟩
    · exact State.next_of_eq (exec_tableWalkComplete_of_clean now walks clean) (if_neg (Bool.eq_false_iff.mp thawed))
    · exact State.next_of_eq (exec_tableWalkComplete_of_clean now walks clean) (if_pos frozen)
  case invalidates =>
    intro free
    have frame := Dev.wickRange_frame free first count lmask
    refine ⟨d.wickRange first count lmask, ?_, Dev.wickRange_busy free first count lmask, congrArg Dev.tier frame, ?_⟩
    · change execWickRangeInvalidate t first count lmask s = _
      rw [execWickRangeInvalidate, State.run_eq, now]
    · rw [congrArg Dev.tier frame]
      exact frame
  case busy =>
    intro busy
    change execWickRangeInvalidate t first count lmask s = _
    rw [execWickRangeInvalidate, State.run_eq, now, Dev.wickRange, if_pos busy]
  case done =>
    change execWickInvalidationDone t s = _
    rw [execWickInvalidationDone, State.run_eq, now]

end Sys2Proof.Machine
end

section
/-! Proofs about data commands (R163, R207, R318, R325 to R328, R355, R356, R393): what each does when its turn comes. -/

namespace Sys2Proof.Machine

/-- A command that starts in its turn acts as one that runs (R388, R390). -/
theorem State.run_startCmd {s : State} {t id op : Nat} {d : Dev} (now : s.dev.tick t = d) {fits : Cmd → Bool} {c : Cmd}
    (turn : d.turnOf id op fits c) (act : Dev → Cmd → Dev) :
    s.run t (fun d => d.startCmd id op fits act) = .next { s with dev := act (d.begun id c) (d.now_ c) } := by
  rw [State.run_eq, now, Dev.startCmd_of_turn turn]

/-! ### Commands on the plots of one region -/

/-- A command on a region's plots: it is refused where the region is not in use or the command may not act on it (R394). -/
def Dev.onRegion (d : Dev) (c : Cmd) (act : Region → Dev) : Dev :=
  match look d.rgn c.region with
  | none => d.complete c csRefused 2
  | some r => if ¬ d.dataRegion c.region ∨ c.region = counterRegion then d.complete c csRefused 2 else act r

theorem Dev.onRegion_of_barred {d : Dev} {c : Cmd}
    (barred : look d.rgn c.region = none ∨ d.dataRegion c.region = false ∨ c.region = counterRegion) (act : Region → Dev) :
    d.onRegion c act = d.complete c csRefused 2 := by
  unfold Dev.onRegion
  split
  case h_1 => rfl
  case h_2 r present => exact if_pos (by simpa [present] using barred)

theorem Dev.onRegion_of_open {d : Dev} {c : Cmd} {r : Region} (present : look d.rgn c.region = some r)
    (data : d.dataRegion c.region = true) (other : c.region ≠ counterRegion) (act : Region → Dev) :
    d.onRegion c act = act r := by
  simp only [Dev.onRegion, present]
  exact if_neg (by simp [data, other])

/-- A hint starts the migrations of the plots it moves (R163). -/
def Dev.hintPlots (d : Dev) (c : Cmd) (r : Region) : Dev :=
  let tier := Tier.ofCode (c.byte 18)
  let l := (d.writtenIn r (c.u64 24) (c.u64 40)).filter (d.hintMoves r tier)
  (l.foldl (fun (x : Dev) i => x.startMig i (x.hintKind tier i) tier) d).complete c csDone l.length (c.u64 40 - l.length)

/-- A PIN changes the plots of its range that have the other value (R163). -/
def Dev.pinPlots (d : Dev) (c : Cmd) (r : Region) : Dev :=
  let set := c.byte 18 % 2 == 1
  let l := (if set then d.idxsOf r (c.u64 24) (c.u64 40) else d.writtenIn r (c.u64 24) (c.u64 40)).filter
    (fun i => (d.entry i).pin != set)
  (l.foldl (fun (x : Dev) i => x.setPin i set) d).complete c csDone 0 l.length

theorem Dev.pinPlots_of_set {c : Cmd} (set : c.byte 18 % 2 = 1) (d : Dev) (r : Region) :
    d.pinPlots c r =
      let l := (d.idxsOf r (c.u64 24) (c.u64 40)).filter (fun i => (d.entry i).pin != true)
      (l.foldl (fun (x : Dev) i => x.setPin i true) d).complete c csDone 0 l.length := by
  simp only [Dev.pinPlots, set, beq_self_eq_true, if_true]

theorem Dev.pinPlots_of_clear {c : Cmd} (clear : c.byte 18 % 2 = 0) (d : Dev) (r : Region) :
    d.pinPlots c r =
      let l := (d.writtenIn r (c.u64 24) (c.u64 40)).filter (fun i => (d.entry i).pin != false)
      (l.foldl (fun (x : Dev) i => x.setPin i false) d).complete c csDone 0 l.length := by
  have isClear : (c.byte 18 % 2 == 1) = false := by simp [clear]
  simp only [Dev.pinPlots, isClear, Bool.false_eq_true, if_false]

section
variable {s : State} {t id : Nat} {d : Dev} {c : Cmd} (now : s.dev.tick t = d)
include now

/-- A hint acts on its region's plots (R163). -/
theorem exec_migrateHint_of_turn (turn : d.turnOf id ocHint anyCmd c) :
    exec (.migrateHint t id) s =
      .next { s with dev := (d.begun id c).onRegion (d.now_ c) ((d.begun id c).hintPlots (d.now_ c)) } :=
  State.run_startCmd now turn fun d c => d.onRegion c (d.hintPlots c)

/-- A PIN acts on its region's plots (R163). -/
theorem exec_pin_of_turn (turn : d.turnOf id ocPin anyCmd c) :
    exec (.pin t id) s =
      .next { s with dev := (d.begun id c).onRegion (d.now_ c) ((d.begun id c).pinPlots (d.now_ c)) } :=
  State.run_startCmd now turn fun d c => d.onRegion c (d.pinPlots c)

/-! ### COPY, FILL, SEAL_NOW and scrubs -/

/-- A COPY runs where it may read its source and write its destination (R393, R394). -/
theorem exec_copy_of_turn (turn : d.turnOf id ocCopy anyCmd c) :
    exec (.copy t id) s = .next { s with dev :=
      (if ¬ d.dataRegion c.src.1 ∨ ¬ d.dataRegion c.dest.1 ∨ c.dest.1 = counterRegion then
        (d.begun id c).complete (d.now_ c) csRefused 2
      else (d.begun id c).pump) } :=
  State.run_startCmd now turn _

/-- A FILL runs where it may write its destination (R325, R394). -/
theorem exec_fill_of_turn (turn : d.turnOf id ocFill anyCmd c) :
    exec (.fill t id) s = .next { s with dev :=
      (if ¬ d.dataRegion c.dest.1 ∨ c.dest.1 = counterRegion then (d.begun id c).complete (d.now_ c) csRefused 2
      else (d.begun id c).pump) } :=
  State.run_startCmd now turn _

/-- SEAL_NOW sets the stop flag as told and waits for the epochs to seal (R207). -/
theorem exec_sealNow_of_turn (turn : d.turnOf id ocSealNow anyCmd c) :
    let e := d.begun id c
    exec (.sealNow t id) s = .next { s with dev := (({ e with dur := { e.dur with
      stop := (d.now_ c).byte 16 % 2 == 1, sealNow := e.dur.sealNow ++ [((d.now_ c).id, e.now)] } } : Dev).settleSealNow.pump) } :=
  State.run_startCmd now turn _

/-- A scrub of a region runs where it may act on it, one of a channel always (R318). -/
theorem exec_scrubRange_of_turn (turn : d.turnOf id ocScrub anyCmd c) :
    exec (.scrubRange t id) s = .next { s with dev :=
      (if c.byte 18 = 0 ∧ ¬ d.dataRegion c.region then (d.begun id c).complete (d.now_ c) csRefused 2
      else (((d.begun id c).scrubIdxs (d.now_ c)).foldl (fun (x : Dev) i => x.wickLookup (c.region % 8) i)
        (d.begun id c)).setCmd c.id (fun x => { x with progress := ((d.begun id c).scrubLines (d.now_ c)).1 })) } :=
  State.run_startCmd now turn _

/-- The end of a scrub that runs leaves its five counts (R318). -/
theorem exec_scrubRangeDone_of_running (present : d.cmd id = some c) (scrub : c.op = ocScrub) (running : c.running = true)
    (corrected uncorr remapped : Nat) :
    exec (.scrubRangeDone t id corrected uncorr remapped) s = .next { s with dev :=
      ((d.scrubCounts c [(d.scrubLines c).1, corrected, uncorr, remapped, (d.scrubLines c).2 - (d.scrubLines c).1]).complete c
        csDone (min uncorr (2 ^ 32 - 1)) (d.scrubLines c).1) } := by
  change execScrubRangeDone t id corrected uncorr remapped s = _
  simp only [execScrubRangeDone, State.run_eq, now, present]
  rw [if_neg (by simp [scrub, running])]

/-! ### Evacuations -/

/-- An evacuation of a channel starts where it is not refused (R327, R328). -/
theorem exec_evacuateChannel_of_turn (turn : d.turnOf id ocEvacuate (fun c => c.func == 0) c) :
    exec (.evacuateChannel t id) s = .next { s with dev :=
      (if (d.begun id c).evacRefused (c.byte 17) then (d.begun id c).complete (d.now_ c) csRefused 6
      else ((d.begun id c).evacChannel (c.byte 17)).complete (d.now_ c) csDone 0
        ((d.begun id c).plotsToMove (c.byte 17)).length) } := by
  have starts := State.run_startCmd now turn Dev.actEvacuate
  obtain ⟨_, _, fits, _⟩ := turn
  have channel : (d.now_ c).func = 0 := beq_iff_eq.mp fits
  refine starts.trans ?_
  rw [Dev.actEvacuate, if_pos channel]
  rfl

/-- An evacuation of a module starts where it is not refused (R355, R356). -/
theorem exec_evacuateModule_of_turn (turn : d.turnOf id ocEvacuate (fun c => c.func == 1) c) :
    exec (.evacuateModule t id) s = .next { s with dev :=
      (if (d.begun id c).evacModRefused (c.byte 17) then (d.begun id c).complete (d.now_ c) csRefused 6
      else ((d.begun id c).evacModule (c.byte 17)).complete (d.now_ c) csDone 0
        ((d.begun id c).plotsOnModule (c.byte 17)).length) } := by
  have starts := State.run_startCmd now turn Dev.actEvacuate
  obtain ⟨_, _, fits, _⟩ := turn
  have isModule : (d.now_ c).func = 1 := beq_iff_eq.mp fits
  refine starts.trans ?_
  rw [Dev.actEvacuate, if_neg (by omega)]
  rfl

end

/-- Settles O40: a command whose turn has come is refused or acts, by the condition on its region, channel or module.
REFUSED 2 for a data command on the counter region is the model's reading of R394. -/
theorem dataCommandsAct : Obligations.DataCommandsAct := by
  intro t id corrected uncorr remapped c s
  generalize now : s.dev.tick t = d
  refine ⟨?copy, ?fill, ?hint, ?pin, ?barred, ?stops, ?scrub, fun present scrub running =>
    exec_scrubRangeDone_of_running now present scrub running corrected uncorr remapped, ?channels, ?modules⟩
  case copy =>
    intro turn
    refine ⟨fun src dest other => ?_, fun barred => ?_⟩
    · rw [exec_copy_of_turn now turn, if_neg (by simp [src, dest, other])]
    · rw [exec_copy_of_turn now turn, if_pos (by simpa using barred)]
  case fill =>
    intro turn
    refine ⟨fun dest other => ?_, fun barred => ?_⟩
    · rw [exec_fill_of_turn now turn, if_neg (by simp [dest, other])]
    · rw [exec_fill_of_turn now turn, if_pos (by simpa using barred)]
  case hint =>
    intro r turn present data other
    exact State.next_of_eq (exec_migrateHint_of_turn now turn)
      (Dev.onRegion_of_open (d := d.begun id c) (c := d.now_ c) present data other _)
  case pin =>
    intro r turn present data other
    have pins := State.next_of_eq (exec_pin_of_turn now turn)
      (Dev.onRegion_of_open (d := d.begun id c) (c := d.now_ c) present data other _)
    exact ⟨fun set => State.next_of_eq pins (Dev.pinPlots_of_set set _ r),
      fun clear => State.next_of_eq pins (Dev.pinPlots_of_clear clear _ r)⟩
  case barred =>
    intro barred
    have refuses := Dev.onRegion_of_barred (d := d.begun id c) (c := d.now_ c) barred
    exact ⟨fun turn => State.next_of_eq (exec_migrateHint_of_turn now turn) (refuses _),
      fun turn => State.next_of_eq (exec_pin_of_turn now turn) (refuses _)⟩
  case stops => exact exec_sealNow_of_turn now
  case scrub =>
    intro turn
    refine ⟨fun region barred => ?_, fun may => ?_⟩
    · rw [exec_scrubRange_of_turn now turn, if_pos (by simp [region, barred])]
    · rw [exec_scrubRange_of_turn now turn, if_neg (by simpa [or_iff_not_imp_left] using may)]
      rfl
  case channels =>
    intro turn
    refine ⟨fun refused => ?_, fun accepted => ?_⟩
    · exact State.next_of_eq (exec_evacuateChannel_of_turn now turn) (if_pos refused)
    · exact State.next_of_eq (exec_evacuateChannel_of_turn now turn) (if_neg (Bool.eq_false_iff.mp accepted))
  case modules =>
    intro turn
    refine ⟨fun refused => ?_, fun accepted => ?_⟩
    · exact State.next_of_eq (exec_evacuateModule_of_turn now turn) (if_pos refused)
    · exact State.next_of_eq (exec_evacuateModule_of_turn now turn) (if_neg (Bool.eq_false_iff.mp accepted))

end Sys2Proof.Machine
end

section
/-! Proofs about saves, resets and start-up (R208 to R215, R290, R361, R453, R503 to R507): what each of their commands does in
each of its cases. -/

namespace Sys2Proof.Machine

/-- A command answers the device that its action comes to at its instant. -/
theorem State.run_to {s : State} {t : Nat} {d x : Dev} (now : s.dev.tick t = d) {f : Dev → Dev} (comes : f d = x) :
    s.run t f = .next { s with dev := x } := by
  rw [State.run_eq, now, comes]

/-! ### What runs each command -/

section
variable (s : State)

theorem exec_mainPfail (t : Nat) : exec (.mainPfail t) s = execMainPfail t s := rfl

theorem exec_saveComplete (t : Nat) (bad : Option (List (Nat × Nat))) : exec (.saveComplete t bad) s = execSaveComplete t bad s := rfl

theorem exec_coldStart (t : Nat) (x : Straps) (e : Eeprom) : exec (.coldStart t x e) s = execColdStart t x e s := rfl

theorem exec_fullReset (t : Nat) : exec (.fullReset t) s = execFullReset t s := rfl

theorem exec_firmwareLoaded (t : Nat) (a b : Bool) : exec (.firmwareLoaded t a b) s = execFirmwareLoaded t a b s := rfl

theorem exec_restorePhaseADone (t : Nat) (r : RestoreIn) : exec (.restorePhaseADone t r) s = execRestorePhaseADone t r s := rfl

theorem exec_restorePhaseBDone (done : PhaseB) : exec (.restorePhaseBDone done) s = execRestorePhaseBDone done s := rfl

theorem exec_transportStart (t : Nat) : exec (.transportStart t) s = execTransportStart t s := rfl

end

/-! ### Leaving reset -/

/-- The device is held in reset, and nothing that R210, R458 or R504 names keeps it there. -/
def Dev.MayLeaveReset (d : Dev) : Prop :=
  d.dur.held = true ∧ d.dur.saving = false ∧ d.core.powerGood = true ∧ d.core.resetN = false ∧ d.pwr.needUp = false

/-- A held device that nothing keeps in reset starts with its straps (R504). -/
theorem Dev.leaveReset_of_may {d : Dev} (may : d.MayLeaveReset) : d.leaveReset = d.startUp d.core.straps false := by
  obtain ⟨held, noSave, power, high, noNeed⟩ := may
  exact if_pos (by simp [held, noSave, power, high, noNeed])

/-- Any other device stays as it is (R210, R504). -/
theorem Dev.leaveReset_of_not_may {d : Dev} (kept : ¬ d.MayLeaveReset) : d.leaveReset = d :=
  if_neg (by simpa only [Dev.MayLeaveReset, Bool.not_eq_true] using kept)

/-- A start runs the board's on sequence where `AUTO_ON` asks for it, the board is not simply on, and the EEPROM is sound
(R507). -/
theorem Dev.needsBoard_iff {d : Dev} : d.needsBoard = true ↔
    d.on PWR_SEQ_CFG.AUTO_ON = true ∧ (d.pwr.boardOn = false ∨ d.boardMoves = true) ∧ d.pwr.eepromOk = true := by
  simp only [Dev.needsBoard, Bool.and_eq_true, Bool.or_eq_true, Bool.not_eq_true', and_assoc]

/-! ### Epochs lost with a seal record -/

/-- The device once the epochs lost above a bad seal record are named, where there are any. -/
def Dev.nameBroken (d : Dev) (badSeal : Option Nat) : Dev :=
  badSeal.elim d fun k =>
    if k ≤ d.dur.sealed.foldl max 0 then d.nameLost (d.restoreEpoch (some k) + 1) (d.dur.sealed.foldl max 0) else d

/-- A bad record above every sealed epoch loses none. -/
theorem Dev.nameBroken_of_above {d : Dev} {k : Nat} (above : d.dur.sealed.foldl max 0 < k) : d.nameBroken (some k) = d :=
  if_neg (Nat.not_le.mpr above)

/-- A bad record of a sealed epoch loses the epochs from the one after the restored one to the newest. -/
theorem Dev.nameBroken_of_within {d : Dev} {k : Nat} (within : k ≤ d.dur.sealed.foldl max 0) :
    d.nameBroken (some k) = d.nameLost (d.restoreEpoch (some k) + 1) (d.dur.sealed.foldl max 0) :=
  if_pos within

/-! ### What each command does in its cases -/

section
variable {s : State} {t : Nat} {d : Dev} (now : s.dev.tick t = d)
include now

/-- Power is good again, and the device leaves reset if it may (R210). -/
theorem exec_powerGoodReturn (x : Straps) : exec (.powerGoodReturn t x) s =
    .next { s with dev := ({ d with core := { d.core with powerGood := true, straps := x } } : Dev).leaveReset } := by
  subst now
  rfl

/-- RESET_N is high again, and the device leaves reset if it may (R504). -/
theorem exec_resetNRelease (x : Straps) : exec (.resetNRelease t x) s =
    .next { s with dev := ({ d with core := { d.core with resetN := false, straps := x } } : Dev).leaveReset } := by
  subst now
  rfl

/-- A save that runs ends complete where the energy lasted and no alarm stands (R210). -/
theorem exec_saveComplete_of_whole (saves : d.dur.saving = true) (quiet : d.cph.alarmed = false) (bad : List (Nat × Nat)) :
    exec (.saveComplete t (some bad)) s = .next { s with dev := (d.saveDone bad).stopped d.dur.saveWhy } := by
  simp only [exec_saveComplete, execSaveComplete]
  exact State.run_to now (by simp only [saves, quiet, not_true_eq_false, if_false])

/-- A save that runs is cut where the energy did not last or an alarm stands (R211, R373). -/
theorem exec_saveComplete_of_cut {lines : Option (List (Nat × Nat))} (saves : d.dur.saving = true)
    (cut : lines = none ∨ d.cph.alarmed = true) :
    exec (.saveComplete t lines) s = .next { s with dev := d.saveCut.stopped d.dur.saveWhy } := by
  simp only [exec_saveComplete, execSaveComplete]
  refine State.run_to now ?_
  rcases cut with rfl | alarmed
  · simp only [saves, not_true_eq_false, if_false]
  · simp only [saves, alarmed, not_true_eq_false, if_false]

/-- The first slot of the boot order that verifies boots (R481, R507). -/
theorem exec_firmwareLoaded_of_found {a b : Bool} {n : Nat} (may : d.mayBoot = true)
    (found : d.bootOrder.find? (fun n => if n = d.bootSlot then a else b) = some n) :
    exec (.firmwareLoaded t a b) s = .next { s with dev := d.bootCore d.bootSlot n } := by
  simp only [exec_firmwareLoaded, execFirmwareLoaded]
  exact State.run_to now (by simp only [may, found, not_true_eq_false, if_false])

/-- Where neither slot verifies the core is killed (R507). -/
theorem exec_firmwareLoaded_of_none (may : d.mayBoot = true) :
    exec (.firmwareLoaded t false false) s = .next { s with dev := d.kill } := by
  have noSlot : d.bootOrder.find? (fun n => if n = d.bootSlot then false else false) = none := by simp
  simp only [exec_firmwareLoaded, execFirmwareLoaded]
  exact State.run_to now (by simp only [may, noSlot, not_true_eq_false, if_false])

/-- Phase A ends in failure without the save-image key, where commissioning is not to come first (R215, R361). -/
theorem exec_restorePhaseADone_of_lost {r : RestoreIn} (on : d.coreOn = true) (noSave : d.dur.saving = false)
    (inA : d.f DUR_RESTORE_STAT.PHASE = 1)
    (reads : look d.cph.slots slotSave ≠ none ∨ d.store.valid = true ∨ d.f FWM_STAT.HOLD ≠ 0)
    (lost : look d.cph.slots slotSave = none ∨ r.keyOk = false) :
    exec (.restorePhaseADone t r) s = .next { s with dev := d.restoreFails } := by
  simp only [exec_restorePhaseADone, execRestorePhaseADone, Option.isSome_iff_ne_none]
  refine State.run_to now ?_
  rw [if_neg (by simp only [on, noSave, inA]; tauto), if_pos (by simpa only [not_not, Bool.not_eq_true] using lost)]

/-- With the key, phase A restores the newest epoch below a bad seal record, the epochs lost named before where there are any
(R213 to R216). -/
theorem exec_restorePhaseADone_of_keyed {r : RestoreIn} (on : d.coreOn = true) (noSave : d.dur.saving = false)
    (inA : d.f DUR_RESTORE_STAT.PHASE = 1) (keyed : look d.cph.slots slotSave ≠ none) (sound : r.keyOk = true) :
    exec (.restorePhaseADone t r) s = .next { s with dev :=
      ((d.nameBroken r.badSeal).restoreTo (d.restoreEpoch r.badSeal) r).phaseAEnd } := by
  simp only [exec_restorePhaseADone, execRestorePhaseADone, Option.isSome_iff_ne_none]
  refine State.run_to now ?_
  rw [if_neg (by simp [on, noSave, inA, keyed]), if_neg (by simp [keyed, sound])]
  cases r.badSeal <;> rfl

end

/-- Settles O52: the guard of each command lets it act, or only time passes. When the event of a reset is recorded (log entry 49),
that a dark core holds when power fails (53) and the event that names lost epochs (84) are the model's choices. -/
theorem savesAndStartsGoOn : Obligations.SavesAndStartsGoOn := by
  intro t a b bad lines pages x e r s
  generalize now : s.dev.tick t = d
  refine ⟨?fail, ?noSave, fun saves quiet => exec_saveComplete_of_whole now saves quiet bad, exec_saveComplete_of_cut now, ?leave,
    ?cold, ?reset, ?bootBarred, ?boot, ?phaseA, ?phaseB, ?phaseBBarred, ?transport⟩
  case fail =>
    simp only [exec_mainPfail, execMainPfail]
    exact ⟨fun on => State.run_to now (if_pos on), fun dark => State.run_to now (if_neg (Bool.eq_false_iff.mp dark))⟩
  case noSave =>
    intro noSave
    simp only [exec_saveComplete, execSaveComplete]
    exact State.run_of_barred now (Bool.eq_false_iff.mp noSave)
  case leave =>
    have powered := exec_powerGoodReturn now x
    have released := exec_resetNRelease now x
    exact ⟨fun may => State.next_of_eq powered (Dev.leaveReset_of_may may),
      fun kept => State.next_of_eq powered (Dev.leaveReset_of_not_may kept),
      fun may => State.next_of_eq released (Dev.leaveReset_of_may may),
      fun kept => State.next_of_eq released (Dev.leaveReset_of_not_may kept)⟩
  case cold =>
    simp only [exec_coldStart, execColdStart, Dev.needsBoard_iff]
    exact ⟨fun asks => State.run_to now (if_pos asks), fun no => State.run_to now (if_neg no)⟩
  case reset =>
    simp only [exec_fullReset, execFullReset]
    refine ⟨fun saves => State.run_to now (if_pos saves), fun noSave on => ?_, fun noSave dark => ?_⟩
    · exact State.run_to now ((if_neg (Bool.eq_false_iff.mp noSave)).trans (if_pos on))
    · exact State.run_to now ((if_neg (Bool.eq_false_iff.mp noSave)).trans (if_neg (Bool.eq_false_iff.mp dark)))
  case bootBarred =>
    intro barred
    simp only [exec_firmwareLoaded, execFirmwareLoaded]
    exact State.run_of_barred now (Bool.eq_false_iff.mp barred)
  case boot =>
    intro may
    refine ⟨fun n found => exec_firmwareLoaded_of_found now may found, fun noA noB => ?_⟩
    subst noA noB
    exact exec_firmwareLoaded_of_none now may
  case phaseA =>
    intro on noSave inA
    refine ⟨fun keyless reads => exec_restorePhaseADone_of_lost now on noSave inA (.inr reads) (.inl keyless), ?_,
      fun keyed unsound => exec_restorePhaseADone_of_lost now on noSave inA (.inl keyed) (.inr unsound), fun keyed sound => ?_⟩
    · intro keyless noStore noHold
      simp only [exec_restorePhaseADone, execRestorePhaseADone]
      exact State.run_of_barred now (by simp [keyless, noStore, noHold])
    · have restores := exec_restorePhaseADone_of_keyed now on noSave inA keyed sound
      refine ⟨fun whole => ?_, fun k broken => ⟨fun above => ?_, fun within => ?_⟩⟩
      · rwa [whole] at restores
      · rwa [broken, Dev.nameBroken_of_above above] at restores
      · rwa [broken, Dev.nameBroken_of_within within] at restores
  case phaseB =>
    intro inB on noSave
    simp only [exec_restorePhaseBDone, execRestorePhaseBDone]
    exact State.run_of_free now (by simp [inB, on, noSave])
  case phaseBBarred =>
    intro barred
    simp only [exec_restorePhaseBDone, execRestorePhaseBDone]
    exact State.run_of_barred now (by simpa only [Bool.not_eq_true] using barred)
  case transport =>
    simp only [exec_transportStart, execTransportStart]
    refine ⟨fun ⟨idle, on, noSave, restored, valid, settled, known⟩ => ?_, fun barred => ?_⟩
    · exact State.run_of_free now (by simp [idle, on, noSave, restored, valid, settled, known])
    · exact State.run_of_barred now (by simpa only [not_and_or, Bool.not_eq_false] using barred)

end Sys2Proof.Machine
end

section
/-! Proofs about the frames of the twin link (R226 to R240): which are dropped, taken or asked for again, and what the replica's
messages do. -/

namespace Sys2Proof.Machine

/-! ### What a sender leaves as it was -/

/-- `d'` is on the same side as `d`, saves if `d` does, and expects the same SEQ: what sending frames and hearing an
acknowledgement keep. -/
structure Dev.SameEnd (d d' : Dev) : Prop where
  side : d'.twn.side = d.twn.side
  rxSeq : d'.twn.rxSeq = d.twn.rxSeq
  dur : d'.dur = d.dur

theorem Dev.SameEnd.trans {a b c : Dev} (first : a.SameEnd b) (second : b.SameEnd c) : a.SameEnd c :=
  ⟨second.side.trans first.side, second.rxSeq.trans first.rxSeq, second.dur.trans first.dur⟩

theorem Dev.twinPut_sameEnd (d : Dev) (f : TxFrame) : d.SameEnd (d.twinPut f) := by
  simp only [Dev.twinPut, Dev.twinNonce]
  split <;> exact ⟨rfl, rfl, rfl⟩

theorem Dev.twinTransmit_sameEnd (d : Dev) (f : TxFrame) : d.SameEnd (d.twinTransmit f) := by
  obtain ⟨side, rxSeq, dur⟩ := Dev.twinPut_sameEnd { d with twn := { d.twn with
    txSeq := (d.twn.txSeq + 1) % 2 ^ 32, unacked := d.twn.unacked ++ [{ f with seq := d.twn.txSeq, sentAt := d.clk }] } }
    { f with seq := d.twn.txSeq, sentAt := d.clk }
  simp only [Dev.twinTransmit]
  split <;> exact ⟨by simpa [Dev.twinPhase] using side, by simpa [Dev.twinPhase] using rxSeq, by simpa [Dev.twinPhase] using dur⟩

theorem Dev.twinDrain_sameEnd (fuel : Nat) (d : Dev) : d.SameEnd (d.twinDrain fuel) := by
  induction fuel generalizing d with
  | zero => exact ⟨rfl, rfl, rfl⟩
  | succ fuel ih =>
    rw [Dev.twinDrain]
    split
    · exact ⟨rfl, rfl, rfl⟩
    · next f rest _ =>
      split
      · exact ⟨rfl, rfl, rfl⟩
      · have dequeued : d.SameEnd { d with twn := { d.twn with txWait := rest } } := ⟨rfl, rfl, rfl⟩
        exact (dequeued.trans (Dev.twinTransmit_sameEnd _ f)).trans (ih _)

theorem Dev.twinAck_sameEnd (d : Dev) (ack : Nat) : d.SameEnd (d.twinAck ack) := by
  unfold Dev.twinAck
  extract_lets left waits twn e
  have heard : d.SameEnd e := ⟨rfl, rfl, rfl⟩
  exact heard.trans (Dev.twinDrain_sameEnd _ e)

theorem Dev.twinNoted_sameEnd (d : Dev) (h : TwHdr) : d.SameEnd (d.twinNoted h) := by
  have alive : d.SameEnd (d.twinLife h) := by
    simp only [Dev.twinLife]
    split <;> exact ⟨rfl, rfl, rfl⟩
  exact alive.trans (Dev.twinAck_sameEnd _ h.ack)

@[simp] theorem Dev.twinTook_side (d : Dev) (h : TwHdr) : (d.twinTook h).twn.side = d.twn.side := (d.twinNoted_sameEnd h).side

@[simp] theorem Dev.twinTook_dur (d : Dev) (h : TwHdr) : (d.twinTook h).dur = d.dur := (d.twinNoted_sameEnd h).dur

/-! ### Frames that are dropped, taken or asked for again -/

/-- A sound frame is noted; HB and RETX are then taken at once, and any other frame by its SEQ (R228). -/
theorem Dev.twinRx_of_sound {d : Dev} {h : TwHdr} (sound : d.twinSound h) (free : Bool) (act : Dev → Dev) :
    d.twinRx h free act =
      if free then act (d.twinNoted h)
      else if h.seq = d.twn.rxSeq then act (d.twinTook h)
      else if seqLe h.seq d.twn.rxSeq then d.twinNoted h
      else (d.twinNoted h).twinNow twRetx [d.twn.rxSeq] := by
  obtain ⟨up, good, fresh⟩ := sound
  have kept := (d.twinNoted_sameEnd h).rxSeq
  unfold Dev.twinNoted at kept
  rw [Dev.twinRx, if_neg (not_not_intro up), if_neg (not_not_intro good), if_neg (Bool.eq_false_iff.mp fresh)]
  simp only [Dev.twinTook, Dev.twinNoted, kept]

/-- HB and RETX are taken at once (R228). -/
theorem Dev.twinRx_of_free {d : Dev} {h : TwHdr} (sound : d.twinSound h) (act : Dev → Dev) :
    d.twinRx h true act = act (d.twinNoted h) :=
  (Dev.twinRx_of_sound sound true act).trans (if_pos rfl)

/-- A frame that comes next in order is taken (R228). -/
theorem Dev.twinRx_of_next {d : Dev} {h : TwHdr} (next : d.twinNext h) (act : Dev → Dev) :
    d.twinRx h false act = act (d.twinTook h) := by
  rw [Dev.twinRx_of_sound next.1, if_neg Bool.false_ne_true, if_pos next.2]

/-- Settles O22: the link, the tag and the staleness of the frame part the first cases, its SEQ the others. -/
theorem twinFramesKeepTheirOrder : Obligations.TwinFramesKeepTheirOrder := by
  intro d h free act
  refine ⟨?down, ?fails, ?failsOften, ?stale, fun sound => Dev.twinRx_of_free sound act, fun next => Dev.twinRx_of_next next act,
    ?old, ?beyond⟩
  case down =>
    intro down
    exact if_pos (Bool.eq_false_iff.mp down)
  case fails =>
    intro up bad few
    rw [Dev.twinRx, if_neg (not_not_intro up), if_pos (Bool.eq_false_iff.mp bad), Dev.twinTagFail, if_neg (Nat.not_lt.mpr few)]
  case failsOften =>
    intro up bad often
    rw [Dev.twinRx, if_neg (not_not_intro up), if_pos (Bool.eq_false_iff.mp bad), Dev.twinTagFail, if_pos often]
  case stale =>
    intro up good stale
    rw [Dev.twinRx, if_neg (not_not_intro up), if_neg (not_not_intro good), if_pos stale]
  case old =>
    intro sound early old
    rw [Dev.twinRx_of_sound sound, if_neg Bool.false_ne_true, if_neg early, if_pos old]
  case beyond =>
    intro sound late beyond
    rw [Dev.twinRx_of_sound sound, if_neg Bool.false_ne_true, if_neg late, if_neg (Bool.eq_false_iff.mp beyond)]

/-! ### What a message does -/

section
variable {s : State} {t : Nat} {h : TwHdr} {d x : Dev} (now : s.dev.tick t = d)
include now

/-- A command whose frame comes next in order does what its message does. -/
theorem State.run_twinNext (next : d.twinNext h) {act : Dev → Dev} (comes : act (d.twinTook h) = x) :
    s.run t (fun d => d.twinRx h false act) = .next { s with dev := x } :=
  State.run_to now ((Dev.twinRx_of_next next act).trans comes)

/-- A command whose frame is taken at once does what its message does. -/
theorem State.run_twinFree (sound : d.twinSound h) {act : Dev → Dev} (comes : act (d.twinNoted h) = x) :
    s.run t (fun d => d.twinRx h true act) = .next { s with dev := x } :=
  State.run_to now ((Dev.twinRx_of_free sound act).trans comes)

end

/-- A valid report of the peer outside a save, on a pair without fabric links, is judged and settles the horizon, or goes back to
the lower of the two epochs where a restore came short and the policy asks for it (R72, R291, R293). -/
theorem exec_sealrep_of_pair {s : State} {t : Nat} {h : TwHdr} {d : Dev} {r : EpochReport} (now : s.dev.tick t = d)
    (next : d.twinNext h) (valid : r.valid = true) :
    let c := (d.twinTook h).compareReport r
    let k : Dev := { c with twn := { c.twn with peerRep := some r } }
    let j := (k.judgeHorizon r.epoch).judgePair r.epoch
    let short := (r.short || j.dur.short) && !j.on DUR_EPOCH_CFG.POLICY
    let comes := if short then j.recover (min (j.f DUR_EPOCH_STAT.LOCAL) r.epoch) else j.settleHorizon
    c.dur.saving = false → k.on FAB_CFG.ENABLE = false → exec (.sealrep t h r) s = .next { s with dev := comes } := by
  intro c k j short comes noSave alone
  change execSealrep t h r s = _
  refine State.run_twinNext now next ?_
  exact (if_neg (not_or_intro (not_not_intro valid) (Bool.eq_false_iff.mp noSave))).trans (if_neg (Bool.eq_false_iff.mp alone))

/-- Settles O23: the frame comes next in order, so its message acts; what the message finds decides how. -/
theorem replicaMessagesAct : Obligations.ReplicaMessagesAct := by
  intro t h m b region off len pos stamp decided epoch data r s
  generalize now : s.dev.tick t = d
  refine ⟨?ownSide, ?hello, ?hb, ?leg, ?complete, ?inSave, ?abandon, ?abandonNone, ?conf, ?dur, ?eoe, ?sealrep⟩
  case ownSide =>
    intro next own
    change execTwinHello t h m s = _
    have side : m.west = (d.twinTook h).twn.side := own.trans (d.twinTook_side h).symm
    exact State.run_twinNext now next (if_pos side)
  case hello =>
    intro next other
    change execTwinHello t h m s = _
    exact State.run_twinNext now next (if_neg (by rwa [Dev.twinTook_side]))
  case hb =>
    intro sound
    change execHb t h b s = _
    exact State.run_twinFree now sound rfl
  case leg =>
    intro next noSave
    change execLeg t h region off len pos data s = _
    exact State.run_twinNext now next (if_neg (by simp [noSave]))
  case complete =>
    intro next noSave
    change execComplete t h stamp s = _
    exact State.run_twinNext now next (if_neg (by simp [noSave]))
  case inSave =>
    intro next saves
    constructor
    · change execLeg t h region off len pos data s = _
      exact State.run_twinNext now next (if_pos (by simp [saves]))
    · change execComplete t h stamp s = _
      exact State.run_twinNext now next (if_pos (by simp [saves]))
  case abandon =>
    intro x next known
    change execAbandon t h s = _
    exact State.run_twinNext now next (by simp only [known])
  case abandonNone =>
    intro next unknown
    change execAbandon t h s = _
    exact State.run_twinNext now next (by simp only [unknown])
  case conf =>
    intro o x next waits found
    change (_ → execConf t h s = _) ∧ (_ → execConf t h s = _)
    constructor
    · intro may
      exact State.run_twinNext now next (by simp only [waits, found, may, if_true])
    · intro not
      exact State.run_twinNext now next (by simp only [waits, found, not, Bool.false_eq_true, if_false])
  case dur =>
    intro next
    change execDur t h decided s = _
    exact State.run_twinNext now next rfl
  case eoe =>
    intro next
    change execEoe t h epoch s = _
    exact State.run_twinNext now next rfl
  case sealrep =>
    intro next c k j short
    refine ⟨fun bars => ?_, fun valid noSave fabric => ?_, fun valid noSave alone => ?_⟩
    · change execSealrep t h r s = _
      exact State.run_twinNext now next (if_pos (by simpa only [Bool.not_eq_true] using bars))
    · change execSealrep t h r s = _
      refine State.run_twinNext now next ?_
      exact (if_neg (not_or_intro (not_not_intro valid) (Bool.eq_false_iff.mp noSave))).trans (if_pos fabric)
    · have settled := exec_sealrep_of_pair now next valid noSave alone
      exact ⟨fun back => State.next_of_eq settled (if_pos back),
        fun on => State.next_of_eq settled (if_neg (Bool.eq_false_iff.mp on))⟩

end Sys2Proof.Machine
end

section
/-! Proofs about swaps, region changes and the return of a unit over the twin link (R226, R228, R253 to R258, R325, R535). -/

namespace Sys2Proof.Machine

/-! ### A request for a region change -/

/-- The device once a request has its way: changes of the same region that this side asked for are refused with reason 1
(R535). -/
def Dev.cedes (d : Dev) (m : RegionMsg) : Dev :=
  (d.twn.rgnPend.filter (fun p => p.region == m.region)).foldl (fun x p => x.refuseChange p.m p.cmdId 1)
    { d with twn := { d.twn with rgnPend := d.twn.rgnPend.filter (fun p => p.region != m.region) } }

/-- The device that notes a change of the peer's: the creation of an unmirrored region as a held ID, any other change reserved and
kept to the closing instant (R535). -/
def Dev.notes (d : Dev) (m : RegionMsg) : Dev :=
  if m.func = fnCreate ∧ m.mirror = .no then d.setRegion m.region heldRegion
  else { d.holdChange m with
    twn := { (d.holdChange m).twn with
      rgnApply := d.twn.rgnApply ++ [{ region := m.region, func := m.func, cmdId := none, m := m }] } }

section
variable {s : State} {t : Nat} {h : TwHdr} {d : Dev} (now : s.dev.tick t = d) (next : d.twinNext h)
include now next

/-- A request that crosses one of east's own is refused with reason 1 (R535). -/
theorem exec_rgnReq_of_crossed {m : RegionMsg} (whole : (d.twinTook h).twn.returning = false) (noHold : m.func ≠ fnHold)
    (noUnhold : m.func ≠ fnUnhold) (crosses : (d.twinTook h).twn.rgnPend.filter (fun p => p.region == m.region) ≠ [])
    (east : (d.twinTook h).twn.side = false) :
    exec (.rgnReq t h m) s = .next { s with dev := (d.twinTook h).twinSend twRgnRefuse 0 [m.region, m.func, 1] } := by
  change execRgnReq t h m s = _
  refine State.run_twinNext now next ?_
  rw [if_neg (Bool.eq_false_iff.mp whole), if_neg (not_or_intro noHold noUnhold)]
  exact if_pos ⟨by simpa only [List.isEmpty_iff] using crosses, Bool.eq_false_iff.mp east⟩

/-- Any other request is answered by whether this device can hold the change (R535). -/
theorem exec_rgnReq_of_uncrossed {m : RegionMsg} (whole : (d.twinTook h).twn.returning = false) (noHold : m.func ≠ fnHold)
    (noUnhold : m.func ≠ fnUnhold)
    (free : (d.twinTook h).twn.rgnPend.filter (fun p => p.region == m.region) = [] ∨ (d.twinTook h).twn.side = true) :
    (∀ n, ((d.twinTook h).cedes m).cannotHold m = some n → exec (.rgnReq t h m) s =
      .next { s with dev := ((d.twinTook h).cedes m).twinSend twRgnRefuse 0 [m.region, m.func, n] }) ∧
    (((d.twinTook h).cedes m).cannotHold m = none → exec (.rgnReq t h m) s =
      .next { s with dev := (((d.twinTook h).cedes m).notes m).twinSend twRgnAck 0 [m.region, m.func] }) := by
  have uncrossed : ¬ (¬ ((d.twinTook h).twn.rgnPend.filter (fun p => p.region == m.region)).isEmpty = true ∧
      ¬ (d.twinTook h).twn.side = true) := by
    rw [List.isEmpty_iff]
    tauto
  change (∀ n, _ → execRgnReq t h m s = _) ∧ (_ → execRgnReq t h m s = _)
  constructor
  · intro n cannot
    refine State.run_twinNext now next ?_
    rw [if_neg (Bool.eq_false_iff.mp whole), if_neg (not_or_intro noHold noUnhold), if_neg uncrossed]
    unfold Dev.cedes at cannot ⊢
    simp only [cannot]
  · intro can
    refine State.run_twinNext now next ?_
    rw [if_neg (Bool.eq_false_iff.mp whole), if_neg (not_or_intro noHold noUnhold), if_neg uncrossed]
    unfold Dev.notes
    unfold Dev.cedes at can ⊢
    simp only [can]

/-- An answer to a change that waits lets it go on or refuses it (R535). -/
theorem exec_rgnAnswer_of_found {region func : Nat} {p : PeerId} (reason : Nat)
    (found : ((d.twinTook h).takePend region func).1 = some p) :
    exec (.rgnAck t h region func) s = .next { s with dev := (((d.twinTook h).takePend region func).2.agreed p).pump } ∧
    exec (.rgnRefuse t h region func reason) s =
      .next { s with dev := ((d.twinTook h).takePend region func).2.refuseChange p.m p.cmdId reason } := by
  rcases pair : (d.twinTook h).takePend region func with ⟨q, e⟩
  obtain rfl : q = some p := by rwa [pair] at found
  change execRgnAck t h region func s = _ ∧ execRgnRefuse t h region func reason s = _
  exact ⟨State.run_twinNext now next (by simp only [pair]), State.run_twinNext now next (by simp only [pair])⟩

/-- An answer to no change has no effect (R535). -/
theorem exec_rgnAnswer_of_none {region func : Nat} (reason : Nat)
    (none : ((d.twinTook h).takePend region func).1 = .none) :
    exec (.rgnAck t h region func) s = .next { s with dev := ((d.twinTook h).takePend region func).2 } ∧
    exec (.rgnRefuse t h region func reason) s = .next { s with dev := ((d.twinTook h).takePend region func).2 } := by
  rcases pair : (d.twinTook h).takePend region func with ⟨q, e⟩
  obtain rfl : q = .none := by rwa [pair] at none
  change execRgnAck t h region func s = _ ∧ execRgnRefuse t h region func reason s = _
  exact ⟨State.run_twinNext now next (by simp only [pair]), State.run_twinNext now next (by simp only [pair])⟩

end

/-- Settles O24: the frame comes next in order, so its message acts; what it crosses decides how. The codes 6 and 7 for holding and
releasing an ID are the model's choice (log entry 92). -/
theorem swapAndRegionFramesAct : Obligations.SwapAndRegionFramesAct := by
  intro t h region func reason all m s
  generalize now : s.dev.tick t = d
  refine ⟨?swapCrossed, ?swapWon, ?swap, ?ready, ?readyNone, ?swapRefuse, ?table, ?held, ?change,
    fun p next found => exec_rgnAnswer_of_found now next reason found,
    fun next none => exec_rgnAnswer_of_none now next reason none⟩
  case swapCrossed =>
    intro next asked east
    change execSwapReq t h region all s = _
    exact State.run_twinNext now next (if_pos ⟨asked, Bool.eq_false_iff.mp east⟩)
  case swapWon =>
    intro next asked west
    change execSwapReq t h region all s = _
    refine State.run_twinNext now next ?_
    rw [if_neg (fun ⟨_, east⟩ => east west), if_pos asked]
  case swap =>
    intro next idle
    change execSwapReq t h region all s = _
    refine State.run_twinNext now next ?_
    rw [if_neg (fun ⟨asked, _⟩ => Bool.eq_false_iff.mp idle asked), if_neg (Bool.eq_false_iff.mp idle)]
  case ready =>
    intro next lacks
    change execSwapReady t h s = _
    exact State.run_twinNext now next (if_neg (mt List.isEmpty_iff.mp lacks))
  case readyNone =>
    intro next none
    change execSwapReady t h s = _
    exact State.run_twinNext now next (if_pos (List.isEmpty_iff.mpr none))
  case swapRefuse =>
    intro next asked
    change execSwapRefuse t h s = _
    exact State.run_twinNext now next (if_pos asked)
  case table =>
    intro next returns
    change execRgnReq t h m s = _
    exact State.run_twinNext now next (if_pos returns)
  case held =>
    intro next whole holds
    change execRgnReq t h m s = _
    exact State.run_twinNext now next ((if_neg (Bool.eq_false_iff.mp whole)).trans (if_pos holds))
  case change =>
    intro next whole noHold noUnhold
    refine ⟨exec_rgnReq_of_crossed now next whole noHold noUnhold, fun free => ?_⟩
    obtain ⟨refused, noted⟩ := exec_rgnReq_of_uncrossed now next whole noHold noUnhold free
    refine ⟨refused, fun can creates unmirrored => ?_, fun can other => ?_⟩
    · have acked := noted can
      rwa [Dev.notes, if_pos ⟨creates, unmirrored⟩] at acked
    · have acked := noted can
      rwa [Dev.notes, if_neg (not_and_or.mpr other)] at acked

/-! ### Resynchronisation -/

section
variable {s : State} {t : Nat} {d : Dev} (now : s.dev.tick t = d)
include now

/-- A plot that is awaited is taken (R257, R325). -/
theorem exec_rsPlot_of_awaited {h : TwHdr} {region plot off : Nat} {poison : Bool} {data : List Byte} {r : Region}
    (next : d.twinNext h) (known : look (d.twinTook h).rgn region = some r) (within : plot < r.run)
    (carries : data ≠ [] ∨ poison = true ∨ (d.twinTook h).twn.returning = true)
    (awaited : (d.twinTook h).twn.returning = true ∨ (d.twinTook h).twn.refetch.contains (r.base + plot) = true) :
    exec (.rsPlot t h region plot poison { off := off, data := data }) s =
      .next { s with dev := ((d.twinTook h).takePlot (r.base + plot) poison off data).pump } := by
  have noRequest : ¬ (data.isEmpty = true ∧ ¬ poison = true ∧ ¬ (d.twinTook h).twn.returning = true) := by
    rw [List.isEmpty_iff]
    tauto
  change execRsPlot t h region plot poison { off := off, data := data } s = _
  refine State.run_twinNext now next ?_
  simp only [known]
  rw [if_neg noRequest, if_pos ⟨within, awaited⟩]

/-- A pass of Catch-up sends the marked pages and counts; it leads to Cut-over where few were marked or enough passes have run
(Table 7.6). -/
theorem exec_resyncCatchupPassDone_of_due (source : d.twn.rsSource = true) (greeted : d.twn.hello = true)
    (phase : d.twn.rs = .catchUp) :
    let p := d.sendPages.fset TWN_RESYNC_STAT.PASSES (d.sendPages.f TWN_RESYNC_STAT.PASSES + 1)
    let few := d.twn.rsBits.length < d.f TWN_RESYNC_CTL.CUT_PAGES
    let cut := (({ p with twn := { p.twn with rs := .cutOver, soleMeadow := false } } : Dev).fset TWN_RESYNC_STAT.PHASE 4).pump
    let comes := if few ∨ p.f TWN_RESYNC_CTL.MAX_PASS ≤ p.f TWN_RESYNC_STAT.PASSES then cut else p
    exec (.resyncCatchupPassDone t) s = .next { s with dev := comes } := by
  change execResyncCatchupPassDone t s = _
  simp only [execResyncCatchupPassDone, decide_eq_true_eq]
  exact State.run_of_due now ⟨source, phase, greeted⟩

end

/-- Settles O25: the frame comes next in order or is taken at once, or the timer or phase is due. An `RS_PLOT` without data or
poison as a request (log entry 29) and what `RS_DONE` drops (92) are the model's choices. -/
theorem resyncRuns : Obligations.ResyncRuns := by
  intro t h region plot page first off poison data r s
  generalize now : s.dev.tick t = d
  refine ⟨fun next known => ⟨?asked, fun within carries awaited => exec_rsPlot_of_awaited now next known within carries awaited,
    ?page⟩, ?done, ?keyph, ?retx, ?timer, fun source greeted => ⟨?bulk, ?catchUp, ?cutOver⟩⟩
  case asked =>
    intro whole
    change execRsPlot t h region plot false { off := off } s = _
    refine State.run_twinNext now next ?_
    simp only [known]
    exact if_pos ⟨rfl, Bool.false_ne_true, Bool.eq_false_iff.mp whole⟩
  case page =>
    intro within returns
    change execRsPage t h region page data s = _
    refine State.run_twinNext now next ?_
    simp only [known]
    exact if_pos ⟨within, returns⟩
  case done =>
    intro next returns
    change execRsDone t h s = _
    exact State.run_twinNext now next (if_neg (not_not_intro returns))
  case keyph =>
    intro next
    change execTwinKeyph t h s = _
    exact State.run_twinNext now next rfl
  case retx =>
    intro sound
    change execTwinRetx t h first s = _
    exact State.run_twinFree now sound rfl
  case timer =>
    intro f rest oldest up late
    change execTwinRetransmitTimer t s = _
    refine State.run_to now ?_
    simp only [oldest]
    exact if_pos ⟨up, late⟩
  case bulk =>
    intro phase
    change execResyncBulkDone t s = _
    exact State.run_of_due now ⟨source, phase, greeted⟩
  case catchUp =>
    intro phase p
    have passed := exec_resyncCatchupPassDone_of_due now source greeted phase
    exact ⟨fun many more => State.next_of_eq passed (if_neg (not_or_intro (Nat.not_lt.mpr many) (Nat.not_le.mpr more))),
      fun cut => State.next_of_eq passed (if_pos cut)⟩
  case cutOver =>
    intro phase
    change execResyncCutoverDone t s = _
    exact State.run_of_due now ⟨source, phase, greeted⟩

end Sys2Proof.Machine
end

section
/-! Proofs about the twin link's coming up and going down, heartbeats, the lamp, and the judgement of the peer (R229, R238 to R243,
Table 7.4). -/

namespace Sys2Proof.Machine

/-! ### The link goes down -/

/-- A link that goes down leaves every field as it was but its width, the state of its path and the count (R238). -/
theorem Dev.twinDown_of_up {d : Dev} (up : d.twn.linkUp = true) :
    d.twinDown.twn = { d.twn with linkUp := false, hello := false, unacked := [], txWait := [] } ∧
    d.twinDown.f TWN_STAT.WIDTH = 0 ∧ d.twinDown.f TWN_STAT.LINK_PATH = 0 ∧
    d.onlyFields [TWN_STAT.WIDTH, TWN_STAT.LINK_PATH, TWN_LINK_CNT.DOWN] { d.twinDown with twn := d.twn } := by
  rw [Dev.twinDown, if_neg (not_not_intro up)]
  refine ⟨rfl, ?_, ?_, fun y other => ?_, rfl⟩
  · rw [Dev.finc, Dev.f_fset_ne _ _ (by decide), Dev.f_fset_ne _ _ (by decide), Dev.f_fset_self, Nat.zero_mod]
  · rw [Dev.finc, Dev.f_fset_ne _ _ (by decide), Dev.f_fset_self, Nat.zero_mod]
  · simp only [List.map_cons, List.map_nil, List.mem_cons, List.not_mem_nil, or_false, not_or] at other
    obtain ⟨width, path, count⟩ := other
    exact (Dev.f_fset_ne _ _ (Ne.symm count)).trans
      ((Dev.f_fset_ne _ _ (Ne.symm path)).trans (Dev.f_fset_ne _ _ (Ne.symm width)))

/-! ### Heartbeats -/

/-- The status a heartbeat carries: where the lamp is dark, healthy (R239, R240). -/
theorem Dev.heartbeat_of_up {d : Dev} (up : d.twn.linkUp = true) :
    let status : PathStatus := if d.twn.lampOut = .silent then .healthy else d.twn.lampOut
    d.heartbeat = (d.twinPut { ftype := twHb, seq := d.twn.txSeq, args := [statusCode status, d.f DUR_BUDGET_STAT.STAGE,
      d.f DUR_EPOCH_STAT.LOCAL, d.f TWN_STAT.ROLE_VER, d.f TWN_STAT.CLAIM] }).count 0x700 0 1 := by
  intro status
  rw [Dev.heartbeat, Dev.twinNow, if_neg (not_not_intro up)]
  unfold status
  cases d.twn.lampOut <;> rfl

/-! ### A fault on one path -/

/-- A fault on the lamp path that has stood for 8 µs declares the peer failed where the link path is not healthy (R241). -/
theorem Dev.judgeFaults_of_lamp {d : Dev} {a : Nat} (fault : d.lampPath = pathFault) (since : d.twn.lampFaultAt = some a)
    (long : a + 8000 ≤ d.clk) (sick : d.f TWN_STAT.LINK_PATH ≠ pathHealthy) : d.judgeFaults = d.declare :=
  if_pos (.inr ⟨fault, by simpa only [since, Option.any_some, decide_eq_true_eq] using long, sick⟩)

/-- A fault on the link path that has stood for 8 µs declares the peer failed where the lamp path is not healthy (R241). -/
theorem Dev.judgeFaults_of_link {d : Dev} {a : Nat} (fault : d.f TWN_STAT.LINK_PATH = pathFault)
    (since : d.twn.linkFaultAt = some a) (long : a + 8000 ≤ d.clk) (sick : d.lampPath ≠ pathHealthy) : d.judgeFaults = d.declare :=
  if_pos (.inl ⟨fault, by simpa only [since, Option.any_some, decide_eq_true_eq] using long, sick⟩)

/-- A lamp that shows a fault puts the lamp path in fault (R239). -/
theorem Dev.lampFault_lampPath {d : Dev} (on : d.lampOn = true) (st : PathStatus) (periods : List (Nat × Nat)) :
    (d.lampFault st periods).lampPath = pathFault := by
  have enabled : (d.lampFault st periods).on TWN_CFG.LAMP_EN = true := by
    simp only [Dev.lampOn, Bool.and_eq_true] at on
    rw [← on.2]
    exact congrArg (fun n => n != 0) (Dev.f_fset_ne d pathFault (by decide))
  rw [Dev.lampPath, if_pos enabled]
  exact Dev.f_fset_self d TWN_STAT.LAMP_PATH pathFault

/-- A lamp that has shown a fault for 8 µs declares the peer failed where the link path is not healthy (R241). -/
theorem Dev.judgeFaults_of_lampFault {d : Dev} (on : d.lampOn = true) {st : PathStatus} {periods : List (Nat × Nat)}
    (sick : (d.lampFault st periods).f TWN_STAT.LINK_PATH ≠ pathHealthy) (long : 8000 ≤ lampSpan st periods)
    (ran : 8000 ≤ d.clk) : (d.lampFault st periods).judgeFaults = (d.lampFault st periods).declare := by
  refine Dev.judgeFaults_of_lamp (Dev.lampFault_lampPath on st periods) rfl ?_ sick
  change min (d.clk - lampSpan st periods) _ + 8000 ≤ d.clk
  omega

section
variable {s : State} {t : Nat} {d : Dev} (now : s.dev.tick t = d)
include now

/-- A fault seen on the lamp path is an event alone where the link path is healthy, and else is judged (R241, Table 7.4). -/
theorem exec_peerFaultSeen_of_lamp {st : PathStatus} {periods : List (Nat × Nat)} (twinned : d.on TWN_CFG.ENABLE = true)
    (noHealth : st ≠ .healthy) (noSilence : st ≠ .silent) (on : d.lampOn = true) (shows : lampStatus periods = some st) :
    let e := d.lampFault st periods
    let comes := if e.f TWN_STAT.LINK_PATH = pathHealthy then e.raise (source 12 0) 2 0 0xFFFF 0 else e.judgeFaults
    exec (.peerFaultSeen t (some periods) st) s = .next { s with dev := comes } := by
  change execPeerFaultSeen t (some periods) st s = _
  refine (State.run_of_free now (by simp [twinned, noHealth, noSilence])).trans ?_
  exact congrArg (fun x : Dev => Host.Outcome.next { s with dev := x }) 
    (if_neg (not_or_intro (not_not_intro on) (not_not_intro shows)))

/-- A fault that stands on the link path is an event alone where the lamp path is healthy, and else is judged (R241, Table 7.4). -/
theorem exec_peerFaultSeen_of_link {st : PathStatus} {a : Nat} (twinned : d.on TWN_CFG.ENABLE = true)
    (noHealth : st ≠ .healthy) (noSilence : st ≠ .silent) (since : d.twn.linkFaultAt = some a) :
    let e := d.fset TWN_STAT.LINK_PATH 2
    let comes := if e.lampPath = pathHealthy then e.raise (source 12 0) 2 0 0xFFFF 0 else e.judgeFaults
    exec (.peerFaultSeen t none st) s = .next { s with dev := comes } := by
  change execPeerFaultSeen t none st s = _
  refine (State.run_of_free now (by simp [twinned, noHealth, noSilence])).trans ?_
  exact congrArg (fun x : Dev => Host.Outcome.next { s with dev := x }) 
    (if_neg fun quiet => Option.some_ne_none a (since.symm.trans quiet))

/-- A lamp that falls silent is an event alone where the link path is healthy, and else is judged (R239, Table 7.4). -/
theorem exec_lampPathSilent_of_dark {periods : List (Nat × Nat)} (on : d.lampOn = true) (heard : d.f TWN_STAT.LAMP_PATH ≠ 0)
    (dark : periods.any lampPeriod = false ∨ lampStatus periods = some .silent) :
    let e : Dev := { d.fset TWN_STAT.LAMP_PATH 0 with twn := { d.twn with lampSeen := d.clk - 3000, lampFaultAt := none } }
    let comes := if e.f TWN_STAT.LINK_PATH = pathHealthy then e.raise (source 12 0) 2 0 0xFFFF 0 else e.judgeFaults
    exec (.lampPathSilent { t := t, periods := periods }) s = .next { s with dev := comes } := by
  have lit : ¬ (periods.any lampPeriod = true ∧ lampStatus periods ≠ some .silent) := by
    rw [← Bool.not_eq_true] at dark
    tauto
  change execLampPathSilent { t := t, periods := periods } s = _
  exact State.run_of_free now (not_or_intro (not_not_intro on) (not_or_intro heard lit))

/-- With the link path silent for `DETECT_US` the lamp path decides (R241, R242). -/
theorem exec_detectExpiry_of_silent (silent : d.f TWN_STAT.LINK_PATH = 0)
    (long : d.twn.linkSeen + d.f TWN_CFG.DETECT_US * 1000 ≤ d.clk) :
    let dark := d.lampPath = pathSilent ∧
      (¬ d.on TWN_CFG.LAMP_EN = true ∨ d.twn.lampSeen + d.f TWN_CFG.DETECT_US * 1000 ≤ d.clk)
    let comes := if d.lampPath = pathHealthy then d.isolate else if dark then d.declare else d.judgeFaults
    exec (.detectExpiry t) s = .next { s with dev := comes } := by
  change execDetectExpiry t s = _
  exact State.run_to now (if_neg (not_or_intro (not_not_intro silent) (Nat.not_lt.mpr long)))

end

/-- Settles O26: the guard of each command lets it act, or only time passes, and the other path decides what a silence or a fault
comes to. That SEQ restarts at link-up with the frames unacknowledged dropped (log entry 33), and that 8 periods in a row make the
decoder's judgement (86), are the model's choices. -/
theorem pathsJudgeThePeer : Obligations.PathsJudgeThePeer := by
  intro t width st periods s
  generalize now : s.dev.tick t = d
  refine ⟨?linkUp, ?linkDown, ?down, ?beat, ?dark, ?darkLamp, ?linkSilent, ?lampSilent, ?lampHealthy, ?fault, ?detect, ?declare⟩
  case linkUp =>
    intro can
    change execTwinLinkUp t width s = _
    exact State.run_of_free now (not_not_intro can)
  case linkDown =>
    intro up
    change ∃ d', execTwinLinkDown t s = .next { s with dev := d' } ∧ _
    exact ⟨d.twinDown, State.run_to now rfl, Dev.twinDown_of_up up⟩
  case down =>
    intro down
    change execTwinLinkDown t s = _ ∧ execHeartbeatSend t s = _
    exact ⟨State.run_to now (if_pos (Bool.eq_false_iff.mp down)), State.run_to now (if_pos (Bool.eq_false_iff.mp down))⟩
  case beat =>
    intro up
    change execHeartbeatSend t s = _
    exact State.run_to now (Dev.heartbeat_of_up up)
  case dark =>
    intro alone
    change execLampWatchdogExpiry t s = _
    exact State.run_to now (if_neg (fun ⟨twinned, _⟩ => Bool.eq_false_iff.mp alone twinned))
  case darkLamp =>
    intro twinned lamp
    change execLampWatchdogExpiry t s = _
    exact State.run_to now (if_pos ⟨twinned, lamp⟩)
  case linkSilent =>
    intro long
    change execLinkPathSilent t s = _
    exact State.run_of_free now (Nat.not_lt.mpr long)
  case lampSilent =>
    intro on heard dark
    have silent := exec_lampPathSilent_of_dark now on heard dark
    exact ⟨fun well => State.next_of_eq silent (if_pos well), fun sick => State.next_of_eq silent (if_neg sick)⟩
  case lampHealthy =>
    intro on healthy
    change execLampPathHealthy { t := t, periods := periods } s = _
    exact State.run_of_free now (not_or_intro (not_not_intro on) (not_not_intro healthy))
  case fault =>
    intro twinned noHealth noSilence
    refine ⟨fun on shows => ?_, fun a since => ?_⟩
    · have seen := exec_peerFaultSeen_of_lamp now twinned noHealth noSilence on shows
      refine ⟨fun well => State.next_of_eq seen (if_pos well), fun sick => State.next_of_eq seen (if_neg sick),
        fun sick long ran => ?_⟩
      exact State.next_of_eq seen ((if_neg sick).trans (Dev.judgeFaults_of_lampFault on sick long ran))
    · have seen := exec_peerFaultSeen_of_link now twinned noHealth noSilence since
      refine ⟨fun well => State.next_of_eq seen (if_pos well), fun sick => State.next_of_eq seen (if_neg sick),
        fun sick long => ?_⟩
      have stands : (d.fset TWN_STAT.LINK_PATH 2).f TWN_STAT.LINK_PATH = pathFault := Dev.f_fset_self d TWN_STAT.LINK_PATH 2
      exact State.next_of_eq seen ((if_neg sick).trans (Dev.judgeFaults_of_link stands since long sick))
  case detect =>
    intro silent long
    have judged := exec_detectExpiry_of_silent now silent long
    refine ⟨fun lamp => State.next_of_eq judged (if_pos lamp), fun lamp dark => ?_, fun lamp => ?_⟩
    · refine State.next_of_eq judged ((if_neg ?_).trans (if_pos ⟨lamp, ?_⟩))
      · rw [lamp]; decide
      · simpa only [Bool.not_eq_true] using dark
    · refine State.next_of_eq judged ((if_neg ?_).trans (if_neg fun ⟨silentLamp, _⟩ => ?_))
      · rw [lamp]; decide
      · exact absurd (lamp.symm.trans silentLamp) (by decide)
  case declare =>
    change execDeclare t s = _
    exact State.run_to now rfl

end Sys2Proof.Machine
end

section
/-! Proofs about the fabric links and the frames that carry no message (R227, R228, R263 to R272, R294). -/

namespace Sys2Proof.Machine

/-! ### Frames that are dropped, taken or asked for again -/

/-- A sound frame is noted; RETX is then taken at once, and any other frame by its SEQ (R228, R264). -/
theorem Dev.fabRx_of_sound {d : Dev} {h : FabHdr} {early : Bool} (sound : d.fabSound h early) (free : Bool) (act : Dev → Dev) :
    d.fabRx h free early act =
      if free then act (d.fabNoted h)
      else if h.seq = ((d.fabNoted h).flink h.link).rxSeq then act (d.fabTook h)
      else if seqLe h.seq ((d.fabNoted h).flink h.link).rxSeq then d.fabNoted h
      else (d.fabNoted h).fabAskAgain h.link := by
  obtain ⟨live, good, fresh, served⟩ := sound
  have heard : ¬ (¬ d.on FAB_ID.VALID = true ∧ ¬ early = true) := by tauto
  rw [Dev.fabRx, if_neg (not_not_intro live), if_neg (not_not_intro good), if_neg (Bool.eq_false_iff.mp fresh), if_neg heard]
  rfl

section
variable {s : State} {t : Nat} {h : FabHdr} {d x : Dev} (now : s.dev.tick t = d)
include now

/-- A command whose frame comes next in its link's order does what the frame does. -/
theorem State.run_fabNext {early : Bool} (next : d.fabNext h early) {act : Dev → Dev} (comes : act (d.fabTook h) = x) :
    s.run t (fun d => d.fabRx h false early act) = .next { s with dev := x } := by
  obtain ⟨sound, inOrder⟩ := next
  refine State.run_to now ?_
  rw [Dev.fabRx_of_sound sound, if_neg Bool.false_ne_true, if_pos inOrder, comes]

/-- A command whose frame is taken at once does what the frame does. -/
theorem State.run_fabFree {early : Bool} (sound : d.fabSound h early) {act : Dev → Dev} (comes : act (d.fabNoted h) = x) :
    s.run t (fun d => d.fabRx h true early act) = .next { s with dev := x } := by
  refine State.run_to now ?_
  rw [Dev.fabRx_of_sound sound, if_pos rfl, comes]

/-! ### What the frames do -/

/-- A HELLO of another device names the far end; its record enters the database where that knows none as new (R266, R268). -/
theorem exec_fabHello_of_other {serial : BitVec 64} {id : Option Nat} {steward : Bool} {ver : Nat} (next : d.fabNext h true)
    (other : serial ≠ Config.serial) :
    let x := (d.fabTook h).farEnd h.link serial id
    let known := x.fab.db.any (fun l => l.serial == serial && decide (ver ≤ l.ver))
    let y := if known then x else x.withLsa { serial := serial, id := id, steward := steward, ver := 0, peers := [] }
    exec (.fabHello t h serial id steward ver) s = .next { s with dev := y.ownLsa.askId } := by
  change execFabHello t h serial id steward ver s = _
  exact State.run_fabNext now next (if_neg other)

/-- A newer link-state record is kept, flooded on and judged, and the device it names enlisted (R270, R271). -/
theorem exec_lsa_of_newer {serial : BitVec 64} {id : Option Nat} {steward : Bool} {ver : Nat} {peers : List (Nat × BitVec 64)}
    (next : d.fabNext h true) (other : serial ≠ Config.serial)
    (newer : (d.fabTook h).fab.db.any (fun x => x.serial == serial && decide (ver ≤ x.ver)) = false) :
    let l : Lsa := { serial := serial, id := id, steward := steward, ver := ver, peers := peers }
    let judged := ((d.fabTook h).spreadLsa l h.link).judgedId l
    exec (.lsa t h serial id steward ver peers) s = .next { s with dev := id.elim judged judged.enlist } := by
  intro l judged
  change execLsa t h serial id steward ver peers s = _
  refine State.run_fabNext now next ((if_neg (not_or_intro other (Bool.eq_false_iff.mp newer))).trans ?_)
  have spread : (({ d.fabTook h with fab := { (d.fabTook h).fab with db := putLsa (d.fabTook h).fab.db l, recompute := true } } :
    Dev).floodLsa l (some h.link)).nameSteward.settleSteward (d.fabTook h).isSteward = (d.fabTook h).spreadLsa l h.link := rfl
  dsimp only [l] at spread ⊢
  rw [spread]
  unfold judged Dev.judgedId
  generalize (d.fabTook h).spreadLsa l h.link = x
  cases id
  · rfl
  · rfl

/-- A PTP message gives time on the link of `PTP_LINK` under `TIME_SRC` 01b, is answered where it is a delay request on another
link, and is dropped else (R294). -/
theorem exec_ptpMessage_of_next {event : Bool} {body : List Byte} (next : d.fabNext h false) :
    let e := d.fabTook h
    let master := e.f DUR_EPOCH_CFG.TIME_SRC = 1 ∧ h.link = e.f FAB_CFG.PTP_LINK
    let ask := event = true ∧ (body.headD 0).toNat % 16 = 1
    let answer := e.fabNow h.link frPtp ((Config.standardReply 3 body).map (fun (b : Byte) => b.toNat))
    let comes := if master then { e with tim := { e.tim with ptp := true } } else if ask then answer else e
    exec (.ptpMessage t h event body) s = .next { s with dev := comes } := by
  change execPtpMessage t h event body s = _
  exact State.run_fabNext now next rfl

end

/-- Settles O27: a frame is stale, barred, old, beyond, or it acts; a timer is due. That the order restarts at link-up (log entry
33), that the pools begin full (74), and the message type of a PTP delay request and its answer (10) are the model's choices. -/
theorem fabricLinksRun : Obligations.FabricLinksRun := by
  intro t link first ver h serial id steward event peers body free early act s
  generalize now : s.dev.tick t = d
  refine ⟨?linkUp, ?linkDown, ?stale, ?noId, ?outOfOrder, ?ownHello, ?hello, ?lsaOld, ?lsa, ?flood, ?routes, ?keyph, ?retx, ?timer,
    ?rekey, ?ptp⟩
  case linkUp =>
    intro can
    change execFabLinkUp t link s = _
    exact State.run_of_free now (not_not_intro can)
  case linkDown =>
    intro up
    change execFabLinkDown t link s = _
    exact State.run_of_free now up
  case stale =>
    intro live good stale
    rw [Dev.fabRx, if_neg (not_not_intro live), if_neg (not_not_intro good), if_pos stale]
  case noId =>
    intro live good fresh noId
    rw [Dev.fabRx, if_neg (not_not_intro live), if_neg (not_not_intro good), if_neg (Bool.eq_false_iff.mp fresh),
      if_pos ⟨Bool.eq_false_iff.mp noId, Bool.false_ne_true⟩]
  case outOfOrder =>
    intro sound other
    rw [Dev.fabRx_of_sound sound, if_neg Bool.false_ne_true, if_neg other]
  case ownHello =>
    intro next own
    change execFabHello t h serial id steward ver s = _
    exact State.run_fabNext now next (if_pos own)
  case hello =>
    intro next other x
    have named := exec_fabHello_of_other now next other (id := id) (steward := steward) (ver := ver)
    refine ⟨fun known => State.next_of_eq named ?_, fun unknown => State.next_of_eq named ?_⟩
    · rw [if_pos known]
    · rw [if_neg (Bool.eq_false_iff.mp unknown)]
  case lsaOld =>
    intro next old
    change execLsa t h serial id steward ver peers s = _
    exact State.run_fabNext now next (if_pos old)
  case lsa =>
    intro next other newer l
    have kept := exec_lsa_of_newer now next other newer (id := id) (steward := steward) (peers := peers)
    constructor
    · rintro rfl
      exact State.next_of_eq kept (Option.elim_none _ _)
    · rintro i rfl
      exact State.next_of_eq kept (Option.elim_some _ _ _)
  case flood =>
    intro enabled due
    change execLsaFloodTimer t s = _
    exact State.run_of_due now ⟨enabled, due⟩
  case routes =>
    intro pending
    change execRouteRecomputeDone t s = _
    exact State.run_of_due now pending
  case keyph =>
    intro next
    change execFabKeyph t h s = _
    exact State.run_fabNext now next rfl
  case retx =>
    intro sound
    change execFabRetx t h first s = _
    exact State.run_fabFree now sound rfl
  case timer =>
    intro f rest oldest live late
    change execFabRetransmitTimer t link s = _
    refine State.run_to now ?_
    simp only [oldest]
    exact if_pos ⟨live, late⟩
  case rekey =>
    change execFabricRekey t s = _
    exact State.run_to now rfl
  case ptp =>
    intro next master ask
    have heard := exec_ptpMessage_of_next now next (event := event) (body := body)
    exact ⟨fun gives => State.next_of_eq heard (if_pos gives),
      fun other asks => State.next_of_eq heard ((if_neg other).trans (if_pos asks)),
      fun other mute => State.next_of_eq heard ((if_neg other).trans (if_neg mute))⟩

end Sys2Proof.Machine
end

section
/-! Proofs about claims, the fences, adopted addresses, planned swaps and rekeying (R226, R244 to R260). -/

namespace Sys2Proof.Machine

/-! ### Claims and the fences -/

/-- A failed claim starts again where one is still wanted and nothing bars it (R246, R247). -/
theorem Dev.startClaim_of_failed {d : Dev} (failed : d.f TWN_STAT.CLAIM = claimFailed) :
    let free := d.claimWanted = true ∧ d.twn.snufOut = false ∧ d.on TWN_STAT.SNUF_IN = false ∧ d.dur.saving = false
    d.startClaim = if free then (d.snuf true).fset TWN_STAT.CLAIM claimAsserting else d := by
  simp only [Dev.startClaim, failed, Bool.not_eq_true, or_true, and_true]

/-- The device that notes the assertion of `TWIN_SNUF_IN` (R245). -/
def Dev.snuffed (d : Dev) : Dev :=
  { d.fset TWN_STAT.SNUF_IN 1 with twn := { d.twn with snufInAt := d.clk, snufOffAt := none } }

/-- The device that gives up its claim for a random time (R246). -/
def Dev.backsOff (d : Dev) : Dev :=
  let w := (d.snuf false).fset TWN_STAT.CLAIM claimBackoff
  { w.drew with twn := { w.drew.twn with backoff := some (w.clk + w.backoffNs) } }

/-- A device that gives up its claim keeps its side. -/
@[simp] theorem Dev.backsOff_side (d : Dev) : d.backsOff.twn.side = d.twn.side := by
  obtain ⟨n, c, drew⟩ := ((d.snuf false).fset TWN_STAT.CLAIM claimBackoff).drew_eq
  simp only [Dev.backsOff, drew]
  rfl

/-- The device that gives way where it is west and its claim is not held (R246). -/
def Dev.givesWay (d : Dev) : Dev := if d.twn.side && d.f TWN_STAT.CLAIM == claimAsserting then d.backsOff else d

/-- East, and a device without such a claim, does not give way. -/
theorem Dev.givesWay_of_not {d : Dev} (stands : d.twn.side = false ∨ d.f TWN_STAT.CLAIM ≠ claimAsserting) : d.givesWay = d :=
  if_neg (by simpa only [Bool.and_eq_true, beq_iff_eq, not_and_or, Bool.not_eq_true] using stands)

/-- West with a claim that is not held gives way. -/
theorem Dev.givesWay_of_west {d : Dev} (west : d.twn.side = true) (claims : d.f TWN_STAT.CLAIM = claimAsserting) :
    d.givesWay = d.backsOff :=
  if_pos (by simp only [west, claims, beq_self_eq_true, Bool.and_self])

/-- The device whose write fence acts, but on east while its own output is asserted (R245). -/
def Dev.fencesWrites (d : Dev) : Dev :=
  if ¬ d.twn.side ∧ d.twn.snufOut then d else ((d.fset TWN_STAT.FENCE_WR 1).fenceOps).pump

/-- On west the write fence acts. -/
theorem Dev.fencesWrites_of_west {d : Dev} (west : d.twn.side = true) :
    d.fencesWrites = ((d.fset TWN_STAT.FENCE_WR 1).fenceOps).pump :=
  if_neg fun ⟨east, _⟩ => east west

section
variable {s : State} {t : Nat} {d : Dev} (now : s.dev.tick t = d)
include now

/-- The input's assertion is noted, the device gives way, and the write fence acts (R245, R246). -/
theorem exec_snufInAssert_eq :
    exec (.snufInAssert t) s = .next { s with dev := d.snuffed.givesWay.fencesWrites } := by
  change execSnufInAssert t s = _
  exact State.run_to now rfl

/-! ### Swaps and the key phase -/

/-- A swap begins where the link is up, no declaration, isolation or swap of the peer's stands, and a region meant is primary here;
else its result is set (R253). -/
theorem exec_swapGo_of_idle {region : Nat} {all : Bool} (idle : d.on TWN_CTL.SWAP_BUSY = false) :
    let e := (d.fset TWN_CTL.REGION region).fset TWN_CTL.ALL (bit all)
    let e : Dev := { e with twn := { e.twn with swapReg := if all then 4096 else region } }
    let here := e.rgn.any (fun r => r.2.mirrored && e.primaryHere r.1 r.2 && (all || r.1 == region))
    let barred := ¬ e.twn.linkUp = true ∨ ¬ e.twn.hello = true ∨ e.twn.declared = true ∨ e.twn.isolated = true ∨
      e.twn.swapIn.isSome = true
    let u := (e.fset TWN_CTL.SWAP_BUSY 1).fset TWN_CTL.SWAP_RESULT 0
    let begun := (({ u with twn := { u.twn with swapOut := true } } : Dev).twinSend twSwapReq 0 [region, bit all]).pump
    let comes := if barred then e.fset TWN_CTL.SWAP_RESULT (if e.twn.swapIn.isSome ∧ e.twn.side then 2 else 3)
      else if ¬ here then e.fset TWN_CTL.SWAP_RESULT 4 else begun
    exec (.swapGo t region all) s = .next { s with dev := comes } := by
  change execSwapGo t region all s = _
  exact State.run_to now (if_neg (Bool.eq_false_iff.mp idle))

end

/-- Settles O34: the guard of each command lets it act, or only time passes. `SWAP_RESULT` 3 as the answer on
east while a swap that the peer asked for runs is the model's choice (log entry 95). -/
theorem claimsSettleTheSurvivor : Obligations.ClaimsSettleTheSurvivor := by
  intro t i n b region all s
  generalize now : s.dev.tick t = d
  refine ⟨?readback, ?readbackEarly, ?retry, ?retryEarly, ?held, ?assert, ?readFence, ?released, ?deassert, ?lift, ?liftBarred,
    ?backoff, ?noBackoff, ?announce, ?notAdopted, ?swapBusy, ?swap, ?notInSync, ?giveback, ?rekey⟩
  case readback =>
    intro asserting late
    change execClaimReadbackTimeout t s = _
    exact State.run_of_due now ⟨asserting, late⟩
  case readbackEarly =>
    intro early
    change execClaimReadbackTimeout t s = _
    exact State.run_of_early now (not_and_or.mpr (early.imp_right Nat.not_le.mpr))
  case retry =>
    intro failed late free
    have started := Dev.startClaim_of_failed failed
    change (_ → execClaimRetry t s = _) ∧ (_ → execClaimRetry t s = _)
    have tried : execClaimRetry t s = .next { s with dev := d.startClaim } := State.run_of_due now ⟨failed, late⟩
    exact ⟨fun may => State.next_of_eq tried (started.trans (if_pos may)),
      fun barred => State.next_of_eq tried (started.trans (if_neg barred))⟩
  case retryEarly =>
    intro early
    change execClaimRetry t s = _
    exact State.run_of_early now (not_and_or.mpr (early.imp_right Nat.not_le.mpr))
  case held =>
    intro held
    change (_ → execClaimHeld t s = _) ∧ (_ → execClaimHeld t s = _)
    simp only [execClaimHeld, Bool.not_eq_true]
    exact ⟨fun due => State.run_of_due now due, fun early => State.run_of_early now early⟩
  case assert =>
    intro u w y
    have asserted := exec_snufInAssert_eq now
    refine ⟨fun east out => ?_, fun east quiet => ?_, fun west noClaim => ?_, fun west claims => ?_⟩
    · have stays := congrArg Dev.fencesWrites (Dev.givesWay_of_not (d := d.snuffed) (.inl east))
      exact State.next_of_eq asserted (stays.trans (if_pos ⟨Bool.eq_false_iff.mp east, out⟩))
    · have stays := congrArg Dev.fencesWrites (Dev.givesWay_of_not (d := d.snuffed) (.inl east))
      exact State.next_of_eq asserted (stays.trans (if_neg fun ⟨_, out⟩ => Bool.eq_false_iff.mp quiet out))
    · have stays := congrArg Dev.fencesWrites (Dev.givesWay_of_not (d := d.snuffed) (.inr noClaim))
      exact State.next_of_eq asserted (stays.trans (Dev.fencesWrites_of_west west))
    · have yields := congrArg Dev.fencesWrites (Dev.givesWay_of_west (d := d.snuffed) west claims)
      exact State.next_of_eq asserted (yields.trans (Dev.fencesWrites_of_west ((Dev.backsOff_side d.snuffed).trans west)))
  case readFence =>
    intro five
    change (_ → execReadFence t s = _) ∧ (_ → execReadFence t s = _)
    exact ⟨fun due => State.run_of_due now due, fun early => State.run_of_early now early⟩
  case released =>
    intro released
    change execSnufInDeassert t s = _
    exact State.run_of_barred now (Bool.eq_false_iff.mp released)
  case deassert =>
    intro asserted
    change execSnufInDeassert t s = _
    exact State.run_of_free now (not_not_intro asserted)
  case lift =>
    intro released since late
    change execFenceLift t s = _
    refine State.run_of_due now ⟨Bool.eq_false_iff.mp released, ?_⟩
    simpa only [since, Option.any_some, decide_eq_true_eq] using late
  case liftBarred =>
    intro asserted
    change execFenceLift t s = _
    exact State.run_of_early now fun ⟨released, _⟩ => released asserted
  case backoff =>
    intro backsOff since late
    change execClaimBackoffExpiry t s = _
    exact State.run_of_due now ⟨backsOff, by simpa only [since, Option.any_some, decide_eq_true_eq] using late⟩
  case noBackoff =>
    intro other
    change execClaimBackoffExpiry t s = _
    exact State.run_of_early now fun ⟨backsOff, _⟩ => other backsOff
  case announce =>
    intro adopted more due
    change execAdoptionAnnounce t i s = _
    refine State.run_to now ?_
    simp only [adopted]
    exact if_neg (not_or_intro (Nat.not_le.mpr more) (Nat.not_lt.mpr due))
  case notAdopted =>
    intro none
    change execAdoptionAnnounce t i s = _
    exact State.run_to now (by simp only [none])
  case swapBusy =>
    intro busy
    change execSwapGo t region all s = _
    exact State.run_to now (if_pos busy)
  case swap =>
    intro idle e e' here free
    have gone := exec_swapGo_of_idle now idle (region := region) (all := all)
    have barred_iff : ¬ free ↔ ¬ e'.twn.linkUp = true ∨ ¬ e'.twn.hello = true ∨ e'.twn.declared = true ∨
        e'.twn.isolated = true ∨ e'.twn.swapIn.isSome = true := by
      simp only [free, not_and_or, Bool.not_eq_false, Option.isSome_iff_ne_none, ne_eq]
    refine ⟨fun may away => ?_, fun may home => ?_, fun barred => ?_⟩
    · refine State.next_of_eq gone ((if_neg (mt barred_iff.mpr (not_not_intro may))).trans (if_pos ?_))
      exact Bool.eq_false_iff.mp away
    · refine State.next_of_eq gone ((if_neg (mt barred_iff.mpr (not_not_intro may))).trans (if_neg ?_))
      exact not_not_intro home
    · exact State.next_of_eq gone (if_pos (barred_iff.mp barred))
  case notInSync =>
    intro other
    change execGiveback t s = _
    exact State.run_to now (if_pos other)
  case giveback =>
    intro inSync
    change execGiveback t s = _
    exact State.run_to now (if_neg (not_not_intro inSync))
  case rekey =>
    intro next
    change (_ → (_ → execTwinRekey t s = _) ∧ (_ → execTwinRekey t s = _)) ∧ (_ → execTwinRekey t s = _)
    refine ⟨fun loaded => ⟨fun up => ?_, fun down => ?_⟩, fun empty => State.run_to now (if_neg (Bool.eq_false_iff.mp empty))⟩
    · exact State.run_to now ((if_pos loaded).trans (if_pos up))
    · exact State.run_to now ((if_pos loaded).trans (if_neg (Bool.eq_false_iff.mp down)))

end Sys2Proof.Machine
end

section
/-! Proofs about the vendor commands of the side-band (R408, R409, R417 to R419, R429 to R432): what each does once it is taken. -/

namespace Sys2Proof.Machine

/-! ### A request that is taken -/

/-- A well-formed request that stands acts (R426, R429). -/
theorem Dev.vendorIn_of_stands {d : Dev} {a : SbReq} (stands : d.stands a.pec) (formed : a.malformed = false) (code : Nat)
    (act : Dev → Dev) : d.vendorIn code a act = act d.heard := by
  obtain ⟨addressed, sound⟩ := stands
  rw [Dev.vendorIn, Dev.mctpIn, if_neg (not_not_intro addressed), if_neg (not_not_intro sound)]
  exact if_neg (Bool.eq_false_iff.mp formed)

/-- An authorised request acts, its challenge spent (R430, R431). -/
theorem Dev.authIn_of_authed {d : Dev} {a : SbReq} (authed : d.authed a) (code : Nat) (act : Dev → Dev) :
    d.authIn code a act = act (d.opened a) := by
  obtain ⟨stands, formed, provisioned, good, tagOk⟩ := authed
  rw [Dev.authIn, Dev.vendorIn_of_stands stands formed, if_neg (not_not_intro provisioned)]
  exact if_pos ⟨good, tagOk⟩

/-- One that lantern 15 serves acts (Table 14.4). -/
theorem Dev.litIn_of_lit {d : Dev} {a : SbReq} (lit : d.lit a) (code : Nat) (act : Dev → Dev) :
    d.litIn code a act = act (d.opened a) := by
  obtain ⟨authed, serves⟩ := lit
  rw [Dev.litIn, Dev.authIn_of_authed authed]
  exact if_neg (not_not_intro serves)

/-- One whose sender has authority over the set-up acts (R417). -/
theorem Dev.ruledIn_of_ruled {d : Dev} {a : SbReq} (ruled : d.ruled a) (code : Nat) (act : Dev → Dev) :
    d.ruledIn code a act = act (d.opened a) := by
  obtain ⟨lit, authority⟩ := ruled
  rw [Dev.ruledIn, Dev.litIn_of_lit lit]
  exact if_neg authority

section
variable {s : State} {t : Nat} {d x : Dev} {a : SbReq} (now : s.dev.tick t = d) (code : Nat) {act : Dev → Dev}
include now

theorem State.run_vendorIn (stands : d.stands a.pec) (formed : a.malformed = false) (comes : act d.heard = x) :
    s.run t (fun d => d.vendorIn code a act) = .next { s with dev := x } :=
  State.run_to now ((Dev.vendorIn_of_stands stands formed code act).trans comes)

theorem State.run_authIn (authed : d.authed a) (comes : act (d.opened a) = x) :
    s.run t (fun d => d.authIn code a act) = .next { s with dev := x } :=
  State.run_to now ((Dev.authIn_of_authed authed code act).trans comes)

theorem State.run_litIn (lit : d.lit a) (comes : act (d.opened a) = x) :
    s.run t (fun d => d.litIn code a act) = .next { s with dev := x } :=
  State.run_to now ((Dev.litIn_of_lit lit code act).trans comes)

theorem State.run_ruledIn (ruled : d.ruled a) (comes : act (d.opened a) = x) :
    s.run t (fun d => d.ruledIn code a act) = .next { s with dev := x } :=
  State.run_to now ((Dev.ruledIn_of_ruled ruled code act).trans comes)

end

/-! ### Commands of the side-band in lantern 15's order -/

/-- A command that may not start yet waits (R390). -/
theorem Dev.startCmd_of_waiting {d : Dev} {id op : Nat} {fits : Cmd → Bool} {c : Cmd} (present : d.cmd id = some c)
    (waits : d.startable c = false) (act : Dev → Cmd → Dev) : d.startCmd id op fits act = d := by
  simp only [Dev.startCmd, present]
  exact if_pos (.inr (.inr (Bool.eq_false_iff.mp waits)))

/-- What a side-band command comes to: as the newest of the order it starts where its turn has come, and else waits where it may not
start (R432). -/
def Dev.SideStarts (u : Dev) (c : Cmd) (act : Dev → Cmd → Dev) (x : Dev) : Prop :=
  (u.turnOf c.id c.op anyCmd c → x = act (u.begun c.id c) (u.now_ c)) ∧
  (u.cmd c.id = some c → u.startable c = false → x = u)

/-- A side-band command enters the order and starts in its turn (R432). -/
theorem Dev.sideCmd_starts (e : Dev) (code inst op : Nat) (body : List (BitVec 64)) (act : Dev → Cmd → Dev) :
    (e.withSide (e.sideOf code inst op body)).SideStarts (e.sideOf code inst op body) act (e.sideCmd code inst op body act) :=
  ⟨fun turn => Dev.startCmd_of_turn turn act, fun present waits => Dev.startCmd_of_waiting present waits act⟩

/-- Where an outcome is the device of such a command, the two cases are cases of the outcome. -/
theorem State.next_of_sideStarts {s : State} {o : Host.Outcome State Fault Refusal} {u x : Dev} {c : Cmd} {act : Dev → Cmd → Dev}
    (ran : o = .next { s with dev := x }) (starts : u.SideStarts c act x) :
    (u.turnOf c.id c.op anyCmd c → o = .next { s with dev := act (u.begun c.id c) (u.now_ c) }) ∧
    (u.cmd c.id = some c → u.startable c = false → o = .next { s with dev := u }) :=
  ⟨fun turn => State.next_of_eq ran (starts.1 turn), fun present waits => State.next_of_eq ran (starts.2 present waits)⟩

/-! ### What each command does -/

/-- The thaw of a Frozen channel that does not thaw yet begins (R324). -/
theorem Dev.thaw_of_frozen {d : Dev} {ch : Nat} (frozen : d.chanState ch = chFrozen) (idle : d.on (MDW_FRZ.THAW_BUSY ch) = false) :
    d.thaw ch = ((d.fset (MDW_FRZ.THAW_BUSY ch) 1).fset (MDW_STAT.SR ch) 0, 0) := by
  rw [Dev.thaw, if_neg (not_not_intro frozen), if_neg (Bool.eq_false_iff.mp idle)]

/-- Settles O57: the request is taken, and its own condition lets it act. The code and payload with which the commands that enter
the order answer are the model's choice (log entry 59). -/
theorem vendorCommandsAct : Obligations.VendorCommandsAct := by
  intro t off count first op bay kind index ch value when time a b s
  generalize now : s.dev.tick t = d
  refine ⟨fun stands formed => ⟨fun aligned some few => ⟨?reg, ?regDark⟩, ?challenge⟩, fun authed => ⟨?fetch, ?power⟩,
    fun lit => ⟨?clear, ?declare, ?write, ?discard, ?evacuate, ?confirm, ?blob⟩, fun ruled => ⟨?thaw, ?openCfx, ?commit⟩⟩
  case reg =>
    intro may
    change execGetReg t a off count s = _
    refine State.run_vendorIn now 1 stands formed ((if_neg (by omega)).trans (if_neg ?_))
    rintro ⟨dark, other⟩
    obtain ⟨o, mem, outside⟩ := List.any_eq_true.mp other
    rcases may with serves | own
    · exact dark serves
    · exact absurd (own o mem) (by simpa using outside)
  case regDark =>
    rintro dark ⟨o, mem, outside⟩
    change execGetReg t a off count s = _
    refine State.run_vendorIn now 1 stands formed ((if_neg (by omega)).trans (if_pos ?_))
    exact ⟨Bool.eq_false_iff.mp dark, List.any_eq_true.mpr ⟨o, mem, by rw [outside]; rfl⟩⟩
  case challenge =>
    change execGetChallenge t a s = _
    exact State.run_vendorIn now 2 stands formed rfl
  case fetch =>
    intro some few
    change execSbLogFetch t a first count s = _
    exact State.run_authIn now 3 authed (if_neg (by omega))
  case power =>
    intro low high may
    change execPower t a op bay s = _
    exact State.run_authIn now vcPower authed ((if_neg (by omega)).trans (if_neg (by tauto)))
  case clear =>
    change execSbLogClear t a s = _
    exact State.run_litIn now 4 lit rfl
  case declare =>
    change execSbDeclare t a s = _
    exact State.run_litIn now 6 lit rfl
  case write =>
    intro aligned noHold holds
    change execSbCfgWrite t a off value s = _
    refine State.run_litIn now 10 lit ?_
    rw [if_neg (not_not_intro aligned), if_neg (by simp [Dev.inHold, noHold]), if_pos holds]
    rfl
  case discard =>
    intro noHold holds
    change execSbCfgDiscard t a s = _
    refine State.run_litIn now 12 lit ?_
    rw [if_neg (by simp [Dev.inHold, noHold]), if_pos (.inl holds)]
    rfl
  case evacuate => exact State.next_of_sideStarts (State.run_litIn now vcEvacuate lit rfl) (Dev.sideCmd_starts _ _ _ _ _ _)
  case confirm => exact State.next_of_sideStarts (State.run_litIn now vcConfirm lit rfl) (Dev.sideCmd_starts _ _ _ _ _ _)
  case blob => exact State.next_of_sideStarts (State.run_litIn now vcBlob lit rfl) (Dev.sideCmd_starts _ _ _ _ _ _)
  case thaw =>
    intro known frozen idle
    have thawed := Dev.thaw_of_frozen frozen idle
    change execSbThaw t a ch s = _
    refine State.run_ruledIn now 8 ruled ?_
    rw [if_neg (Nat.not_le.mpr known), thawed, if_pos rfl, Dev.writeThaw, thawed, if_pos rfl]
    rfl
  case openCfx =>
    intro noHold closed
    change execSbCfgOpen t a s = _
    refine State.run_ruledIn now 9 ruled ?_
    rw [if_neg (by simp [Dev.inHold, noHold]), if_neg (not_not_intro closed)]
    rfl
  case commit => exact State.next_of_sideStarts (State.run_ruledIn now vcCommit ruled rfl) (Dev.sideCmd_starts _ _ _ _ _ _)

end Sys2Proof.Machine
end

section
/-! Proofs about fabric messages: segments, reassembly, retention and message indices (R274 to R277). -/

namespace Sys2Proof.Machine

/-! ### A segment for this device -/

section
variable {d : Dev} {h : FabHdr} {mtype msglen off : Nat} {data : List Byte}

/-- A segment of a message that has left the device is stale (R277). -/
theorem Dev.takeSeg_of_tomb (left : d.fab.tombs.any (fun x => x.src == h.src && x.msgid == h.msgid) = true) :
    d.takeSeg h mtype msglen off data = d.finc FAB_CNT.STALE 1 := if_pos left

/-- A segment whose index has no open context begins one, where its range fits (R275). -/
theorem Dev.takeSeg_of_first (noTomb : d.fab.tombs.any (fun x => x.src == h.src && x.msgid == h.msgid) = false)
    (first : d.fab.ctxs.find? (fun x => x.src == h.src && midxOf x.msgid == midxOf h.msgid) = none)
    (fits : off + data.length ≤ msglen) :
    d.takeSeg h mtype msglen off data = d.fillCtx
      { src := h.src, msgid := h.msgid, mtype := mtype, len := msglen, got := [], bytes := [], lastAt := d.clk, asked := 0,
        stamp := h.stamp } off data := by
  simp only [Dev.takeSeg, first, noTomb, Option.any_none, Option.getD_none, Bool.false_or, decide_eq_true_eq,
    if_neg Bool.false_ne_true, if_neg (Nat.not_lt.mpr fits)]

variable {b : Ctx} (noTomb : d.fab.tombs.any (fun x => x.src == h.src && x.msgid == h.msgid) = false)
  (opened : d.fab.ctxs.find? (fun x => x.src == h.src && midxOf x.msgid == midxOf h.msgid) = some b)
include noTomb opened

/-- A segment whose index has an open context is judged by it (R275, R277). -/
theorem Dev.takeSeg_of_open : d.takeSeg h mtype msglen off data =
    if b.msgid ≠ h.msgid then d.finc FAB_CNT.STALE 1
    else if b.len ≠ msglen ∨ msglen < off + data.length then d.finc FAB_CNT.HOP_DROP 1
    else d.fillCtx b off data := by
  simp only [Dev.takeSeg, opened, noTomb, Option.any_some, Option.getD_some, Bool.or_eq_true, bne_iff_ne, decide_eq_true_eq,
    if_neg Bool.false_ne_true]

end

section
variable {s : State} {t : Nat} {d : Dev} (now : s.dev.tick t = d)
include now

/-! ### What each command does -/

/-- A segment next in its link's order is taken, goes on with one hop less, or has no hop left (R274). -/
theorem exec_seg_of_next {h : FabHdr} {mtype msglen off : Nat} {data : List Byte} (next : d.fabNext h false) :
    let e := d.fabTook h
    let frame : TxFrame := { ftype := frSeg, mtype := mtype, msgid := h.msgid, stamp := h.stamp, src := h.src, vc := h.vc,
                             msglen := msglen, off := off, data := data }
    let comes := if h.dst = e.selfId then e.takeSeg h mtype msglen off data
      else if h.hops = 0 then e.finc FAB_CNT.HOP_DROP 1
      else e.forwardTransit { link := h.link, since := e.clk, dst := h.dst, hops := h.hops - 1, frame := frame }
    exec (.seg t h mtype msglen off data) s = .next { s with dev := comes } := by
  change execSeg t h mtype msglen off data s = _
  exact State.run_fabNext now next rfl

/-- A context that stands waits for its time, asks again, or ends after eight requests (R276). -/
theorem exec_reassemblyTimer_of_open {src msgid : Nat} {c : Ctx}
    (opened : d.fab.ctxs.find? (fun c => c.src == src && c.msgid == msgid) = some c) :
    let again (x : Ctx) : Ctx := if x.src = src ∧ x.msgid = msgid then { x with asked := x.asked + 1 } else x
    let asks : Dev := { d with fab := { d.fab with ctxs := d.fab.ctxs.map again } }
    let wanted := ((missing c.got 0 c.len).take 8).flatMap (fun r => [r.1, r.2])
    let comes := if d.clk < c.lastAt + 50000 * (c.asked + 1) then d
      else if 8 ≤ c.asked then (d.endCtx src msgid).finc FAB_CNT.HOP_DROP 1
      else (asks.finc FAB_CNT.SEG_REQ 1).fabSend src segReq (msgid :: wanted)
    exec (.reassemblyTimer t src msgid) s = .next { s with dev := comes } := by
  change execReassemblyTimer t src msgid s = _
  exact State.run_to now (by simp only [opened])

end

/-- Settles O28: a segment is taken, goes on or is dropped; each timer is due or early; what a segment for this device does is judged
by its tombstone and its context. -/
theorem fabricMessagesRun : Obligations.FabricMessagesRun := by
  intro t link src msgid midx mtype msglen offset h data ranges s
  generalize now : s.dev.tick t = d
  refine ⟨?seg, ⟨?noneLate, ?late⟩, ?reassembly, ?segReq, ?tombstone, ?quarantineEnd, ?quarantined, ?retention, ?taken⟩
  case seg =>
    intro next
    have heard := exec_seg_of_next now next (mtype := mtype) (msglen := msglen) (off := offset) (data := data)
    exact ⟨fun here => State.next_of_eq heard (if_pos here),
      fun away spent => State.next_of_eq heard ((if_neg away).trans (if_pos spent)),
      fun away hops => State.next_of_eq heard ((if_neg away).trans (if_neg hops))⟩
  case noneLate =>
    intro none
    change execTransitTimeout t link s = _
    exact State.run_to now (if_pos (List.length_eq_zero_iff.mpr none))
  case late =>
    intro some
    change execTransitTimeout t link s = _
    exact State.run_to now (if_neg (mt List.length_eq_zero_iff.mp some))
  case reassembly =>
    intro c opened
    have judged := exec_reassemblyTimer_of_open now opened
    exact ⟨fun early => State.next_of_eq judged (if_pos early),
      fun due spent => State.next_of_eq judged ((if_neg (Nat.not_lt.mpr due)).trans (if_pos spent)),
      fun due more => State.next_of_eq judged ((if_neg (Nat.not_lt.mpr due)).trans (if_neg (Nat.not_le.mpr more)))⟩
  case segReq =>
    intro x r kept route path
    change execSegReq t src msgid ranges s = _
    refine State.run_to now ?_
    simp only [kept, route]
    exact if_neg (mt List.isEmpty_iff.mp path)
  case tombstone =>
    change execTombstoneExpiry t src msgid s = _
    exact State.run_to now rfl
  case quarantineEnd =>
    intro due
    change execMidxQuarantineEnd t midx s = _
    exact State.run_of_due now due
  case quarantined =>
    intro early
    change execMidxQuarantineEnd t midx s = _
    exact State.run_of_early now (Bool.eq_false_iff.mp early)
  case retention =>
    change execMessageRetentionExpiry t midx s = _
    exact State.run_to now rfl
  case taken =>
    intro c b
    refine ⟨Dev.takeSeg_of_tomb, fun noTomb opened => ?_, Dev.takeSeg_of_first⟩
    have judged := Dev.takeSeg_of_open noTomb opened (mtype := mtype) (msglen := msglen) (off := offset) (data := data)
    exact ⟨fun other => judged.trans (if_pos other),
      fun same misfit => judged.trans ((if_neg (not_not_intro same)).trans (if_pos misfit)),
      fun same len fits => judged.trans ((if_neg (not_not_intro same)).trans
        (if_neg (not_or_intro (not_not_intro len) (Nat.not_lt.mpr fits))))⟩

end Sys2Proof.Machine
end

section
/-! Proofs about forwarded requests and writes, their answers and verdicts, and their timers (R143, R281 to R289). -/

namespace Sys2Proof.Machine

/-! ### The home's verdict on an entry -/

/-- The device with one entry of its journal changed. -/
def Dev.withFj (d : Dev) (x : Fj) (g : Fj → Fj) : Dev :=
  { d with fab := { d.fab with fj := d.fab.fj.map (fun (y : Fj) => if y.same x.origin x.home x.jseq then g y else y) } }

/-- The device with one entry of its journal released. -/
def Dev.withoutFj (d : Dev) (x : Fj) : Dev :=
  { d with fab := { d.fab with fj := d.fab.fj.filter (fun (y : Fj) => !y.same x.origin x.home x.jseq) } }

section
variable {d : Dev} {x : Fj} {a : FwdVerdict}

/-- OK releases the entry where the horizon has passed its epoch, and else makes it Applied (Table 8.5). -/
theorem Dev.takeVerdict_of_ok (ok : a.status = .ok) : d.takeVerdict x a =
    if a.homeEpoch ≤ d.f DUR_HORIZON.HORIZON then d.withoutFj x
    else d.withFj x (fun y => { y with state := .applied, homeEpoch := a.homeEpoch }) := by
  simp only [Dev.takeVerdict, ok]
  rfl

/-- RETRY_AFTER keeps the entry in Sent under its hint (Table 8.5). -/
theorem Dev.takeVerdict_of_retryAfter (retry : a.status = .retryAfter) :
    d.takeVerdict x a = d.withFj x (fun y => { y with hint := a.arg, sentAt := d.clk }) := by
  simp only [Dev.takeVerdict, retry]
  rfl

/-- REDIRECT moves the entry to the new primary (Table 8.5). -/
theorem Dev.takeVerdict_of_redirect (moved : a.status = .redirect) : d.takeVerdict x a = d.fjMove x a.other := by
  simp only [Dev.takeVerdict, moved]

/-- Any other verdict fails the entry with its status (Table 8.5). -/
theorem Dev.takeVerdict_of_other (notOk : a.status ≠ .ok) (noRetry : a.status ≠ .retryAfter) (stays : a.status ≠ .redirect) :
    d.takeVerdict x a = d.fjFail x a.status.code := by
  unfold Dev.takeVerdict
  split
  next ok => exact absurd ok notOk
  next moved => exact absurd moved stays
  next retry => exact absurd retry noRetry
  next => rfl

end

section
variable {s : State} {t : Nat} {d : Dev} (now : s.dev.tick t = d)
include now

/-! ### Answers -/

/-- An answer whose tag is live frees the request kept and gives the operation its part or its answer (R284). -/
theorem exec_fwdResp_of_live {src msgid : Nat} {r : FwdAnswer} {x : FwdOut} {o : Op}
    (sent : d.fab.fwd.find? (fun x => x.opId == r.tag && x.part == r.part && x.home == src) = some x)
    (live : d.op r.tag = some o) :
    let e := d.freeMsg (fun m => m.mtype == fwdReq && m.dst == src && m.args.getD 6 0 == r.tag)
    exec (.fwdResp t src msgid r) s =
      .next { s with dev := (if o.kind = .read then e.takePart o x r else e.takeAtomic o x r).pump } := by
  change execFwdResp t src msgid r s = _
  exact State.run_to now (by simp only [sent, live])

/-- An answer whose tag is stale is dropped and counted (R143). -/
theorem exec_fwdResp_of_stale {src msgid : Nat} {r : FwdAnswer} (stale : d.op r.tag = none) :
    exec (.fwdResp t src msgid r) s = .next { s with dev := d.finc HPT_DROP_CNT.TAG_STALE 1 } := by
  change execFwdResp t src msgid r s = _
  refine State.run_to now ?_
  simp only [stale]
  split
  next absent => exact absurd absent (Option.some_ne_none _).symm
  next => rfl

/-- A verdict on an entry that is Sent or Applied frees the write kept, and a Sent entry takes it (R287, R288). -/
theorem exec_fwdAck_of_found {src msgid : Nat} {a : FwdVerdict} {x : Fj}
    (found : d.fab.fj.find? (fun f => f.same a.origin src a.jseq && (f.state == .sent || f.state == .applied)) = some x) :
    let e := d.freeMsg (fun m => m.mtype == fwdWrite && m.dst == src && m.args.getD 4 0 == a.jseq && m.args.getD 5 0 == a.origin)
    exec (.fwdAck t src msgid a) s =
      .next { s with dev := (if x.state = .sent then e.takeVerdict x a else e).fjWindow.pump } := by
  change execFwdAck t src msgid a s = _
  exact State.run_to now (by simp only [found])

/-! ### Timers -/

/-- An atomic forwarded 1 ms ago and unanswered is answered RETRY_AFTER in doubt (R284). -/
theorem exec_forwardAtomicTimeout_of_late {op : Nat} {o : Op} (live : d.op op = some o)
    (atomic : o.kind = .cmpSwap ∨ o.kind = .fetchAdd) (forwarded : o.phase = .forwarded)
    (late : d.fab.fwd.any (fun x => x.opId == op && decide (x.sentAt + 1000000 ≤ d.clk)) = true) :
    exec (.forwardAtomicTimeout t op) s = .next { s with
      dev := (d.answer o { st := .retryAfter, us := d.deadlineUs o.rkey o.kind, inDoubt := true }).pump } := by
  change execForwardAtomicTimeout t op s = _
  refine State.run_to now ?_
  simp only [live]
  exact if_pos ⟨atomic, forwarded, late⟩

/-- A Sent entry is sent again after its hint (R288). -/
theorem exec_fjResendTimer_of_sent {origin home jseq : Nat} {x : Fj}
    (found : d.fab.fj.find? (fun f => f.same origin home jseq && f.state == .sent) = some x) :
    exec (.fjResendTimer t origin home jseq) s =
      .next { s with dev := if x.sentAt + x.hint * 1000 ≤ d.clk then d.fjSend x else d } := by
  change execFjResendTimer t origin home jseq s = _
  exact State.run_to now (by simp only [found])

/-- A Posted or Sent entry fails at its limit with status 03h (R288). -/
theorem exec_fjLimitExpiry_of_unapplied {origin home jseq : Nat} {x : Fj}
    (found : d.fab.fj.find? (fun f => f.same origin home jseq && (f.state == .posted || f.state == .sent)) = some x) :
    let due := x.stamp + d.f FAB_FWD_CTL.FJ_LIMIT_MS * 1000000 ≤ d.now
    exec (.fjLimitExpiry t origin home jseq) s = .next { s with dev := if due then (d.fjFail x 3).fjWindow.pump else d } := by
  change execFjLimitExpiry t origin home jseq s = _
  exact State.run_to now (by simp only [found])

end

/-- Settles O29: a message is taken or has no effect, its answer is live or stale, its verdict is one of four, and its timer is due
or early. -/
theorem forwardingRuns : Obligations.ForwardingRuns := by
  intro t src msgid op home origin jseq f cmp swp data r a s
  generalize now : s.dev.tick t = d
  refine ⟨?taken, ?untaken, ?answer, fun stale => exec_fwdResp_of_stale now stale, ?noAtomic,
    fun o live atomic forwarded late => exec_forwardAtomicTimeout_of_late now live atomic forwarded late, ?ack, ?verdict, ?resend,
    ?limit⟩
  case taken =>
    intro valid noSave
    have takes : ¬ (¬ d.on FAB_ID.VALID = true ∨ d.dur.saving = true) :=
      not_or_intro (not_not_intro valid) (Bool.eq_false_iff.mp noSave)
    change execFwdReq t src msgid f cmp swp s = _ ∧ execFwdWrite t src msgid f data s = _
    exact ⟨State.run_of_free now takes, State.run_of_free now takes⟩
  case untaken =>
    intro barred
    have bars : ¬ d.on FAB_ID.VALID = true ∨ d.dur.saving = true := barred.imp_left Bool.eq_false_iff.mp
    change execFwdReq t src msgid f cmp swp s = _ ∧ execFwdWrite t src msgid f data s = _
    exact ⟨State.run_of_barred now bars, State.run_of_barred now bars⟩
  case answer =>
    intro x o sent live
    have answered := exec_fwdResp_of_live now sent live (msgid := msgid)
    exact ⟨fun read => State.next_of_eq answered (congrArg Dev.pump (if_pos read)),
      fun other => State.next_of_eq answered (congrArg Dev.pump (if_neg other))⟩
  case noAtomic =>
    intro none
    change execForwardAtomicTimeout t op s = _
    exact State.run_to now (by simp only [none])
  case ack =>
    intro x found
    have judged := exec_fwdAck_of_found now found (msgid := msgid)
    exact ⟨fun sent => State.next_of_eq judged (congrArg (fun e : Dev => e.fjWindow.pump) (if_pos sent)),
      fun applied => State.next_of_eq judged (congrArg (fun e : Dev => e.fjWindow.pump) (if_neg applied))⟩
  case verdict =>
    intro e x
    exact ⟨fun ok ahead => (Dev.takeVerdict_of_ok ok).trans (if_neg (Nat.not_le.mpr ahead)),
      fun ok passed => (Dev.takeVerdict_of_ok ok).trans (if_pos passed),
      Dev.takeVerdict_of_retryAfter, Dev.takeVerdict_of_redirect, Dev.takeVerdict_of_other⟩
  case resend =>
    intro x found
    have judged := exec_fjResendTimer_of_sent now found
    exact ⟨fun due => State.next_of_eq judged (if_pos due), fun early => State.next_of_eq judged (if_neg (Nat.not_le.mpr early))⟩
  case limit =>
    intro x found
    have judged := exec_fjLimitExpiry_of_unapplied now found
    exact ⟨fun due => State.next_of_eq judged (if_pos due), fun early => State.next_of_eq judged (if_neg (Nat.not_le.mpr early))⟩

end Sys2Proof.Machine
end

section
/-! Proofs about the meadow map (R300, R301): no two meadow bytes lie at one channel address. -/

namespace Sys2Proof.Machine

/-! ### The interleave of one set -/

/-- A block number and an offset below the block's size are told apart by the address they form. -/
theorem blockAddr_inj {g p q m n : Nat} (hm : m < g) (hn : n < g) (same : p * g + m = q * g + n) : p = q ∧ m = n := by
  have pos : 0 < g := Nat.zero_lt_of_lt hm
  have left : (p * g + m) / g = p ∧ (p * g + m) % g = m :=
    (Nat.div_mod_unique pos).mpr ⟨by rw [Nat.mul_comm g p, Nat.add_comm], hm⟩
  have right : (q * g + n) / g = q ∧ (q * g + n) % g = n :=
    (Nat.div_mod_unique pos).mpr ⟨by rw [Nat.mul_comm g q, Nat.add_comm], hn⟩
  rw [same] at left
  exact ⟨left.1.symm.trans right.1, left.2.symm.trans right.2⟩

/-- Bytes that set `s` lays on one member before it goes to the next (R301). -/
def Dev.grain (d : Dev) (s : Nat) : Nat := 256 * 2 ^ d.f (MDW_CFG.GRAIN ((d.setMembers s).headD 0))

/-- Channel and channel address of byte `a` of set `s` (R301). -/
def Dev.placeIn (d : Dev) (s a : Nat) : Nat × Nat :=
  ((d.setMembers s).getD (a / d.grain s % (d.setMembers s).length) 0,
    a / d.grain s / (d.setMembers s).length * d.grain s + a % d.grain s)

/-- The sets are laid end to end: an address lies in the first, or further on in the others (R301). -/
theorem Dev.locateIn_cons (d : Dev) (a s : Nat) (l : List Nat) :
    d.locateIn a (s :: l) = if a < d.portion s then some (d.placeIn s a) else d.locateIn (a - d.portion s) l := rfl

theorem Dev.grain_pos (d : Dev) (s : Nat) : 0 < d.grain s := Nat.mul_pos (by decide) (Nat.two_pow_pos _)

theorem Dev.setMembers_nodup (d : Dev) (s : Nat) : (d.setMembers s).Nodup := List.nodup_range.filter _

/-- A set that has bytes has members. -/
theorem Dev.setMembers_length_pos {d : Dev} {s a : Nat} (within : a < d.portion s) : 0 < (d.setMembers s).length := by
  unfold Dev.portion at within
  split at within
  next => exact absurd within (Nat.not_lt_zero a)
  next members => rw [members]; exact Nat.succ_pos _

/-- A byte of a set lies on one of the set's members. -/
theorem Dev.placeIn_member {d : Dev} {s a : Nat} (within : a < d.portion s) : d.f (MDW_CFG.SET (d.placeIn s a).1) = s := by
  have turn := Nat.mod_lt (a / d.grain s) (d.setMembers_length_pos within)
  have member : (d.placeIn s a).1 ∈ d.setMembers s := by
    rw [Dev.placeIn, List.getD_eq_getElem _ _ turn]
    exact List.getElem_mem turn
  exact beq_iff_eq.mp (List.mem_filter.mp member).2

/-- The interleave of a set keeps its bytes apart: the member gives the unit's place in its row, the channel address its row and the byte
in it. -/
theorem Dev.placeIn_inj {d : Dev} {s a b : Nat} (within : a < d.portion s) (same : d.placeIn s a = d.placeIn s b) : a = b := by
  have members := d.setMembers_length_pos within
  have turnA := Nat.mod_lt (a / d.grain s) members
  have turnB := Nat.mod_lt (b / d.grain s) members
  obtain ⟨member, addr⟩ := Prod.mk.inj same
  rw [List.getD_eq_getElem _ _ turnA, List.getD_eq_getElem _ _ turnB, (d.setMembers_nodup s).getElem_inj_iff] at member
  obtain ⟨row, byte⟩ := blockAddr_inj (Nat.mod_lt _ (d.grain_pos s)) (Nat.mod_lt _ (d.grain_pos s)) addr
  exact Nat.ext_div_mod (Nat.ext_div_mod row member) byte

/-! ### The sets laid end to end -/

/-- An address that resolves lies on a member of one of the sets searched. -/
theorem Dev.locateIn_set_mem {d : Dev} {l : List Nat} {a : Nat} {x : Nat × Nat} (found : d.locateIn a l = some x) :
    d.f (MDW_CFG.SET x.1) ∈ l := by
  induction l generalizing a with
  | nil => exact absurd found (Option.some_ne_none x).symm
  | cons s l ih =>
    rw [Dev.locateIn_cons] at found
    split at found
    next within =>
      obtain rfl := Option.some.inj found
      exact List.mem_cons.mpr (.inl (d.placeIn_member within))
    next => exact List.mem_cons_of_mem s (ih found)

/-- Sets laid end to end keep their bytes apart: a channel is a member of one set alone. -/
theorem Dev.locateIn_inj {d : Dev} {l : List Nat} (distinct : l.Nodup) {a b : Nat} {x : Nat × Nat}
    (foundA : d.locateIn a l = some x) (foundB : d.locateIn b l = some x) : a = b := by
  induction l generalizing a b with
  | nil => exact absurd foundA (Option.some_ne_none x).symm
  | cons s l ih =>
    obtain ⟨apart, rest⟩ := List.nodup_cons.mp distinct
    have alone {i j : Nat} (within : i < d.portion s) (place : some (d.placeIn s i) = some x) :
        ¬ d.locateIn j l = some x := fun found => by
      have later := d.locateIn_set_mem found
      rw [← Option.some.inj place, d.placeIn_member within] at later
      exact apart later
    rw [Dev.locateIn_cons] at foundA foundB
    split at foundA <;> split at foundB
    next within _ => exact d.placeIn_inj within (Option.some.inj (foundA.trans foundB.symm))
    next within _ => exact absurd foundB (alone within foundA)
    next _ within => exact absurd foundA (alone within foundB)
    next beyondA beyondB =>
      have further := ih rest foundA foundB
      omega

/-- Settles O60: within a set by its interleave, and across the sets because a channel is a member of one set alone. -/
theorem meadowPlacesAreDistinct : Obligations.MeadowPlacesAreDistinct :=
  fun _ _ _ _ foundA foundB => Dev.locateIn_inj List.nodup_range foundA foundB

end Sys2Proof.Machine
end

section
/-! Proofs about the training, calibration, temperature, refresh, evacuation and stripe of DRAM channels (R299 to R312, R330, R331,
R459). -/

namespace Sys2Proof.Machine

/-- A channel's entry after a change of one (Table 9.2). -/
theorem Dev.chan_setChan (d : Dev) (n m : Nat) (g : Chan → Chan) :
    (d.setChan n g).chan m = if n = m then g (d.chan n) else d.chan m := lookD_change _ _ _ _ _ _

@[simp] theorem Dev.chan_setChan_self (d : Dev) (n : Nat) (g : Chan → Chan) : (d.setChan n g).chan n = g (d.chan n) := by
  rw [Dev.chan_setChan, if_pos rfl]

@[simp] theorem Dev.f_setChan (d : Dev) (n : Nat) (g : Chan → Chan) (x : Fld) : (d.setChan n g).f x = d.f x := rfl

@[simp] theorem Dev.chan_fset (d : Dev) (x : Fld) (v n : Nat) : (d.fset x v).chan n = d.chan n := rfl

/-- The device whose channel has passed its training: its remap list loaded, the channel Online, its set's plots returned (R307,
R317, R331). -/
def Dev.trainedOnline (d : Dev) (ch : Nat) (r : TrainResult) : Dev :=
  let e := ((d.noteTraining ch r).loadRemap ch r.serials).fset (MDW_STAT.TRAIN ch) (if r.stored then 3 else 2)
  (e.toChanEvent ch chOnline).returnPlots (e.f (MDW_CFG.SET ch))

/-- The device serves already and the stripe does not cover the channel, nor is one being laid (R331). -/
def Dev.missesStripe (d : Dev) (ch : Nat) : Bool := d.core.transport && !d.mdw.stripe.contains ch && d.mdw.relay.isNone

/-- The device whose stripe lies over the channels in use (R330). -/
def Dev.stripeLaid (d : Dev) : Dev := { d with mdw := { d.mdw with relay := none, stripe := d.stripeNow } }

section
variable {s : State} {t ch : Nat} {d : Dev} (now : s.dev.tick t = d)
include now

section
variable {r : TrainResult} (training : d.chanState ch = chTraining) (real : ch < 24)
include training real

/-- Training that found no module (R305). -/
theorem exec_channelTrainingDone_of_absent (absent : r.found = false) :
    exec (.channelTrainingDone t ch r) s = .next { s with dev := (d.fset (MDW_STAT.TRAIN ch) 0).toChanEvent ch chAbsent } := by
  change execChannelTrainingDone t ch r s = _
  exact State.run_to now ((if_neg (not_or_intro (not_not_intro training) (Nat.not_le.mpr real))).trans
    (if_pos (Bool.eq_false_iff.mp absent)))

/-- Training that found a module is judged by what it found (R299, R305). -/
theorem exec_channelTrainingDone_of_found (found : r.found = true) :
    let e := d.noteTraining ch r
    let on := d.trainedOnline ch r
    exec (.channelTrainingDone t ch r) s = .next { s with
      dev := if r.type = 3 ∨ ¬ r.pass ∨ ¬ e.fitsSet ch r then (e.fset (MDW_STAT.TRAIN ch) 4).toChanEvent ch chFailed
        else (if on.missesStripe ch then { on with mdw := { on.mdw with relay := some ch } } else on).pump } := by
  change execChannelTrainingDone t ch r s = _
  exact State.run_to now ((if_neg (not_or_intro (not_not_intro training) (Nat.not_le.mpr real))).trans
    (if_neg (not_not_intro found)))

/-- A channel that passes is Online, and the stripe is laid over it where it has to be (R305, R331). -/
theorem exec_channelTrainingDone_of_fit (found : r.found = true) (known : r.type ≠ 3) (pass : r.pass = true)
    (fits : (d.noteTraining ch r).fitsSet ch r = true) :
    let on := d.trainedOnline ch r
    exec (.channelTrainingDone t ch r) s = .next { s with
      dev := (if on.missesStripe ch then { on with mdw := { on.mdw with relay := some ch } } else on).pump } :=
  State.next_of_eq (exec_channelTrainingDone_of_found now training real found)
    (if_neg (not_or_intro known (not_or_intro (not_not_intro pass) (not_not_intro fits))))

end

/-- The poll of a channel that has a module shows its temperature and sets its refresh interval and its throttle (R310, R459). -/
theorem exec_dimmTempPoll_of_present {temp : Nat} (present : d.chanState ch ≠ chAbsent) (powered : d.chanState ch ≠ chOff) :
    exec (.dimmTempPoll t ch temp) s = .next { s with dev := (d.fset (MDW_STAT.DIMM_TEMP ch) temp).setChan ch (fun c =>
      { c with trefi := if temp ≤ 85 then 3900 else 1950, limited := decide (d.f THM_DIMM.DIMM_THR ≤ temp) }) } := by
  change execDimmTempPoll t ch temp s = _
  exact State.run_of_free now (not_or_intro present powered)

/-- The stripe is laid, and the channel it was laid for is Empty where it drains (R330, R331). -/
theorem exec_stripeRelayDone_of_relay {c : Nat} (relays : d.mdw.relay = some c) :
    exec (.stripeRelayDone t) s = .next { s with
      dev := if d.stripeLaid.chanState c = chDraining then d.stripeLaid.toChanEvent c chEmpty else d.stripeLaid } := by
  change execStripeRelayDone t s = _
  refine State.run_to now ?_
  simp only [relays]
  rfl

end

/-- Settles O31: training is judged by what it found, and each timer, count and completion acts under its guard. -/
theorem channelsTrainAndTick : Obligations.ChannelsTrainAndTick := by
  intro t ch temp bank r s
  generalize now : s.dev.tick t = d
  refine ⟨fun training real => ⟨exec_channelTrainingDone_of_absent now training real, ?misfit, ?passes⟩, ?zq, ?dqs, ?polled, ?refresh,
    ?rfm, ?noRfm, ?evacuated, ?relaid⟩
  case misfit =>
    intro found misfit
    have judged := exec_channelTrainingDone_of_found now training real found
    exact State.next_of_eq judged (if_pos (misfit.imp_right (Or.imp Bool.eq_false_iff.mp Bool.eq_false_iff.mp)))
  case passes =>
    intro found known pass fits
    have online := exec_channelTrainingDone_of_fit now training real found known pass fits
    exact ⟨fun late => State.next_of_eq online (congrArg Dev.pump (if_pos late)),
      fun covered => State.next_of_eq online (congrArg Dev.pump (if_neg (Bool.eq_false_iff.mp covered)))⟩
  case zq =>
    intro online due
    change execZqCalibrationTimer t ch s = _
    exact State.run_of_due now ⟨online, due⟩
  case dqs =>
    intro online due
    change execDqsTrackingTimer t ch s = _
    exact State.run_of_due now ⟨online, due⟩
  case polled =>
    intro present powered
    refine ⟨_, exec_dimmTempPoll_of_present now present powered, ?_, fun cool => ?_, fun hot => ?_, ?_, fun k other => ?_, rfl⟩
    · rw [Dev.f_setChan, Dev.f_fset_self]
    · rw [Dev.chan_setChan_self]
      exact if_pos cool
    · rw [Dev.chan_setChan_self]
      exact if_neg (Nat.not_le.mpr hot)
    · rw [Dev.chan_setChan_self]
      exact decide_eq_true_iff
    · rw [Dev.chan_setChan, if_neg (Ne.symm other), Dev.chan_fset]
  case refresh =>
    intro inUse
    change execRefreshDue t ch s = _
    exact State.run_of_due now inUse
  case rfm =>
    intro counts inUse
    change execRfmCount t ch bank s = _
    exact State.run_of_due now ⟨counts, inUse⟩
  case noRfm =>
    intro off
    change execRfmCount t ch bank s = _
    exact State.run_of_early now fun ⟨counts, _⟩ => counts off
  case evacuated =>
    intro drained noRelay
    change execChannelEvacuationDone t ch s = _
    exact State.run_of_due now ⟨drained, Option.isNone_iff_eq_none.mpr noRelay⟩
  case relaid =>
    intro c relays
    have laid := exec_stripeRelayDone_of_relay now relays
    exact ⟨fun drains => State.next_of_eq laid (if_pos drains), fun stays => State.next_of_eq laid (if_neg stays)⟩

end Sys2Proof.Machine
end

section
/-! Proofs about the freeze and thaw of DRAM channels, their error logs, pattern generators and line checkers (R306, R315 to R333). -/

namespace Sys2Proof.Machine

/-! ### Several fields set one after another -/

section
variable (x : Nat → Fld) (v : Nat → Nat) {l : List Nat}

/-- A field that shares its key with none of the fields set keeps its value. -/
theorem Dev.f_foldl_fset_ne {y : Fld} (apart : ∀ i ∈ l, (x i).key ≠ y.key) (d : Dev) :
    (l.foldl (fun (d : Dev) i => d.fset (x i) (v i)) d).f y = d.f y := by
  induction l generalizing d with
  | nil => rfl
  | cons i l ih =>
    obtain ⟨first, rest⟩ := List.forall_mem_cons.mp apart
    exact (ih rest (d.fset (x i) (v i))).trans (Dev.f_fset_ne d (v i) first)

/-- A field set among others of other keys holds what it was given. -/
theorem Dev.f_foldl_fset_mem (apart : Function.Injective fun i => (x i).key) {i : Nat} (mem : i ∈ l) (d : Dev) :
    (l.foldl (fun (d : Dev) i => d.fset (x i) (v i)) d).f (x i) = v i % 2 ^ (x i).width := by
  induction l generalizing d with
  | nil => exact absurd mem List.not_mem_nil
  | cons j l ih =>
    by_cases later : i ∈ l
    · exact ih later (d.fset (x j) (v j))
    · obtain rfl := (List.mem_cons.mp mem).resolve_right later
      have others : ∀ k ∈ l, (x k).key ≠ (x i).key := fun k among same => later ((apart same : k = i) ▸ among)
      have kept := Dev.f_foldl_fset_ne x v others (d.fset (x i) (v i))
      exact kept.trans (Dev.f_fset_self d (x i) (v i))

/-- Setting fields leaves the rest of the device as it was. -/
theorem Dev.foldl_fset_rest (d : Dev) :
    l.foldl (fun (d : Dev) i => d.fset (x i) (v i)) d =
      { d with regs := (l.foldl (fun (d : Dev) i => d.fset (x i) (v i)) d).regs } := by
  induction l generalizing d with
  | nil => rfl
  | cons i l ih => exact ih (d.fset (x i) (v i))

end

/-! ### Freeze and thaw -/

section
variable {s : State} {t ch : Nat} {d : Dev} (now : s.dev.tick t = d)
include now

section
variable {err : LineErr} {scrub : Bool} {home : Option Nat}

/-- An uncorrectable line freezes its Online channel (R321, R322). -/
theorem exec_channelFreeze_of_online (online : d.chanState err.ch = chOnline) :
    exec (.channelFreeze t err scrub home) s = .next { s with
      dev := (((d.captureUe err).setChan err.ch (fun c => { c with ueLine := err.line, ueHome := home })).freeze err.ch
        (if home.isSome then 3 else if scrub then 2 else 1)) } := by
  change execChannelFreeze t err scrub home s = _
  exact State.run_to now (if_pos online)

/-- A home-table line lost on a channel that drains is rebuilt (R324, R329). -/
theorem exec_channelFreeze_of_home_drains {l : Nat} (draining : d.chanState err.ch = chDraining) :
    exec (.channelFreeze t err scrub (some l)) s = .next { s with dev := (d.rebuildLine l).pump } := by
  have notOnline : d.chanState err.ch ≠ chOnline := by rw [draining]; decide
  change execChannelFreeze t err scrub (some l) s = _
  exact State.run_to now ((if_neg notOnline).trans (if_pos draining))

/-- A plot whose line is lost on a channel that drains is poisoned (R329). -/
theorem exec_channelFreeze_of_plot_drains {i : Nat} (draining : d.chanState err.ch = chDraining)
    (plot : (d.meadowOf err.ch (err.line * 64)).bind (fun a => d.idxOfPlot (a / plotBytes)) = some i) :
    exec (.channelFreeze t err scrub none) s = .next { s with dev := (d.poison i).pump } := by
  have notOnline : d.chanState err.ch ≠ chOnline := by rw [draining]; decide
  change execChannelFreeze t err scrub none s = _
  refine State.run_to now ((if_neg notOnline).trans ((if_pos draining).trans ?_))
  simp only [plot]

/-- On any other channel an uncorrectable line does nothing (R321). -/
theorem exec_channelFreeze_of_idle (notOnline : d.chanState err.ch ≠ chOnline) (stays : d.chanState err.ch ≠ chDraining) :
    exec (.channelFreeze t err scrub home) s = .next { s with dev := d } := by
  change execChannelFreeze t err scrub home s = _
  exact State.run_to now ((if_neg notOnline).trans (if_neg stays))

end

/-- FREEZE freezes an Online channel, and is an illegal sequence elsewhere (R321). -/
theorem exec_freeze_eq :
    exec (.freeze t ch) s = .next { s with dev := if d.chanState ch ≠ chOnline then d.illegal 8 ((MDW_FRZ.FREEZE ch).off / 4)
      else (d.setChan ch (fun c => { c with ueHome := none })).freeze ch 4 } := by
  change execFreeze t ch s = _
  exact State.run_to now rfl

/-- A thaw that may begin begins (R324). -/
theorem exec_thaw_of_begun {x : Dev} (begun : d.thaw ch = (x, 0)) : exec (.thaw t ch) s = .next { s with dev := x } := by
  change execThaw t ch s = _
  exact State.run_to now (by simp only [Dev.writeThaw, begun, if_true])

/-- A thaw that may not begin is an illegal sequence of the kind that bars it (R324). -/
theorem exec_thaw_of_illegal {k : Nat} (barred : d.thaw ch = (d, k)) (illegal : k ≠ 0) :
    exec (.thaw t ch) s = .next { s with dev := d.illegal k ((MDW_FRZ.THAW ch).off / 4) } := by
  change execThaw t ch s = _
  exact State.run_to now (by simp only [Dev.writeThaw, barred, if_neg illegal])

end

/-- A channel that is not Frozen has nothing to thaw (R324). -/
theorem Dev.thaw_of_not_frozen {d : Dev} {ch : Nat} (other : d.chanState ch ≠ chFrozen) : d.thaw ch = (d, 8) := if_pos other

/-- A thaw under way bars another (R324). -/
theorem Dev.thaw_of_busy {d : Dev} {ch : Nat} (frozen : d.chanState ch = chFrozen) (busy : d.on (MDW_FRZ.THAW_BUSY ch) = true) :
    d.thaw ch = (d, 7) := by
  rw [Dev.thaw, if_neg (not_not_intro frozen), if_pos busy]

/-- The device whose channel has thawed: Online, its work going on (R324). -/
def Dev.thawed (d : Dev) (ch : Nat) : Dev :=
  (((d.toChan ch chOnline).fset (MDW_FRZ.THAW_BUSY ch) 0).raise (chanSource ch 3) 2 0 ch 0).endFreeze ch

/-- The end of a thaw brings the channel Online, after the loss of a line that failed every re-read (R324). -/
theorem exec_thawComplete_of_thawing {s : State} {t ch : Nat} {d : Dev} (now : s.dev.tick t = d)
    (frozen : d.chanState ch = chFrozen) (busy : d.on (MDW_FRZ.THAW_BUSY ch) = true) (pass : Bool) :
    exec (.thawComplete t ch pass) s = .next { s with dev := (if pass then d else d.thawLost ch).thawed ch } := by
  change execThawComplete t ch pass s = _
  exact State.run_to now (if_neg (not_or_intro (not_not_intro frozen) (not_not_intro busy)))

/-! ### The error log -/

/-- The error counts of a channel are cleared unless it is Frozen (R315, R323). -/
theorem exec_ceClear_eq {s : State} {t ch : Nat} {d : Dev} (now : s.dev.tick t = d) :
    exec (.ceClear t ch) s = .next { s with
      dev := if d.chanState ch = chFrozen then d.illegal 8 ((MDW_CE.CLEAR ch).off / 4) else d.clearCe ch } := by
  change execCeClear t ch s = _
  exact State.run_to now rfl

/-- An entry of a channel's error log is cleared unless it is Frozen (R315, R323). -/
theorem exec_ceLogEntryClear_eq {s : State} {t ch k : Nat} {d : Dev} (now : s.dev.tick t = d) :
    exec (.ceLogEntryClear t ch k) s = .next { s with
      dev := if d.chanState ch = chFrozen then d.illegal 8 ((MDW_CELOG.VALID ch k).off / 4)
        else d.fset (MDW_CELOG.VALID ch k) 0 } := by
  change execCeLogEntryClear t ch k s = _
  exact State.run_to now rfl

/-! ### The pattern generator -/

section
variable {d : Dev} {ch : Nat}

theorem Dev.patternBar_of_other (notTraining : d.chanState ch ≠ chTraining) (notEmpty : d.chanState ch ≠ chEmpty) :
    d.patternBar ch = 8 := if_pos (not_or_intro notTraining notEmpty)

theorem Dev.patternBar_of_ready (ready : d.chanState ch = chTraining ∨ d.chanState ch = chEmpty) :
    d.patternBar ch = if d.on (MDW_PAT.BUSY ch) then 7 else 0 := if_neg (not_not_intro ready)

/-- GO acts where nothing bars it, and is else an illegal sequence of the kind that does (R306). -/
theorem exec_patternGo_eq {s : State} {t : Nat} (now : s.dev.tick t = d) {k : Nat} (bar : d.patternBar ch = k) :
    exec (.patternGo t ch) s = .next { s with
      dev := if k = 0 then d.fset (MDW_PAT.BUSY ch) 1 else d.illegal k ((MDW_PAT.GO ch).off / 4) } := by
  subst bar
  change execPatternGo t ch s = _
  exact State.run_to now rfl

/-- The generator's end leaves what a comparison found (R306). -/
theorem exec_patternDone_of_busy {s : State} {t lines dq : Nat} (now : s.dev.tick t = d) (busy : d.on (MDW_PAT.BUSY ch) = true) :
    let e := d.fset (MDW_PAT.BUSY ch) 0
    exec (.patternDone t ch lines dq) s = .next { s with dev := if e.f (MDW_PAT.OP ch) = 0 then e
      else (e.fset (MDW_CMP.FAIL_LINES ch) (min lines (2 ^ 24 - 1))).fset (MDW_CMP.DQ_FAIL ch) dq } := by
  change execPatternDone t ch lines dq s = _
  exact State.run_to now (if_neg (not_not_intro busy))

end

/-! ### The line checker -/

/-- The device whose checker shows a raw line and the verdict on it (R333). -/
def Dev.showLine (d : Dev) (ch v verdict devmask : Nat) : Dev :=
  let e := (List.range 8).foldl (fun d i => d.fset (MDW_CHK_DATA.DATA ch i) (v / 2 ^ (64 * i) % 2 ^ 64)) d
  ((e.fset (MDW_CHK_ECC.ECC ch) (v / 2 ^ 512)).fset (MDW_CHK_RES.RESULT ch) verdict).fset (MDW_CHK_RES.DEVMASK ch) devmask

/-- The ten free words that stand for a raw line no raw write has stored (R333). -/
def Dev.freeLine (d : Dev) : Nat :=
  ((List.range 10).map (fun i => (Config.freeValue (d.free + i)).toNat * 2 ^ (64 * i))).foldl (· + ·) 0

section
variable {d : Dev} {ch v verdict devmask : Nat}

theorem Dev.showLine_data {i : Nat} (word : i < 8) :
    (d.showLine ch v verdict devmask).f (MDW_CHK_DATA.DATA ch i) = v / 2 ^ (64 * i) % 2 ^ 64 := by
  have notEcc : (MDW_CHK_ECC.ECC ch).key ≠ (MDW_CHK_DATA.DATA ch i).key := by
    simp only [Fld.key, MDW_CHK_ECC.ECC, MDW_CHK_DATA.DATA]; omega
  have notResult : (MDW_CHK_RES.RESULT ch).key ≠ (MDW_CHK_DATA.DATA ch i).key := by
    simp only [Fld.key, MDW_CHK_RES.RESULT, MDW_CHK_DATA.DATA]; omega
  have notDevmask : (MDW_CHK_RES.DEVMASK ch).key ≠ (MDW_CHK_DATA.DATA ch i).key := by
    simp only [Fld.key, MDW_CHK_RES.DEVMASK, MDW_CHK_DATA.DATA]; omega
  have apart : Function.Injective fun i => (MDW_CHK_DATA.DATA ch i).key := by
    intro i j same
    simp only [Fld.key, MDW_CHK_DATA.DATA] at same
    omega
  rw [Dev.showLine, Dev.f_fset_ne _ _ notDevmask, Dev.f_fset_ne _ _ notResult, Dev.f_fset_ne _ _ notEcc,
    Dev.f_foldl_fset_mem _ _ apart (List.mem_range.mpr word)]
  exact Nat.mod_mod _ _

theorem Dev.showLine_ecc :
    (d.showLine ch v verdict devmask).f (MDW_CHK_ECC.ECC ch) = v / 2 ^ 512 % 2 ^ (MDW_CHK_ECC.ECC ch).width := by
  have notResult : (MDW_CHK_RES.RESULT ch).key ≠ (MDW_CHK_ECC.ECC ch).key := by
    simp only [Fld.key, MDW_CHK_RES.RESULT, MDW_CHK_ECC.ECC]; omega
  have notDevmask : (MDW_CHK_RES.DEVMASK ch).key ≠ (MDW_CHK_ECC.ECC ch).key := by
    simp only [Fld.key, MDW_CHK_RES.DEVMASK, MDW_CHK_ECC.ECC]; omega
  rw [Dev.showLine, Dev.f_fset_ne _ _ notDevmask, Dev.f_fset_ne _ _ notResult, Dev.f_fset_self]

theorem Dev.showLine_result :
    (d.showLine ch v verdict devmask).f (MDW_CHK_RES.RESULT ch) = verdict % 2 ^ (MDW_CHK_RES.RESULT ch).width := by
  have notDevmask : (MDW_CHK_RES.DEVMASK ch).key ≠ (MDW_CHK_RES.RESULT ch).key := by
    simp only [Fld.key, MDW_CHK_RES.DEVMASK, MDW_CHK_RES.RESULT]; omega
  rw [Dev.showLine, Dev.f_fset_ne _ _ notDevmask, Dev.f_fset_self]

theorem Dev.showLine_devmask :
    (d.showLine ch v verdict devmask).f (MDW_CHK_RES.DEVMASK ch) = devmask % 2 ^ (MDW_CHK_RES.DEVMASK ch).width :=
  Dev.f_fset_self _ _ _

/-- The checker shows a line in its registers alone. -/
theorem Dev.showLine_rest :
    d.showLine ch v verdict devmask = { d with regs := (d.showLine ch v verdict devmask).regs } := by
  unfold Dev.showLine
  rw [Dev.foldl_fset_rest]
  rfl

end

section
variable {d : Dev} {ch : Nat}

/-- The checker acts in checker test mode of an Empty channel alone (R333). -/
theorem Dev.checkerGo_of_barred (barred : d.on (MDW_CHK.EN ch) = false ∨ d.chanState ch ≠ chEmpty) (verdict devmask : Nat) :
    d.checkerGo ch verdict devmask = d := if_pos (barred.imp_left Bool.eq_false_iff.mp)

variable (enabled : d.on (MDW_CHK.EN ch) = true) (empty : d.chanState ch = chEmpty)
include enabled empty

/-- A raw write stores the line unchanged (R333). -/
theorem Dev.checkerGo_of_write (write : d.f (MDW_CHK.OP ch) = 0) (verdict devmask : Nat) :
    d.checkerGo ch verdict devmask =
      d.setChan ch (fun c => { c with raw := put c.raw (d.f (MDW_CHK.LINE ch)) (BitVec.ofNat 640 (d.rawLine ch)) }) := by
  exact (if_neg (not_or_intro (not_not_intro enabled) (not_not_intro empty))).trans (if_pos write)

/-- A raw read shows the line that a raw write stored (R333). -/
theorem Dev.checkerGo_of_stored (read : d.f (MDW_CHK.OP ch) ≠ 0) {v : BitVec 640}
    (stored : look (d.chan ch).raw (d.f (MDW_CHK.LINE ch)) = some v) (verdict devmask : Nat) :
    d.checkerGo ch verdict devmask = d.showLine ch v.toNat verdict devmask := by
  refine (if_neg (not_or_intro (not_not_intro enabled) (not_not_intro empty))).trans ((if_neg read).trans ?_)
  simp only [stored]
  rfl

/-- A raw read of a line that no raw write stored shows ten free words (R333). -/
theorem Dev.checkerGo_of_unstored (read : d.f (MDW_CHK.OP ch) ≠ 0)
    (unstored : look (d.chan ch).raw (d.f (MDW_CHK.LINE ch)) = none) (verdict devmask : Nat) :
    d.checkerGo ch verdict devmask = ({ d with free := d.free + 10 } : Dev).showLine ch d.freeLine verdict devmask := by
  refine (if_neg (not_or_intro (not_not_intro enabled) (not_not_intro empty))).trans ((if_neg read).trans ?_)
  simp only [unstored]
  rfl

end

/-- The checker's command acts on the device at its instant. -/
theorem exec_checkerGo_of_eq {s : State} {t ch verdict devmask : Nat} {d x : Dev} (now : s.dev.tick t = d)
    (acts : d.checkerGo ch verdict devmask = x) : exec (.checkerGo t ch verdict devmask) s = .next { s with dev := x } := by
  change execCheckerGo t ch verdict devmask s = _
  exact State.run_to now acts

/-- Settles O32: each command acts by the state of its channel, or by what its unit is doing there. That any draining channel poisons
the plot of an uncorrectable line, whichever state it drains from, is the model's choice (log entry 37). -/
theorem channelsFreezeAndThaw : Obligations.ChannelsFreezeAndThaw := by
  intro t ch k lines dq verdict devmask err scrub home s
  generalize now : s.dev.tick t = d
  refine ⟨exec_channelFreeze_of_online now, ?draining, exec_channelFreeze_of_idle now, ?freezes, ?noFreeze, ?thaws, ?thawing, ?notFrozen,
    ?frozen, ?pattern, ?noPattern, ?patternDone, ?rawWrite, ?noChecker, ?rawRead, ?rawFree⟩
  case draining =>
    intro draining
    refine ⟨fun l line => ?_, fun i noLine plot => ?_⟩
    · subst line
      exact exec_channelFreeze_of_home_drains now draining
    · subst noLine
      exact exec_channelFreeze_of_plot_drains now draining plot
  case freezes =>
    intro online
    exact State.next_of_eq (exec_freeze_eq now) (if_neg (not_not_intro online))
  case noFreeze =>
    intro other
    exact State.next_of_eq (exec_freeze_eq now) (if_pos other)
  case thaws =>
    intro frozen idle
    exact exec_thaw_of_begun now (Dev.thaw_of_frozen frozen idle)
  case thawing =>
    intro frozen busy
    have ends := exec_thawComplete_of_thawing now frozen busy
    exact ⟨exec_thaw_of_illegal now (Dev.thaw_of_busy frozen busy) (by decide), ends true, ends false⟩
  case notFrozen =>
    intro other
    exact ⟨exec_thaw_of_illegal now (Dev.thaw_of_not_frozen other) (by decide),
      State.next_of_eq (exec_ceClear_eq now) (if_neg other), State.next_of_eq (exec_ceLogEntryClear_eq now) (if_neg other)⟩
  case frozen =>
    intro frozen
    exact ⟨State.next_of_eq (exec_ceClear_eq now) (if_pos frozen), State.next_of_eq (exec_ceLogEntryClear_eq now) (if_pos frozen)⟩
  case pattern =>
    intro ready
    have bar := Dev.patternBar_of_ready ready
    exact ⟨fun idle => exec_patternGo_eq now (bar.trans (if_neg (Bool.eq_false_iff.mp idle))),
      fun busy => exec_patternGo_eq now (bar.trans (if_pos busy))⟩
  case noPattern =>
    intro notTraining notEmpty
    exact exec_patternGo_eq now (Dev.patternBar_of_other notTraining notEmpty)
  case patternDone =>
    intro busy
    have ends := exec_patternDone_of_busy now busy (lines := lines) (dq := dq)
    exact ⟨fun fill => State.next_of_eq ends (if_pos fill), fun compare => State.next_of_eq ends (if_neg compare)⟩
  case rawWrite =>
    intro enabled empty write
    exact exec_checkerGo_of_eq now (Dev.checkerGo_of_write enabled empty write verdict devmask)
  case noChecker =>
    intro barred
    exact exec_checkerGo_of_eq now (Dev.checkerGo_of_barred barred verdict devmask)
  case rawRead =>
    intro v enabled empty read stored
    exact ⟨_, exec_checkerGo_of_eq now (Dev.checkerGo_of_stored enabled empty read stored verdict devmask),
      fun _ => Dev.showLine_data, Dev.showLine_ecc, Dev.showLine_result, Dev.showLine_devmask, Dev.showLine_rest⟩
  case rawFree =>
    intro enabled empty read unstored
    exact ⟨_, exec_checkerGo_of_eq now (Dev.checkerGo_of_unstored enabled empty read unstored verdict devmask),
      Dev.showLine_result, Dev.showLine_devmask, Dev.showLine_rest⟩

end Sys2Proof.Machine
end

section
/-! Proofs about firmware updates over PLDM type 5 (R401, R428, R431, R433, Table 14.4): what each message of an update does, and the
arming that its activation needs. -/

namespace Sys2Proof.Machine

/-! ### A message that stands -/

/-- A message that stands acts, once it has been counted (R424, R426). -/
theorem Dev.mctpIn_of_stands {d : Dev} {pec : Bool} (stands : d.stands pec) (act : Dev → Dev) : d.mctpIn pec act = act d.heard := by
  obtain ⟨addressed, sound⟩ := stands
  exact (if_neg (not_not_intro addressed)).trans (if_neg (not_not_intro sound))

section
variable {s : State} {t : Nat} {d x : Dev} {pec : Bool} (now : s.dev.tick t = d) (stands : d.stands pec) (code : Byte)
  {act : Dev → Dev}
include now stands

/-- A dark core answers a PLDM type 5 request 82h (Table 14.4). -/
theorem State.run_type5_of_dark (dark : d.heard.serves = false) :
    s.run t (fun d => d.type5 pec code act) =
      .next { s with dev := (d.heard.finc SBP_CNT.DARK 1).send (.mctp 1 [5, code, 0x82]) } :=
  State.run_to now ((Dev.mctpIn_of_stands stands _).trans (if_pos (Bool.eq_false_iff.mp dark)))

/-- While lantern 15 serves, a PLDM type 5 request acts (Table 14.4). -/
theorem State.run_type5_of_serves (serves : d.heard.serves = true) (comes : act d.heard = x) :
    s.run t (fun d => d.type5 pec code act) = .next { s with dev := x } :=
  State.run_to now ((Dev.mctpIn_of_stands stands _).trans ((if_neg (not_not_intro serves)).trans comes))

end

/-! ### The arming -/

section
variable {s : State} {t : Nat} {d : Dev} (now : s.dev.tick t = d)
include now

/-- An arm whose ten seconds have passed is gone (R428). -/
theorem exec_fwArmExpiry_of_expired (expired : d.sbp.arm.any (fun b => decide (b + 10000000000 ≤ d.clk)) = true) :
    exec (.fwArmExpiry t) s = .next { s with dev := { d with sbp := { d.sbp with arm := none } } } := by
  change execFwArmExpiry t s = _
  exact State.run_to now (if_pos expired)

/-- Without an arm, or within its ten seconds, nothing expires (R428). -/
theorem exec_fwArmExpiry_of_unexpired (kept : d.sbp.arm.any (fun b => decide (b + 10000000000 ≤ d.clk)) = false) :
    exec (.fwArmExpiry t) s = .next { s with dev := d } := by
  change execFwArmExpiry t s = _
  exact State.run_to now (if_neg (Bool.eq_false_iff.mp kept))

end

/-- Settles O55: the message stands, lantern 15 serves or does not, and the message's own condition lets it act or bars it. The state
of the slot under a chunk (log entry 47) and the form of the answers (log entry 60) are the model's choices. -/
theorem firmwareUpdateByPldmActs : Obligations.FirmwareUpdateByPldmActs := by
  intro t pec i a s
  generalize now : s.dev.tick t = d
  refine ⟨fun stands dark => ⟨?request, ?data, ?verify, ?activate⟩, ?opens, ?busy, ?takes, ?barred, ?begins, ?refused, ?arms, ?expiry,
    fun unarmed => exec_fwArmExpiry_of_unexpired now (by rw [unarmed, Option.any_none])⟩
  case request =>
    change execRequestUpdate t pec s = _
    exact State.run_type5_of_dark now stands 0x10 dark
  case data =>
    change execPldmFirmwareData t pec i s = _
    exact State.run_type5_of_dark now stands 0x15 dark
  case verify =>
    change execVerifyComplete t pec i s = _
    exact State.run_type5_of_dark now stands 0x17 dark
  case activate =>
    change execActivateFirmware t pec s = _
    exact State.run_type5_of_dark now stands 0x1A dark
  case opens =>
    rintro ⟨stands, serves⟩ closed others
    have noStage : d.heard.ring.cmds.any (fun c => c.op == ocStage && !c.sb) = false := by simpa using others
    change execRequestUpdate t pec s = _
    refine State.run_type5_of_serves now stands 0x10 serves (if_neg ?_)
    exact not_or_intro (Bool.eq_false_iff.mp closed) (Bool.eq_false_iff.mp noStage)
  case busy =>
    rintro ⟨stands, serves⟩ updating
    change execRequestUpdate t pec s = _
    exact State.run_type5_of_serves now stands 0x10 serves (if_pos (.inl updating))
  case takes =>
    rintro ⟨stands, serves⟩ updating writable
    have accepts := not_or_intro (not_not_intro updating) (Bool.eq_false_iff.mp writable)
    refine ⟨?_, fun bad => ?_, fun good => ?_⟩
    · change execPldmFirmwareData t pec i s = _
      exact State.run_type5_of_serves now stands 0x15 serves (if_neg accepts)
    · change execVerifyComplete t pec i s = _
      refine State.run_type5_of_serves now stands 0x17 serves ((if_neg accepts).trans ?_)
      simp only [bad, Dev.stageChunk]
      rfl
    · change execVerifyComplete t pec i s = _
      refine State.run_type5_of_serves now stands 0x17 serves ((if_neg accepts).trans ?_)
      simp only [good, Dev.stageChunk]
      rfl
  case barred =>
    rintro ⟨stands, serves⟩ bar
    have bars := bar.imp_left Bool.eq_false_iff.mp
    constructor
    · change execPldmFirmwareData t pec i s = _
      exact State.run_type5_of_serves now stands 0x15 serves (if_pos bars)
    · change execVerifyComplete t pec i s = _
      exact State.run_type5_of_serves now stands 0x17 serves (if_pos bars)
  case begins =>
    rintro ⟨stands, serves⟩ armed updating verified noBarrier
    have may := not_or_intro (not_not_intro armed) (not_or_intro (not_not_intro updating) (not_not_intro verified))
    have free : ¬ d.heard.ring.barrier.isSome = true := by simp [noBarrier]
    refine State.next_of_sideStarts ?_ (Dev.sideCmd_starts _ vcActivate 0 ocActivate [] Dev.actActivate)
    change execActivateFirmware t pec s = _
    exact State.run_type5_of_serves now stands 0x1A serves ((if_neg may).trans (if_neg free))
  case refused =>
    rintro ⟨stands, serves⟩ bar
    change execActivateFirmware t pec s = _
    refine State.run_type5_of_serves now stands 0x1A serves (if_pos ?_)
    simpa only [Bool.not_eq_true] using bar
  case arms =>
    intro lit
    change execFwArm t a s = _
    exact State.run_litIn now 15 lit rfl
  case expiry =>
    intro b arm
    refine ⟨fun late => exec_fwArmExpiry_of_expired now ?_, fun early => exec_fwArmExpiry_of_unexpired now ?_⟩
    · rw [arm, Option.any_some, decide_eq_true late]
    · rw [arm, Option.any_some, decide_eq_false (Nat.not_le.mpr early)]

end Sys2Proof.Machine
end

section
/-! Proofs about the flash channels (R336 to R357): what each report of a die or a module and each of their timers does. -/

namespace Sys2Proof.Machine

/-- The program a die failed is not made again at once: the die is retired, or its module stands outside the normal window and the
program is not a save's (R341, R353). -/
def Dev.retryWaits (d : Dev) (ch die why : Nat) : Bool :=
  d.f (HTH_DIE.STATE ch die) != 1 || (d.modWindow (moduleOf ch) != 0 && why != whySave)

section
variable {s : State} {t ch die : Nat} {d : Dev} (now : s.dev.tick t = d)
include now

/-! ### Programs -/

section
variable (programs : (d.die (ch * 16 + die)).busy.any (fun b => b.1 == opPslc || b.1 == opNative) = true)
include programs

/-- A program that passed ends (R343). -/
theorem exec_programComplete_of_passed (native : Bool) :
    exec (.programComplete t ch die false native) s =
      .next { s with dev := (d.programPassed (ch * 16 + die) native).pumpDies.pump } := by
  change execProgramComplete t ch die false native s = _
  exact State.run_to now ((if_neg (not_not_intro programs)).trans (if_pos Bool.false_ne_true))

section
variable {f : Dev} (failed : d.failedProgram (ch * 16 + die) = f)
include failed

/-- A program that failed is made again by its die at once, where it does not wait (R341). -/
theorem exec_programComplete_of_again (goesOn : f.retryWaits ch die (d.die (ch * 16 + die)).why = false)
    (native : Bool) :
    exec (.programComplete t ch die true native) s = .next { s with
      dev := (f.setDie (ch * 16 + die) (fun z => { z with busy := z.busy.map (fun b => (b.1, f.clk)) })).pumpDies.pump } := by
  change execProgramComplete t ch die true native s = _
  refine State.run_to now ((if_neg (not_not_intro programs)).trans ((if_neg (not_not_intro rfl)).trans ?_))
  rw [Dev.retryWaits] at goesOn
  simp only [failed, goesOn, Bool.false_eq_true, false_and, if_false]

/-- Where its die is retired, or its module stands outside the normal window, the die is free, and a migration's copy is still to be
programmed (R341, R353). -/
theorem exec_programComplete_of_waits (waits : f.retryWaits ch die (d.die (ch * 16 + die)).why = true) (native : Bool) :
    let y := d.die (ch * 16 + die)
    let idle := f.setDie (ch * 16 + die) (fun z => { z with busy := none })
    let held (m : Migration) : Migration :=
      { m with prog := 0, paused := if idle.modWindow (moduleOf ch) = 0 then m.paused else some (m.paused.getD idle.clk) }
    exec (.programComplete t ch die true native) s = .next { s with
      dev := (if y.why = whyMig then idle.setMig y.ref held else idle).pumpDies.pump } := by
  change execProgramComplete t ch die true native s = _
  refine State.run_to now ((if_neg (not_not_intro programs)).trans ((if_neg (not_not_intro rfl)).trans ?_))
  rw [Dev.retryWaits] at waits
  simp only [failed, waits, true_and, if_true]

end

end

/-! ### Erases and reads -/

section
variable {op : Nat} {r : ReadResult}

/-- The report of a read whose operation is gone is counted as stale (R345). -/
theorem exec_flashReadComplete_of_stale (gone : d.op op = none) :
    exec (.flashReadComplete t op r) s = .next { s with dev := d.finc HPT_DROP_CNT.TAG_STALE 1 } := by
  change execFlashReadComplete t op r s = _
  exact State.run_to now (by simp only [gone])

/-- The read of a heath plot for an issued READ waits while its die programs or erases; it fails the READ where it is uncorrectable,
and else the next plot is awaited, or the READ goes on after the last (R345, R347). -/
theorem exec_flashReadComplete_of_issued {o : Op} {g : Region} {x : Touch} (held : d.op op = some o) (issued : o.phase = .issued)
    (region : look d.rgn o.rid = some g) (plot : (d.heathTouches (d.opTouches o g o.off o.len))[o.appl]? = some x) :
    let loc := (d.entry x.idx).loc
    let b := lookD d.hth.map loc 0
    let e := ((d.dropRead b o.id).countRead (b / 16) r).wantRefresh loc r.bits
    exec (.flashReadComplete t op r) s = .next { s with
      dev := if (d.die b).busy.any (fun x => x.1 != opRead) then d
        else if r.uncorr then ((e.failRead o x.idx (b / 16)).pumpDies).pump
        else if o.appl + 1 < (d.heathTouches (d.opTouches o g o.off o.len)).length then
          (e.setOp o.id (fun y => { y with appl := y.appl + 1 })).pumpDies
        else ((e.setOp o.id (fun y => { y with phase := .waiting, dieRead := true, appl := 0 })).pumpDies).pump } := by
  change execFlashReadComplete t op r s = _
  refine State.run_to now ?_
  simp only [held, issued, region, plot, ne_eq, not_true_eq_false, if_false]

end

end

/-- Settles O33: each report or timer finds its die, its READ or its module in one of the states named. An erase counted for an idle
die (log entry 37) and the plot that stands for a block to be refreshed (log entry 91) are the model's choices. -/
theorem heathOperationsComplete : Obligations.HeathOperationsComplete := by
  intro t ch die op mod native r mr temp s
  generalize now : s.dev.tick t = d
  refine ⟨fun programs => ⟨exec_programComplete_of_passed now programs native, ?fails⟩, ?erases, exec_flashReadComplete_of_stale now,
    ?reads, ?pads, ?dieLost, ?moduleJoins, ?moduleTemp, ?moduleEmpties⟩
  case fails =>
    refine ⟨fun goesOn => ?_, fun waits other => ?_, fun waits copy => ?_⟩
    · exact exec_programComplete_of_again now programs rfl goesOn native
    · exact State.next_of_eq (exec_programComplete_of_waits now programs rfl waits native) (by rw [if_neg other])
    · exact State.next_of_eq (exec_programComplete_of_waits now programs rfl waits native) (by rw [if_pos copy])
  case erases =>
    intro erasing inService
    change execEraseComplete t ch die s = _
    exact State.run_to now (if_neg (not_or_intro (Bool.eq_false_iff.mp erasing) (not_not_intro inService)))
  case reads =>
    intro o g x held issued region plot
    have reads := exec_flashReadComplete_of_issued now (r := r) held issued region plot
    refine ⟨fun busy => State.next_of_eq reads (if_pos busy), fun free => ?_⟩
    replace reads := State.next_of_eq reads (if_neg (Bool.eq_false_iff.mp free))
    refine ⟨fun lost => State.next_of_eq reads (if_pos lost), fun good => ?_, fun good => ?_⟩
    all_goals
      replace reads := State.next_of_eq reads (if_neg (Bool.eq_false_iff.mp good))
    · exact fun further => State.next_of_eq reads (if_pos further)
    · exact fun last => State.next_of_eq reads (if_neg (Nat.not_lt.mpr last))
  case pads =>
    intro p since due unqueued may
    have dueFill : (d.die (ch * 16 + die)).padFrom.any (fun p => p + d.f (HTH_SCHED.PAD_US ch) * 1000 ≤ d.clk) = true := by
      rw [since, Option.any_some, decide_eq_true due]
    change execPadTimer t ch die s = _
    exact State.run_to now (if_pos ⟨dueFill, Bool.eq_false_iff.mp unqueued, may⟩)
  case dieLost =>
    intro inService
    change execDieUnresponsive t ch die s = _
    exact State.run_to now (if_neg (not_not_intro inService))
  case moduleJoins =>
    intro starting known
    have judged := not_or_intro (not_not_intro starting) (Nat.not_le.mpr known)
    refine ⟨fun absent => ?_, fun found misfit => ?_, fun found fits => ?_⟩
    all_goals
      change execModuleInitDone t mod mr s = _
    · exact State.run_to now ((if_neg judged).trans (if_pos (Bool.eq_false_iff.mp absent)))
    · exact State.run_to now ((if_neg judged).trans ((if_neg (not_not_intro found)).trans (if_pos (Bool.eq_false_iff.mp misfit))))
    · exact State.run_to now ((if_neg judged).trans ((if_neg (not_not_intro found)).trans (if_neg (not_not_intro fits))))
  case moduleTemp =>
    intro x known running reading
    change execModuleTempPoll t mod temp s = _
    refine State.run_to now ((if_neg (not_or_intro (Nat.not_le.mpr known) (not_not_intro running))).trans ?_)
    simp only [reading]
  case moduleEmpties =>
    intro draining noDuty noPlots noMoves noImages
    change execModuleEvacuationDone t mod s = _
    exact State.run_to now (if_pos
      ⟨draining, noDuty, List.isEmpty_iff.mpr noPlots, Bool.eq_false_iff.mp noMoves, Bool.eq_false_iff.mp noImages⟩)

end Sys2Proof.Machine
end

section
/-! Proofs about the machine as a whole: each step runs the command at the front of the queue, answers with a next state, drains the
queue in order, never sets the time base back, and keeps the invariant that the reset state meets. -/

set_option Elab.async false

namespace Sys2Proof.Machine

/-- Every command answers with a next state that keeps the waiting commands and what the shared operations keep: each constructor by
the law of its meaning. -/
theorem exec_keeps {I : Prop} {ck : Nat} {s : State} (h : s.dev.Sound I ck) (c : Instr) :
    ∃ t, Keeps I ck t s (exec c s) := by
  cases c with
  | rdmaWriteFirst => exact ⟨_, execRdmaWriteFirst_keeps h⟩
  | rdmaWriteMiddle => exact ⟨_, execRdmaWriteMiddle_keeps h⟩
  | rdmaWriteLast => exact ⟨_, execRdmaWriteLast_keeps h⟩
  | rdmaWriteOnly => exact ⟨_, execRdmaWriteOnly_keeps h⟩
  | rdmaWriteLastWithImmediate => exact ⟨_, execRdmaWriteLastWithImmediate_keeps h⟩
  | rdmaWriteOnlyWithImmediate => exact ⟨_, execRdmaWriteOnlyWithImmediate_keeps h⟩
  | rdmaReadRequest => exact ⟨_, execRdmaReadRequest_keeps h⟩
  | compareSwap => exact ⟨_, execCompareSwap_keeps h⟩
  | fetchAdd => exact ⟨_, execFetchAdd_keeps h⟩
  | flushVerb => exact ⟨_, execFlushVerb_keeps h⟩
  | atomicWrite => exact ⟨_, execAtomicWrite_keeps h⟩
  | fenceCount => exact ⟨_, execFenceCount_keeps h⟩
  | sealQuery => exact ⟨_, execSealQuery_keeps h⟩
  | regionInfo => exact ⟨_, execRegionInfo_keeps h⟩
  | unsupportedOpcode => exact ⟨_, execUnsupportedOpcode_keeps h⟩
  | deadlineExpiry => exact ⟨_, execDeadlineExpiry_keeps h⟩
  | writeDurable => exact ⟨_, execWriteDurable_keeps h⟩
  | fenceCountReached => exact ⟨_, execFenceCountReached_keeps h⟩
  | coldStateLoad => exact ⟨_, execColdStateLoad_keeps h⟩
  | req => exact ⟨_, execReq_keeps h⟩
  | rtu => exact ⟨_, execRtu_keeps h⟩
  | dreq => exact ⟨_, execDreq_keeps h⟩
  | drep => exact ⟨_, execDrep_keeps h⟩
  | mraTimeout => exact ⟨_, execMraTimeout_keeps h⟩
  | rtuTimeout => exact ⟨_, execRtuTimeout_keeps h⟩
  | quarantineEnd => exact ⟨_, execQuarantineEnd_keeps h⟩
  | drepTimeout => exact ⟨_, execDrepTimeout_keeps h⟩
  | connectionDrained => exact ⟨_, execConnectionDrained_keeps h⟩
  | errorDrained => exact ⟨_, execErrorDrained_keeps h⟩
  | portUp => exact ⟨_, execPortUp_keeps h⟩
  | portLinkDown => exact ⟨_, execPortLinkDown_keeps h⟩
  | pfcPause => exact ⟨_, execPfcPause_keeps h⟩
  | pauseRefresh => exact ⟨_, execPauseRefresh_keeps h⟩
  | pauseWatchdog => exact ⟨_, execPauseWatchdog_keeps h⟩
  | pauseWatchdogEnd => exact ⟨_, execPauseWatchdogEnd_keeps h⟩
  | cnp => exact ⟨_, execCnp_keeps h⟩
  | rateRecovery => exact ⟨_, execRateRecovery_keeps h⟩
  | arpRequest => exact ⟨_, execArpRequest_keeps h⟩
  | neighbourSolicitation => exact ⟨_, execNeighbourSolicitation_keeps h⟩
  | lldpReceived => exact ⟨_, execLldpReceived_keeps h⟩
  | heatHalvingSweep => exact ⟨_, execHeatHalvingSweep_keeps h⟩
  | freePlotRefill => exact ⟨_, execFreePlotRefill_keeps h⟩
  | tableWalkComplete => exact ⟨_, execTableWalkComplete_keeps h⟩
  | wickRangeInvalidate => exact ⟨_, execWickRangeInvalidate_keeps h⟩
  | wickInvalidationDone => exact ⟨_, execWickInvalidationDone_keeps h⟩
  | migrationStart => exact ⟨_, execMigrationStart_keeps h⟩
  | migrationCopyDone => exact ⟨_, execMigrationCopyDone_keeps h⟩
  | migrationDestinationDurable => exact ⟨_, execMigrationDestinationDurable_keeps h⟩
  | quiesceReady => exact ⟨_, execQuiesceReady_keeps h⟩
  | quiesceTimeout => exact ⟨_, execQuiesceTimeout_keeps h⟩
  | pinQuietExpiry => exact ⟨_, execPinQuietExpiry_keeps h⟩
  | winAbandonExpiry => exact ⟨_, execWinAbandonExpiry_keeps h⟩
  | governorEvaluation => exact ⟨_, execGovernorEvaluation_keeps h⟩
  | budgetRiseEffect => exact ⟨_, execBudgetRiseEffect_keeps h⟩
  | saveRateCalibration => exact ⟨_, execSaveRateCalibration_keeps h⟩
  | imageGroupClosed => exact ⟨_, execImageGroupClosed_keeps h⟩
  | sealRecordClosed => exact ⟨_, execSealRecordClosed_keeps h⟩
  | epochClose => exact ⟨_, execEpochClose_keeps h⟩
  | timePps => exact ⟨_, execTimePps_keeps h⟩
  | ptpLoss => exact ⟨_, execPtpLoss_keeps h⟩
  | holdoverLimit => exact ⟨_, execHoldoverLimit_keeps h⟩
  | timeValidWait => exact ⟨_, execTimeValidWait_keeps h⟩
  | mainPfail => exact ⟨_, execMainPfail_keeps h⟩
  | saveComplete => exact ⟨_, execSaveComplete_keeps h⟩
  | restorePhaseADone => exact ⟨_, execRestorePhaseADone_keeps h⟩
  | restorePhaseBDone => exact ⟨_, execRestorePhaseBDone_keeps h⟩
  | writeThroughDrained => exact ⟨_, execWriteThroughDrained_keeps h⟩
  | twinHello => exact ⟨_, execTwinHello_keeps h⟩
  | hb => exact ⟨_, execHb_keeps h⟩
  | leg _ _ _ _ len _ _ => exact ⟨_, execLeg_keeps (_len := len) h⟩
  | complete => exact ⟨_, execComplete_keeps h⟩
  | abandon => exact ⟨_, execAbandon_keeps h⟩
  | conf => exact ⟨_, execConf_keeps h⟩
  | dur _ _ decided => exact ⟨_, execDur_keeps (_decided := decided) h⟩
  | eoe => exact ⟨_, execEoe_keeps h⟩
  | sealrep => exact ⟨_, execSealrep_keeps h⟩
  | swapReq => exact ⟨_, execSwapReq_keeps h⟩
  | swapReady => exact ⟨_, execSwapReady_keeps h⟩
  | swapRefuse => exact ⟨_, execSwapRefuse_keeps h⟩
  | rgnReq => exact ⟨_, execRgnReq_keeps h⟩
  | rgnAck => exact ⟨_, execRgnAck_keeps h⟩
  | rgnRefuse => exact ⟨_, execRgnRefuse_keeps h⟩
  | rsPlot => exact ⟨_, execRsPlot_keeps h⟩
  | rsPage => exact ⟨_, execRsPage_keeps h⟩
  | rsDone => exact ⟨_, execRsDone_keeps h⟩
  | twinKeyph => exact ⟨_, execTwinKeyph_keeps h⟩
  | twinRetx => exact ⟨_, execTwinRetx_keeps h⟩
  | twinRetransmitTimer => exact ⟨_, execTwinRetransmitTimer_keeps h⟩
  | twinLinkUp => exact ⟨_, execTwinLinkUp_keeps h⟩
  | twinLinkDown => exact ⟨_, execTwinLinkDown_keeps h⟩
  | heartbeatSend => exact ⟨_, execHeartbeatSend_keeps h⟩
  | lampWatchdogExpiry => exact ⟨_, execLampWatchdogExpiry_keeps h⟩
  | linkPathSilent => exact ⟨_, execLinkPathSilent_keeps h⟩
  | lampPathSilent => exact ⟨_, execLampPathSilent_keeps h⟩
  | peerFaultSeen => exact ⟨_, execPeerFaultSeen_keeps h⟩
  | detectExpiry => exact ⟨_, execDetectExpiry_keeps h⟩
  | declare => exact ⟨_, execDeclare_keeps h⟩
  | claimReadbackTimeout => exact ⟨_, execClaimReadbackTimeout_keeps h⟩
  | claimRetry => exact ⟨_, execClaimRetry_keeps h⟩
  | claimHeld => exact ⟨_, execClaimHeld_keeps h⟩
  | adoptionAnnounce => exact ⟨_, execAdoptionAnnounce_keeps h⟩
  | snufInAssert => exact ⟨_, execSnufInAssert_keeps h⟩
  | readFence => exact ⟨_, execReadFence_keeps h⟩
  | snufInDeassert => exact ⟨_, execSnufInDeassert_keeps h⟩
  | fenceLift => exact ⟨_, execFenceLift_keeps h⟩
  | claimBackoffExpiry => exact ⟨_, execClaimBackoffExpiry_keeps h⟩
  | swapGo => exact ⟨_, execSwapGo_keeps h⟩
  | giveback => exact ⟨_, execGiveback_keeps h⟩
  | twinRekey => exact ⟨_, execTwinRekey_keeps h⟩
  | resyncBulkDone => exact ⟨_, execResyncBulkDone_keeps h⟩
  | resyncCatchupPassDone => exact ⟨_, execResyncCatchupPassDone_keeps h⟩
  | resyncCutoverDone => exact ⟨_, execResyncCutoverDone_keeps h⟩
  | fabHello => exact ⟨_, execFabHello_keeps h⟩
  | lsa => exact ⟨_, execLsa_keeps h⟩
  | seg => exact ⟨_, execSeg_keeps h⟩
  | ptpMessage => exact ⟨_, execPtpMessage_keeps h⟩
  | fabKeyph => exact ⟨_, execFabKeyph_keeps h⟩
  | fabRetx => exact ⟨_, execFabRetx_keeps h⟩
  | fwdReq _ _ msgid _ _ _ => exact ⟨_, execFwdReq_keeps (_msgid := msgid) h⟩
  | fwdWrite _ _ msgid _ _ => exact ⟨_, execFwdWrite_keeps (_msgid := msgid) h⟩
  | fwdResp _ _ msgid _ => exact ⟨_, execFwdResp_keeps (_msgid := msgid) h⟩
  | fwdAck _ _ msgid _ => exact ⟨_, execFwdAck_keeps (_msgid := msgid) h⟩
  | segReq => exact ⟨_, execSegReq_keeps h⟩
  | epochRep => exact ⟨_, execEpochRep_keeps h⟩
  | horizon => exact ⟨_, execHorizon_keeps h⟩
  | member => exact ⟨_, execMember_keeps h⟩
  | recover => exact ⟨_, execRecover_keeps h⟩
  | idAsk => exact ⟨_, execIdAsk_keeps h⟩
  | idGrant => exact ⟨_, execIdGrant_keeps h⟩
  | spanTxn => exact ⟨_, execSpanTxn_keeps h⟩
  | spanVote => exact ⟨_, execSpanVote_keeps h⟩
  | reassemblyTimer => exact ⟨_, execReassemblyTimer_keeps h⟩
  | tombstoneExpiry => exact ⟨_, execTombstoneExpiry_keeps h⟩
  | midxQuarantineEnd => exact ⟨_, execMidxQuarantineEnd_keeps h⟩
  | messageRetentionExpiry => exact ⟨_, execMessageRetentionExpiry_keeps h⟩
  | transitTimeout => exact ⟨_, execTransitTimeout_keeps h⟩
  | lsaFloodTimer => exact ⟨_, execLsaFloodTimer_keeps h⟩
  | routeRecomputeDone => exact ⟨_, execRouteRecomputeDone_keeps h⟩
  | fabRetransmitTimer => exact ⟨_, execFabRetransmitTimer_keeps h⟩
  | fabLinkUp => exact ⟨_, execFabLinkUp_keeps h⟩
  | fabLinkDown => exact ⟨_, execFabLinkDown_keeps h⟩
  | fjResendTimer => exact ⟨_, execFjResendTimer_keeps h⟩
  | fjLimitExpiry => exact ⟨_, execFjLimitExpiry_keeps h⟩
  | forwardAtomicTimeout => exact ⟨_, execForwardAtomicTimeout_keeps h⟩
  | expel => exact ⟨_, execExpel_keeps h⟩
  | fabricRekey => exact ⟨_, execFabricRekey_keeps h⟩
  | channelTrainingDone => exact ⟨_, execChannelTrainingDone_keeps h⟩
  | zqCalibrationTimer => exact ⟨_, execZqCalibrationTimer_keeps h⟩
  | dqsTrackingTimer => exact ⟨_, execDqsTrackingTimer_keeps h⟩
  | dimmTempPoll => exact ⟨_, execDimmTempPoll_keeps h⟩
  | refreshDue => exact ⟨_, execRefreshDue_keeps h⟩
  | rfmCount _ _ bank => exact ⟨_, execRfmCount_keeps (_bank := bank) h⟩
  | channelFreeze => exact ⟨_, execChannelFreeze_keeps h⟩
  | freeze => exact ⟨_, execFreeze_keeps h⟩
  | thaw => exact ⟨_, execThaw_keeps h⟩
  | thawComplete => exact ⟨_, execThawComplete_keeps h⟩
  | ceClear => exact ⟨_, execCeClear_keeps h⟩
  | ceLogEntryClear => exact ⟨_, execCeLogEntryClear_keeps h⟩
  | patternGo => exact ⟨_, execPatternGo_keeps h⟩
  | patternDone => exact ⟨_, execPatternDone_keeps h⟩
  | checkerGo => exact ⟨_, execCheckerGo_keeps h⟩
  | channelEvacuationDone => exact ⟨_, execChannelEvacuationDone_keeps h⟩
  | stripeRelayDone => exact ⟨_, execStripeRelayDone_keeps h⟩
  | attentionButtonPress => exact ⟨_, execAttentionButtonPress_keeps h⟩
  | buttonStuck => exact ⟨_, execButtonStuck_keeps h⟩
  | buttonReleased => exact ⟨_, execButtonReleased_keeps h⟩
  | programComplete => exact ⟨_, execProgramComplete_keeps h⟩
  | eraseComplete => exact ⟨_, execEraseComplete_keeps h⟩
  | flashReadComplete => exact ⟨_, execFlashReadComplete_keeps h⟩
  | padTimer => exact ⟨_, execPadTimer_keeps h⟩
  | dieUnresponsive => exact ⟨_, execDieUnresponsive_keeps h⟩
  | moduleInitDone => exact ⟨_, execModuleInitDone_keeps h⟩
  | moduleTempPoll => exact ⟨_, execModuleTempPoll_keeps h⟩
  | moduleEvacuationDone => exact ⟨_, execModuleEvacuationDone_keeps h⟩
  | keyLoad => exact ⟨_, execKeyLoad_keeps h⟩
  | keyErase => exact ⟨_, execKeyErase_keeps h⟩
  | tamper => exact ⟨_, execTamper_keeps h⟩
  | glitch => exact ⟨_, execGlitch_keeps h⟩
  | katTimer => exact ⟨_, execKatTimer_keeps h⟩
  | drbgReady => exact ⟨_, execDrbgReady_keeps h⟩
  | drbgHealthFailure => exact ⟨_, execDrbgHealthFailure_keeps h⟩
  | drbgReseed => exact ⟨_, execDrbgReseed_keeps h⟩
  | cipherJob => exact ⟨_, execCipherJob_keeps h⟩
  | cipherJobTimeout => exact ⟨_, execCipherJobTimeout_keeps h⟩
  | keyLoadBlob => exact ⟨_, execKeyLoadBlob_keeps h⟩
  | doorbellFetch => exact ⟨_, execDoorbellFetch_keeps h⟩
  | doorbellReadComplete => exact ⟨_, execDoorbellReadComplete_keeps h⟩
  | descriptorFetchComplete => exact ⟨_, execDescriptorFetchComplete_keeps h⟩
  | ringKick => exact ⟨_, execRingKick_keeps h⟩
  | regionCreate => exact ⟨_, execRegionCreate_keeps h⟩
  | regionModify => exact ⟨_, execRegionModify_keeps h⟩
  | regionSeal => exact ⟨_, execRegionSeal_keeps h⟩
  | regionKey => exact ⟨_, execRegionKey_keeps h⟩
  | regionGrow => exact ⟨_, execRegionGrow_keeps h⟩
  | regionDestroy => exact ⟨_, execRegionDestroy_keeps h⟩
  | copy => exact ⟨_, execCopy_keeps h⟩
  | fill => exact ⟨_, execFill_keeps h⟩
  | migrateHint => exact ⟨_, execMigrateHint_keeps h⟩
  | pin => exact ⟨_, execPin_keeps h⟩
  | sealNow => exact ⟨_, execSealNow_keeps h⟩
  | scrubRange => exact ⟨_, execScrubRange_keeps h⟩
  | evacuateChannel => exact ⟨_, execEvacuateChannel_keeps h⟩
  | evacuateModule => exact ⟨_, execEvacuateModule_keeps h⟩
  | selftestShort => exact ⟨_, execSelftestShort_keeps h⟩
  | selftestExtended => exact ⟨_, execSelftestExtended_keeps h⟩
  | selftestResume => exact ⟨_, execSelftestResume_keeps h⟩
  | abort => exact ⟨_, execAbort_keeps h⟩
  | flushCmd => exact ⟨_, execFlushCmd_keeps h⟩
  | waitCount => exact ⟨_, execWaitCount_keeps h⟩
  | waitCountTimeout => exact ⟨_, execWaitCountTimeout_keeps h⟩
  | cfgCommit => exact ⟨_, execCfgCommit_keeps h⟩
  | cfgCheckDone => exact ⟨_, execCfgCheckDone_keeps h⟩
  | cfgScheduledApply => exact ⟨_, execCfgScheduledApply_keeps h⟩
  | fwStage => exact ⟨_, execFwStage_keeps h⟩
  | fwActivate => exact ⟨_, execFwActivate_keeps h⟩
  | activationBarrierTimeout => exact ⟨_, execActivationBarrierTimeout_keeps h⟩
  | lanternRotationStep => exact ⟨_, execLanternRotationStep_keeps h⟩
  | fwConfirm => exact ⟨_, execFwConfirm_keeps h⟩
  | logClear => exact ⟨_, execLogClear_keeps h⟩
  | logFetch => exact ⟨_, execLogFetch_keeps h⟩
  | pmcSelect => exact ⟨_, execPmcSelect_keeps h⟩
  | pmcDumpConfig => exact ⟨_, execPmcDumpConfig_keeps h⟩
  | pmcSamplingConfig => exact ⟨_, execPmcSamplingConfig_keeps h⟩
  | softReset => exact ⟨_, execSoftReset_keeps h⟩
  | softResetDrainExpiry => exact ⟨_, execSoftResetDrainExpiry_keeps h⟩
  | pcieLinkDown => exact ⟨_, execPcieLinkDown_keeps h⟩
  | cfgOpen => exact ⟨_, execCfgOpen_keeps h⟩
  | cfgDiscard => exact ⟨_, execCfgDiscard_keeps h⟩
  | cfgGrant => exact ⟨_, execCfgGrant_keeps h⟩
  | registerWrite => exact ⟨_, execRegisterWrite_keeps h⟩
  | entdaa => exact ⟨_, execEntdaa_keeps h⟩
  | rstdaa => exact ⟨_, execRstdaa_keeps h⟩
  | enec => exact ⟨_, execEnec_keeps h⟩
  | disec => exact ⟨_, execDisec_keeps h⟩
  | setmwl => exact ⟨_, execSetmwl_keeps h⟩
  | setmrl => exact ⟨_, execSetmrl_keeps h⟩
  | getpid => exact ⟨_, execGetpid_keeps h⟩
  | getbcr => exact ⟨_, execGetbcr_keeps h⟩
  | getdcr => exact ⟨_, execGetdcr_keeps h⟩
  | getstatus => exact ⟨_, execGetstatus_keeps h⟩
  | getmwl => exact ⟨_, execGetmwl_keeps h⟩
  | getmrl => exact ⟨_, execGetmrl_keeps h⟩
  | rstact => exact ⟨_, execRstact_keeps h⟩
  | hotJoinTimer => exact ⟨_, execHotJoinTimer_keeps h⟩
  | setEndpointId => exact ⟨_, execSetEndpointId_keeps h⟩
  | getEndpointId => exact ⟨_, execGetEndpointId_keeps h⟩
  | getMctpVersionSupport => exact ⟨_, execGetMctpVersionSupport_keeps h⟩
  | getMessageTypeSupport => exact ⟨_, execGetMessageTypeSupport_keeps h⟩
  | getVendorDefinedMessageSupport => exact ⟨_, execGetVendorDefinedMessageSupport_keeps h⟩
  | pldmType0Command => exact ⟨_, execPldmType0Command_keeps h⟩
  | pldmSensorRead => exact ⟨_, execPldmSensorRead_keeps h⟩
  | requestUpdate => exact ⟨_, execRequestUpdate_keeps h⟩
  | pldmFirmwareData => exact ⟨_, execPldmFirmwareData_keeps h⟩
  | verifyComplete => exact ⟨_, execVerifyComplete_keeps h⟩
  | activateFirmware => exact ⟨_, execActivateFirmware_keeps h⟩
  | getReg => exact ⟨_, execGetReg_keeps h⟩
  | getChallenge => exact ⟨_, execGetChallenge_keeps h⟩
  | sbLogFetch => exact ⟨_, execSbLogFetch_keeps h⟩
  | sbLogClear => exact ⟨_, execSbLogClear_keeps h⟩
  | power => exact ⟨_, execPower_keeps h⟩
  | sbDeclare => exact ⟨_, execSbDeclare_keeps h⟩
  | sbEvacuate => exact ⟨_, execSbEvacuate_keeps h⟩
  | sbThaw => exact ⟨_, execSbThaw_keeps h⟩
  | sbCfgOpen => exact ⟨_, execSbCfgOpen_keeps h⟩
  | sbCfgWrite => exact ⟨_, execSbCfgWrite_keeps h⟩
  | sbCfgCommit => exact ⟨_, execSbCfgCommit_keeps h⟩
  | sbCfgDiscard => exact ⟨_, execSbCfgDiscard_keeps h⟩
  | sbFwConfirm => exact ⟨_, execSbFwConfirm_keeps h⟩
  | sbKeyLoadBlob => exact ⟨_, execSbKeyLoadBlob_keeps h⟩
  | fwArm => exact ⟨_, execFwArm_keeps h⟩
  | fwArmExpiry => exact ⟨_, execFwArmExpiry_keeps h⟩
  | mainSideAbsent => exact ⟨_, execMainSideAbsent_keeps h⟩
  | boardOn => exact ⟨_, execBoardOn_keeps h⟩
  | boardOff => exact ⟨_, execBoardOff_keeps h⟩
  | enterBanked => exact ⟨_, execEnterBanked_keeps h⟩
  | leaveBanked => exact ⟨_, execLeaveBanked_keeps h⟩
  | bayOn => exact ⟨_, execBayOn_keeps h⟩
  | bayOff => exact ⟨_, execBayOff_keeps h⟩
  | sequenceSlot => exact ⟨_, execSequenceSlot_keeps h⟩
  | seqAlert => exact ⟨_, execSeqAlert_keeps h⟩
  | housekeepingRound => exact ⟨_, execHousekeepingRound_keeps h⟩
  | paceTimer => exact ⟨_, execPaceTimer_keeps h⟩
  | dimTimer => exact ⟨_, execDimTimer_keeps h⟩
  | shadeTimer => exact ⟨_, execShadeTimer_keeps h⟩
  | bankTimer => exact ⟨_, execBankTimer_keeps h⟩
  | wakeComplete => exact ⟨_, execWakeComplete_keeps h⟩
  | powerDownComplete => exact ⟨_, execPowerDownComplete_keeps h⟩
  | bankedImageDrained => exact ⟨_, execBankedImageDrained_keeps h⟩
  | bankedExitComplete => exact ⟨_, execBankedExitComplete_keeps h⟩
  | avsSetpointReached => exact ⟨_, execAvsSetpointReached_keeps h⟩
  | lastGasp => exact ⟨_, execLastGasp_keeps h⟩
  | eyeMonitor => exact ⟨_, execEyeMonitor_keeps h⟩
  | fecRateExceeded => exact ⟨_, execFecRateExceeded_keeps h⟩
  | laneRetrainTimer => exact ⟨_, execLaneRetrainTimer_keeps h⟩
  | laneGroupRejoin => exact ⟨_, execLaneGroupRejoin_keeps h⟩
  | dramSweep => exact ⟨_, execDramSweep_keeps h⟩
  | planTimer => exact ⟨_, execPlanTimer_keeps h⟩
  | planVoltageRequest => exact ⟨_, execPlanVoltageRequest_keeps h⟩
  | engineMemoryError => exact ⟨_, execEngineMemoryError_keeps h⟩
  | engineWatchdogExpiry => exact ⟨_, execEngineWatchdogExpiry_keeps h⟩
  | spareSubstitutionDone => exact ⟨_, execSpareSubstitutionDone_keeps h⟩
  | confirmWindowExpiry => exact ⟨_, execConfirmWindowExpiry_keeps h⟩
  | rollback => exact ⟨_, execRollback_keeps h⟩
  | lanternRestart => exact ⟨_, execLanternRestart_keeps h⟩
  | pendingClear => exact ⟨_, execPendingClear_keeps h⟩
  | msixUnmask => exact ⟨_, execMsixUnmask_keeps h⟩
  | counterDump => exact ⟨_, execCounterDump_keeps h⟩
  | counterRegionRefresh => exact ⟨_, execCounterRegionRefresh_keeps h⟩
  | bandwidthWindow => exact ⟨_, execBandwidthWindow_keeps h⟩
  | recorderMirrorWrite => exact ⟨_, execRecorderMirrorWrite_keeps h⟩
  | eventWindowRead => exact ⟨_, execEventWindowRead_keeps h⟩
  | hoursTick => exact ⟨_, execHoursTick_keeps h⟩
  | settingsStoreWrite => exact ⟨_, execSettingsStoreWrite_keeps h⟩
  | coldStart => exact ⟨_, execColdStart_keeps h⟩
  | fullReset => exact ⟨_, execFullReset_keeps h⟩
  | firmwareLoaded => exact ⟨_, execFirmwareLoaded_keeps h⟩
  | transportStart => exact ⟨_, execTransportStart_keeps h⟩
  | destinationRetryTimer => exact ⟨_, execDestinationRetryTimer_keeps h⟩
  | halvingSweepDone => exact ⟨_, execHalvingSweepDone_keeps h⟩
  | scrubRangeDone => exact ⟨_, execScrubRangeDone_keeps h⟩
  | selftestDone => exact ⟨_, execSelftestDone_keeps h⟩
  | lanternRestartDone => exact ⟨_, execLanternRestartDone_keeps h⟩
  | resetNRelease => exact ⟨_, execResetNRelease_keeps h⟩
  | powerGoodReturn => exact ⟨_, execPowerGoodReturn_keeps h⟩
  | lampPathHealthy => exact ⟨_, execLampPathHealthy_keeps h⟩
  | i3cPrivateRead => exact ⟨_, execI3cPrivateRead_keeps h⟩
  | homeRunMoveDone => exact ⟨_, execHomeRunMoveDone_keeps h⟩

/-- Any device is sound where no invariant is asked for. -/
theorem Dev.sound_without_invariant (d : Dev) : d.Sound False d.clk := ⟨rfl, False.elim⟩

/-- A step of a machine with commands waiting runs the one at the front (log entry 12). -/
theorem step_of_cons {s : State} {c : Instr} {rest : List Instr} (waits : s.pending = c :: rest) :
    step s = exec c { s with pending := rest } := by simp only [step, waits]

/-- A step of a machine with no command waiting idles (log entry 12). -/
theorem step_of_nil {s : State} (empty : s.pending = []) : step s = .next s := by simp only [step, empty]

/-- Every step answers a next state: the first waiting command has left, and the device is as sound as before at an instant no
earlier. -/
theorem step_keeps {I : Prop} {ck : Nat} {s : State} (h : s.dev.Sound I ck) :
    ∃ t d, step s = .next { pending := s.pending.tail, dev := d } ∧ d.Sound I (max ck t) := by
  rcases waits : s.pending with _ | ⟨c, rest⟩
  · exact ⟨0, s.dev, by rw [step_of_nil waits, List.tail_nil, ← waits], by rwa [Nat.max_zero]⟩
  · obtain ⟨t, d, ran, sound⟩ := exec_keeps (s := { s with pending := rest }) h c
    exact ⟨t, d, (step_of_cons waits).trans ran, sound⟩

/-- A step answers one next state. -/
theorem step_sound {I : Prop} {ck : Nat} {s s' : State} (h : s.dev.Sound I ck) (ran : step s = .next s') :
    ∃ t, s'.dev.Sound I (max ck t) := by
  obtain ⟨t, d, next, sound⟩ := step_keeps h
  obtain rfl := Host.Outcome.next.inj (ran.symm.trans next)
  exact ⟨t, sound⟩

/-- A run of one step more goes on from where the first step leads. -/
theorem run_succ_of_next {M : Host.Core} {s s' : M.State} (n : Nat) (ran : M.step s = .next s') : M.run (n + 1) s = M.run n s' := by
  simp only [Host.Core.run, ran]

/-- Settles O5: with the invariant asked for, soundness is the invariant. -/
theorem stepKeepsInvariant : Obligations.StepKeepsInvariant := by
  intro s s' ok ran
  obtain ⟨_, sound⟩ := step_sound (I := True) ⟨rfl, fun _ => ok⟩ ran
  exact sound.ok trivial

/-- Settles O7: the instant after a step is the later one of the instant before it and the command's own (log entry 9). -/
theorem timeNeverRunsBack : Obligations.TimeNeverRunsBack := by
  intro s s' ran
  obtain ⟨t, sound⟩ := step_sound s.dev.sound_without_invariant ran
  exact sound.clk ▸ Nat.le_max_left s.dev.clk t

/-- Settles O4, by induction on the number of steps: each takes the first waiting command (the queue is the model's choice, log
entry 12). -/
theorem queueDrainsInOrder : Obligations.QueueDrainsInOrder := by
  intro s n
  induction n generalizing s with
  | zero => exact fun _ => ⟨s.dev, rfl⟩
  | succ n ih =>
    intro enough
    obtain ⟨_, d, ran, -⟩ := step_keeps s.dev.sound_without_invariant
    obtain ⟨d', rest⟩ := ih { pending := s.pending.tail, dev := d } (by rw [List.length_tail]; omega)
    exact ⟨d', by rw [run_succ_of_next (M := Sys2Proof.core) n ran, rest, List.drop_tail]⟩

/-- Settles O1. -/
theorem stepRunsFront : Obligations.StepRunsFront := fun _ _ _ => step_of_cons

/-- Settles O2. -/
theorem idleStepKeepsState : Obligations.IdleStepKeepsState := fun _ => step_of_nil

/-- Settles O3. -/
theorem everyCommandAnswers : Obligations.EveryCommandAnswers := by
  intro c s
  obtain ⟨_, d, ran, -⟩ := exec_keeps s.dev.sound_without_invariant c
  exact ⟨d, ran⟩

/-- Settles O6: after reset the memories, the save area, the recorder and the side-band port's queue are empty. -/
theorem resetMeetsInvariant : Obligations.ResetMeetsInvariant where
  mem := ⟨rfl, rfl, fun _ h => absurd h List.not_mem_nil⟩
  recs := ⟨Nat.zero_le _, Nat.zero_le _, Nat.zero_le _⟩
  ibi := Nat.zero_le _

end Sys2Proof.Machine
end

section
/-! Proofs about the rings (R380 to R398, R417, R432): when a fetched command starts, the doorbell page and descriptors, and the
commands that order commands. -/

set_option Elab.async false

namespace Sys2Proof.Machine

/-! ### A command's turn -/

/-- A command that its turn lets act answers the device that its action comes to (R388, R390). -/
theorem State.run_turn {s : State} {t id op : Nat} {d x : Dev} (now : s.dev.tick t = d) {fits : Cmd → Bool} {c : Cmd}
    (turn : d.turnOf id op fits c) {act : Dev → Cmd → Dev} (comes : act (d.begun id c) (d.now_ c) = x) :
    s.run t (fun d => d.startCmd id op fits act) = .next { s with dev := x } :=
  State.run_to now ((Dev.startCmd_of_turn turn act).trans comes)

section
variable {d : Dev} {id op : Nat} {fits : Cmd → Bool} {c : Cmd} (present : d.cmd id = some c)
include present

/-- A command of another opcode, or one that may not start yet, leaves the device as it is (R390). -/
theorem Dev.startCmd_of_not_due (early : c.op ≠ op ∨ fits c = false ∨ d.startable c = false) (act : Dev → Cmd → Dev) :
    d.startCmd id op fits act = d := by
  simp only [Dev.startCmd, present]
  exact if_pos (by simpa only [Bool.not_eq_true] using early)

/-- One that is due is judged by its fields and by Hold before it acts (R388, R401). -/
theorem Dev.startCmd_of_due (own : c.op = op) (fit : fits c = true) (starts : d.startable c = true) (act : Dev → Cmd → Dev) :
    d.startCmd id op fits act = match d.badField c with
      | some i => d.complete c csBadField i
      | none => if d.heldBack c then d.complete c csHeld else act (d.begun id c) (d.now_ c) := by
  simp only [Dev.startCmd, present]
  rw [if_neg (by simp [own, fit, starts])]
  rfl

end

/-- Settles O35: a command that is due has a bad field, is held back, or acts. -/
theorem ringCommandsTakeTheirTurn : Obligations.RingCommandsTakeTheirTurn := by
  intro d id op fits act c
  refine ⟨fun absent => ?absent, fun present early => Dev.startCmd_of_not_due present early act,
    fun i present own fit starts bad => ?bad, fun present own fit starts noBad held => ?held,
    fun turn => Dev.startCmd_of_turn turn act⟩
  case absent => simp only [Dev.startCmd, absent]
  case bad => rw [Dev.startCmd_of_due present own fit starts, bad]
  case held =>
    rw [Dev.startCmd_of_due present own fit starts, noBad]
    exact if_pos held

/-! ### The doorbell page -/

/-- Waking a unit changes no register (R449). -/
theorem Dev.wake_f (d : Dev) (u : Nat) (x : Fld) : (d.wake u).f x = d.f x := by
  unfold Dev.wake
  split <;> rfl

/-- A kick of an awake lantern 15 with rings enabled reads the page (R384). -/
theorem Dev.kick_of_enabled {d : Dev} (awake : d.asleep 15 = false) (enabled : d.on RING_DB_CFG.EN = true) :
    d.kick = d.readDoorbell := by
  rw [Dev.kick, if_neg (Bool.eq_false_iff.mp awake)]
  exact if_pos enabled

/-- A kick of a sleeping lantern 15 with rings disabled only wakes it (R384). -/
theorem Dev.kick_of_disabled {d : Dev} (sleeps : d.asleep 15 = true) (disabled : d.on RING_DB_CFG.EN = false) :
    d.kick = d.wake 15 := by
  rw [Dev.kick, if_pos sleeps]
  exact if_neg (by rw [Dev.on, Dev.wake_f]; exact Bool.eq_false_iff.mp disabled)

/-- A request for descriptors leaves the commands as they are (R385). -/
theorem Dev.fetchRing_cmds (d : Dev) (n : Nat) : (d.fetchRing n).ring.cmds = d.ring.cmds := by
  unfold Dev.fetchRing
  extract_lets k
  split <;> rfl

theorem Dev.fetchRings_cmds (l : List Nat) (d : Dev) : (l.foldl Dev.fetchRing d).ring.cmds = d.ring.cmds := by
  induction l generalizing d with
  | nil => rfl
  | cons n l ih => rw [List.foldl_cons, ih, Dev.fetchRing_cmds]

section
variable {s : State} {t : Nat} {d : Dev} (now : s.dev.tick t = d)
include now

/-- A fetch is due where the core serves, rings are enabled and none is outstanding (R383). -/
theorem exec_doorbellFetch_of_due (serves : d.serves = true) (enabled : d.on RING_DB_CFG.EN = true)
    (idle : d.ring.fetching = false) : exec (.doorbellFetch t) s = .next { s with dev := d.readDoorbell } := by
  change execDoorbellFetch t s = _
  exact State.run_of_free now (by simp [serves, enabled, idle])

/-- A kick acts where the core serves (R384). -/
theorem exec_ringKick_of_serves (serves : d.serves = true) : exec (.ringKick t) s = .next { s with dev := d.kick } := by
  change execRingKick t s = _
  exact State.run_of_due now serves

/-- A core that does not serve takes neither (R383, R384). -/
theorem exec_doorbell_of_dark (dark : d.serves = false) :
    exec (.doorbellFetch t) s = .next { s with dev := d } ∧ exec (.ringKick t) s = .next { s with dev := d } := by
  change execDoorbellFetch t s = _ ∧ execRingKick t s = _
  exact ⟨State.run_of_barred now (.inl (Bool.eq_false_iff.mp dark)), State.run_of_early now (Bool.eq_false_iff.mp dark)⟩

end

/-- Settles O36: each command acts where its guard lets it, and a page read or a descriptor fetch by how it ended. That a good read of
the page shows PCIe up is the model's choice (log entry 41). -/
theorem doorbellAndDescriptors : Obligations.DoorbellAndDescriptors := by
  intro t ring ok tails heads hb descs s
  generalize now : s.dev.tick t = d
  refine ⟨exec_doorbellFetch_of_due now, fun serves awake enabled => ?kick, fun serves sleeps disabled => ?wake,
    exec_doorbell_of_dark now, fun fetching runs => ⟨?failed, ?read⟩, fun k asked => ⟨?error, fun goesOn enabled => ?taken,
    fun late => ?late⟩, fun unasked => ?unasked, ?linkDown, fun due => ?absent, fun early => ?present⟩
  case kick => exact State.next_of_eq (exec_ringKick_of_serves now serves) (Dev.kick_of_enabled awake enabled)
  case wake => exact State.next_of_eq (exec_ringKick_of_serves now serves) (Dev.kick_of_disabled sleeps disabled)
  case failed =>
    change execDoorbellReadComplete t false tails heads hb s = _
    exact State.run_to now ((if_neg (not_or_intro (not_not_intro fetching) (not_not_intro runs))).trans (if_pos Bool.false_ne_true))
  case read =>
    change execDoorbellReadComplete t true tails heads hb s = _
    refine State.run_to now ((if_neg (not_or_intro (not_not_intro fetching) (not_not_intro runs))).trans
      ((if_neg (not_not_intro rfl)).trans ?_))
    rw [Dev.fetchRings_cmds]
  case error =>
    change execDescriptorFetchComplete t ring false descs s = _
    refine State.run_to now ?_
    rw [asked]
    exact if_pos Bool.false_ne_true
  case taken =>
    change execDescriptorFetchComplete t ring true descs s = _
    refine State.run_to now ?_
    rw [asked]
    exact (if_neg (not_not_intro rfl)).trans (if_neg (not_or_intro (Bool.eq_false_iff.mp goesOn) (not_not_intro enabled)))
  case late =>
    change execDescriptorFetchComplete t ring true descs s = _
    refine State.run_to now ?_
    rw [asked]
    exact (if_neg (not_not_intro rfl)).trans (if_pos (late.imp_right Bool.eq_false_iff.mp))
  case unasked =>
    change execDescriptorFetchComplete t ring ok descs s = _
    refine State.run_to now ?_
    simp only [unasked]
  case linkDown =>
    change execPcieLinkDown t s = _
    exact State.run_to now rfl
  case absent =>
    change execMainSideAbsent t s = _
    exact State.run_of_free now (Nat.not_lt.mpr due)
  case present =>
    change execMainSideAbsent t s = _
    exact State.run_of_barred now early

/-! ### Commands that order commands -/

/-- An ABORT whose turn has come (R398, Table 12.9). -/
def Dev.actAbort (d : Dev) (c : Cmd) : Dev :=
  match d.abortTarget c with
  | none => d.complete c csDone (if d.ring.doneTags.contains (c.byte 16 % 64 * 65536 + c.u16 18) then 1 else 2)
  | some x =>
    if ¬ x.running then
      let e : Dev := if d.ring.barrier = some x.id then { d with ring := { d.ring with barrier := none } } else d
      (e.complete x csAborted).complete c csDone 0
    else if abortOps.contains x.op then ((d.stopCmd x).complete c csDone 0).pump
    else d.complete c csDone 1

/-- The condition of a WAIT_COUNT: its ring is enabled, and has completed as many commands as it names (R397). -/
theorem Dev.waitOver_of_waitCount {d : Dev} {x : Cmd} (running : x.running = true) (own : x.sb = false) (op : x.op = ocWait) :
    d.waitOver x =
      if ¬ d.on (RING_SQ_CFG.EN (x.byte 16 % 64)) then some (csRefused, 12)
      else if (d.f (RING_STAT.DONE_CNT (x.byte 16 % 64)) + 2 ^ 32 - x.u32 20) % 2 ^ 32 < 2 ^ 31 then
        some (csDone, d.f (RING_STAT.DONE_CNT (x.byte 16 % 64)))
      else none := by
  rw [Dev.waitOver, if_neg (by simp [running, own]), if_neg (by rw [op]; decide), if_pos op]

section
variable {s : State} {t id : Nat} {d : Dev} {c : Cmd} (now : s.dev.tick t = d)
include now

theorem exec_abort_of_turn (turn : d.turnOf id ocAbort anyCmd c) :
    exec (.abort t id) s = .next { s with dev := (d.begun id c).actAbort (d.now_ c) } := by
  change execAbort t id s = _
  exact State.run_turn now turn rfl

/-- A WAIT_COUNT is judged by its timeout (R397). -/
theorem exec_waitCountTimeout_of_present (present : d.cmd id = some c) :
    exec (.waitCountTimeout t id) s = .next { s with
      dev := if c.op ≠ ocWait ∨ ¬ c.running ∨ c.u32 24 = 0 ∨ d.clk < c.started + c.u32 24 * 1000 then d
        else d.complete c csRefused 11 } := by
  change execWaitCountTimeout t id s = _
  refine State.run_to now ?_
  simp only [present]

end

/-- Settles O37: an ABORT acts by its target, and a wait by its condition and its timeout. That the tags of completed commands are
remembered since reset is the model's choice (log entry 40). -/
theorem orderingCommandsAct : Obligations.OrderingCommandsAct := by
  intro t id c s
  generalize now : s.dev.tick t = d
  refine ⟨fun turn => ⟨fun missing => ?unfound, fun x found => ⟨fun waits free => ?caught, fun waits barrier => ?barrier,
    fun runs abortable => ?stopped, fun runs firm => ?late⟩⟩, fun turn => ?flush, fun turn => ?wait,
    fun present op running => ⟨fun timed late => ?expired, fun goesOn => ?goesOn⟩, fun x running own op => ?condition⟩
  case unfound =>
    refine State.next_of_eq (exec_abort_of_turn now turn) ?_
    simp only [Dev.actAbort, missing]
  case caught =>
    refine State.next_of_eq (exec_abort_of_turn now turn) ?_
    simp only [Dev.actAbort, found]
    rw [if_pos (Bool.eq_false_iff.mp waits), if_neg free]
  case barrier =>
    refine State.next_of_eq (exec_abort_of_turn now turn) ?_
    simp only [Dev.actAbort, found]
    rw [if_pos (Bool.eq_false_iff.mp waits), if_pos barrier]
  case stopped =>
    refine State.next_of_eq (exec_abort_of_turn now turn) ?_
    simp only [Dev.actAbort, found]
    rw [if_neg (not_not_intro runs), if_pos abortable]
  case late =>
    refine State.next_of_eq (exec_abort_of_turn now turn) ?_
    simp only [Dev.actAbort, found]
    rw [if_neg (not_not_intro runs), if_neg (Bool.eq_false_iff.mp firm)]
  case flush =>
    change execFlushCmd t id s = _
    exact State.run_turn now turn rfl
  case wait =>
    change execWaitCount t id s = _
    exact State.run_turn now turn rfl
  case expired =>
    refine State.next_of_eq (exec_waitCountTimeout_of_present now present) (if_neg ?_)
    rintro (other | stands | untimed | early)
    · exact other op
    · exact stands running
    · exact timed untimed
    · exact Nat.not_lt.mpr late early
  case goesOn => exact State.next_of_eq (exec_waitCountTimeout_of_present now present) (if_pos (.inr (.inr goesOn)))
  case condition =>
    rw [Dev.waitOver_of_waitCount running own op]
    refine ⟨fun off => if_pos (Bool.eq_false_iff.mp off), fun on reached => ?_, fun on ahead => ?_⟩
    · rw [if_neg (not_not_intro on), if_pos reached]
    · rw [if_neg (not_not_intro on), if_neg (Nat.not_lt.mpr ahead)]

end Sys2Proof.Machine
end

section
/-! Proofs about the layout of a completion entry and its phase (R386, R388, Table 12.4). -/

set_option Elab.async false

namespace Sys2Proof.Machine

/-- Where a word from bit `i` on is a field of `w` bits under the rest, it has that field at bit `i` and the rest from bit `i + w`
on. -/
theorem field_of_split {e i w x rest : Nat} (split : e / 2 ^ i = x + 2 ^ w * rest) (fits : x < 2 ^ w) :
    e / 2 ^ i % 2 ^ w = x ∧ e / 2 ^ (i + w) = rest := by
  rw [pow_add, ← Nat.div_div_eq_div_mul, split, Nat.add_mul_mod_self_left, Nat.mod_eq_of_lt fits,
    Nat.add_mul_div_left _ _ (Nat.two_pow_pos w), Nat.div_eq_of_lt fits, Nat.zero_add]
  exact ⟨rfl, rfl⟩

/-- The fields of an entry lie side by side in its 128 bits (Table 12.4). -/
theorem Cmd.entry_toNat {c : Cmd} {status : Nat} (ring : c.ring < 64) (tag : c.tag < 65536) (code : status < 256) (r0 r1 : Nat) :
    (c.entry status r0 r1).toNat = r0 % 2 ^ 32 + 2 ^ 32 * (c.tag + 2 ^ 16 * (status + 2 ^ 8 * (0 + 2 ^ 1 * (c.ring % 32 +
      2 ^ 5 * (0 + 2 ^ 2 * (r1 % 2 ^ 63 + 2 ^ 63 * (c.ring / 32))))))) := by
  have whole : c.tag % 2 ^ 16 = c.tag := Nat.mod_eq_of_lt tag
  rw [Cmd.entry, BitVec.toNat_ofNat, whole, Nat.mod_eq_of_lt (by omega)]
  ring

/-- A clear bit shares nothing with its power of two. -/
theorem and_twoPow_eq_zero {e : BitVec 128} {i : Nat} (clear : e.toNat / 2 ^ i % 2 = 0) : e &&& BitVec.twoPow 128 i = 0 := by
  have low : e.getLsbD i = false := by
    rw [← BitVec.testBit_toNat, Nat.testBit_eq_decide_div_mod_eq, clear]
    rfl
  rw [BitVec.and_twoPow, low]
  rfl

/-- A phase of 1 sets the bit that an entry leaves clear (Table 12.4). -/
theorem withPhase_toNat {e : BitVec 128} {p : Nat} (bit : p < 2) (clear : e.toNat / 2 ^ 56 % 2 = 0) :
    (withPhase e p).toNat = e.toNat + p * 2 ^ 56 := by
  have disjoint := and_twoPow_eq_zero clear
  obtain rfl | rfl : p = 0 ∨ p = 1 := by omega
  · rw [withPhase, Nat.zero_mod, Nat.zero_mul, Nat.add_zero]
    exact congrArg BitVec.toNat (BitVec.or_zero ..)
  · calc (withPhase e 1).toNat = (e ||| BitVec.twoPow 128 56).toNat := rfl
      _ = (e + BitVec.twoPow 128 56).toNat := by rw [BitVec.add_eq_or_of_and_eq_zero _ _ disjoint]
      _ = e.toNat + 1 * 2 ^ 56 := BitVec.toNat_add_of_and_eq_zero disjoint

/-- An entry is sent with the phase of its ring (R386). -/
theorem Dev.cqWrite_out (d : Dev) (n : Nat) (e : BitVec 128) :
    (d.cqWrite n e).out = .completion n (withPhase e (d.f (RING_STAT.CQ_PHASE n))) :: d.out := by
  unfold Dev.cqWrite
  extract_lets
  split <;> rfl

/-- Settles O59: each field is split off the fields above it. -/
theorem completionEntryLayout : Obligations.CompletionEntryLayout := by
  refine ⟨fun c status r0 r1 ring tag code => ?_, fun e p => withPhase_toNat, Dev.cqWrite_out, rfl⟩
  have whole := (Nat.div_one _).trans (Cmd.entry_toNat ring tag code r0 r1)
  obtain ⟨result0, fromTag⟩ := field_of_split (i := 0) whole (Nat.mod_lt _ (Nat.two_pow_pos 32))
  obtain ⟨tag, fromStatus⟩ := field_of_split fromTag tag
  obtain ⟨status, fromPhase⟩ := field_of_split fromStatus code
  obtain ⟨phase, fromRing⟩ := field_of_split fromPhase (Nat.two_pow_pos 1)
  obtain ⟨ringLow, fromPad⟩ := field_of_split fromRing (Nat.mod_lt _ (Nat.two_pow_pos 5))
  obtain ⟨pad, fromResult1⟩ := field_of_split fromPad (Nat.two_pow_pos 2)
  obtain ⟨result1, ringHigh⟩ := field_of_split fromResult1 (Nat.mod_lt _ (Nat.two_pow_pos 63))
  exact ⟨(congrArg (· % 2 ^ 32) (Nat.div_one _)).symm.trans result0, tag, status, phase, ringLow, pad, result1, ringHigh⟩

end Sys2Proof.Machine
end

section
/-! Proofs about firmware commands (R401, R428, R476 to R480): staging, activating, confirming and rolling back. -/

set_option Elab.async false

namespace Sys2Proof.Machine

/-! ### Staging -/

/-- What FW_STAGE does once its turn has come (R428, R476). -/
def Dev.actStage (i : Image) (d : Dev) (c : Cmd) : Dev :=
  if d.sbp.update then d.complete c csBusy
  else if d.stageBarred then d.complete c csRefused 10
  else if c.byte 40 % 2 == 1 ∧ ¬ i.verified then (d.stageChunk i (c.byte 40 % 2 == 1)).complete c csRefused 10
  else (d.stageChunk i (c.byte 40 % 2 == 1)).complete c csDone

/-- A chunk that is not the last, or a last one whose image fails, leaves the inactive slot Empty (R476, log entry 47). -/
theorem Dev.stageChunk_of_unfinished {d : Dev} {i : Image} {final : Bool} (h : final = false ∨ i.verified = false) :
    d.stageChunk i final = d.fset (FWM_SLOT.STATE d.fwOther) fwEmpty := by
  rcases h with more | bad
  · exact if_pos (Bool.eq_false_iff.mp more)
  · exact ite_eq_left_iff.mpr fun _ => if_pos (Bool.eq_false_iff.mp bad)

/-- The last chunk of a verified image leaves it Staged (R476). -/
theorem Dev.stageChunk_of_verified {d : Dev} {i : Image} (good : i.verified = true) :
    d.stageChunk i true = (((d.fset (FWM_SLOT.STATE d.fwOther) fwStaged).fset (FWM_SLOT.VERSION d.fwOther) i.version.toNat).fset
      (FWM_SLOT.FMT_LO d.fwOther) i.fmtLo).fset (FWM_SLOT.FMT_HI d.fwOther) i.fmtHi := by
  rw [Dev.stageChunk, if_neg (not_not_intro rfl), if_neg (not_not_intro good)]

section
variable {d : Dev} {c : Cmd} {i : Image} (closed : d.sbp.update = false) (open_ : d.stageBarred = false)
include closed open_

/-- Where nothing bars it, FW_STAGE takes its chunk (R428, R476). -/
theorem Dev.actStage_of_open : d.actStage i c =
    if c.byte 40 % 2 == 1 ∧ ¬ i.verified then (d.stageChunk i (c.byte 40 % 2 == 1)).complete c csRefused 10
    else (d.stageChunk i (c.byte 40 % 2 == 1)).complete c csDone :=
  (if_neg (Bool.eq_false_iff.mp closed)).trans (if_neg (Bool.eq_false_iff.mp open_))

theorem Dev.actStage_of_more (more : c.byte 40 % 2 = 0) :
    d.actStage i c = (d.fset (FWM_SLOT.STATE d.fwOther) fwEmpty).complete c csDone := by
  have notFinal : (c.byte 40 % 2 == 1) = false := by rw [more]; rfl
  rw [Dev.actStage_of_open closed open_, notFinal, Dev.stageChunk_of_unfinished (.inl rfl)]
  exact if_neg (by simp)

theorem Dev.actStage_of_failed (final : c.byte 40 % 2 = 1) (bad : i.verified = false) :
    d.actStage i c = (d.fset (FWM_SLOT.STATE d.fwOther) fwEmpty).complete c csRefused 10 := by
  rw [Dev.actStage_of_open closed open_, Dev.stageChunk_of_unfinished (.inr bad)]
  exact if_pos ⟨beq_iff_eq.mpr final, Bool.eq_false_iff.mp bad⟩

theorem Dev.actStage_of_verified (final : c.byte 40 % 2 = 1) (good : i.verified = true) :
    d.actStage i c = ((((d.fset (FWM_SLOT.STATE d.fwOther) fwStaged).fset (FWM_SLOT.VERSION d.fwOther) i.version.toNat).fset
      (FWM_SLOT.FMT_LO d.fwOther) i.fmtLo).fset (FWM_SLOT.FMT_HI d.fwOther) i.fmtHi).complete c csDone := by
  have isFinal : (c.byte 40 % 2 == 1) = true := beq_iff_eq.mpr final
  rw [Dev.actStage_of_open closed open_, isFinal, Dev.stageChunk_of_verified good]
  exact if_neg fun ⟨_, bad⟩ => bad good

end

/-! ### Activating and rolling back -/

section
variable {s : State} {t id : Nat} {d : Dev} {c : Cmd} (now : s.dev.tick t = d)
include now

theorem exec_fwStage_of_turn {i : Image} (turn : d.turnOf id ocStage anyCmd c) :
    exec (.fwStage t id i) s = .next { s with dev := (d.begun id c).actStage i (d.now_ c) } := by
  change execFwStage t id i s = _
  refine State.run_turn now turn ?_
  simp only [Dev.actStage]

/-- The barrier of an FW_ACTIVATE that has not started ends 10 s after its fetch (R401). -/
theorem exec_activationBarrierTimeout_of_waiting (barrier : d.ring.barrier.bind d.cmd = some c) (waits : c.running = false) :
    exec (.activationBarrierTimeout t) s = .next { s with dev := if d.clk < c.started + 10000000000 then d else
      { d.complete c csRefused 8 with ring := { (d.complete c csRefused 8).ring with barrier := none } } } := by
  change execActivationBarrierTimeout t s = _
  refine State.run_to now ?_
  rw [barrier]
  simp only [waits, Bool.false_eq_true, false_or]

end

/-- An unconfirmed active slot rolls back where nothing turns over already (R480). -/
theorem Dev.startRollback_of_may {d : Dev} (may : d.canRollBack = true) (noRestart : d.fwm.rotating = false)
    (noRollback : d.fwm.rollback = false) :
    d.startRollback = { d.fset FWM_STAT.LANTERNS 0 with
      ring := { d.ring with barrier := some d.ring.nextCmd }
      fwm := { d.fwm with window := none, rollback := true, rotStep := 0, cmdId := none } } :=
  if_neg (by simp [may, noRestart, noRollback])

/-- Settles O41: FW_STAGE is busy, barred or takes its chunk; the other commands act by the slot, the barrier and the window. REFUSED
10 outside the window and the slot Empty until the last chunk are the model's choices (log entry 47). -/
theorem firmwareCommandsAct : Obligations.FirmwareCommandsAct := by
  intro t id i reads c s
  generalize now : s.dev.tick t = d
  refine ⟨fun turn => ⟨fun busy => ?busy, fun closed barred => ?stageBarred, fun closed free => ⟨fun more => ?more,
    fun final bad => ?failed, fun final good => ?staged⟩⟩, fun turn => ⟨fun barred => ?activateBarred, fun free => ?activates⟩,
    fun x barrier waits => ⟨fun late => ?barrierEnds, fun early => ?barrierStands⟩, ?rotates, ?rests,
    fun turn => ⟨fun shut => ?unconfirmed, fun within => ?confirms⟩, fun w window past noRestart noRollback may => ?expires,
    fun w window within => ?windowOpen, fun may noRestart noRollback => ?rollsBack, fun barred => ?illegal⟩
  case busy => exact State.next_of_eq (exec_fwStage_of_turn now turn) (if_pos busy)
  case stageBarred =>
    exact State.next_of_eq (exec_fwStage_of_turn now turn) ((if_neg (Bool.eq_false_iff.mp closed)).trans (if_pos barred))
  case more => exact State.next_of_eq (exec_fwStage_of_turn now turn) (Dev.actStage_of_more closed free more)
  case failed => exact State.next_of_eq (exec_fwStage_of_turn now turn) (Dev.actStage_of_failed closed free final bad)
  case staged => exact State.next_of_eq (exec_fwStage_of_turn now turn) (Dev.actStage_of_verified closed free final good)
  case activateBarred =>
    change execFwActivate t id s = _
    exact State.run_turn now turn (if_pos barred)
  case activates =>
    change execFwActivate t id s = _
    exact State.run_turn now turn (if_neg (Bool.eq_false_iff.mp free))
  case barrierEnds =>
    exact State.next_of_eq (exec_activationBarrierTimeout_of_waiting now barrier waits) (if_neg (Nat.not_lt.mpr late))
  case barrierStands =>
    exact State.next_of_eq (exec_activationBarrierTimeout_of_waiting now barrier waits) (if_pos early)
  case rotates =>
    intro may
    change execLanternRotationStep t reads s = _
    exact State.run_of_due now may
  case rests =>
    intro rests
    change execLanternRotationStep t reads s = _
    exact State.run_of_early now (Bool.eq_false_iff.mp rests)
  case unconfirmed =>
    change execFwConfirm t id s = _
    exact State.run_turn now turn (if_pos (Option.isNone_iff_eq_none.mpr shut))
  case confirms =>
    change execFwConfirm t id s = _
    exact State.run_turn now turn (if_neg (mt Option.isNone_iff_eq_none.mp within))
  case expires =>
    change execConfirmWindowExpiry t s = _
    refine State.run_to now ((if_pos ?_).trans (Dev.startRollback_of_may may noRestart noRollback))
    rw [window, Option.any_some, decide_eq_true past]
  case windowOpen =>
    change execConfirmWindowExpiry t s = _
    refine State.run_to now (if_neg ?_)
    rw [window, Option.any_some, decide_eq_false (Nat.not_le.mpr within)]
    exact Bool.false_ne_true
  case rollsBack =>
    change execRollback t s = _
    exact State.run_to now ((if_pos may).trans (Dev.startRollback_of_may may noRestart noRollback))
  case illegal =>
    change execRollback t s = _
    exact State.run_to now (if_neg (Bool.eq_false_iff.mp barred))

end Sys2Proof.Machine
end

section
/-! Proofs about resets within service (R402, R469, R503 to R515): soft reset, its drain, and a lantern's restart. -/

set_option Elab.async false

namespace Sys2Proof.Machine

/-- A soft reset or a restart is taken while the core runs and no save has begun (R515). -/
theorem Dev.mayReset_iff {d : Dev} : d.mayReset = true ↔ d.coreOn = true ∧ d.dur.saving = false ∧ d.dur.held = false := by
  simp only [Dev.mayReset, Bool.and_eq_true, Bool.not_eq_true', and_assoc]

/-- A second restart comes within one second of the last (R506). -/
def Dev.restartsAgain (d : Dev) (l : Nat) : Bool := (look d.age.lastRestart l).any (fun b => decide (d.clk < b + 1000000000))

theorem Dev.restartsAgain_of_late {d : Dev} {l : Nat}
    (late : ∀ b, look d.age.lastRestart l = some b → b + 1000000000 ≤ d.clk) : d.restartsAgain l = false := by
  rw [Dev.restartsAgain]
  rcases last : look d.age.lastRestart l with _ | b
  · rfl
  · rw [Option.any_some, decide_eq_false (Nat.not_lt.mpr (late b last))]

/-- A drain goes on until every completion is written, for at most 10 ms (R402). -/
theorem Dev.settleDrain_of_draining {d : Dev} {since : Nat} (drains : d.ring.drainAt = some since) :
    d.settleDrain = if d.drainOver ∨ since + 10000000 ≤ d.clk then d.endDrain else d := by
  simp only [Dev.settleDrain, drains]

section
variable {s : State} {t l : Nat} {d : Dev} (now : s.dev.tick t = d)
include now

theorem exec_softResetDrainExpiry (x : Dev) (comes : d.settleDrain = x) :
    exec (.softResetDrainExpiry t) s = .next { s with dev := x } := by
  change execSoftResetDrainExpiry t s = _
  exact State.run_to now comes

/-- A lantern of the sixteen that is not restarting is judged by its last restart (R506). -/
theorem exec_lanternRestart_of_may (may : d.mayReset = true) (known : l < 16) (idle : d.age.restarting.contains l = false) :
    exec (.lanternRestart t l) s = .next { s with dev :=
      (if d.restartsAgain l then (d.workingSlots l).foldl (fun (d : Dev) k => d.removeEngine (9 * l + k) false) d
      else
        let u := ((d.raise (source 0 1) 2 0 3 0).reloadEngines l).restartRole l
        let noted : AgeSt := { u.age with restarting := ins u.age.restarting l, lastRestart := put u.age.lastRestart l u.clk }
        ({ u with age := noted } : Dev).pump) } := by
  change execLanternRestart t l s = _
  exact State.run_of_free now (not_or_intro (not_not_intro may)
    (not_or_intro (Nat.not_le.mpr known) (Bool.eq_false_iff.mp idle)))

/-- The end of a restart lets what waited go on (R506). -/
theorem exec_lanternRestartDone_of_restarting (restarts : d.age.restarting.contains l = true) :
    exec (.lanternRestartDone t l) s =
      let u : Dev := { d with age := { d.age with restarting := rem d.age.restarting l } }
      .next { s with dev := ((if l = 12 then u.showStatus else u).serveReqs.pumpDies).pump } := by
  change execLanternRestartDone t l s = _
  exact State.run_of_free now (not_not_intro restarts)

end

/-- Settles O53: each command acts where it may. What a drain and a restart keep is the model's choice (log entries 56 and 57). -/
theorem resetsWithinServiceAct : Obligations.ResetsWithinServiceAct := by
  intro t l at_ s
  generalize now : s.dev.tick t = d
  dsimp only
  rw [← Dev.mayReset_iff]
  refine ⟨fun may => ?reset, fun barred => ?noReset, fun rests => ?noDrain, fun draining => ⟨fun over_ => ?drained,
    fun stands early => ?drains⟩, fun may known idle => ⟨fun b last early => ?again, fun late => ?restarts⟩, fun barred => ?noRestart,
    fun restarting => ⟨fun other => ?done, fun twin => ?twinDone⟩, fun idle => ?notDone⟩
  case reset =>
    change execSoftReset t s = _
    exact State.run_of_due now may
  case noReset =>
    change execSoftReset t s = _
    exact State.run_of_early now barred
  case noDrain => exact exec_softResetDrainExpiry now d (by simp only [Dev.settleDrain, rests])
  case drained =>
    exact exec_softResetDrainExpiry now _ ((Dev.settleDrain_of_draining draining).trans (if_pos over_))
  case drains =>
    refine exec_softResetDrainExpiry now _ ((Dev.settleDrain_of_draining draining).trans (if_neg ?_))
    exact not_or_intro (Bool.eq_false_iff.mp stands) (Nat.not_le.mpr early)
  case again =>
    refine State.next_of_eq (exec_lanternRestart_of_may now may known idle) (if_pos ?_)
    rw [Dev.restartsAgain, last, Option.any_some, decide_eq_true early]
  case restarts =>
    refine State.next_of_eq (exec_lanternRestart_of_may now may known idle) (if_neg ?_)
    exact Bool.eq_false_iff.mp (Dev.restartsAgain_of_late late)
  case noRestart =>
    change execLanternRestart t l s = _
    exact State.run_of_barred now barred
  case done =>
    refine State.next_of_eq (exec_lanternRestartDone_of_restarting now restarting) ?_
    rw [if_neg other]
  case twinDone =>
    refine State.next_of_eq (exec_lanternRestartDone_of_restarting now restarting) ?_
    rw [if_pos twin]
  case notDone =>
    change execLanternRestartDone t l s = _
    exact State.run_of_barred now (Bool.eq_false_iff.mp idle)

end Sys2Proof.Machine
end

section
/-! Proofs about the judging of side-band messages and vendor requests (R417, R426, R429 to R433, Table 14.3). -/

set_option Elab.async false

namespace Sys2Proof.Machine

/-! ### Messages that do not stand -/

/-- A port without an address takes no message (R424). -/
theorem Dev.mctpIn_of_unaddressed {d : Dev} (unaddressed : d.addressed = false) (pec : Bool) (act : Dev → Dev) :
    d.mctpIn pec act = d :=
  if_pos (Bool.eq_false_iff.mp unaddressed)

theorem Dev.vendorIn_of_unaddressed {d : Dev} (unaddressed : d.addressed = false) (code : Nat) (a : SbReq) (act : Dev → Dev) :
    d.vendorIn code a act = d :=
  Dev.mctpIn_of_unaddressed unaddressed _ _

/-- A packet whose PEC fails is dropped and counted (R426). -/
theorem Dev.mctpIn_of_unsound {d : Dev} (addressed : d.addressed = true) (act : Dev → Dev) :
    d.mctpIn false act = d.finc SBP_CNT.PEC_ERR 1 :=
  (if_neg (not_not_intro addressed)).trans (if_pos Bool.false_ne_true)

/-! ### Requests that stand -/

section
variable {d : Dev} {a : SbReq} (stands : d.stands a.pec) (code : Nat)
include stands

/-- A malformed request is answered 01h (Table 14.3). -/
theorem Dev.vendorIn_of_malformed (bad : a.malformed = true) (act : Dev → Dev) :
    d.vendorIn code a act = d.heard.say code 1 a [] :=
  (Dev.mctpIn_of_stands stands _).trans (if_pos bad)

/-- Without provisioned authorisation an authorised request is answered 83h (R430). -/
theorem Dev.authIn_of_unprovisioned (formed : a.malformed = false) (bare : d.heard.provisioned = false) (act : Dev → Dev) :
    d.authIn code a act = d.heard.say code 0x83 a [] :=
  (Dev.vendorIn_of_stands stands formed code _).trans (if_pos (Bool.eq_false_iff.mp bare))

/-- One whose challenge or tag is wrong fails, its challenge spent (R431, log entry 59). -/
theorem Dev.authIn_of_unproved (formed : a.malformed = false) (provisioned : d.heard.provisioned = true)
    (wrong : d.heard.challengeGood a = false ∨ a.tagOk = false) (act : Dev → Dev) :
    d.authIn code a act = (d.opened a).authFail code a := by
  refine (Dev.vendorIn_of_stands stands formed code _).trans ((if_neg (not_not_intro provisioned)).trans (if_neg ?_))
  rintro ⟨good, tag⟩
  rcases wrong with stale | bad
  · exact Bool.eq_false_iff.mp stale good
  · exact Bool.eq_false_iff.mp bad tag

end

/-- A request that needs lantern 15 is answered 82h while that does not serve (R433). -/
theorem Dev.litIn_of_dark {d : Dev} {a : SbReq} (authed : d.authed a) (dark : (d.opened a).serves = false) (code : Nat)
    (act : Dev → Dev) : d.litIn code a act = (d.opened a).sayDark code a :=
  (Dev.authIn_of_authed authed code _).trans (if_pos (Bool.eq_false_iff.mp dark))

/-- One that needs authority is answered 81h where its sender has none (R417). -/
theorem Dev.ruledIn_of_powerless {d : Dev} {a : SbReq} (lit : d.lit a) (powerless : (d.opened a).f SBP_STAT.AUTHORITY = 0) (code : Nat)
    (act : Dev → Dev) : d.ruledIn code a act = (d.opened a).say code 0x81 a [] :=
  (Dev.litIn_of_lit lit code _).trans (if_pos powerless)

/-- Settles O56: each check in its order. That a wrong tag spends the challenge too is the model's choice (log entry 59). -/
theorem vendorRequestsAreJudged : Obligations.VendorRequestsAreJudged := by
  intro d code a act
  refine ⟨fun unaddressed => ⟨Dev.vendorIn_of_unaddressed unaddressed code a _, Dev.vendorIn_of_unaddressed unaddressed code a _⟩,
    fun addressed unsound => ?unsound, fun stands => ⟨fun bad => ⟨Dev.vendorIn_of_malformed stands code bad _,
    Dev.vendorIn_of_malformed stands code bad _⟩, fun formed => Dev.vendorIn_of_stands stands formed code act,
    fun formed bare => Dev.authIn_of_unprovisioned stands code formed bare act,
    fun formed provisioned wrong => Dev.authIn_of_unproved stands code formed provisioned wrong act⟩,
    fun authed => ⟨Dev.authIn_of_authed authed code act, fun dark => Dev.litIn_of_dark authed dark code act,
    fun serves => ⟨Dev.litIn_of_lit ⟨authed, serves⟩ code act,
    fun powerless => Dev.ruledIn_of_powerless ⟨authed, serves⟩ powerless code act,
    fun rules => Dev.ruledIn_of_ruled ⟨⟨authed, serves⟩, rules⟩ code act⟩⟩⟩
  rw [Dev.vendorIn, unsound]
  exact Dev.mctpIn_of_unsound addressed _

end Sys2Proof.Machine
end

section
/-! Proofs about the configuration transaction and the settings store (R408 to R421). -/

set_option Elab.async false

namespace Sys2Proof.Machine

/-! ### The host's registers (R408, R409, R417, R418) -/

/-- OPEN outside Closed is illegal (R408). -/
theorem Dev.hostOpen_of_open {d : Dev} (opened : d.f CFX_CTL.STATE ≠ 0) : d.hostOpen = d.illegal 7 CFX_CTL.OPEN.place :=
  if_pos opened

/-- OPEN in Closed opens a transaction of the host (R408). -/
theorem Dev.hostOpen_of_closed {d : Dev} (closed : d.f CFX_CTL.STATE = 0) : d.hostOpen = d.openCfx holderHost :=
  if_neg (not_not_intro closed)

/-- A grant that is withdrawn drops the side-band manager's bank (R418). -/
theorem Dev.writeGrant_of_withdrawn {d : Dev} (had : d.on CFX_CTL.GRANT = true) :
    d.writeGrant false = (d.fset CFX_CTL.GRANT 0).setAuthority.dropSideBank :=
  if_pos ⟨had, Bool.false_ne_true⟩

/-- Any other write only sets the authority anew (R417). -/
theorem Dev.writeGrant_of_kept {d : Dev} {on : Bool} (kept : d.on CFX_CTL.GRANT = false ∨ on = true) :
    d.writeGrant on = (d.fset CFX_CTL.GRANT (bit on)).setAuthority := by
  refine if_neg ?_
  rintro ⟨had, off⟩
  rcases kept with had' | on'
  · exact Bool.eq_false_iff.mp had' had
  · exact off on'

/-! ### A commit's turn (R395, R409, R411, R418) -/

section
variable {d : Dev} {c : Cmd}

/-- A bank of the side-band manager holds the commit off. -/
theorem Dev.startCommit_of_side (opened : d.f CFX_CTL.STATE ≠ 0) (side : d.f CFX_CTL.HOLDER = holderSide) :
    d.startCommit c = d.complete c csSideband := if_pos ⟨opened, side⟩

/-- In Closed there is no bank to commit. -/
theorem Dev.startCommit_of_closed (closed : d.f CFX_CTL.STATE = 0) :
    d.startCommit c =
      (((d.fset CFX_RESULT.OUTCOME 2).fset CFX_RESULT.CHECK 1).fset CFX_RESULT.OFFSET 0).complete c csRefused 1 := by
  simp [Dev.startCommit, closed]

section
variable (own : d.f CFX_CTL.HOLDER ≠ holderSide)
include own

theorem Dev.startCommit_of_checking (checks : d.f CFX_CTL.STATE = 2) :
    d.startCommit c = ((d.illegal 5 c.ring).dropCmd c.id).settleWaits d.ring.cmds.length := by
  simp [Dev.startCommit, checks, own]

theorem Dev.startCommit_of_scheduled (scheduled : d.f CFX_CTL.STATE = 3) : d.startCommit c = d.complete c csRefused 9 := by
  simp [Dev.startCommit, scheduled, own]

/-- In Open the commit is accepted, but for one that needs device time that is invalid. -/
theorem Dev.startCommit_of_open (opened : d.f CFX_CTL.STATE = 1) :
    d.startCommit c = if c.byte 16 ≠ 0 ∧ ¬ d.tim.valid then d.complete c csNotReady 2
      else d.acceptCommit (some c.id) (c.byte 16) (c.u64 24) := by
  simp [Dev.startCommit, opened, own]

end

end

section
variable {s : State} {t id : Nat} {d : Dev} (now : s.dev.tick t = d)
include now

theorem exec_cfgCommit_of_turn {c : Cmd} {x : Dev} (turn : d.turnOf id ocCommit anyCmd c)
    (comes : (d.begun id c).startCommit (d.now_ c) = x) : exec (.cfgCommit t id) s = .next { s with dev := x } := by
  change execCfgCommit t id s = _
  exact State.run_turn now turn comes

/-- The checking ends with a refusal, at once, or with a schedule (R410 to R412). -/
theorem exec_cfgCheckDone_of_checking (checking : d.f CFX_CTL.STATE = 2) :
    exec (.cfgCheckDone t) s = .next { s with dev := match d.bankFault with
      | some (k, o) => d.refuseCommit k o
      | none => if d.cfx.when = 0 then d.applyCfx
        else { d.fset CFX_CTL.STATE 3 with cfx := { d.cfx with
          applyAt := if d.cfx.when = 1 then d.cfx.time else d.epochOf d.now * 1000000 } } } := by
  change execCfgCheckDone t s = _
  refine State.run_to now ((if_neg (not_not_intro checking)).trans ?_)
  rfl

end

/-- The settings store is written under the next generation (R420, R421). -/
theorem Dev.writeStore_generation (d : Dev) :
    d.writeStore.f CFX_STORE.GENERATION = (d.f CFX_STORE.GENERATION + 1) % 2 ^ CFX_STORE.GENERATION.width :=
  (Dev.f_fset_ne _ _ (by decide)).trans (Dev.f_fset_self _ _ _)

/-- Settles O38: each register write acts by the state of the bank, and the commit, its checking and its schedule in order. -/
theorem configTransactionsRun : Obligations.ConfigTransactionsRun := by
  intro t id on c s
  generalize now : s.dev.tick t = d
  refine ⟨fun serves => ⟨fun closed => ?opens, fun opened => ?illegal, fun opened host => ?discards, fun other => ?keeps,
    fun kept => ?grants, fun had => ?withdraws⟩, fun turn => ⟨fun opened side => ?side, fun checks own => ?checking,
    fun scheduled own => ?scheduled, fun closed => ?closed, fun opened own => ⟨fun timed invalid => ?untimed, fun may => ?accepted⟩⟩,
    fun checking => ⟨fun k o fault => ?refused, fun sound atOnce => ?applies, fun sound later => ?schedules⟩,
    fun scheduled due => ?due, fun early => ?early, fun dirty => ?writes, fun clean => ?clean⟩
  case opens =>
    change execCfgOpen t s = _
    exact State.run_to now ((if_pos serves).trans (Dev.hostOpen_of_closed closed))
  case illegal =>
    change execCfgOpen t s = _
    exact State.run_to now ((if_pos serves).trans (Dev.hostOpen_of_open opened))
  case discards =>
    change execCfgDiscard t s = _
    exact State.run_to now ((if_pos serves).trans (if_pos ⟨opened, host⟩))
  case keeps =>
    change execCfgDiscard t s = _
    exact State.run_to now ((if_pos serves).trans (if_neg (by tauto)))
  case grants =>
    change execCfgGrant t on s = _
    exact State.run_to now ((if_pos serves).trans (Dev.writeGrant_of_kept kept))
  case withdraws =>
    change execCfgGrant t false s = _
    exact State.run_to now ((if_pos serves).trans (Dev.writeGrant_of_withdrawn had))
  case side => exact exec_cfgCommit_of_turn now turn (Dev.startCommit_of_side opened side)
  case checking => exact exec_cfgCommit_of_turn now turn (Dev.startCommit_of_checking own checks)
  case scheduled => exact exec_cfgCommit_of_turn now turn (Dev.startCommit_of_scheduled own scheduled)
  case closed => exact exec_cfgCommit_of_turn now turn (Dev.startCommit_of_closed closed)
  case untimed =>
    refine exec_cfgCommit_of_turn now turn ((Dev.startCommit_of_open (d := d.begun id c) own opened).trans (if_pos ?_))
    exact ⟨timed, Bool.eq_false_iff.mp invalid⟩
  case accepted =>
    refine exec_cfgCommit_of_turn now turn ((Dev.startCommit_of_open (d := d.begun id c) own opened).trans (if_neg ?_))
    rintro ⟨timed, invalid⟩
    exact may.elim timed invalid
  case refused =>
    refine State.next_of_eq (exec_cfgCheckDone_of_checking now checking) ?_
    rw [fault]
  case applies =>
    refine State.next_of_eq (exec_cfgCheckDone_of_checking now checking) ?_
    rw [sound]
    exact if_pos atOnce
  case schedules =>
    refine State.next_of_eq (exec_cfgCheckDone_of_checking now checking) ?_
    rw [sound]
    exact if_neg later
  case due =>
    change execCfgScheduledApply t s = _
    exact State.run_to now (if_pos ⟨scheduled, due⟩)
  case early =>
    change execCfgScheduledApply t s = _
    refine State.run_to now (if_neg fun ⟨scheduled, due⟩ => ?_)
    exact early.elim (· scheduled) (Nat.not_lt.mpr due)
  case writes =>
    refine ⟨d.writeStore, ?_, Dev.writeStore_generation d, rfl, rfl⟩
    change execSettingsStoreWrite t s = _
    exact State.run_of_due now dirty
  case clean =>
    change execSettingsStoreWrite t s = _
    exact State.run_of_early now (Bool.eq_false_iff.mp clean)

end Sys2Proof.Machine
end

section
/-! Proofs about the side-band bus (R424 to R427, R433, Table 14.1, Table 14.4): I3C common commands, MCTP control, and PLDM types 0
and 2. -/

set_option Elab.async false

namespace Sys2Proof.Machine

/-- A port with an address answers a directed common command (Table 14.1). -/
theorem Dev.i3cSay_of_addressed {d : Dev} (addressed : d.addressed = true) (bs : List Byte) : d.i3cSay bs = d.send (.i3c bs) :=
  if_pos addressed

theorem lengthFits_iff {n : Nat} : lengthFits n = true ↔ 69 ≤ n ∧ n ≤ 256 := by
  simp only [lengthFits, Bool.and_eq_true, decide_eq_true_eq]

section
variable {s : State} {t len : Nat} {d : Dev} (now : s.dev.tick t = d)
include now

/-- A message that stands is counted and acts (R426). -/
theorem State.run_mctpIn {pec : Bool} {act : Dev → Dev} {x : Dev} (stands : d.stands pec) (comes : act d.heard = x) :
    s.run t (fun d => d.mctpIn pec act) = .next { s with dev := x } :=
  State.run_to now ((Dev.mctpIn_of_stands stands act).trans comes)

/-- A length from 69 to 256 is accepted (Table 14.1). -/
theorem exec_setLength_of_fits (low : 69 ≤ len) (high : len ≤ 256) :
    exec (.setmwl t len) s = .next { s with dev := { d with sbp := { d.sbp with mwl := len } } } ∧
      exec (.setmrl t len) s = .next { s with dev := { d with sbp := { d.sbp with mrl := len } } } := by
  have fits := lengthFits_iff.mpr ⟨low, high⟩
  change execSetmwl t len s = _ ∧ execSetmrl t len s = _
  exact ⟨State.run_of_due now fits, State.run_of_due now fits⟩

/-- Any other length is not (Table 14.1). -/
theorem exec_setLength_of_misfit (misfit : len < 69 ∨ 256 < len) :
    exec (.setmwl t len) s = .next { s with dev := d } ∧ exec (.setmrl t len) s = .next { s with dev := d } := by
  have bad : ¬ lengthFits len = true := mt lengthFits_iff.mp (by omega)
  change execSetmwl t len s = _ ∧ execSetmrl t len s = _
  exact ⟨State.run_of_early now bad, State.run_of_early now bad⟩

end

/-- Settles O54: an address, a length, the timer's one request, and the message each guard a command. The form of the answers is the
model's choice (log entry 60). -/
theorem sideBandBusActs : Obligations.SideBandBusActs := by
  intro t addr len byte eid mtype code sensor pec body s
  generalize now : s.dev.tick t = d
  refine ⟨fun bare => ?entdaa, fun addressed => ?addressed, ?rstdaa, ⟨fun quiet => ?quiet, fun waits => ?announces⟩, ?disec,
    exec_setLength_of_fits now, exec_setLength_of_misfit now,
    fun addressed => ⟨?getpid, ?getbcr, ?getdcr, ?getstatus, ?getmwl, ?getmrl⟩, ?rstact, fun addressed other => ?nack,
    fun bare unasked => ?joins, fun over_ => ?joined,
    fun stands => ⟨fun low high => ?setEid, ?getEid, fun known => ?version, fun n0 n1 n7E nFF => ?noVersion, ?types, ?vendor, ?type0,
    fun sensor_ => ?sensor⟩, fun addressed => ?unsound, fun bare => ?unaddressed⟩
  case entdaa =>
    change execEntdaa t addr s = _
    exact State.run_of_free now (Bool.eq_false_iff.mp bare)
  case addressed =>
    change execEntdaa t addr s = _
    exact State.run_of_barred now addressed
  case rstdaa =>
    change execRstdaa t s = _
    exact State.run_to now rfl
  case quiet =>
    change execEnec t s = _
    exact State.run_to now (if_pos (List.isEmpty_iff.mpr quiet))
  case announces =>
    change execEnec t s = _
    exact State.run_to now (if_neg (mt List.isEmpty_iff.mp waits))
  case disec =>
    change execDisec t s = _
    exact State.run_to now rfl
  case getpid =>
    change execGetpid t s = _
    exact State.run_to now (Dev.i3cSay_of_addressed addressed _)
  case getbcr =>
    change execGetbcr t s = _
    exact State.run_to now (Dev.i3cSay_of_addressed addressed _)
  case getdcr =>
    change execGetdcr t s = _
    exact State.run_to now (Dev.i3cSay_of_addressed addressed _)
  case getstatus =>
    change execGetstatus t s = _
    exact State.run_to now (Dev.i3cSay_of_addressed addressed _)
  case getmwl =>
    change execGetmwl t s = _
    exact State.run_to now (Dev.i3cSay_of_addressed addressed _)
  case getmrl =>
    change execGetmrl t s = _
    exact State.run_to now (Dev.i3cSay_of_addressed addressed _)
  case rstact =>
    change execRstact t 0 s = _
    exact State.run_to now (if_pos rfl)
  case nack =>
    change execRstact t byte s = _
    exact State.run_to now ((if_neg other).trans (Dev.i3cSay_of_addressed addressed _))
  case joins =>
    change execHotJoinTimer t s = _
    exact State.run_of_free now (not_or_intro (Bool.eq_false_iff.mp bare) (Bool.eq_false_iff.mp unasked))
  case joined =>
    change execHotJoinTimer t s = _
    exact State.run_of_barred now over_
  case setEid =>
    change execSetEndpointId t pec eid s = _
    exact State.run_mctpIn now stands (if_neg (by omega))
  case getEid =>
    change execGetEndpointId t pec s = _
    exact State.run_mctpIn now stands rfl
  case version =>
    change execGetMctpVersionSupport t pec mtype s = _
    exact State.run_mctpIn now stands (if_pos known)
  case noVersion =>
    change execGetMctpVersionSupport t pec mtype s = _
    exact State.run_mctpIn now stands (if_neg (by omega))
  case types =>
    change execGetMessageTypeSupport t pec s = _
    exact State.run_mctpIn now stands rfl
  case vendor =>
    change execGetVendorDefinedMessageSupport t pec s = _
    exact State.run_mctpIn now stands rfl
  case type0 =>
    change execPldmType0Command t pec code body s = _
    exact State.run_mctpIn now stands rfl
  case sensor =>
    change execPldmSensorRead t pec sensor s = _
    refine State.run_mctpIn now stands ?_
    rw [if_neg sensor_]
    rfl
  case unsound =>
    change execGetEndpointId t false s = _
    exact State.run_to now (Dev.mctpIn_of_unsound addressed _)
  case unaddressed =>
    change execGetEndpointId t pec s = _
    exact State.run_to now (Dev.mctpIn_of_unaddressed bare pec _)

end Sys2Proof.Machine
end

section
/-! Proofs about the recorder, pending bits, masked vectors, the event window, notifications and operating hours (R424, R485 to
R495). -/

set_option Elab.async false

namespace Sys2Proof.Machine

section
variable {s : State} {t id : Nat} {d : Dev} (now : s.dev.tick t = d)
include now

/-- LOG_FETCH writes what records there are (R494). -/
theorem exec_logFetch_of_turn {c : Cmd} (turn : d.turnOf id ocLogFetch anyCmd c) :
    let e := d.begun id c
    let a := d.now_ c
    let rs := e.recordsFrom (a.u16 16 % 4096) (a.u16 18 % 8192)
    exec (.logFetch t id) s = .next { s with
      dev := (if rs.isEmpty then e else e.send (.hostWrite a.result (rs.flatMap Record.bytes))).complete a csDone rs.length } := by
  change execLogFetch t id s = _
  exact State.run_turn now turn rfl

/-- Unmasking a vector lets a message held for it leave (R485). -/
theorem exec_msixUnmask (vector : Nat) :
    let e : Dev := { d with
      evt := { d.evt with unmasked := ins d.evt.unmasked vector, pba := rem d.evt.pba vector } }
    exec (.msixUnmask t vector) s = .next { s with
      dev := if d.evt.pba.contains vector then e.send (.msix vector) else e } := by
  change execMsixUnmask t vector s = _
  exact State.run_to now rfl

/-- With a board rail on, a sixteenth of an hour counts (R488). -/
theorem exec_hoursTick_of_on (on : d.pwr.boardOn = true) :
    let u := d.fset EVR_LIFE.HOURS (d.f EVR_LIFE.HOURS + 1)
    let u : Dev := { u with store := { u.store with hours := d.f EVR_LIFE.HOURS + 1 } }
    exec (.hoursTick t) s = .next { s with dev := if u.coreOn then u.countHeat.lifeNow else u } := by
  change execHoursTick t s = _
  exact State.run_of_free now (not_not_intro on)

end

/-- Settles O43: each command acts on what it finds in the recorder, the vector, the window, the queue or the rails. That the life
estimates are brought up to date at each such tick is the model's choice (log entry 48). -/
theorem recorderActs : Obligations.RecorderActs := by
  intro t id group mask vector c s
  generalize now : s.dev.tick t = d
  refine ⟨fun turn => ?clear, fun turn => ⟨fun blank => ?noRecords, fun found => ?records⟩, ?pending, fun held => ?held,
    fun unheld => ?unheld, fun dirty on => ?mirror, fun clean => ?noMirror, fun r shown => ⟨fun auto => ?moves, fun manual => ?stays⟩,
    fun blank => ?blank, fun m r queue => ?read, fun empty => ?noMessage, fun on => ⟨fun core => ?counts, fun dark => ?countsDark⟩,
    fun off => ?off⟩
  case clear =>
    change execLogClear t id s = _
    exact State.run_turn now turn rfl
  case noRecords =>
    refine State.next_of_eq (exec_logFetch_of_turn now turn) ?_
    simp only [blank, List.isEmpty_nil, if_true, List.length_nil]
  case records =>
    refine State.next_of_eq (exec_logFetch_of_turn now turn) ?_
    rw [if_neg (mt List.isEmpty_iff.mp found)]
  case pending =>
    change execPendingClear t group mask s = _
    exact State.run_to now rfl
  case held => exact State.next_of_eq (exec_msixUnmask now vector) (if_pos held)
  case unheld => exact State.next_of_eq (exec_msixUnmask now vector) (if_neg (Bool.eq_false_iff.mp unheld))
  case mirror =>
    change execRecorderMirrorWrite t s = _
    exact State.run_of_due now ⟨Option.isSome_iff_ne_none.mpr dirty, on⟩
  case noMirror =>
    change execRecorderMirrorWrite t s = _
    exact State.run_of_early now fun ⟨dirty, _⟩ => Option.isSome_iff_ne_none.mp dirty clean
  case moves =>
    change execEventWindowRead t s = _
    refine State.run_to now ?_
    rw [shown]
    exact if_pos auto
  case stays =>
    change execEventWindowRead t s = _
    refine State.run_to now ?_
    rw [shown]
    exact if_neg (Bool.eq_false_iff.mp manual)
  case blank =>
    change execEventWindowRead t s = _
    refine State.run_to now ?_
    rw [blank]
  case read =>
    change execI3cPrivateRead t s = _
    refine State.run_to now ?_
    rw [queue]
  case noMessage =>
    change execI3cPrivateRead t s = _
    refine State.run_to now ?_
    rw [empty]
  case counts => exact State.next_of_eq (exec_hoursTick_of_on now on) (if_pos core)
  case countsDark => exact State.next_of_eq (exec_hoursTick_of_on now on) (if_neg (Bool.eq_false_iff.mp dark))
  case off =>
    change execHoursTick t s = _
    exact State.run_of_barred now (Bool.eq_false_iff.mp off)

end Sys2Proof.Machine
end

section
/-! Proofs about performance counters (R496 to R501): selections, dumps, samplers, the counter region and bandwidth windows. -/

set_option Elab.async false

namespace Sys2Proof.Machine

/-- Settles O44: a selection, a dump and a sampler are configured when their turn comes, and each timer acts once its instant has
come. -/
theorem countersAct : Obligations.CountersAct := by
  intro t id c s
  generalize now : s.dev.tick t = d
  refine ⟨fun turn => ?select, fun turn => ⟨fun stop => ?dumpsStop, fun start => ?dumpsStart⟩, fun turn => ?sampler,
    fun runs on due => ?dump, fun early => ?noDump, fun stopped on due => ?refresh, fun early => ?noRefresh, fun on past => ?window,
    fun within => ?noWindow⟩
  case select =>
    change execPmcSelect t id s = _
    exact State.run_turn now turn rfl
  case dumpsStop =>
    change execPmcDumpConfig t id s = _
    exact State.run_turn now turn (congrArg (Dev.complete · (d.now_ c) csDone) (if_pos stop))
  case dumpsStart =>
    change execPmcDumpConfig t id s = _
    exact State.run_turn now turn (congrArg (Dev.complete · (d.now_ c) csDone) (if_neg start))
  case sampler =>
    change execPmcSamplingConfig t id s = _
    exact State.run_turn now turn rfl
  case dump =>
    change execCounterDump t s = _
    exact State.run_to now (if_neg (not_or_intro runs (not_or_intro (not_not_intro on) (Nat.not_le.mpr due))))
  case noDump =>
    change execCounterDump t s = _
    exact State.run_to now (if_pos (early.imp_right (Or.imp_left Bool.eq_false_iff.mp)))
  case refresh =>
    change execCounterRegionRefresh t s = _
    refine State.run_to now (if_neg ?_)
    exact not_or_intro (Bool.eq_false_iff.mp stopped) (not_or_intro (not_not_intro on) (Nat.not_le.mpr due))
  case noRefresh =>
    change execCounterRegionRefresh t s = _
    exact State.run_to now (if_pos (early.imp_right (Or.imp_left Bool.eq_false_iff.mp)))
  case window =>
    change execBandwidthWindow t s = _
    exact State.run_to now (if_neg (not_or_intro (not_not_intro on) (Nat.not_lt.mpr past)))
  case noWindow =>
    change execBandwidthWindow t s = _
    exact State.run_to now (if_pos (.inr within))

end Sys2Proof.Machine
end

section
/-! Proofs about the operations of `PWR_CTL` (R439, R440, R444, R451 to R453). -/

set_option Elab.async false

namespace Sys2Proof.Machine

/-! ### What each operation does -/

section
variable {d : Dev} {r : PwrReq}

theorem Dev.powerReq_of_boardOn (op : r.op = 1) : d.powerReq r = d.boardUp r := if_pos op

theorem Dev.powerReq_of_boardOff (op : r.op = 2) : d.powerReq r = d.askBoardOff r :=
  (if_neg (by omega)).trans (if_pos op)

/-- Entry to Banked, where the device is Lit, no save runs and no power-off waits (R451). -/
theorem Dev.powerReq_of_enterBanked (op : r.op = 3) : d.powerReq r =
    if d.coreOn = true ∧ d.f PWR_STATE.DEVICE = devLit ∧ d.dur.saving = false ∧ d.pwr.waitOff = [] then d.enterBank [r]
    else d.answerPwr r (if d.dur.saving then pwrSave else pwrState) := by
  rw [Dev.powerReq, if_neg (by omega), if_neg (by omega), if_pos op]
  simp only [Bool.not_eq_true, List.isEmpty_iff]

/-- The end of Banked, where the device is in it (R452). -/
theorem Dev.powerReq_of_leaveBanked (op : r.op = 4) : d.powerReq r =
    let u := d.setDevice devLeaving
    if d.f PWR_STATE.DEVICE ≠ devBanked then d.answerPwr r pwrState
    else ({ u with pwr := { u.pwr with bankStep := 4, bankReqs := [r] } } : Dev).askSeq { bay := boardBay, on := true } := by
  rw [Dev.powerReq, if_neg (by omega), if_neg (by omega), if_neg (by omega), if_pos op]

/-- A bay is powered up where its channel or module is Off or Absent (R440). -/
def Dev.bayMayOn (d : Dev) (bay : Nat) : Prop :=
  (bay < 24 ∧ (d.chanState bay = chOff ∨ d.chanState bay = chAbsent)) ∨
    (24 ≤ bay ∧ bay < 44 ∧ (d.f (HTH_MOD_STAT.STATE (bay - 24)) = modOff ∨ d.f (HTH_MOD_STAT.STATE (bay - 24)) = modAbsent))

theorem Dev.powerReq_of_bayOn (op : r.op = 5) (may : d.bayMayOn r.bay) :
    d.powerReq r = d.askSeq { bay := r.bay, on := true, reqs := [r] } := by
  rw [Dev.powerReq, if_neg (by omega), if_neg (by omega), if_neg (by omega), if_neg (by omega), if_pos op]
  exact if_pos may

theorem Dev.powerReq_of_bayOn_barred (op : r.op = 5) (barred : ¬ d.bayMayOn r.bay) : d.powerReq r = d.answerPwr r pwrBay := by
  rw [Dev.powerReq, if_neg (by omega), if_neg (by omega), if_neg (by omega), if_neg (by omega), if_pos op]
  exact if_neg barred

/-- A bay is powered down where its state permits it (R440). -/
theorem Dev.powerReq_of_bayOff (op : r.op = 6) : d.powerReq r =
    if d.bayMayOff r.bay then d.askOff { bay := r.bay, on := false, reqs := [r] } pwrState else d.answerPwr r pwrBay := by
  rw [Dev.powerReq, if_neg (by omega), if_neg (by omega), if_neg (by omega), if_neg (by omega), if_neg (by omega), if_pos op]

/-- Which states permit it: of a channel Empty, Absent or Failed, of a module Empty or Failed (R332, R354). -/
theorem Dev.bayMayOff_iff {bay : Nat} : d.bayMayOff bay = true ↔
    (bay < 24 ∧ (d.chanState bay = chEmpty ∨ d.chanState bay = chAbsent ∨ d.chanState bay = chFailed)) ∨
      (24 ≤ bay ∧ bay < 44 ∧ (d.f (HTH_MOD_STAT.STATE (bay - 24)) = modEmpty ∨ d.f (HTH_MOD_STAT.STATE (bay - 24)) = modFailed)) := by
  unfold Dev.bayMayOff
  split
  case isTrue channel => simp [channel, Nat.not_le.mpr channel]
  case isFalse module => simp [module, Nat.not_lt.mp module]

end

/-! ### How an operation is asked for -/

/-- `PWR_CTL` shows the operation while the core serves (R453). -/
def Dev.showsOp (d : Dev) (op bay : Nat) : Dev :=
  if d.serves then ((d.fset PWR_CTL.OP op).fset PWR_CTL.BAY bay).fset PWR_CTL.BUSY 1 else d

/-- The request for an operation, of the core or of the supervisor itself (R453). -/
def Dev.opAsked (d : Dev) (op bay : Nat) : PwrReq := { op := op, bay := bay, who := if d.serves then 1 else 0 }

/-- While one operation runs, another is illegal (R453). -/
theorem Dev.ctlPower_of_busy {d : Dev} (serves : d.serves = true) (busy : d.on PWR_CTL.BUSY = true) (op bay : Nat) :
    d.ctlPower op bay = d.illegal 7 (PWR_CTL.GO.off / 4) :=
  (if_neg (not_not_intro serves)).trans (if_pos busy)

/-- Otherwise the operation is shown and asked for (R453). -/
theorem Dev.ctlPower_of_free {d : Dev} (free : d.serves = false ∨ d.on PWR_CTL.BUSY = false) (op bay : Nat) :
    d.ctlPower op bay = (d.showsOp op bay).powerReq (d.opAsked op bay) := by
  unfold Dev.ctlPower Dev.showsOp Dev.opAsked
  rcases serves : d.serves
  · rfl
  · have idle := free.resolve_left (by simp [serves])
    simp only [idle, not_true_eq_false, if_false, if_true, Bool.false_eq_true]

/-- Each command asks for its operation. -/
theorem exec_powerOps {s : State} {t : Nat} {d : Dev} (now : s.dev.tick t = d) (bay : Nat) :
    exec (.boardOn t) s = .next { s with dev := d.ctlPower 1 boardBay } ∧
    exec (.boardOff t) s = .next { s with dev := d.ctlPower 2 boardBay } ∧
    exec (.enterBanked t) s = .next { s with dev := d.ctlPower 3 boardBay } ∧
    exec (.leaveBanked t) s = .next { s with dev := d.ctlPower 4 boardBay } ∧
    exec (.bayOn t bay) s = .next { s with dev := d.ctlPower 5 bay } ∧
    exec (.bayOff t bay) s = .next { s with dev := d.ctlPower 6 bay } := by
  subst now
  exact ⟨rfl, rfl, rfl, rfl, rfl, rfl⟩

/-- Settles O49: one operation at a time, and each is asked for or answered at once. -/
theorem powerOperationsAct : Obligations.PowerOperationsAct := by
  intro t bay s
  generalize now : s.dev.tick t = d
  obtain ⟨boardOn, boardOff, enter, leave, bayOn, bayOff⟩ := exec_powerOps now bay
  refine ⟨fun serves busy => ?busy, fun free => ?free⟩
  case busy =>
    have illegal := Dev.ctlPower_of_busy serves busy
    exact ⟨State.next_of_eq boardOn (illegal ..), State.next_of_eq boardOff (illegal ..), State.next_of_eq enter (illegal ..),
      State.next_of_eq leave (illegal ..), State.next_of_eq bayOn (illegal ..), State.next_of_eq bayOff (illegal ..)⟩
  case free =>
    have asked := Dev.ctlPower_of_free free
    have enters := State.next_of_eq enter ((asked 3 boardBay).trans (Dev.powerReq_of_enterBanked rfl))
    have leaves := State.next_of_eq leave ((asked 4 boardBay).trans (Dev.powerReq_of_leaveBanked rfl))
    have bayFalls := State.next_of_eq bayOff ((asked 6 bay).trans (Dev.powerReq_of_bayOff rfl))
    refine ⟨State.next_of_eq boardOn ((asked 1 boardBay).trans (Dev.powerReq_of_boardOn rfl)),
      State.next_of_eq boardOff ((asked 2 boardBay).trans (Dev.powerReq_of_boardOff rfl)),
      ⟨fun may => State.next_of_eq enters (if_pos may), fun barred => State.next_of_eq enters (if_neg barred)⟩,
      ⟨fun other => State.next_of_eq leaves (if_pos other),
        fun banked => State.next_of_eq leaves (if_neg (not_not_intro banked))⟩,
      ⟨fun may => ?bayOn, fun barred => ?noBayOn⟩, ⟨fun may => ?bayOff, fun barred => ?noBayOff⟩⟩
    case bayOn => exact State.next_of_eq bayOn ((asked 5 bay).trans (Dev.powerReq_of_bayOn rfl may))
    case noBayOn => exact State.next_of_eq bayOn ((asked 5 bay).trans (Dev.powerReq_of_bayOn_barred rfl barred))
    case bayOff => exact State.next_of_eq bayFalls (if_pos (Dev.bayMayOff_iff.mpr may))
    case noBayOff => exact State.next_of_eq bayFalls (if_neg (mt Dev.bayMayOff_iff.mp barred))

end Sys2Proof.Machine
end

section
/-! Proofs about the supervisor (R435 to R446, R455, R464, R511, R512, Table 15.1): slot boundaries, alerts, the last gasp, the
regulator's report and attention buttons. -/

set_option Elab.async false

namespace Sys2Proof.Machine

/-! ### Slot boundaries (R436, R439, R444) -/

section
variable {d : Dev} {q : Seq} {agree : Bool} (runs : d.pwr.seq = some q)
include runs

/-- Before its time a boundary does nothing. -/
theorem Dev.slotEdge_of_early (early : d.clk < d.pwr.slotAt + q.slot * 50000) : d.slotEdge agree = d := by
  rw [Dev.slotEdge, runs]
  exact if_pos early

section
variable (due : d.pwr.slotAt + q.slot * 50000 ≤ d.clk)
include due

/-- A boundary that is due turns the sequence, ends it, or begins its next slot. -/
theorem Dev.slotEdge_of_due : d.slotEdge agree =
    let u := (d.send (.seqSync 1)).beginSlot q q.slot
    if q.turn.any (fun b => decide (b ≤ q.slot)) then d.turnSeq q
    else if d.haltSlot q ≤ q.slot ∧ q.turn.isNone then d.endSeq q agree
    else { u with pwr := { u.pwr with seq := some { q with slot := q.slot + 1 } } } := by
  rw [Dev.slotEdge, runs]
  exact if_neg (Nat.not_lt.mpr due)

/-- A turned sequence whose turn has come begins the off sequence (R444). -/
theorem Dev.slotEdge_of_turned {b : Nat} (turned : q.turn = some b) (come : b ≤ q.slot) : d.slotEdge agree = d.turnSeq q := by
  refine (Dev.slotEdge_of_due runs due).trans (if_pos ?_)
  rw [turned, Option.any_some, decide_eq_true come]

/-- One past its halt slot ends with the comparison's result (R439). -/
theorem Dev.slotEdge_of_halt (straight : q.turn = none) (past : d.haltSlot q ≤ q.slot) : d.slotEdge agree = d.endSeq q agree := by
  refine (Dev.slotEdge_of_due runs due).trans ((if_neg ?_).trans (if_pos ⟨past, Option.isNone_iff_eq_none.mpr straight⟩))
  rw [straight, Option.any_none]
  exact Bool.false_ne_true

/-- Any other boundary begins its slot (R436). -/
theorem Dev.slotEdge_of_next (goesOn : (∃ b, q.turn = some b ∧ q.slot < b) ∨ (q.turn = none ∧ q.slot < d.haltSlot q)) :
    d.slotEdge agree =
      let u := (d.send (.seqSync 1)).beginSlot q q.slot
      { u with pwr := { u.pwr with seq := some { q with slot := q.slot + 1 } } } := by
  refine (Dev.slotEdge_of_due runs due).trans ((if_neg ?noTurn).trans (if_neg ?noHalt))
  case noTurn =>
    rcases goesOn with ⟨b, turned, ahead⟩ | ⟨straight, _⟩
    · simpa [turned] using ahead
    · simp [straight]
  case noHalt =>
    rintro ⟨past, straight⟩
    rcases goesOn with ⟨b, turned, _⟩ | ⟨_, ahead⟩
    · simp [turned] at straight
    · exact Nat.not_le.mpr ahead past

end

end

/-! ### Alerts and buttons -/

section
variable {s : State} {t : Nat} {d : Dev} (now : s.dev.tick t = d)
include now

theorem exec_sequenceSlot (agree : Bool) : exec (.sequenceSlot t agree) s = .next { s with dev := d.slotEdge agree } := by
  change execSequenceSlot t agree s = _
  exact State.run_to now rfl

/-- A press that counts is an operation of the bay, or an event (R332, R511). -/
theorem exec_attentionButtonPress_of_armed {bay : Nat} (known : bay < 44) (armed : d.mdw.armed.contains bay = true) :
    let e : Dev := { d with mdw := { d.mdw with armed := rem d.mdw.armed bay, buttons := put d.mdw.buttons bay d.clk } }
    exec (.attentionButtonPress t bay) s = .next { s with
      dev := if e.bayOff bay ∧ e.coreOn then e.powerReq { op := 5, bay := bay, who := 6 } else e.raise (source 1 4) 2 0 bay 0 } := by
  change execAttentionButtonPress t bay s = _
  exact State.run_of_free now (not_or_intro (Nat.not_le.mpr known) (not_not_intro armed))

/-- A release arms a button again, with an event where it was stuck (R511, R512). -/
theorem exec_buttonReleased_of_known {bay : Nat} (known : bay < 44) :
    let e : Dev := { d with mdw := { d.mdw with
      armed := ins d.mdw.armed bay, buttons := del d.mdw.buttons bay, stuck := rem d.mdw.stuck bay } }
    exec (.buttonReleased t bay) s = .next { s with
      dev := if d.mdw.stuck.contains bay then e.raise (source 1 4) 3 0 bay 0 else e } := by
  change execButtonReleased t bay s = _
  exact State.run_of_free now (Nat.not_le.mpr known)

end

/-- Settles O50: a boundary by the sequence that runs, an alert by its status, a button by what it was before. The number of the
button events (log entry 49) and the readings of log entries 51 and 89 are the model's choices. -/
theorem supervisorGoesOn : Obligations.SupervisorGoesOn := by
  intro t slave page status mv cause bay agree codes temps q s
  generalize now : s.dev.tick t = d
  have edge := exec_sequenceSlot now agree
  refine ⟨fun rests => ?rests, fun runs => ⟨fun early => State.next_of_eq edge (Dev.slotEdge_of_early runs early),
    fun due b turned come => State.next_of_eq edge (Dev.slotEdge_of_turned runs due turned come),
    fun due straight past => State.next_of_eq edge (Dev.slotEdge_of_halt runs due straight past),
    fun due goesOn => State.next_of_eq edge (Dev.slotEdge_of_next runs due goesOn)⟩,
    ⟨fun sound => ?alertSound, fun faulty => ?alertFaulty⟩, fun full => ?round, fun short => ?absent, ?lastGasp, ?regulator,
    fun unarmed => ?unarmed, fun known armed => ⟨fun off on => ?powersUp, fun other => ?pressEvent⟩,
    fun since held long fresh => ?stuck, fun unpressed => ?unpressed,
    fun known => ⟨fun stuck => ?releasedStuck, fun free => ?released⟩⟩
  case rests =>
    refine State.next_of_eq edge ?_
    rw [Dev.slotEdge, rests]
  case alertSound =>
    change execSeqAlert t slave page status s = _
    exact State.run_to now (if_pos sound)
  case alertFaulty =>
    change execSeqAlert t slave page status s = _
    exact State.run_to now (if_neg faulty)
  case round =>
    change execHousekeepingRound t codes temps s = _
    exact State.run_to now (if_neg (Nat.not_lt.mpr full))
  case absent =>
    change execHousekeepingRound t codes temps s = _
    exact State.run_to now (if_pos short)
  case lastGasp =>
    change execLastGasp t cause s = _
    exact State.run_to now rfl
  case regulator =>
    change execAvsSetpointReached t mv s = _
    exact State.run_to now rfl
  case unarmed =>
    change execAttentionButtonPress t bay s = _
    exact State.run_of_barred now (unarmed.imp_right Bool.eq_false_iff.mp)
  case powersUp => exact State.next_of_eq (exec_attentionButtonPress_of_armed now known armed) (if_pos ⟨off, on⟩)
  case pressEvent =>
    refine State.next_of_eq (exec_attentionButtonPress_of_armed now known armed) (if_neg fun ⟨off, on⟩ => ?_)
    exact other.elim (Bool.eq_false_iff.mp · off) (Bool.eq_false_iff.mp · on)
  case stuck =>
    change execButtonStuck t bay s = _
    refine State.run_to now ?_
    rw [held]
    exact if_neg (not_or_intro (Nat.not_lt.mpr long) (Bool.eq_false_iff.mp fresh))
  case unpressed =>
    change execButtonStuck t bay s = _
    refine State.run_to now ?_
    rw [unpressed]
  case releasedStuck => exact State.next_of_eq (exec_buttonReleased_of_known now known) (if_pos stuck)
  case released => exact State.next_of_eq (exec_buttonReleased_of_known now known) (if_neg (Bool.eq_false_iff.mp free))

end Sys2Proof.Machine
end

section
/-! Proofs about ageing and repair (R399, R461 to R474): self-tests, lanes, sweeps, plans, engines and their spares. -/

set_option Elab.async false

namespace Sys2Proof.Machine

/-! ### Self-tests (R399) -/

/-- One self-test runs at a time. -/
theorem Dev.startTest_of_busy {d : Dev} {c : Cmd} (busy : d.age.selftest ≠ none) : d.startTest c = d.complete c csRefused 7 :=
  if_pos (Option.isSome_iff_ne_none.mpr busy)

/-- A test that may start becomes the one that runs. -/
theorem Dev.startTest_of_idle {d : Dev} {c : Cmd} (idle : d.age.selftest = none) :
    d.startTest c = { d with age := { d.age with selftest := some c.id, selfPaused := false } } :=
  if_neg (by simp [idle])

/-- The device whose test `c` is over, the engines that passed a short test's memory check back in service (R399, R471). -/
def Dev.tested (d : Dev) (c : Cmd) (item : Nat) : Dev :=
  let u : Dev := { d with age := { d.age with selftest := none, selfPaused := false } }
  let bad (p : Nat) : Bool := item == 131072 + p / 9
  if c.op = ocShort then (u.age.wdOut.filter (fun p => !bad p)).foldl Dev.returnEngine u else u

section
variable {s : State} {t : Nat} {d : Dev} (now : s.dev.tick t = d)
include now

/-- A test's end reports its failing item and completes with it (R399). -/
theorem exec_selftestDone_of_running {c : Cmd} {item : Nat} (running : d.age.selftest.bind d.cmd = some c) (active paused : Nat) :
    exec (.selftestDone t item active paused) s = .next { s with
      dev := ((if item = 0 then d.tested c item else (d.tested c item).failedItem item).raise (source 0 3) 2 0 0xFFFF
        item).complete c csDone item (active * 2 ^ 32 + paused) } := by
  change execSelftestDone t item active paused s = _
  refine State.run_to now ?_
  rw [running]
  rfl

/-! ### Lanes (R461, R473) -/

/-- While lantern 14 runs a measurement is kept and judged (R461, R473). -/
theorem exec_eyeMonitor_of_up {kind lane margin fec : Nat} (up : d.lanternUp 14 = true) :
    let k := kind * 65536 + lane
    let u := d.countEye k margin
    let u : Dev := { u with age := { u.age with fecs := put u.age.fecs k fec } }
    exec (.eyeMonitor t kind lane margin fec) s = .next { s with
      dev := if lookD u.age.lowEyes k 0 < 3 then u
        else ({ u with age := { u.age with lowEyes := del u.age.lowEyes k } } : Dev).laneFails kind lane } := by
  change execEyeMonitor t kind lane margin fec s = _
  exact State.run_of_free now (not_not_intro up)

/-- A removed group rejoins one second after its retraining began (R473). -/
theorem exec_laneGroupRejoin_of_trained {group n : Nat} (removed : d.age.removed.contains group = true)
    (trains : look d.age.retrain group = some n) (late : n + 1000000000 ≤ d.clk) :
    let u : Dev := { d with age := { d.age with removed := rem d.age.removed group, retrain := del d.age.retrain group } }
    exec (.laneGroupRejoin t group) s = .next { s with
      dev := if u.twn.linkUp then
          (u.fset TWN_STAT.WIDTH (u.f TWN_STAT.WIDTH + 8)).raise (source 12 3) 2 0 0xFFFF (u.f TWN_STAT.WIDTH + 8)
        else u } := by
  change execLaneGroupRejoin t group s = _
  exact State.run_of_due now ⟨removed, by rw [trains, Option.any_some, decide_eq_true late]⟩

/-- A group in service neither retrains nor rejoins (R473). -/
theorem exec_group_of_inService {group : Nat} (inService : d.age.removed.contains group = false) :
    exec (.laneRetrainTimer t group) s = .next { s with dev := d } ∧
      exec (.laneGroupRejoin t group) s = .next { s with dev := d } := by
  have stays := Bool.eq_false_iff.mp inService
  change execLaneRetrainTimer t group s = _ ∧ execLaneGroupRejoin t group s = _
  exact ⟨State.run_of_early now stays, State.run_of_early now fun ⟨removed, _⟩ => stays removed⟩

end

/-- Settles O42: each timer, report and command acts under its guard. -/
theorem ageingAndRepairGoOn : Obligations.AgeingAndRepairGoOn := by
  intro t id item active paused kind lane margin fec group ch engine l p q c s
  generalize now : s.dev.tick t = d
  refine ⟨fun turn => ⟨fun busy => ?shortBusy, fun idle => ?short⟩, fun turn => ⟨fun busy => ?extendedBusy, fun idle => ?extended⟩,
    ?resume, fun x running => ⟨fun passed => ?passed, fun failed => ?failed⟩, fun up => ⟨fun few => ?eye, fun third => ?eyeFails⟩,
    fun down => ?noEye, ?fec, fun removed => ⟨?retrain, fun n trains late => ⟨fun linkDown => ?rejoins, fun linkUp => ?widens⟩⟩,
    exec_group_of_inService now, fun online up due => ?sweep, fun up noSave => ?plan, fun formed low unasked soon => ?asks,
    fun noPlan => ?noRise, fun on => ⟨?retires, ?counts⟩, fun on works => ?watchdog, ?substituted⟩
  case shortBusy =>
    change execSelftestShort t id s = _
    exact State.run_turn now turn (Dev.startTest_of_busy busy)
  case short =>
    change execSelftestShort t id s = _
    exact State.run_turn now turn (Dev.startTest_of_idle idle)
  case extendedBusy =>
    change execSelftestExtended t id s = _
    exact State.run_turn now turn (Dev.startTest_of_busy busy)
  case extended =>
    change execSelftestExtended t id s = _
    exact State.run_turn now turn (Dev.startTest_of_idle idle)
  case resume =>
    change execSelftestResume t s = _
    exact State.run_to now rfl
  case passed =>
    refine State.next_of_eq (exec_selftestDone_of_running now running active paused) ?_
    rw [if_pos passed]
    rfl
  case failed =>
    refine State.next_of_eq (exec_selftestDone_of_running now running active paused) ?_
    rw [if_neg failed]
    rfl
  case eye => exact State.next_of_eq (exec_eyeMonitor_of_up now up) (if_pos few)
  case eyeFails => exact State.next_of_eq (exec_eyeMonitor_of_up now up) (if_neg (Nat.not_lt.mpr third))
  case noEye =>
    change execEyeMonitor t kind lane margin fec s = _
    exact State.run_of_barred now (Bool.eq_false_iff.mp down)
  case fec =>
    change execFecRateExceeded t kind lane s = _
    exact State.run_to now rfl
  case retrain =>
    change execLaneRetrainTimer t group s = _
    exact State.run_of_due now removed
  case rejoins =>
    exact State.next_of_eq (exec_laneGroupRejoin_of_trained now removed trains late) (if_neg (Bool.eq_false_iff.mp linkDown))
  case widens => exact State.next_of_eq (exec_laneGroupRejoin_of_trained now removed trains late) (if_pos linkUp)
  case sweep =>
    change execDramSweep t ch s = _
    exact State.run_of_due now ⟨online, up, due⟩
  case plan =>
    change execPlanTimer t p s = _
    exact State.run_of_due now ⟨up, Bool.eq_false_iff.mp noSave⟩
  case asks =>
    change execPlanVoltageRequest t s = _
    refine State.run_to now ?_
    rw [formed]
    exact if_pos ⟨low, Bool.eq_false_iff.mp unasked, soon⟩
  case noRise =>
    change execPlanVoltageRequest t s = _
    refine State.run_to now ?_
    rcases formed : d.age.plan with _ | q
    · rfl
    · have asked := noPlan.resolve_left (by simp [formed])
      exact if_neg fun ⟨_, unasked, _⟩ => unasked asked
  case retires =>
    change execEngineMemoryError t { engine := engine } s = _
    exact State.run_to now ((if_neg (not_not_intro on)).trans (if_neg Bool.false_ne_true))
  case counts =>
    change execEngineMemoryError t { engine := engine, corrected := true } s = _
    exact State.run_to now ((if_neg (not_not_intro on)).trans (if_pos rfl))
  case watchdog =>
    change execEngineWatchdogExpiry t engine s = _
    exact State.run_of_free now (not_or_intro (not_not_intro on) (not_not_intro works))
  case substituted =>
    change execSpareSubstitutionDone t l s = _
    exact State.run_to now rfl

end Sys2Proof.Machine
end

section
/-! Proofs about keys and the alarm (R361 to R378): loads and erasures, blobs, cipher jobs, the random generator and the alarm. -/

set_option Elab.async false

namespace Sys2Proof.Machine

/-! ### Loads and erasures (R363, R364) -/

/-- A device slot, or a slot that a region or link names, takes no load and no erasure (R363). -/
def Dev.keyBar (d : Dev) : Prop := 0xF00 ≤ d.f CPH_KEY_LOAD.SLOT ∨ d.slotBound (d.f CPH_KEY_LOAD.SLOT) = true

/-- The words of a key: eight for a key of usage 1, else four (R364). -/
def Dev.keyWords (d : Dev) : List (BitVec 64) :=
  (List.range (if d.f CPH_KEY_LOAD.USAGE = 1 then 8 else 4)).map (fun i => BitVec.ofNat 64 (d.f (CPH_KEY_DATA.KEY i)))

/-- Clearing `CPH_KEY_DATA` changes nothing of the slots (R364). -/
theorem Dev.clearKeyData_cph (d : Dev) : d.clearKeyData.cph = d.cph := by
  unfold Dev.clearKeyData
  induction List.range 12 generalizing d with
  | nil => rfl
  | cons i l ih => rw [List.foldl_cons, ih, Dev.fset_cph]

section
variable {d : Dev}

theorem Dev.keyLoad_of_bar (bar : d.keyBar) : d.keyLoad = d.illegal 8 (CPH_KEY_LOAD.GO.off / 4) := if_pos bar

theorem Dev.keyErase_of_bar (bar : d.keyBar) : d.keyErase = d.illegal 8 (CPH_KEY_LOAD.GO.off / 4) := if_pos bar

section
variable (free : ¬ d.keyBar)
include free

/-- A load that is not barred clears `CPH_KEY_DATA` and is judged by the alarm and the usage (R361 to R365). -/
theorem Dev.keyLoad_of_free : d.keyLoad =
    let u := d.f CPH_KEY_LOAD.USAGE
    let fl := d.f CPH_KEY_LOAD.FLAGS
    let k := d.clearKeyData
    if d.cph.alarmed then k.fset CPH_KEY_LOAD.RESULT crAlarmed
    else if u < 1 ∨ 4 < u then k.fset CPH_KEY_LOAD.RESULT crKeyUsage
    else (k.fset CPH_KEY_LOAD.RESULT crOk).loadSlot (d.f CPH_KEY_LOAD.SLOT)
      { usage := u, persist := fl % 2 == 1, job := fl / 2 == 1, key := d.keyWords } := by
  refine (if_neg free).trans ?_
  rw [Dev.clearKeyData_cph]
  rfl

/-- An erasure that is not barred takes the slot's blob with it (R363, R421). -/
theorem Dev.keyErase_of_free : d.keyErase =
    let n := d.f CPH_KEY_LOAD.SLOT
    let e := (d.fset CPH_KEY_LOAD.RESULT crOk).eraseSlot n
    let e := if (look d.cph.blobs n).isSome then e.writeStore else e
    if n = e.f SBP_CFG.AUTH_SLOT then e.copyAuth else e := if_neg free

end

/-- GO while no load is in progress takes the register's fields, and its OP acts (R364). -/
theorem Dev.writeKeyLoad_of_go {v : Nat} (go : bitsOf v 63 63 = 1) (idle : d.on CPH_KEY_LOAD.BUSY = false) :
    d.writeKeyLoad v = if bitsOf v 57 56 = 0 then (d.keyFields v).keyLoad
      else if bitsOf v 57 56 = 1 then (d.keyFields v).keyErase else d.keyFields v := by
  simp only [Dev.writeKeyLoad, go, idle, decide_true, Bool.false_eq_true, and_false, not_true_eq_false, if_false]

end

section
variable {s : State} {t v : Nat} {d : Dev} (now : s.dev.tick t = d) (on : d.coreOn = true) (go : bitsOf v 63 63 = 1)
  (idle : d.on CPH_KEY_LOAD.BUSY = false)
include now on go idle

theorem exec_keyLoad_of_go (load : bitsOf v 57 56 = 0) :
    exec (.keyLoad t v) s = .next { s with dev := (d.keyFields v).keyLoad } := by
  change execKeyLoad t v s = _
  exact State.run_to now ((if_pos ⟨on, go, load⟩).trans ((Dev.writeKeyLoad_of_go go idle).trans (if_pos load)))

theorem exec_keyErase_of_go (erase : bitsOf v 57 56 = 1) :
    exec (.keyErase t v) s = .next { s with dev := (d.keyFields v).keyErase } := by
  change execKeyErase t v s = _
  refine State.run_to now ((if_pos ⟨on, go, erase⟩).trans ((Dev.writeKeyLoad_of_go go idle).trans ?_))
  rw [if_neg (by omega), if_pos erase]

end

/-- A blob completes with the code of its unwrapping (R369). -/
theorem Dev.actBlob_eq (b : Blob) (d : Dev) (c : Cmd) : Dev.actBlob b d c =
    if (d.unwrap b).2 = crOk then (d.unwrap b).1.complete c csDone else (d.unwrap b).1.complete c csCipher (d.unwrap b).2 := rfl

/-! ### The alarm (R372, R373) -/

/-- The device whose alarm has latched its cause, erased what it erases, and raised its event (R372). -/
def Dev.struck (d : Dev) (cause : Nat) : Dev := ((d.fset (alarmBit cause) 1).eraseKeys).raise (source 14 0) 6 0 cause 0

/-- In a dark core that is all (R373). -/
theorem Dev.alarm_of_dark {d : Dev} {cause : Nat} (dark : (d.struck cause).coreOn = false) : d.alarm cause = d.struck cause :=
  if_pos (Bool.eq_false_iff.mp dark)

/-- With the core on, jobs are dropped, links go down, ports stop accepting and regions go Offline (R373). -/
theorem Dev.alarm_of_on {d : Dev} {cause : Nat} (on : (d.struck cause).coreOn = true) :
    d.alarm cause =
      let e := (((d.struck cause).dropJobs).setStatus .down).heartbeat
      let f := e.liveLinks.foldl Dev.fabDown (if e.twn.linkUp then e.twinDown else e)
      ((f.fset HPT_CM_CTL.ACCEPT 0).allOffline).pump :=
  if_neg (not_not_intro on)

/-! ### Cipher jobs (R359, R371, R378) -/

/-- A job is refused, or its bytes are moved. -/
def Dev.doJob (src aux : List Byte) (d : Dev) (c : Cmd) : Dev :=
  match d.jobBar c with
  | some code => d.complete c csCipher code
  | none => d.runJob c src aux

section
variable {s : State} {t id : Nat} {d : Dev} {c : Cmd} (now : s.dev.tick t = d)
include now

/-- A job whose turn has come runs, or waits where there is no entropy (R378). -/
theorem exec_cipherJob_of_turn {src aux : List Byte} (turn : d.turnOf id ocJob anyCmd c)
    (new : d.cph.jobs.any (fun j => j.cmdId == id) = false) :
    let e := d.begun id c
    exec (.cipherJob t id src aux) s = .next { s with
      dev := if e.rngUp ∨ (e.jobBar (d.now_ c)).isSome then e.doJob src aux (d.now_ c)
        else { e with cph := { e.cph with jobs := e.cph.jobs ++ [{ cmdId := id, since := e.clk }] } } } := by
  change execCipherJob t id src aux s = _
  exact State.run_to now ((if_neg (Bool.eq_false_iff.mp new)).trans (Dev.startCmd_of_turn turn _))

/-- A job that waits goes on once there is entropy (R378). -/
theorem exec_cipherJob_of_waiting {src aux : List Byte} (waits : d.cph.jobs.any (fun j => j.cmdId == id) = true)
    (present : d.cmd id = some c) :
    let e : Dev := { d with cph := { d.cph with jobs := d.cph.jobs.filter (fun j => j.cmdId != id) } }
    exec (.cipherJob t id src aux) s = .next { s with dev := if ¬ d.rngUp then d else e.doJob src aux c } := by
  change execCipherJob t id src aux s = _
  refine State.run_to now ((if_pos waits).trans ?_)
  rw [present]
  rfl

/-- A job that has waited 100 ms for entropy ends (R378). -/
theorem exec_cipherJobTimeout_of_waiting {j : Job} (waits : d.cph.jobs.find? (fun j => j.cmdId == id) = some j)
    (present : d.cmd id = some c) :
    let e : Dev := { d with cph := { d.cph with jobs := d.cph.jobs.filter (fun j => j.cmdId != id) } }
    exec (.cipherJobTimeout t id) s = .next { s with
      dev := if d.clk < j.since + 100000000 then d else e.complete c csNotReady 1 } := by
  change execCipherJobTimeout t id s = _
  refine State.run_to now ?_
  rw [waits, present]

end

/-- Settles O45: a load and an erasure by their slot, a blob by its unwrapping, the alarm by the core, a job by its bar and the
entropy there is. A load or erasure complete in the command that starts it is the model's choice (log entry 43). -/
theorem keysAndAlarmAct : Obligations.KeysAndAlarmAct := by
  intro t v id src aux b c s
  generalize now : s.dev.tick t = d
  refine ⟨fun on go load idle => ?loads, fun on go erase idle free => ?erases,
    fun turn => ⟨fun good => ?unwraps, fun bad => ?wrapped⟩,
    ⟨fun off => ?tamperOff, fun able dark => ?tamperDark, fun able on => ?tamper, fun dark => ?glitchDark, fun on => ?glitch,
      fun on due => ⟨?passes, ?fails⟩⟩,
    fun idle => ?notReady, fun down may => ?ready, ⟨fun few => ?fewFailures, fun many => ?manyFailures⟩, fun due => ?reseed,
    fun early => ?noReseed, fun turn new => ⟨fun code barred => ?jobBarred, fun free up => ?jobRuns, fun free down => ?jobWaits⟩,
    fun waits present => ⟨fun down => ?waitsOn, fun up free => ?goesOn⟩,
    fun j waits present => ⟨fun early => ?inTime, fun late => ?timesOut⟩⟩
  case loads =>
    have loads := exec_keyLoad_of_go now on go idle load
    refine ⟨fun bar => State.next_of_eq loads (Dev.keyLoad_of_bar bar), fun free alarmed => ?alarmed,
      fun free calm usage => ?usage, fun free calm low high => ?loaded⟩
    all_goals replace loads := State.next_of_eq loads (Dev.keyLoad_of_free free)
    case alarmed => exact State.next_of_eq loads (if_pos alarmed)
    all_goals replace loads := State.next_of_eq loads (if_neg (Bool.eq_false_iff.mp calm))
    case usage => exact State.next_of_eq loads (if_pos usage)
    case loaded => exact State.next_of_eq loads (if_neg (by omega))
  case erases =>
    have erases := State.next_of_eq (exec_keyErase_of_go now on go idle erase) (Dev.keyErase_of_free free)
    refine ⟨fun noBlob => State.next_of_eq erases ?_, fun blob => State.next_of_eq erases ?_⟩
    · simp only [noBlob, Option.isSome_none, Bool.false_eq_true, if_false]
      rfl
    · simp only [Option.isSome_iff_ne_none.mpr blob, if_true]
      rfl
  case unwraps =>
    change execKeyLoadBlob t id b s = _
    exact State.run_turn now turn ((Dev.actBlob_eq ..).trans (if_pos good))
  case wrapped =>
    change execKeyLoadBlob t id b s = _
    exact State.run_turn now turn ((Dev.actBlob_eq ..).trans (if_neg bad))
  case tamperOff =>
    change execTamper t s = _
    exact State.run_of_early now (Bool.eq_false_iff.mp off)
  case tamperDark =>
    change execTamper t s = _
    exact State.run_to now ((if_pos able).trans (Dev.alarm_of_dark dark))
  case tamper =>
    change execTamper t s = _
    exact State.run_to now ((if_pos able).trans (Dev.alarm_of_on on))
  case glitchDark =>
    change execGlitch t s = _
    exact State.run_to now (Dev.alarm_of_dark dark)
  case glitch =>
    change execGlitch t s = _
    exact State.run_to now (Dev.alarm_of_on on)
  case passes =>
    change execKatTimer t true s = _
    exact State.run_of_free now (not_or_intro (not_not_intro on) (Nat.not_lt.mpr due))
  case fails =>
    change execKatTimer t false s = _
    exact State.run_of_free now (not_or_intro (not_not_intro on) (Nat.not_lt.mpr due))
  case notReady =>
    change execDrbgReady t s = _
    exact State.run_of_barred now (idle.imp_right (And.imp_right Bool.eq_false_iff.mp))
  case ready =>
    change execDrbgReady t s = _
    refine State.run_of_free now (not_or_intro (Bool.eq_false_iff.mp down) fun ⟨alarmed, lost⟩ => ?_)
    exact may.elim (Bool.eq_false_iff.mp · alarmed) lost
  case fewFailures =>
    change execDrbgHealthFailure t s = _
    exact State.run_to now (if_neg (Nat.not_le.mpr few))
  case manyFailures =>
    change execDrbgHealthFailure t s = _
    exact State.run_to now (if_pos many)
  case reseed =>
    change execDrbgReseed t s = _
    exact State.run_of_free now (Nat.not_lt.mpr due)
  case noReseed =>
    change execDrbgReseed t s = _
    exact State.run_of_barred now early
  case jobBarred =>
    refine State.next_of_eq (exec_cipherJob_of_turn now turn new) ((if_pos (.inr (by rw [barred]; rfl))).trans ?_)
    simp only [Dev.doJob, barred]
  case jobRuns =>
    refine State.next_of_eq (exec_cipherJob_of_turn now turn new) ((if_pos (.inl up)).trans ?_)
    simp only [Dev.doJob, free]
  case jobWaits =>
    refine State.next_of_eq (exec_cipherJob_of_turn now turn new) (if_neg (not_or_intro (Bool.eq_false_iff.mp down) ?_))
    rw [free]
    exact Bool.false_ne_true
  case waitsOn => exact State.next_of_eq (exec_cipherJob_of_waiting now waits present) (if_pos (Bool.eq_false_iff.mp down))
  case goesOn =>
    refine State.next_of_eq (exec_cipherJob_of_waiting now waits present) ((if_neg (not_not_intro up)).trans ?_)
    simp only [Dev.doJob, free]
  case inTime => exact State.next_of_eq (exec_cipherJobTimeout_of_waiting now waits present) (if_pos early)
  case timesOut => exact State.next_of_eq (exec_cipherJobTimeout_of_waiting now waits present) (if_neg (Nat.not_lt.mpr late))

end Sys2Proof.Machine
end
